-- ==== Sys2Proof/Word.lean ====
section
/-! DEFINITION. Word.lean: the word types of the HX-7256 (spec/00_scope.md R6, 03 R68). -/
namespace Sys2Proof

/-- 8 bits, the unit of memory (R6). -/
abbrev Byte := BitVec 8
/-- An instruction word (03 R71). -/
abbrev Word32 := BitVec 32
/-- A general register, system register or device register (03 R68). -/
abbrev Word := BitVec 64
/-- A SIMD register (03 R68). -/
abbrev VWord := BitVec 256

end Sys2Proof
end

