-- ==== Sys2Proof/Syntax.lean ====
section
/-!
DEFINITION. Syntax.lean: the commands, one constructor per row of spec/opcode_table.json. The table gives no operands:
they are the model's (log entry 4): a unit's number, a register's value, a message, what the environment found, or the
time in ps that has passed since the previous command.
-/
namespace Sys2Proof

/-- A thread (01 R15). -/
abbrev Htid := Fin 2048
/-- A core (R15). -/
abbrev CoreN := Fin 256

/-- A core self-check failure (02 R60, R61): the structure in the numbering of 17 R432, whether it is shared, whether a merge
buffer error was corrected, and the line of an L1 parity error. -/
structure CoreChk where
  unit : Nat
  shared : Bool
  corr : Bool := false
  line : Nat := 0
deriving DecidableEq, Repr

/-- A tile (R15). -/
abbrev TileN := Fin 128
/-- A memory controller (R18). -/
abbrev McN := Fin 16

/-- What a lookup of an L2 or L3 array found (06 R179): `dataCe n`: n bits corrected; `tagCe w`, `tagUe w`: in the tag or state
of way w. -/
inductive ArrErr where
  | none | dataCe (n : Nat) | dataUe | tagCe (w : Fin 16) | tagUe (w : Fin 16) | dirCe | dirUe
deriving DecidableEq, Repr

/-- A lookup of one line, and what it found. -/
structure LineErr where
  line : Nat
  e : ArrErr
deriving DecidableEq, Repr
/-- How an answer to a core comes (02 R52): after so many ns, and what the lookup of the tile's L2 found; for a line; for a thread's access
that the home performs without caching it (07 R192). -/
structure FillAns where
  ns : Nat
  e : ArrErr
deriving DecidableEq, Repr
structure LineAns where
  line : Nat
  ns : Nat
  e : ArrErr
deriving DecidableEq, Repr
structure HomeAns where
  h : Htid
  ns : Nat
  e : ArrErr
deriving DecidableEq, Repr
/-- The pass of an operation over the lines of a way, and of an L2 or slice (06 R178, R182, R184, R185): the keys at which it meets an array
error. -/
structure WayScan where
  w : Fin 16
  errs : List (Nat × ArrErr)
deriving DecidableEq, Repr
structure UnitScan where
  n : TileN
  errs : List (Nat × ArrErr)
deriving DecidableEq, Repr
/-- A fetch (02 R34, R60): its thread, and whether the L1I finds a parity error in the line. -/
structure FetchOp where
  h : Htid
  par : Bool
deriving DecidableEq, Repr

/-- One symbol in error of a DRAM codeword (09 R244): its number and the difference. -/
structure SymErr where
  sym : Fin 80
  x : BitVec 8
deriving DecidableEq, Repr

/-- What a router found in an arriving flit (08 R214 to R218): `crc n`, n attempts over the bridge that failed its CRC and were resent;
`lanes l`, parity errors of lanes of the bridge it crossed. -/
inductive FlitErr where
  | none | payCe | payUe | hdrCe | hdrUe | crc (n : Nat) | lanes (l : List (Fin 68))
deriving DecidableEq, Repr

/-- A Mortar stop, 16y + x (R14). -/
abbrev StopN := Fin 160

/-- The messages of the mesh (08 R226), each carried by one virtual network: coherent requests; IO loads (AI 2, 3 and 4), inbound DMA reads
and AtomicOps, remote loads and atomics toward a link; IO stores and write-combining flushes, TIC_MSI and TIC_IPI writes, inbound DMA
writes, remote stores and write-backs toward a link; snoops and back-invalidations; responses without data and permission grants;
line data; IO completions and the acceptance of AI 2 writes; management. -/
inductive MeshMsg where
  | request
  | ioLoad | dmaRead | dmaAtomic | remoteLoad | remoteAtomic
  | ioStore | wcFlush | ticWrite | dmaWrite | remoteStore | remoteWb
  | snoop | backInval
  | response | permGrant
  | lineData
  | ioCpl | ioAccept
  | mgt
deriving DecidableEq, Repr

/-- A flit as it enters the mesh (08 R211, R226): destination stop and port, its message, the line it carries if any, its 64-bit header and
64-byte payload. -/
structure FlitOp where
  dst : StopN
  port : Fin 3
  msg : MeshMsg
  line : Option Nat
  hdr : BitVec 64 := 0#64
  pay : BitVec 512 := 0#512
deriving DecidableEq, Repr

/-- A Lerlora link (R18). -/
abbrev LkN := Fin 12
/-- A fabric packet: its 16-byte slots, the routing header first (10 R281, 11 R299). -/
abbrev FPkt := List (BitVec 128)

/-- A flit time of a link's nine receive lanes (10 R264, R265): the 256 bits of each physical lane, the first bit lowest. -/
abbrev LaneBits := List (BitVec 256)
/-- The lanes as ALIGN finds them (10 R265, R271): the physical lane of each logical one, and the physical lanes whose polarity is
inverted. -/
structure LaneMap where
  phys : List (Fin 9)
  inv : BitVec 9
deriving DecidableEq, Repr
/-- What the far end's TRAIN flits say (10 R276): its fabric device ID and role. -/
structure TrainMsg where
  id : BitVec 15
  role : BitVec 4
deriving DecidableEq, Repr
/-- A queue of the switches (10 R281): the input (two for each link, then the link stops' from Mortar) and the virtual channel. -/
structure SwitchQ where
  inp : Fin 24
  vc : Fin 6
deriving DecidableEq, Repr
/-- A step of a lane repair (10 R272): this end's receive direction has its new map; the far end begins, or has completed, a repair of this
end's transmit direction. -/
inductive LaneStep where
  | rx | txBegin | tx
deriving DecidableEq, Repr

/-- A CHUNK record of the Tandem log (12 R319). -/
structure ChunkRec where
  gsn : Nat
  htid : Htid
  steps : Nat
  cause : Nat
  arg : Nat
  fault : Nat
  dfl : Nat
  pred : Nat
  drn : Nat
  tCommit : Nat
  value : List Byte
deriving DecidableEq, Repr

/-- An INB record (R320). -/
structure InbRec where
  gsn : Nat
  pred : Nat
  kind : Nat
  nbytes : Nat
  addr : Nat
  atop : Nat
  rm : Nat
  poison : Bool
  source : Nat
  be : Nat
  slot1 : BitVec 128
  ts : Nat
  data : List Byte
deriving DecidableEq, Repr

/-- An OUTMAP record (R321). -/
structure OutmapRec where
  gsn : Nat
  osn : Nat
  cls : Nat
  inb : Bool
  dst : Nat
  epoch : Nat
  seq : Nat
deriving DecidableEq, Repr

/-- A record of the log (R318). -/
inductive LogRec where
  | chunk (c : ChunkRec)
  | inb (r : InbRec)
  | outmap (o : OutmapRec)
  | released (osn : Nat)
  | mark (kind : Nat)
deriving DecidableEq, Repr

/-- A translation unit: 0 to 3 of RC0 to RC3, 4 and 5 of CX0 and CX1 (05 R162). -/
abbrev IotuN := Fin 6
/-- A root complex, one of its root ports, a compression complex, one of its instances (14 R361, 15 R400). -/
abbrev RcN := Fin 4
abbrev PortN := Fin 8
abbrev CxN := Fin 2
abbrev InstN := Fin 257
abbrev QueueN := Fin 1024

/-- A memory request from below a root port (14 R374), at a doubleword address: a read of `dw` doublewords; a write with the
enables of its first and last doubleword, and EP; an AtomicOp: 0 FetchAdd, 1 Swap, 2 CAS, of n bytes. -/
inductive PcieOp where
  | rd (dw : Nat)
  | wr (data : List Byte) (fbe lbe : BitVec 4) (ep : Bool)
  | atom (op n x cmp : Nat)
deriving DecidableEq, Repr
/-- Its requester ID, PASID and Privileged Mode, AT = Translated, address. -/
structure PcieReq where
  rid : BitVec 16
  pasid : Option (BitVec 20)
  priv : Bool
  translated : Bool
  addr : Word
  op : PcieOp
deriving DecidableEq, Repr
/-- How a device answers a request of the root complex (14 R366, R379). -/
inductive Cpl where
  | ok (data : Nat) | ur | ca | crs | ep | timeout
deriving DecidableEq, Repr
/-- An error that a device reports or a root port detects (14 R379): a message of the requester, ERR_COR, ERR_NONFATAL or
ERR_FATAL, or a bit of the port's own AER status. -/
inductive PErr where
  | cor (rid : BitVec 16) | nonfatal (rid : BitVec 16) | fatal (rid : BitVec 16) | ownCor (bit : Fin 32) | ownUncor (bit : Fin 32)
deriving DecidableEq, Repr

/-- What MEMTRAIN finds on a channel (09 R238, 16 R417): an RDIMM of the right width with x4 devices, DIMMs, logical ranks per
DIMM, device density in Gb, the slowest SPD rating in MT/s, whether it trains. -/
structure ChanPop where
  rdimm : Bool
  dimms : Nat
  ranks : Nat
  density : Nat
  speed : Nat
  trains : Bool
deriving DecidableEq, Repr

/-- What a partner sends in the handshake (12 R310): its ID, role (1 captain, 2 stoker), check value, SC_PART_ID, the geometry of its channels;
whether it is already in a captain state. -/
structure TduHello where
  id : BitVec 15
  role : Nat
  check : Word
  part : Word
  geom : List Word
  captain : Bool
deriving DecidableEq, Repr

/-- What a telemetry sample reads (18 R452, R453, R456): the hottest sensor of each tile and of each footing in °C, millivolts and
units of 0.1 A by rail, the rails whose AVSBus frame fails. -/
structure Telem where
  tiles : List Int
  foot0 : Int
  foot1 : Int
  rails : List (Nat × Nat)
  fails : List Nat
deriving DecidableEq, Repr

/-- A journal entry (11 R297): a response's STATUS, DFLAGS and data slots, the request's TAG and TS. -/
structure JEnt where
  seq : Nat
  status : Nat
  dfl : Nat
  data : FPkt
  tag : Nat
  ts : Nat
deriving DecidableEq, Repr

/-- A page that a rejoin copies (12 R341): its number, its poisoned lines, its bytes. -/
structure PageImg where
  page : Nat
  poison : BitVec 64
  data : List Byte
deriving DecidableEq, Repr

/-- A thread of the image of a cut-over (12 R342): its state and the state before a HALT as R57 codes them, registers,
system registers by number, its monitor, the operand and register of a WAITT, FINFO of vectors 32 and 33. -/
structure ThrImg where
  h : Htid
  st : Fin 6
  prior : Fin 6
  g : List Word
  f : List Word
  v : List VWord
  pc : Word
  sr : List (Nat × Word)
  mon : Option Nat
  monWake : Bool
  waitt : Option (Word × Nat)
  fin32 : Word
  fin33 : Word
deriving DecidableEq, Repr

/-- What a stoker receives at a cut-over (12 R342, R331): the last pages, threads, per-core system registers (core, number,
value), registers by DRS offset, request streams (device, NEXT, EPOCH), home streams (device, EXP, EPOCH, journal), MSI-X tables
(complex, key, doubleword). -/
structure PairImg where
  pages : List PageImg
  thrs : List ThrImg
  csr : List (CoreN × Nat × Word)
  regs : List (Nat × Word)
  srcs : List (Nat × Nat × Nat)
  homes : List (Nat × Nat × Nat × List JEnt)
  msix : List (CxN × Nat × BitVec 32)
deriving DecidableEq, Repr

/-- A command: one constructor per row of spec/opcode_table.json. -/
inductive Instr where
  /-- INTEGER_OP (R75): An integer register or immediate instruction (ADD, SUB, logic, shifts, compares, multiply, divide, CRC32C, LDIH, ADDPCH) computes its result into G[rd]. -/
  | integerOp (h : Htid) (chk : Option CoreChk)
  /-- BRANCH (R43): A conditional compare-and-branch stalls its thread's fetch, resolves in EX1, and then either discards the following instructions and fetches the target, or lets them proceed. -/
  | branch (h : Htid)
  /-- BAL (R44): A direct branch and link writes PC + 4 to G[rd], and its target is fetched after one fetch bubble. -/
  | bal (h : Htid)
  /-- BALR (R75): An indirect branch and link computes G[ra] + imm, raises ALIGN if the target is misaligned, links and branches. -/
  | balr (h : Htid)
  /-- LOAD (R76): An integer, floating or SIMD load translates its address, checks its thread's store buffer, and reads from forwarding, L1D, the merge buffer or a miss. -/
  | load (h : Htid) (chk : Option CoreChk)
  /-- STORE (R76): An integer, floating or SIMD store is translated and checked, and then enters its thread's store buffer at WB. -/
  | store (h : Htid)
  /-- FP_OP (R78): A binary floating-point instruction computes its result under IEEE 754-2019, setting flags or trapping as FPCR directs. -/
  | fpOp (h : Htid)
  /-- FMA (R78): A binary fused multiply-add computes with a single rounding by FPCR.BRM. -/
  | fma (h : Htid)
  /-- DEC_OP (R83): A decimal floating-point instruction computes its result with the preferred exponent, setting or trapping DFLAGS. -/
  | decOp (h : Htid)
  /-- VEC_OP (R86): A SIMD instruction, including the AES, SHA-2, carry-less multiply and CRC steps, computes lane-wise into a V register. -/
  | vecOp (h : Htid)
  /-- CAS (R88): An 8-byte compare-and-swap drains its thread's store buffer and is performed single-copy atomically where its attribute index places it. -/
  | cas (h : Htid)
  /-- CAS128 (R88): A 16-byte compare-and-swap of register pairs is performed atomically. -/
  | cas128 (h : Htid)
  /-- AMO (R88): An AMOADD, AMOSWAP, AMOAND, AMOOR, AMOMIN, AMOMAX, AMOMINU or AMOMAXU atomically updates memory and returns the old value. -/
  | amo (h : Htid)
  /-- DAMOADD (R88): An atomic decimal64 add to memory returns the old value, and its flags are ORed into DFLAGS when the response arrives. -/
  | damoadd (h : Htid)
  /-- MFSR (R94): A read of a system register into G[rd], after the ILLEGAL and PRIV checks. -/
  | mfsr (h : Htid)
  /-- MTSR (R94): A serialising write of G[ra] to a system register, which takes effect from the thread's next instruction. -/
  | mtsr (h : Htid)
  /-- SCALL (R120): A system call that takes the fast path through SCE registers, or falls back to vector 16. -/
  | scall (h : Htid)
  /-- HCALL (R90): A call that raises vector 17. -/
  | hcall (h : Htid)
  /-- MCALL (R90): A call that raises vector 18 at M-level. -/
  | mcall (h : Htid)
  /-- SRET (R121): A return from a fast system call through SCR_PC and SCR_PS, with G31 and SCE_SP swapped. -/
  | sret (h : Htid)
  /-- ERET (R113): A return that loads the frame at SP_L and restores PC, PS and G31. -/
  | eret (h : Htid)
  /-- BRK (R90): A breakpoint that raises vector 14 with the BRK itself as the frame PC. -/
  | brk (h : Htid)
  /-- TRAP (R90): TRAP #n raises vector 128 + n, with the next instruction as the frame PC. -/
  | trap (h : Htid)
  /-- PARK (R93): The thread enters PARKED unless a wake condition already holds; completion disarms the monitor. -/
  | park (h : Htid)
  /-- MONITOR (R93): Arms the thread's single address monitor on the line containing G[ra]. -/
  | monitor (h : Htid)
  /-- WAITT (R92): Completes at once if Cadence time has reached G[ra]; otherwise the thread enters TIMEWAIT. -/
  | waitt (h : Htid)
  /-- RDTIME (R92): Reads Cadence time in nanoseconds from the tile replica. -/
  | rdtime (h : Htid)
  /-- HTID (R90): Writes the thread's own HTID to G[rd]. -/
  | htid (h : Htid)
  /-- FENCE (R91): Waits until earlier loads have their values and earlier stores have drained, then discards and refetches the instructions fetched beyond it. -/
  | fence (h : Htid)
  /-- FENCE_IO (R91): A FENCE that also waits for earlier device-posted and write-combining writes to be accepted or sent, flushing the write-combining buffers. -/
  | fenceIo (h : Htid)
  /-- FENCE_G (R91): A FENCE that also waits for acknowledgement of earlier remote writes, remote atomics and remote write-backs. -/
  | fenceG (h : Htid)
  /-- CVA (R96): Cleans the line containing G[ra] to the selected target in every core and tile. -/
  | cva (h : Htid)
  /-- IVA (R96): Invalidates every copy of the line down to the target, discarding dirty data. -/
  | iva (h : Htid)
  /-- CIVA (R96): Cleans and then invalidates the line down to the target. -/
  | civa (h : Htid)
  /-- CSW (R97): Cleans one line named by set and way in the executing core or tile. -/
  | csw (h : Htid)
  /-- ISW (R97): Invalidates one line named by set and way, discarding dirty data. -/
  | isw (h : Htid)
  /-- CISW (R97): Cleans and invalidates one line named by set and way. -/
  | cisw (h : Htid)
  /-- TLBI (R98): Removes matching entries from every core's TLBs and walk caches, and completes when no removed entry remains in use. -/
  | tlbi (h : Htid)
  /-- MOVB (R99): A long resumable byte copy, which proceeds by granules. -/
  | movb (h : Htid)
  /-- FILLB (R99): A long resumable fill of memory with a pattern, which proceeds by granules. -/
  | fillb (h : Htid)
  /-- CMPB (R99): A long resumable byte compare that stops at the first difference. -/
  | cmpb (h : Htid)
  /-- CRCB (R99): A long resumable CRC-32C update over memory, which proceeds by granules. -/
  | crcb (h : Htid)
  /-- GRANULE (R100): One granule of a long resumable instruction completes, and its pointers, count and memory effects are applied whole. -/
  | granule (h : Htid)
  /-- FETCH_BLOCK (R34): The fetch port serves one eligible thread, giving redirects priority and serving round-robin, and fetches an aligned 32-byte block. -/
  | fetchBlock (f : FetchOp)
  /-- STARVATION_PROMOTION (R36): A thread that has been ready and unselected for 64 cycles is treated as level 3 for its next selection. -/
  | starvationPromotion (h : Htid)
  /-- LOAD_REISSUE (R47): A held load becomes selectable again in the cycle after its overlapping entries drain, or after a miss entry frees or an earlier load's value arrives. -/
  | loadReissue (h : Htid)
  /-- FILL_ARRIVAL (R53): A miss fill arrives, its destination register becomes available in the next cycle, and the miss entry frees. -/
  | fillArrival (c : CoreN) (i : Fin 32) (a : FillAns)
  /-- STORE_DRAIN (R49): A thread's oldest ready store buffer entry drains into the merge buffer and L1D, its single point of visibility. -/
  | storeDrain (h : Htid)
  /-- PERMISSION_GRANT (R49): Write permission arrives for a merge buffer line, and the requesting entry may drain. -/
  | permissionGrant (c : CoreN) (g : LineAns)
  /-- MERGE_IDLE_RELEASE (R51): A merge buffer line that has not been written for 256 cycles is written back and released. -/
  | mergeIdleRelease (c : CoreN) (line : Nat) (dt : Nat)
  /-- WC_IDLE_FLUSH (R201): A write-combining buffer that has not been written for 256 cycles is flushed. -/
  | wcIdleFlush (c : CoreN) (line : Nat) (dt : Nat)
  /-- INTERRUPT_TAKE (R128): A pending enabled asynchronous vector is taken at an instruction or granule boundary through the entry sequence. -/
  | interruptTake (h : Htid)
  /-- WAITT_TIME_REACHED (R348): The tile's Cadence replica reaches a WAITT operand, and the thread leaves TIMEWAIT with reason 0. -/
  | waittTimeReached (h : Htid) (dt : Nat)
  /-- TIMER_PENDING (R348): Advancing TIME.NS reaches TCMP.NS and vector 34 becomes pending. -/
  | timerPending (h : Htid) (dt : Nat)
  /-- PMC_WRAP (R66): A PMU counter wraps, sets its overflow bit, and raises vector 37 if OVI is set. -/
  | pmcWrap (h : Htid) (i : Fin 16)
  /-- THREAD_START (R55): CMD = START moves an OFF thread to RUN at M-level at CORE_THR_START. -/
  | threadStart (h : Htid)
  /-- THREAD_HALT (R56): CMD = HALT stops selection at a boundary and begins draining the thread. -/
  | threadHalt (h : Htid)
  /-- HALT_COMPLETE (R56): The halted thread's store buffer has drained, and STATE shows HALTED. -/
  | haltComplete (h : Htid)
  /-- THREAD_RESUME (R55): CMD = RESUME returns a HALTED thread to its prior state and evaluates its wake conditions. -/
  | threadResume (h : Htid)
  /-- THREAD_STOP (R55): CMD = STOP moves a HALTED or FAULTED thread to OFF. -/
  | threadStop (h : Htid)
  /-- TIC_MSI_WRITE (R131): A 4-byte write to TIC_MSI sets a pending external vector, or counts a malformed write in BADMSI. -/
  | ticMsiWrite (h : Htid) (v : Word32)
  /-- TIC_IPI_SEND (R132): A write of 1 to TIC_IPI.SEND makes vector 36 pending on the target thread. -/
  | ticIpiSend (h : Htid)
  /-- TABLE_WALK (R146): A table walk reads entries level by level and installs a TLB entry, or faults or aborts. -/
  | tableWalk (h : Htid)
  /-- IOTU_INV_ALL (R163): IOTU_INV TYPE 0 removes all cached entries, and BUSY is set. -/
  | iotuInvAll (u : IotuN) (v : Word)
  /-- IOTU_INV_SRC (R163): IOTU_INV TYPE 1 removes the entries of one source. -/
  | iotuInvSrc (u : IotuN) (v : Word)
  /-- IOTU_INV_PASID (R163): IOTU_INV TYPE 2 removes the entries of one source and PASID. -/
  | iotuInvPasid (u : IotuN) (v : Word)
  /-- IOTU_INV_PAGE (R163): IOTU_INV TYPE 3 removes the entries of a source, PASID and page. -/
  | iotuInvPage (u : IotuN) (v : Word)
  /-- IOTU_INV_VMID (R163): IOTU_INV TYPE 4 removes the entries of one VMID. -/
  | iotuInvVmid (u : IotuN) (v : Word)
  /-- IOTU_INV_COMPLETE (R163): No matching entry and no walk that read one remains, and any ATS completion has arrived; BUSY clears. -/
  | iotuInvComplete (u : IotuN)
  /-- ATS_INVALIDATE_TIMEOUT (R377): A device's Invalidation Completion does not arrive within PCIE_ATSTO.MS; BUSY clears and ATSERR is set. -/
  | atsInvalidateTimeout (u : IotuN) (dt : Nat)
  /-- IOTU_FQBASE_WRITE (R162): A write to IOTU_FQBASE sets the queue and resets HEAD and TAIL to 0. -/
  | iotuFqbaseWrite (u : IotuN) (v : Word)
  /-- RDSHARED (R188): The home handles a read-shared request, snooping an EXCL holder or supplying the line in E or S. -/
  | rdshared (t : TileN) (line : Nat) (e : ArrErr)
  /-- RDUNIQUE (R188): The home invalidates other copies and grants the line in M or E with data. -/
  | rdunique (t : TileN) (line : Nat) (e : ArrErr)
  /-- UPGRADE (R188): The home invalidates other copies and grants permission without data, or serves the request as RdUnique. -/
  | upgrade (t : TileN) (line : Nat) (e : ArrErr)
  /-- WRBACK (R188): A dirty line is written to its home slice or to DRAM, and the directory is updated. -/
  | wrback (t : TileN) (l : LineErr)
  /-- DROP (R188): A clean L2 victim is reported, and the directory entry is updated. -/
  | drop (t : TileN) (l : LineErr)
  /-- SNOOP (R190): An L2 answers a snoop or back-invalidation with data or with no copy, and the state changes. -/
  | snoop (t : TileN) (line : Nat) (e : ArrErr)
  /-- UNCACHED_HOME_ACCESS (R192): A non-allocating access to DRAM is performed coherently at the home slice. -/
  | uncachedHomeAccess (u : HomeAns)
  /-- WAY_RETIRE_COMPLETE (R182): All lines of a retiring way have been removed; BUSY clears and the event is recorded. -/
  | wayRetireComplete (l3 : Bool) (n : TileN) (w : WayScan)
  /-- WAY_RETIRE_WRITE (R183): Firmware writes a RET bit, which retires the way, or is refused beyond four ways. -/
  | wayRetireWrite (l3 : Bool) (n : TileN) (w : Fin 16) (v : Word)
  /-- L2_CLEAN_ALL (R178): L2_CMD OP 1 cleans every line of the L2. -/
  | l2CleanAll (n : TileN)
  /-- L2_CLEAN_INVALIDATE_ALL (R178): L2_CMD OP 2 cleans and invalidates every line of the L2. -/
  | l2CleanInvalidateAll (n : TileN)
  /-- L3S_CLEAN_ALL (R178): L3S_CMD OP 1 cleans every line of the slice. -/
  | l3sCleanAll (n : TileN)
  /-- L3S_CLEAN_INVALIDATE_ALL (R178): L3S_CMD OP 2 cleans and invalidates every line of the slice. -/
  | l3sCleanInvalidateAll (n : TileN)
  /-- CACHE_CMD_COMPLETE (R178): A whole-cache command has passed every set, and BUSY clears. -/
  | cacheCmdComplete (l3 : Bool) (n : UnitScan)
  /-- CACHE_MODE_WRITE (R176): A write to SC_CACHE_MODE starts a change of NOALLOC, or is refused while BUSY. -/
  | cacheModeWrite (v : Word)
  /-- CACHE_MODE_SETTLED (R176): The mode change has reached every L2 and slice, and BUSY clears. -/
  | cacheModeSettled
  /-- SPARE_RESERVE (R184): Writing SPARE = 1 reserves four ways as the buddy's spare way set and begins emptying them. -/
  | spareReserve (n : TileN)
  /-- SPARE_CLEAR (R184): Writing SPARE = 0 releases the reservation, or is refused while HOSTING = 1. -/
  | spareClear (n : TileN)
  /-- SPARE_READY (R184): The spare way set is empty, and GATE_OK is set. -/
  | spareReady (n : UnitScan)
  /-- SLICE_EVACUATE (R185): Writing EVAC = 1 redirects the slice's fills to the buddy's spare ways and begins removing its lines. -/
  | sliceEvacuate (n : TileN)
  /-- EVACUATION_COMPLETE (R185): The slice's own lines are gone; EVACUATED and HOSTING are set. -/
  | evacuationComplete (n : UnitScan)
  /-- L2_GATE (R225): An L2 with GATE_EN and GATE_OK sends Drop for its lines and powers down. -/
  | l2Gate (n : TileN)
  /-- MESH_FLIT_ARRIVAL (R214): A router checks an arriving flit, corrects or poisons it or fails on a header UE, and forwards it by dimension-order routing. -/
  | meshFlitArrival (stop : StopN) (inp : Fin 7) (f : FlitOp) (e : FlitErr)
  /-- BRIDGE_RETRAIN_COMPLETE (R217): The new lane map is in force, unacknowledged flits are resent and credits flow again. -/
  | bridgeRetrainComplete (stop : StopN) (e : Fin 2)
  /-- CORE_GATE (R220): MESH_CPWR CMD = GATE starts gating a core whose threads are all OFF. -/
  | coreGate (c : CoreN)
  /-- CORE_GATE_COMPLETE (R221): The core's buffers have released and its caches are invalidated; power is removed and PSTATE becomes GATED. -/
  | coreGateComplete (c : CoreN)
  /-- CORE_WAKE (R223): MESH_CPWR CMD = WAKE starts waking a gated core. -/
  | coreWake (c : CoreN)
  /-- CORE_WAKE_COMPLETE (R223): The L2 and core are powered and reset, the ingress gate opens, and the notification is sent. -/
  | coreWakeComplete (c : CoreN)
  /-- STATS_SAMPLE (R234): At a sampling boundary, each statistics block copies its live counts to its snapshot, increments SEQ and clears its counts. -/
  | statsSample (dt : Nat)
  /-- DRAM_READ (R243): A memory controller takes a read request for a line and schedules it on its channel. -/
  | dramRead (i : McN) (line : Nat)
  /-- DRAM_READ_RETURN (R245): The read data is decoded and delivered clean, corrected, or poisoned. -/
  | dramReadReturn (i : McN) (line : Nat) (err : List SymErr)
  /-- DRAM_WRITE (R246): A line is written to DRAM, encoded normally or with the poison signature. -/
  | dramWrite (i : McN) (line : Nat)
  /-- PPR_GO (R254): MC_PPR GO makes the repair of an entry's row due, or is refused with CMD_ERR. -/
  | pprGo (i : McN) (v : Word)
  /-- SPPR_START (R255): A due repair starts after 2 µs of idle queues or 1 s, and the rank is taken out of service. -/
  | spprStart (i : McN) (dt : Nat)
  /-- SPPR_COMPLETE (R255): The sPPR sequence and the write-back of the held lines are done; PPR_DONE or PPR_FAIL is set. -/
  | spprComplete (i : McN) (ok : Bool) (ues : List (Fin 128))
  /-- TRW_START (R256): TRW_CMD OP = START begins a patrol pass, or sets CMD_ERR if busy. -/
  | trwStart (i : McN)
  /-- TRW_ABORT (R256): TRW_CMD OP = ABORT ends the pass at the next line boundary with ABORTED. -/
  | trwAbort (i : McN)
  /-- TROWEL_READ (R258): Trowel issues its next line read when the read queue and rate limit allow. -/
  | trowelRead (i : McN) (dt : Nat)
  /-- TROWEL_LINE_RESULT (R259): A Trowel read is classed, counted, recorded and, in write-back mode, rewritten. -/
  | trowelLineResult (i : McN) (err : List SymErr)
  /-- TROWEL_PASS_END (R262): The pass ends: the summary is written, DONE is set and the interrupt is sent. -/
  | trowelPassEnd (i : McN)
  /-- LINK_ENABLE (R271): LK_CTL CMD = ENABLE moves a link from OFF, DOWN or CFGERR to DETECT. -/
  | linkEnable (i : LkN)
  /-- LINK_DRAIN (R273): LK_CTL CMD = DRAIN stops new packets and waits for acknowledgement before DOWN. -/
  | linkDrain (i : LkN)
  /-- LINK_DISABLE (R273): LK_CTL CMD = DISABLE moves the link to OFF at once, with its packets discarded. -/
  | linkDisable (i : LkN)
  /-- LINK_TRAINING_STEP (R271): A link completes a training phase, DETECT, EQUALISE, ALIGN or CONFIG, and advances to the next state. -/
  | linkTrainingStep (i : LkN) (ok : Bool) (m : LaneMap) (n : TrainMsg)
  /-- LINK_TRAIN_RETRY (R271): After a failed EQUALISE or ALIGN, the link retries from DETECT every 100 ms. -/
  | linkTrainRetry (i : LkN) (dt : Nat)
  /-- DATA_FLIT_RECEIVE (R269): A DATA flit is checked for CRC and SEQ and delivered, or discarded with a NAK; its ACK and credits are processed. -/
  | dataFlitReceive (i : LkN) (w : LaneBits)
  /-- IDLE_FLIT_RECEIVE (R268): An IDLE flit delivers its ACK and credit returns, and may report a far-end DOWN. -/
  | idleFlitReceive (i : LkN) (w : LaneBits) (down : Bool)
  /-- NAK_RECEIVE (R269): The transmitter resends every unacknowledged flit in order. -/
  | nakReceive (i : LkN) (w : LaneBits)
  /-- REPLAY_TIMEOUT (R269): After 1 µs with no ACK advance, unacknowledged flits are resent. -/
  | replayTimeout (i : LkN) (dt : Nat)
  /-- CHECK_FLIT_RECEIVE (R266): A CHECK flit is used for deskew, and mismatching bits are counted as lane errors. -/
  | checkFlitReceive (i : LkN) (w : LaneBits)
  /-- LANE_REPAIR_COMPLETE (R272): The new lane map is in force, the link returns to ACTIVE and flits are resent. -/
  | laneRepairComplete (i : LkN) (r : LaneStep)
  /-- LOSS_OF_LOCK (R273): Lane lock or the far end is lost, and the link goes DOWN. -/
  | lossOfLock (i : LkN)
  /-- LINK_DRAIN_COMPLETE (R273): Every sent flit is acknowledged, or 2 µs pass, and the draining link goes DOWN. -/
  | linkDrainComplete (i : LkN) (dt : Nat)
  /-- SWITCH_FLIT_RECEIVE (R277): A SWITCH flit's ACK sets the resend point, and the spare becomes ACTIVE for the role. -/
  | switchFlitReceive (i : LkN) (w : LaneBits) (down : Bool)
  /-- TAKEOVER_TIMEOUT (R277): No SWITCH arrives within 100 µs; the spare returns to STANDBY and the packets are discarded. -/
  | takeoverTimeout (i : LkN) (dt : Nat)
  /-- FABRIC_ROUTE (R283): A fabric packet is routed at the package: ejected, crossed to the other rail, sent on a torus link, or discarded. -/
  | fabricRoute (q : SwitchQ)
  /-- ROUTE_FLIP (R287): FAB_RTCTL FLIP makes the standby route bank active in both switches. -/
  | routeFlip
  /-- GLOBAL_REQUEST_INJECT (R291): A global access is turned into a fabric transaction, completed NODE_ABSENT, or looped back. -/
  | globalRequestInject (d : BitVec 15)
  /-- FAB_RD (R295): The home accepts or discards an RD by EPOCH and SEQ, performs it in the window, and journals its response. -/
  | fabRd
  /-- FAB_WR (R295): The home accepts a WR and performs it in the window, to be acknowledged cumulatively. -/
  | fabWr
  /-- FAB_ATOM (R293): The home accepts an ATOM, executes it at the home slice and journals its old value. -/
  | fabAtom
  /-- FAB_FLUSH (R299): The home answers FLUSH with an immediate cumulative ACK. -/
  | fabFlush
  /-- FAB_RELEASE (R297): The home frees the journal entries of the stream below LOW. -/
  | fabRelease
  /-- FAB_MSG (R302): The home places a message in a receive queue, or answers NOQ or QFULL, and rings the queue's interrupt. -/
  | fabMsg
  /-- FAB_RESPONSE (R300): The source receives RSP, completes the request with its status and advances acknowledgement. -/
  | fabResponse
  /-- CUMULATIVE_ACK (R297): The home sends a cumulative ACK after 1 µs or 16 writes. -/
  | cumulativeAck (d : BitVec 15) (dt : Nat)
  /-- STREAM_IDLE_RELEASE (R297): A stream idle for 100 µs sends RELEASE. -/
  | streamIdleRelease (d : BitVec 15) (dt : Nat)
  /-- STREAM_RESEND_TIMEOUT (R301): After 50 µs without a response, the stream's outstanding requests are resent on the other rail. -/
  | streamResendTimeout (d : BitVec 15) (dt : Nat)
  /-- STREAM_ABSENT_TIMEOUT (R301): After a further 50 µs, the outstanding requests complete NODE_ABSENT and the stream restarts. -/
  | streamAbsentTimeout (d : BitVec 15) (dt : Nat)
  /-- BUSY_RESEND (R301): 2 µs after a BUSY, the request and every later one of its stream are resent. -/
  | busyResend (d : BitVec 15) (dt : Nat)
  /-- FAB_SEND_GO (R302): FAB_SEND CTL GO sends the thread's 64-byte payload as a MSG. -/
  | fabSendGo (h : Htid) (v : Word)
  /-- TABLE (R304): A member writes route entries and GEN into its standby bank and answers DONE. -/
  | memTable
  /-- FLIP (R304): A member makes the named bank active and answers DONE. -/
  | memFlip
  /-- MAPUPD (R305): A member updates FAB_MAP and its stream epochs, and completes requests to a departed node NODE_ABSENT. -/
  | mapupd
  /-- DONE (R304): The lead collects a member's answer to a membership message. -/
  | memDone
  /-- JOIN (R306): The lead receives a JOIN and runs the membership change for the joiner. -/
  | memJoin
  /-- JOIN_OK (R306): The joiner sets its epochs to MGEN and becomes MEMBER. -/
  | joinOk
  /-- LEAVE (R306): The lead receives a LEAVE and runs the change to remove the node. -/
  | memLeave
  /-- LEFT (R306): The leaving node sets STATE to LEFT. -/
  | memLeft
  /-- LINKEV (R306): The lead learns of a DOWN link and sends PROBE to the far node on both rails. -/
  | linkev
  /-- PROBE (R306): A node answers PROBE with PROBE_ACK. -/
  | memProbe
  /-- PROBE_ACK (R306): The lead records that the probed node is alive. -/
  | probeAck
  /-- PROBE_TIMEOUT (R306): No PROBE_ACK arrives within 1 ms; the lead declares the node gone and removes it. -/
  | probeTimeout (dt : Nat)
  /-- MEMBERSHIP_RESEND (R303): The lead resends an unanswered membership message every 100 µs. -/
  | membershipResend (dt : Nat)
  /-- JOIN_RESEND (R306): A JOINING node resends JOIN every 100 ms. -/
  | joinResend (dt : Nat)
  /-- LEAD_SILENT (R307): A JOIN or LEAVE goes unanswered for 1 s, and SILENT is set. -/
  | leadSilent (dt : Nat)
  /-- LEAD_FLIP_PHASE (R305): With every TABLE answered, the lead sends FLIP to every member. -/
  | leadFlipPhase
  /-- LEAD_MAPUPD_PHASE (R305): At least 1 ms after the flips, the lead sends MAPUPD to every member. -/
  | leadMapupdPhase (dt : Nat)
  /-- FAB_JOIN_CMD (R306): FAB_MCMD CMD = JOIN moves the node to JOINING and starts sending JOIN. -/
  | fabJoinCmd
  /-- FAB_LEAVE_CMD (R306): FAB_MCMD CMD = LEAVE moves the node to LEAVING and makes it refuse requests. -/
  | fabLeaveCmd
  /-- FAB_LEAD_WRITE (R307): A write of FAB_LEAD names a new lead, which waits 1 ms and then runs its first change at GEN + 2. -/
  | fabLeadWrite (v : Word)
  /-- FAB_RQ_CFG_WRITE (R302): A write to a receive queue's CFG that changes LOG2N or BASE resets HEAD and TAIL. -/
  | fabRqCfgWrite (q : Fin 64) (v : Word)
  /-- TANDEM_HANDSHAKE (R310): The TUs exchange ID, role, check value and geometry, and take CAPTAIN_ALONE, STOKER_WAIT or NOPAIR. -/
  | tandemHandshake (m : TduHello)
  /-- HANDSHAKE_TIMEOUT (R310): No answer within 1 s, and the captain-role member enters CAPTAIN_ALONE. -/
  | handshakeTimeout (dt : Nat)
  /-- CHUNK_CONFLICT_COMMIT (R315): A signature conflict ends the holder's chunk, which commits within 64 cycles, and the conflicting access then proceeds. -/
  | chunkConflictCommit (h : Htid) (line : Nat) (write : Bool)
  /-- CHUNK_TIME_LIMIT (R314): A chunk reaches TMAX µs and ends with cause TIME. -/
  | chunkTimeLimit (h : Htid) (dt : Nat)
  /-- LOG_CHUNK (R319): The stoker receives a CHUNK record. -/
  | logChunk (w : List Word)
  /-- LOG_INB (R320): The stoker receives an INB record. -/
  | logInb (w : List Word)
  /-- LOG_OUTMAP (R321): The stoker receives an OUTMAP describing an output it must form. -/
  | logOutmap (w : List Word)
  /-- LOG_RELEASED (R321): The stoker learns that COMPARE outputs up to an OSN have left. -/
  | logReleased (w : List Word)
  /-- LOG_MARK (R321): The stoker receives a start-of-pairing or swap mark. -/
  | logMark (w : List Word)
  /-- CHUNK_REPLAY (R322): A stoker thread replays a chunk once its predecessors are complete, consuming logged inputs and draining DRN entries. -/
  | chunkReplay (h : Htid)
  /-- INB_REPLAY (R322): The stoker performs an INB record once every record up to PRED is complete. -/
  | inbReplay (g : Nat)
  /-- DIGEST (R326): The captain compares the stoker's output digest, and releases the output or declares a divergence. -/
  | digest (osn : Nat) (dg : Word)
  /-- PROGRESS (R329): The captain updates the lag and the cumulative ACKs from the stoker's replay progress. -/
  | progress (g : Nat)
  /-- STOKER_FAILSTOP_COMMAND (R338): The stoker receives the captain's fail-stop command over the CROSS links and fail-stops. -/
  | stokerFailstopCommand
  /-- TDM_FS_IN_ASSERT (R480): The partner's fail-stop line asserts, and a stoker begins promotion or a captain treats its partner as lost. -/
  | tdmFsInAssert (alive : Bool)
  /-- PARTNER_SILENCE_TIMEOUT (R337): Both CROSS links have been DOWN with TDM_ALIVE low for 1 µs, and the partner is treated as lost or the stoker promotes. -/
  | partnerSilenceTimeout (dt : Nat)
  /-- STOKER_ISOLATION_TIMEOUT (R337): Both CROSS links have been DOWN with TDM_ALIVE high for 10 µs, and the stoker fail-stops. -/
  | stokerIsolationTimeout (dt : Nat)
  /-- PROMOTION_REPLAY_DONE (R333): The promoting stoker has replayed every complete record; MODE becomes CAPTAIN and queued packets are ejected. -/
  | promotionReplayDone (dt : Nat) (low whole : Bool)
  /-- PROMOTION_COMPLETE (R333): The last re-released output has left, and STATE becomes CAPTAIN_ALONE. -/
  | promotionComplete (dt : Nat)
  /-- REJOIN (R341): TDM_CMD REJOIN starts resilvering with dirty-page tracking and copy passes. -/
  | rejoin (peer : Bool)
  /-- RESILVER_PASS_END (R341): A copy pass ends; READY and REJOIN_READY follow when the dirty pages are within CUT_PAGES. -/
  | resilverPassEnd (pages : List PageImg)
  /-- CUTOVER_START (R342): READY, the dirty count and TDM_CUTTIME are all met; the captain pauses and copies its remaining state. -/
  | cutoverStart (dt : Nat)
  /-- CUTOVER_COMPLETE (R342): The stoker installs the image, the members enter CAPTAIN_PAIRED and STOKER_REPLAY, and REJOINED is raised. -/
  | cutoverComplete (dt : Nat) (m : PairImg)
  /-- SWAP (R339): TDM_CMD SWAP quiesces chunks and inbound traffic so that the roles can be exchanged. -/
  | swap (peer : Bool)
  /-- SWAP_COMPLETE (R339): Progress covers the last GSN; MODE is exchanged, root ports switch, and SWAPPED is raised. -/
  | swapComplete (dt : Nat)
  /-- RELEASE_HELD (R338): TDM_CMD RELEASE_HELD releases the withheld outputs in OSN order. -/
  | releaseHeld
  /-- DISCARD_HELD (R338): TDM_CMD DISCARD_HELD drops the withheld outputs. -/
  | discardHeld
  /-- OPEN_IO (R334): TDM_CMD OPEN_IO applies the shadowed BME values and releases held MMIO and CFG outputs. -/
  | openIo
  /-- CHECKPOINT (R314): A checkpoint command or schedule action ends every captain chunk with cause CHECKPOINT and a register digest. -/
  | checkpoint
  /-- TDM_REPAIR_GO (R340): TDM_REPAIR GO copies one 4 KiB page to the stoker as sixteen page-repair INB records. -/
  | tdmRepairGo (v : Word)
  /-- TDM_REPAIR_COMPLETE (R340): The page repair ends; BUSY clears and REPAIRED is raised. -/
  | tdmRepairComplete (dt : Nat)
  /-- PPS_EDGE (R354): An active TIME_PPS edge is time-stamped, filtered, and drives acquisition, alignment or the locked discipline. -/
  | ppsEdge (dt : Nat) (rising : Bool)
  /-- TOD_FRAME (R352): A complete time-of-day frame is validated and held for association with a PPS edge. -/
  | todFrame (dt : Nat) (bytes : List Byte)
  /-- TOD_GAP_TIMEOUT (R351): A gap of more than 1 ms between bytes discards the frame in assembly. -/
  | todGapTimeout (dt : Nat) (bytes : List Byte)
  /-- PPS_LOSS_TIMEOUT (R353): No accepted edge for 1.5 s moves Cadence to HOLDOVER or UNLOCKED. -/
  | ppsLossTimeout (dt : Nat)
  /-- SLEW_COMPLETE (R349): A slew has removed its offset, and SLEWING clears. -/
  | slewComplete (dt : Nat)
  /-- TODVALID_EXPIRE (R359): No valid frame has been associated for 2 s, and TODVALID clears. -/
  | todvalidExpire (dt : Nat)
  /-- HOLDOVER_DAY (R360): A HOLDOVER that has lasted 24 hours counts as a further CADENCE CE. -/
  | holdoverDay (dt : Nat)
  /-- SCHEDULE_FIRE (R357): A schedule entry falls due and performs its action. -/
  | scheduleFire (dt : Nat) (ix : Fin 256)
  /-- SCHEDULE_ENTRY_WRITE (R356): A write arms or changes a schedule entry, computing NEXT, or is refused while EN = 1. -/
  | scheduleEntryWrite (ix : Fin 256) (j : Fin 3) (v : Word)
  /-- CAD_CFG_WRITE (R353): A write to CAD_CFG sets the discipline configuration, and EN = 0 moves the unit to UNLOCKED. -/
  | cadCfgWrite (v : Word)
  /-- CAD_TIME_NS_READ (R359): A read of CAD_TIME_NS latches the seconds into CAD_TIME_SEC. -/
  | cadTimeNsRead (dt : Nat)
  /-- ECAM_ACCESS (R366): A configuration read or write is routed to a function and completes, or returns all ones. -/
  | ecamAccess (h : Htid) (a : Cpl)
  /-- CRS_RETRY (R366): A configuration request that received CRS is reissued every 1 ms for up to 1 s. -/
  | crsRetry (h : Htid) (dt : Nat) (a : Cpl)
  /-- MMIO_ACCESS (R372): An MMIO access is decoded by aperture, BAR and window, and sent to its target or completed UR. -/
  | mmioAccess (h : Htid)
  /-- PCIE_COMPLETION (R379): A completion for an outstanding MMIO read returns data, or a BUS_ERR for UR, CA or EP. -/
  | pcieCompletion (h : Htid) (a : Cpl)
  /-- COMPLETION_TIMEOUT (R379): An outstanding MMIO read times out and completes as BUS_ERR SRC 2. -/
  | completionTimeout (h : Htid) (dt : Nat)
  /-- INBOUND_REQUEST (R374): A request from below a root port is checked for BME and ACS, translated, and dispatched by PA. -/
  | inboundRequest (r : RcN) (p : PortN) (q : PcieReq)
  /-- ATS_TRANSLATION_REQUEST (R377): An ATS translation request is answered with permissions, with R = W = 0, or with UR. -/
  | atsTranslationRequest (r : RcN) (p : PortN) (q : PcieReq)
  /-- INTX_MESSAGE (R363): An INTx message is discarded and counted in INTXDROP. -/
  | intxMessage (r : RcN) (p : PortN)
  /-- PCIE_LINK_UP (R361): A root port trains and its data link layer becomes active. -/
  | pcieLinkUp (r : RcN) (p : PortN) (speed : Fin 7) (width : BitVec 6) (flit : Bool)
  /-- PCIE_LINK_DOWN (R364): A root port's link goes down; DPC triggers and outstanding and posted requests fail or are discarded. -/
  | pcieLinkDown (r : RcN) (p : PortN)
  /-- BME_CLEAR (R380): Clearing Bus Master Enable stops new requests and discards the data of outstanding reads. -/
  | bmeClear (k : CxN) (n : InstN)
  /-- BME_DRAIN_END (R380): The last outstanding read completes, or 50 ms pass, and Transactions Pending clears. -/
  | bmeDrainEnd (k : CxN) (n : InstN) (dt : Nat)
  /-- FLR (R380): Initiate Function Level Reset advances the function's generation and starts its reset. -/
  | flr (k : CxN) (n : InstN)
  /-- FLR_COMPLETE (R380): Within 10 µs the function is idle with reset register values. -/
  | flrComplete (k : CxN) (n : InstN) (dt : Nat)
  /-- VF_ENABLE_CHANGE (R371): Setting or clearing VF Enable creates the VFs, or resets every VF. -/
  | vfEnableChange (k : CxN) (on : Bool)
  /-- CX_DOORBELL (R390): A doorbell write sets a queue's TAIL, or is discarded, with DBERR where R390 requires. -/
  | cxDoorbell (k : CxN) (n : InstN) (j : QueueN) (v : Word)
  /-- DESCRIPTOR_FETCH (R391): With EN and a free credit, the complex reads the next descriptor and advances HEAD, or fails and sets FETCHERR. -/
  | descriptorFetch (k : CxN) (q : QueueN)
  /-- DESCRIPTOR_DISPATCH (R401): A free pipeline takes a waiting descriptor by deficit round-robin over instances. -/
  | descriptorDispatch (k : CxN) (comp : Bool) (p : Fin 4)
  /-- NOP (R392): A NOP descriptor completes without a pipeline and acts as a barrier under ORDER. -/
  | nop (k : CxN) (ix : Nat)
  /-- COMPRESS (R382): A pipeline compresses the source into a Deflate, zlib or gzip stream, checking each block it emits. -/
  | compress (k : CxN) (p : Fin 4) (chk : Option Nat)
  /-- DECOMPRESS (R387): A pipeline decodes a stream into the destination, checking its header, blocks and trailer. -/
  | decompress (k : CxN) (p : Fin 4)
  /-- CHECKSUM (R388): A pipeline computes the CRC-32 or Adler-32 of the source. -/
  | checksum (k : CxN) (p : Fin 4)
  /-- DESCRIPTOR_COMPLETE (R396): A descriptor ends; its completion record is written, its MSI-X is sent and its credit is freed. -/
  | descriptorComplete (k : CxN) (ix : Nat)
  /-- CX_QUEUE_ENABLE (R399): A write of a queue's EN starts descriptor reads, or stops them and later sets IDLE. -/
  | cxQueueEnable (k : CxN) (n : InstN) (j : QueueN) (on : Bool)
  /-- CX_INSTANCE_ENABLE (R400): A write of EN = 1 enables an instance if its resources are valid, and otherwise sets CMD_ERR. -/
  | cxInstanceEnable (k : CxN) (n : InstN)
  /-- CX_INSTANCE_DISABLE (R405): A write of EN = 0 resets the instance and returns its queues and credits to the pool. -/
  | cxInstanceDisable (k : CxN) (n : InstN)
  /-- CX_INSTANCE_RESET (R404): RESET advances GEN and stops the instance's reads, writes, doorbells and records. -/
  | cxInstanceReset (k : CxN) (n : InstN)
  /-- INSTANCE_RESET_COMPLETE (R404): Within 10 µs the instance's queues are idle and RESETTING clears. -/
  | instanceResetComplete (k : CxN) (n : InstN) (dt : Nat)
  /-- PWRGOOD_RISE (R416): PWRGOOD rises with VAUX in range, and the SC starts the cold boot from ROM. -/
  | pwrgoodRise (addr : BitVec 2)
  /-- BOOT_AUTH (R414): Both BCI copies have been read and checked; one is chosen, or boot stops with HALT_BCI or HALT_PROVISION. -/
  | bootAuth (dt : Nat) (aOk bOk : Bool)
  /-- BOOT_MESH (R416): Rails are set, routers are powered, bridge lanes are trained, and the newest Odometer record is found. -/
  | bootMesh (dt : Nat) (ok : Bool)
  /-- BOOT_MEMTRAIN (R417): DDR5 training and population checks complete, or boot stops with HALT_MEM. -/
  | bootMemtrain (dt : Nat) (pop : List ChanPop)
  /-- BOOT_LINKS (R418): Every Lerlora link with a role has settled, or 100 ms have passed. -/
  | bootLinks (dt : Nat)
  /-- BOOT_FWLOAD (R419): The firmware image is read, hashed, written to DRAM and preloaded, or boot stops with HALT_FW. -/
  | bootFwload (dt : Nat) (fail : Option Nat)
  /-- BOOT_RELEASE (R420): The BIB is written, thread 0 of core 0 starts at FW_ENTRY, and the schedule table is loaded. -/
  | bootRelease (dt : Nat)
  /-- MEMINIT_COMPLETE (R417): Background DRAM initialisation finishes; DONE is set and LIMIT = C. -/
  | meminitComplete (dt : Nat)
  /-- PWRGOOD_FALL (R477): A recognised low on PWRGOOD is a cold reset, and the package stops. -/
  | pwrgoodFall
  /-- WARM_RST_N (R421): A recognised WARM_RST_N pulse starts a warm reset stop sequence. -/
  | warmRstN (refclk : Bool)
  /-- SC_RESET_WRITE (R421): A write of WARM with KEY 0x5A to SC_RESET starts a warm reset. -/
  | scResetWrite (v : Word)
  /-- STOP_SEQUENCE_END (R421): The stop sequence is final and the reboot from AUTH begins, or stops at HALT_FSLOOP. -/
  | stopSequenceEnd (dt : Nat)
  /-- REFCLK_LOSS (R473): REFCLK stops, Cadence and the SC timers stop, and the package stops. -/
  | refclkLoss
  /-- VAUX_LOSS (R478): VAUX leaves its range; the package stops as on PWRGOOD falling and loses its live Odometer state. -/
  | vauxLoss
  /-- MACHINE_CHECK_PENDING (R435): Under COMPAT, vector 32 becomes pending on the target thread within 1 µs of the error. -/
  | machineCheckPending (dt : Nat)
  /-- ODOMETER_SECOND (R439): Each REFCLK second updates POWER_ON_S, the histograms, W and the thermal-cycle detector. -/
  | odometerSecond (dt : Nat)
  /-- ODOMETER_HOURLY (R442): Each Cadence hour starts a scheduled Odometer record write. -/
  | odometerHourly (dt : Nat)
  /-- ODOMETER_WRITE_COMPLETE (R443): The erase, program and read-back end, or a failure marks the sector unusable. -/
  | odometerWriteComplete (dt : Nat) (ok : Bool)
  /-- ODO_CMD_SNAP (R442): ODO_CMD SNAP requests an unscheduled record, or the request is deferred. -/
  | odoCmdSnap
  /-- ODO_EVCODE_WRITE (R441): A write of 0x80 to 0xFF to ODO_EVCODE enters a firmware event; any other value sets CMD_ERR. -/
  | odoEvcodeWrite (v : Word)
  /-- MGT_WRITE_TRANSFER (R446): A management port write transfer sets an offset and writes 4-byte units. -/
  | mgtWriteTransfer (o : BitVec 16) (l : List Byte) (bad : Bool)
  /-- MGT_READ_TRANSFER (R446): A management port read returns 4-byte units and latches high halves. -/
  | mgtReadTransfer (o : BitVec 16) (n : Nat)
  /-- ENTDAA (R445): The I3C target takes part in dynamic address assignment. -/
  | entdaa (a : BitVec 7)
  /-- SETDASA (R445): The target takes a dynamic address from its static address. -/
  | setdasa (st : BitVec 7) (a : BitVec 7)
  /-- RSTDAA (R445): The target drops its dynamic address and returns to I2C operation. -/
  | rstdaa
  /-- ENEC (R445): Target interrupts are enabled. -/
  | enec
  /-- DISEC (R445): Target interrupts are disabled. -/
  | disec
  /-- GETPID (R445): The target returns its provisional ID. -/
  | getpid
  /-- GETBCR (R445): The target returns BCR 0x26. -/
  | getbcr
  /-- GETDCR (R445): The target returns DCR 0x00. -/
  | getdcr
  /-- GETSTATUS (R445): The target returns its status. -/
  | getstatus
  /-- GETMXDS (R445): The target returns its maximum data speed. -/
  | getmxds
  /-- IBI_REPEAT (R447): While an enabled alert is set, the IBI is repeated every 10 ms. -/
  | ibiRepeat (dt : Nat)
  /-- MGT_BUS_TIMEOUT (R479): SCL or SDA held low for 35 ms makes the target abandon the transfer. -/
  | mgtBusTimeout (dt : Nat)
  /-- MBX_GO (R449): A GO write captures a mailbox command and sets BUSY, or sets CMD_ERR if busy. -/
  | mbxGo (port : Bool) (v : Word)
  /-- GET_INFO (R450): The SC returns the identification and status registers. -/
  | getInfo (dt : Nat)
  /-- READ_REG (R450): The SC reads a DRS or ECAM register on behalf of the mailbox. -/
  | readReg (dt : Nat) (a : Cpl)
  /-- WRITE_REG (R450): The SC writes a permitted DRS or ECAM register, or refuses with DENIED. -/
  | writeReg (dt : Nat) (a : Cpl)
  /-- READ_ODO (R450): The SC returns the newest Odometer record or the live state. -/
  | readOdo (dt : Nat)
  /-- ODO_SNAP (R450): The mailbox requests an unscheduled Odometer record. -/
  | odoSnap (dt : Nat)
  /-- FLASH_READ (R450): The SC reads flash bytes into the response. -/
  | flashRead (dt : Nat) (ok : Bool)
  /-- FLASH_WRITE (R450): The SC erases, programs and verifies a 4 KiB flash sector, or refuses. -/
  | flashWrite (dt : Nat) (ok : Bool)
  /-- PROVISION (R413): The owner key hash fuse is programmed once. -/
  | provision (dt : Nat)
  /-- DBG_CHALLENGE (R425): The SC issues a fresh 32-byte nonce. -/
  | dbgChallenge (dt : Nat)
  /-- DBG_RESPONSE (R425): The SC checks a debugger key and signature, and unlocks or counts a failure. -/
  | dbgResponse (dt : Nat)
  /-- RESET (R450): The mailbox reset command completes and schedules a warm reset 1 ms after DONE. -/
  | mbxReset (dt : Nat)
  /-- RESET_DELAY_EXPIRY (R450): 1 ms after a RESET command's DONE, the warm reset begins. -/
  | resetDelayExpiry (dt : Nat)
  /-- SET_LEAD (R450): The mailbox writes FAB_LEAD. -/
  | setLead (dt : Nat)
  /-- FORWARDED_COMMAND (R451): An opcode 0x80 to 0xFF is copied to MGT_FWREQ and firmware is notified, or completes NOT_AVAILABLE. -/
  | forwardedCommand (dt : Nat)
  /-- MGT_FWDONE_WRITE (R451): Firmware completes a forwarded command, or the write is refused with CMD_ERR. -/
  | mgtFwdoneWrite (v : Word)
  /-- FORWARD_TIMEOUT (R451): MGT_FWDONE is not written within MGT_FWTO, and the command completes FW_TIMEOUT. -/
  | forwardTimeout (dt : Nat)
  /-- TELEMETRY_SAMPLE (R452): Every 100 µs the SC samples rails and sensors, updates power averages, CAP and thermal points, and checks THERMTRIP. -/
  | telemetrySample (dt : Nat) (t : Telem)
  /-- DVFS_STEP (R455): A course moves one operating point, changing its setpoint and clock in order. -/
  | dvfsStep (dt : Nat) (k : Fin 32) (ok : Bool)
  /-- SHM_ARM (R464): SHM_CTL ARM arms the enabled slots at SHM_START or at once. -/
  | shmArm
  /-- SHM_DISARM (R464): SHM_CTL DISARM stops every slot decision. -/
  | shmDisarm
  /-- SHM_START_REACHED (R464): Cadence time reaches SHM_START; the slots load SEED and begin deciding. -/
  | shmStartReached (dt : Nat)
  /-- BYPASS (R465): The JTAG BYPASS instruction selects the 1-bit register. -/
  | bypass
  /-- IDCODE (R465): The JTAG IDCODE instruction returns the identification code. -/
  | idcode
  /-- SAMPLE_PRELOAD (R465): The JTAG SAMPLE/PRELOAD instruction acts as IEEE 1149.1 specifies. -/
  | samplePreload
  /-- EXTEST (R465): Once unlocked, the package stops and drives its pins under JTAG. -/
  | extest
  /-- DBG_ACCESS (R465): A JTAG update performs a physical read or write, as the SC does, when JTAG is unlocked. -/
  | dbgAccess (v : BitVec 128) (a : Cpl)
  /-- SC_CHAL_STORE (R466): SC_CHAL CMD 0 stores one response segment, or sets SEGERR. -/
  | scChalStore (seg : BitVec 3) (data : BitVec 256)
  /-- SC_CHAL_NEW_CHALLENGE (R466): SC_CHAL CMD 1 issues a fresh nonce and discards stored segments. -/
  | scChalNewChallenge
  /-- SC_CHAL_SUBMIT (R466): SC_CHAL CMD 2 submits the stored response for checking. -/
  | scChalSubmit
  /-- DEBUG_CHECK_COMPLETE (R466): The response check ends within 50 ms, and DONE, UNLOCKED or FAILS are updated. -/
  | debugCheckComplete (dt : Nat)
  /-- TRST (R479): TRST_N low holds the TAP in Test-Logic-Reset. -/
  | trst (low : Bool)
  /-- REGISTER_WRITE (R8): A write to a register without a row of its own sets its fields by their access codes. -/
  | registerWrite (off : Nat) (v : Word)
  /-- WARM_RST_N_RELEASE (R479): Release of a WARM_RST_N held active lets boot, waiting at PHASE 1, continue from AUTH within 1 µs. -/
  | warmRstNRelease
  /-- VAUX_POWER_UP (R476): VAUX comes into range: the SC's VAUX logic starts, TDM_FS_OUT is asserted, TDM_ALIVE stops sinking and MGT_THERM.TRIPPED is cleared. -/
  | vauxPowerUp
  /-- TOD_FRAMING_ERROR (R351): A TIME_TOD byte with a framing error discards the frame in assembly and counts TODERR. -/
  | todFramingError (dt : Nat) (bytes : List Byte)
  /-- TOD_FRAME_UNCLAIMED (R352): A valid frame not claimed by an accepted edge within 1.0 s of its last stop bit is discarded and counted in TODERR. -/
  | todFrameUnclaimed (dt : Nat)
  /-- PTM_REQUEST (R358): A root port answers a device's PTM Request with Cadence time as PTM Master Time. -/
  | ptmRequest (r : RcN) (p : PortN) (dt : Nat)
  /-- PCIE_ERROR_REPORT (R379): An error reported by a device or detected on a link is logged in AER, may trigger DPC, and is signalled through the root port's MSI. -/
  | pcieErrorReport (r : RcN) (p : PortN) (e : PErr)
  /-- DIVERGENCE_REPORT (R338): The captain receives the stoker's report of a replay or checkpoint mismatch and handles it as a divergence. -/
  | divergenceReport
  /-- MEMBERSHIP_CHANGE_START (R305): The lead begins a membership change by writing every member's standby bank with TABLE messages, once 1 ms has passed since its last FLIP or since it was named lead. -/
  | membershipChangeStart (dt : Nat) (tabs : List (BitVec 15 × List (BitVec 16)))
  /-- PERTURBATION_DELAY_END (R461): A Shimmy credit hold or delay ends, so credits flow again or the delayed flit, response or Cadence release takes place. -/
  | perturbationDelayEnd (dt : Nat) (ix : Nat)
deriving DecidableEq, Repr

end Sys2Proof
end

