-- ==== Sys2Proof/Config.lean ====
section
/-!
DEFINITION. Config.lean: the values that spec/ leaves open. Each is a constant without a body: nothing can evaluate it
and no proof can see a value of it (log entry 1).
-/
namespace Sys2Proof

/-- FREE VALUE (log entry 1). The n-th 64-bit value that the part draws and spec/ does not determine: the nonce of 16
R425, ageing readings of 17 R439, the choice among several matching TLB entries of 05 R155. -/
opaque Config.free : Nat → BitVec 64

/-- FREE VALUE (log entry 2). What a read of a byte of borrowed or remote memory (05 R134, PA[57] = 1) returns at its
home, for the k-th such read: the remote package is outside the model. -/
opaque Config.remoteByte : Nat → Nat → BitVec 8

/-- FREE VALUE (log entry 43). The 48 check bits of a mesh flit, from its header and payload (08 R211 names the codes and does not give
them). -/
opaque Config.flitCheck : BitVec 64 → BitVec 512 → BitVec 48

/-- FREE VALUE (log entry 46). The state in which a CHECK flit seeds the scrambler of a logical lane (10 R264 derives it from the lane's number and
does not give it). -/
opaque Config.scramSeed : Nat → BitVec 31

/-- FREE VALUE (log entry 6). The signature filter's false conflicts: whether line `b` hashes onto a bit that line `a`
set in a chunk signature (12 R315 does not give the hash). -/
opaque Config.sigAlias : Nat → Nat → Bool

/-- FREE VALUE (log entry 7). The hash of three bytes by which a compression pipeline chains positions (15 R382 does not give it). -/
opaque Config.deflateHash : BitVec 24 → Nat

/-- FREE VALUE (log entry 7). The header of a dynamic block, the bits that follow its BTYPE, for a block that uses each literal/length and
distance symbol so often (15 R382: the tables are computed from the block; it does not say how). -/
opaque Config.deflateTables : List Nat → List Nat → List Bool

end Sys2Proof
end

