-- ==== Sys2Proof/Machine/Map.lean ====
section
/-!
DEFINITION. Machine/Map.lean: sparse tables in one canonical form. A table is a list of (key, value) pairs
with keys strictly rising and no entry equal to what an unlisted key reads as, so equal tables are equal data.
What an unlisted key reads as is given by a function `d` of the key, fixed per table (reset contents).
-/
namespace Sys2Proof.Machine

/-- A sparse table from numbers to `α` (Host.Cell lists are the instance for bytes). -/
abbrev Map (α : Type) := List (Nat × α)

/-- What key `k` holds; `d` says what unlisted keys hold. -/
def Map.get {α : Type} (d : Nat → α) : Map α → Nat → α
  | [], k => d k
  | (j, v) :: t, k => if j = k then v else Map.get d t k

/-- Remove key `k`. -/
def Map.erase {α : Type} : Map α → Nat → Map α
  | [], _ => []
  | (j, v) :: t, k => if j = k then Map.erase t k else (j, v) :: Map.erase t k

/-- Put `v` at key `k`, in order. -/
def Map.insert {α : Type} : Map α → Nat → α → Map α
  | [], k, v => [(k, v)]
  | (j, w) :: t, k, v =>
    if j = k then (k, v) :: t else if k < j then (k, v) :: (j, w) :: t else (j, w) :: Map.insert t k v

/-- Write `v` at key `k`, keeping the canonical form. -/
def Map.set {α : Type} [DecidableEq α] (d : Nat → α) (m : Map α) (k : Nat) (v : α) : Map α :=
  if v = d k then Map.erase m k else Map.insert m k v

/-- Every listed key is above `b`, in order, with no default entry. -/
def Map.wfFrom {α : Type} [DecidableEq α] (d : Nat → α) : Nat → Map α → Bool
  | _, [] => true
  | b, (k, v) :: t => decide (b ≤ k) && decide (v ≠ d k) && Map.wfFrom d (k + 1) t

/-- The canonical form. -/
def Map.wf {α : Type} [DecidableEq α] (d : Nat → α) (m : Map α) : Bool := Map.wfFrom d 0 m

/-- Rewrite key `k` with `f`. -/
def Map.upd {α : Type} [DecidableEq α] (d : Nat → α) (m : Map α) (k : Nat) (f : α → α) : Map α :=
  Map.set d m k (f (Map.get d m k))

end Sys2Proof.Machine
end

