-- ==== Sys2Proof/Machine/Regs.lean ====
section
/-!
DEFINITION. Machine/Regs.lean: device register space (DRS), written from the header lines and field tables of spec/:
where each window lies (01 R24 to R29, 08 R236), the registers of each window, and for each field its bits, access
code, /STK suffix and reset value (00 R8, R9). A register is named by its DRS offset. The registers of the two
compression complexes' PF BAR0 (15 R407) are not in DRS; they are kept in the same table at `cxBar k`.
-/
namespace Sys2Proof.Machine

/-- Access codes of 00 R8; `ws` is WO for a field whose written value the unit keeps (a payload). -/
inductive Acc where
  | rw | ro | wo | ws | w1c | w1s | rwl
deriving DecidableEq, Repr

/-- One field: bits [hi:lo], access code, /STK, reset value (0 where the spec names the BCI, a fuse or the part). -/
structure Fld where
  hi : Nat
  lo : Nat
  acc : Acc
  stk : Bool
  rst : Nat
deriving DecidableEq, Repr

/-- One register, or `count` of them `stride` apart, at offset `off` of its window. -/
structure RegRow where
  off : Nat
  stride : Nat
  count : Nat
  flds : List Fld
deriving DecidableEq, Repr

/-- The windows of R24 to R27. -/
inductive Win where
  | core (c : Nat) | tic (h : Nat) | l2 (n : Nat) | l3s (n : Nat) | mesh (stop : Nat) | mc (i : Nat) | lk (i : Nat)
  | rc (i : Nat) | cx (i : Nat) | iotu (u : Nat) | cxbar (i : Nat) | tdm | sc | cad | odo | shm | mgt | fab
deriving DecidableEq, Repr

/-- Start of tile n's window (R24). -/
def tileBase (n : Nat) : Nat := n * 0x100000
/-- Core c's window (R25). -/
def coreBase (c : Nat) : Nat := tileBase (c / 2) + 0x40000 * (c % 2)
/-- The TIC window of thread h (R25). -/
def ticBase (h : Nat) : Nat := tileBase (h / 16) + 0xE0000 + (h % 16) * 0x1000
/-- The L2 window of tile n (R25). -/
def l2Base (n : Nat) : Nat := tileBase n + 0x80000
/-- The L3 slice window of tile n (R25). -/
def l3sBase (n : Nat) : Nat := tileBase n + 0xA0000
/-- Footing f, stop x (R24). -/
def footBase (f x : Nat) : Nat := 0x10000000 * (f + 1) + x * 0x1000000
/-- The router window of stop number 16y + x (R25, R236). -/
def meshBase (stop : Nat) : Nat :=
  if stop < 16 then footBase 0 stop + 0x7E0000
  else if stop < 144 then tileBase (stop - 16) + 0xC0000
  else footBase 1 (stop - 144) + 0x7E0000
/-- Memory controller i (R18). -/
def mcBase (i : Nat) : Nat := footBase (i / 8) (2 * (i % 8))
/-- The stop column of link i (R18). -/
def lkX (i : Nat) : Nat := if i % 6 < 3 then 2 * (i % 6) + 1 else 2 * (i % 6) + 3
/-- Link i (R18). -/
def lkBase (i : Nat) : Nat := footBase (i / 6) (lkX i)
/-- Root complex i (R18, 14). -/
def rcBase (i : Nat) : Nat := footBase (i / 2) (if i % 2 = 0 then 7 else 15)
/-- Compression complex i, its DRS half (R18, 15). -/
def cxBase (i : Nat) : Nat := footBase i 7 + 0x800000
/-- IO translation unit u: 0 to 3 of RC0 to RC3, 4 and 5 of CX0 and CX1 (R162). -/
def iotuBase (u : Nat) : Nat := (if u < 4 then rcBase u else cxBase (u - 4)) + 0x400000
/-- The Tandem unit (R18, 12). -/
def tdmBase : Nat := footBase 1 15 + 0x800000
/-- PF BAR0 of complex i, in the model's own numbering (R407). -/
def cxBar (i : Nat) : Nat := 0x100000000 + i * 0x1000000
def scBase : Nat := 0x30000000
def cadBase : Nat := 0x31000000
def odoBase : Nat := 0x32000000
def shmBase : Nat := 0x33000000
def mgtBase : Nat := 0x34000000
def fabBase : Nat := 0x35000000

/-- The stop number 16y + x of the unit of a window (R14, R18; R434 for SC, CAD, FAB and the others of F0 stop 15). -/
def Win.stop : Win → Nat
  | .core c => c / 2 + 16
  | .tic h => h / 16 + 16
  | .l2 n | .l3s n => n + 16
  | .mesh s => s
  | .mc i => 144 * (i / 8) + 2 * (i % 8)
  | .lk i => 144 * (i / 6) + lkX i
  | .rc i => 144 * (i / 2) + (if i % 2 = 0 then 7 else 15)
  | .cx i | .cxbar i => 144 * i + 7
  | .iotu u => if u < 4 then 144 * (u / 2) + (if u % 2 = 0 then 7 else 15) else 144 * (u - 4) + 7
  | .tdm => 159
  | _ => 15

/-- The window that a DRS offset lies in and the offset within it (R24 to R27, R236). -/
def winOf (off : Nat) : Option (Win × Nat) :=
  if off < 0x08000000 then
    let n := off / 0x100000
    let o := off % 0x100000
    if o < 0x40000 then some (.core (2 * n), o)
    else if o < 0x80000 then some (.core (2 * n + 1), o - 0x40000)
    else if o < 0xA0000 then some (.l2 n, o - 0x80000)
    else if o < 0xC0000 then some (.l3s n, o - 0xA0000)
    else if o < 0xE0000 then some (.mesh (n + 16), o - 0xC0000)
    else if o < 0xF0000 then some (.tic (16 * n + (o - 0xE0000) / 0x1000), o % 0x1000)
    else none
  else if off < 0x10000000 then none
  else if off < 0x30000000 then
    let f := off / 0x10000000 - 1
    let x := off / 0x1000000 % 16
    let o := off % 0x1000000
    if 0x7E0000 ≤ o ∧ o < 0x800000 then some (.mesh (144 * f + x), o - 0x7E0000)
    else if x = 7 then
      if o < 0x400000 then some (.rc (2 * f), o)
      else if o < 0x7E0000 then some (.iotu (2 * f), o - 0x400000)
      else if o < 0xC00000 then some (.cx f, o - 0x800000)
      else some (.iotu (4 + f), o - 0xC00000)
    else if x = 15 then
      if o < 0x400000 then some (.rc (2 * f + 1), o)
      else if o < 0x7E0000 then some (.iotu (2 * f + 1), o - 0x400000)
      else if f = 1 then some (.tdm, o - 0x800000) else none
    else if o < 0x7E0000 then
      if x % 2 = 0 then some (.mc (8 * f + x / 2), o)
      else some (.lk (6 * f + if x < 7 then x / 2 else x / 2 - 1), o)
    else none
  else if off < 0x40000000 then
    let o := off % 0x1000000
    match off / 0x1000000 with
    | 0x30 => some (.sc, o) | 0x31 => some (.cad, o) | 0x32 => some (.odo, o)
    | 0x33 => some (.shm, o) | 0x34 => some (.mgt, o) | 0x35 => some (.fab, o)
    | _ => none
  else if 0x100000000 ≤ off ∧ off < 0x102000000 then
    some (.cxbar ((off - 0x100000000) / 0x1000000), off % 0x1000000)
  else none

/-- The registers of one `core` window (header lines and field tables of the spec). -/
def coreRegs : List RegRow := [
  -- CORE_CTL (R58): NLP, GATE_EN
  ⟨0x0, 0x0, 1, [⟨0, 0, .rw, false, 1⟩, ⟨1, 1, .rw, false, 1⟩]⟩,
  -- CORE_MC_TARGET (R118): HTID
  ⟨0x8, 0x0, 1, [⟨10, 0, .rw, false, 0⟩]⟩,
  -- CORE_THR_CTL (R57): CMD, CMD_ERR, STATE, PRIOR
  ⟨0x100, 0x8, 8, [⟨2, 0, .wo, false, 0⟩, ⟨3, 3, .w1c, false, 0⟩, ⟨10, 8, .ro, false, 0⟩, ⟨13, 11, .ro, false, 0⟩]⟩,
  -- CORE_THR_START (R57): PC
  ⟨0x140, 0x8, 8, [⟨56, 2, .rw, false, 0⟩]⟩,
  -- ERR_STATUS (R429): V, OVF, CLASS, ADDRV, MCREQ, CODE, UNIT, HTID, HTIDV
  ⟨0xc00, 0x0, 1, [⟨0, 0, .w1c, true, 0⟩, ⟨1, 1, .w1c, true, 0⟩, ⟨3, 2, .ro, true, 0⟩, ⟨4, 4, .ro, true, 0⟩, ⟨5, 5, .ro, true, 0⟩, ⟨15, 8, .ro, true, 0⟩, ⟨19, 16, .ro, false, 0⟩, ⟨30, 20, .ro, true, 0⟩, ⟨31, 31, .ro, true, 0⟩]⟩,
  -- ERR_ADDR (R429): ERR_ADDR
  ⟨0xc08, 0x0, 1, [⟨63, 0, .ro, true, 0⟩]⟩,
  -- ERR_INFO (R429): ERR_INFO
  ⟨0xc10, 0x0, 1, [⟨63, 0, .ro, true, 0⟩]⟩,
  -- ERR_TIME (R429): ERR_TIME
  ⟨0xc18, 0x0, 1, [⟨63, 0, .ro, true, 0⟩]⟩,
  -- ERR_CNT (R429): CE, UE
  ⟨0xc20, 0x0, 1, [⟨31, 0, .ro, true, 0⟩, ⟨47, 32, .ro, true, 0⟩]⟩,
  -- ERR_CFG (R429): THRESH, IRQ_DEF, WINDOW
  ⟨0xc28, 0x0, 1, [⟨7, 0, .rw, false, 0⟩, ⟨8, 8, .rw, false, 0⟩, ⟨63, 32, .rw, false, 3600⟩]⟩,
  -- ERR_IRQ (R429): HTID, VECTOR, EN
  ⟨0xc30, 0x0, 1, [⟨10, 0, .rw, false, 0⟩, ⟨23, 16, .rw, false, 64⟩, ⟨31, 31, .rw, false, 0⟩]⟩,
  -- ERR_WIN (R429): COUNT, START
  ⟨0xc38, 0x0, 1, [⟨7, 0, .rw, false, 0⟩, ⟨63, 16, .ro, false, 0⟩]⟩]

/-- The registers of one `tic` window (header lines and field tables of the spec). -/
def ticRegs : List RegRow := [
  -- TIC_MSI (R131): VECTOR
  ⟨0x0, 0x0, 1, [⟨7, 0, .wo, false, 0⟩]⟩,
  -- TIC_PEND (R131): PEND
  ⟨0x8, 0x0, 1, [⟨63, 0, .w1c, false, 0⟩]⟩,
  -- TIC_EN (R131): EN
  ⟨0x10, 0x0, 1, [⟨63, 0, .rw, false, 0⟩]⟩,
  -- TIC_THRESH (R131): LEVEL
  ⟨0x18, 0x0, 1, [⟨6, 0, .rw, false, 63⟩]⟩,
  -- TIC_SYSPEND (R131): PEND
  ⟨0x20, 0x0, 1, [⟨31, 0, .w1c, false, 0⟩]⟩,
  -- TIC_SYSEN (R131): MCT, EN
  ⟨0x28, 0x0, 1, [⟨1, 0, .ro, false, 3⟩, ⟨6, 2, .rw, false, 0⟩]⟩,
  -- TIC_IPI (R131): SEND
  ⟨0x30, 0x0, 1, [⟨0, 0, .wo, false, 0⟩]⟩,
  -- TIC_STATUS (R131): BADMSI, BADCNT
  ⟨0x38, 0x0, 1, [⟨0, 0, .w1c, false, 0⟩, ⟨15, 8, .rw, false, 0⟩]⟩]

/-- The registers of one `l2` window (header lines and field tables of the spec). -/
def l2Regs : List RegRow := [
  -- L2_CTL (R178): ALLOC, STREAM
  ⟨0x0, 0x0, 1, [⟨0, 0, .rw, false, 1⟩, ⟨1, 1, .rw, false, 1⟩]⟩,
  -- L2_CMD (R178): OP
  ⟨0x8, 0x0, 1, [⟨1, 0, .wo, false, 0⟩]⟩,
  -- L2_STAT (R178): BUSY, DIRTY, GATE_OK, CMD_ERR, RETIRED, NRET
  ⟨0x10, 0x0, 1, [⟨0, 0, .ro, false, 0⟩, ⟨1, 1, .ro, false, 0⟩, ⟨2, 2, .ro, false, 0⟩, ⟨5, 5, .w1c, false, 0⟩, ⟨31, 16, .ro, true, 0⟩, ⟨34, 32, .ro, true, 0⟩]⟩,
  -- L2_ERRCFG (R183): THRESH, WINDOW
  ⟨0x18, 0x0, 1, [⟨7, 0, .rw, false, 0⟩, ⟨63, 32, .rw, false, 3600⟩]⟩,
  -- L2_WAYCE (R183): COUNT, RET, START
  ⟨0x100, 0x8, 16, [⟨7, 0, .rw, false, 0⟩, ⟨8, 8, .w1s, true, 0⟩, ⟨63, 16, .ro, false, 0⟩]⟩,
  -- ERR_STATUS (R429): V, OVF, CLASS, ADDRV, MCREQ, CODE, UNIT, HTID, HTIDV
  ⟨0xc00, 0x0, 1, [⟨0, 0, .w1c, true, 0⟩, ⟨1, 1, .w1c, true, 0⟩, ⟨3, 2, .ro, true, 0⟩, ⟨4, 4, .ro, true, 0⟩, ⟨5, 5, .ro, true, 0⟩, ⟨15, 8, .ro, true, 0⟩, ⟨19, 16, .ro, false, 0⟩, ⟨30, 20, .ro, true, 0⟩, ⟨31, 31, .ro, true, 0⟩]⟩,
  -- ERR_ADDR (R429): ERR_ADDR
  ⟨0xc08, 0x0, 1, [⟨63, 0, .ro, true, 0⟩]⟩,
  -- ERR_INFO (R429): ERR_INFO
  ⟨0xc10, 0x0, 1, [⟨63, 0, .ro, true, 0⟩]⟩,
  -- ERR_TIME (R429): ERR_TIME
  ⟨0xc18, 0x0, 1, [⟨63, 0, .ro, true, 0⟩]⟩,
  -- ERR_CNT (R429): CE, UE
  ⟨0xc20, 0x0, 1, [⟨31, 0, .ro, true, 0⟩, ⟨47, 32, .ro, true, 0⟩]⟩,
  -- ERR_CFG (R429): THRESH, IRQ_DEF, WINDOW
  ⟨0xc28, 0x0, 1, [⟨7, 0, .rw, false, 0⟩, ⟨8, 8, .rw, false, 0⟩, ⟨63, 32, .rw, false, 3600⟩]⟩,
  -- ERR_IRQ (R429): HTID, VECTOR, EN
  ⟨0xc30, 0x0, 1, [⟨10, 0, .rw, false, 0⟩, ⟨23, 16, .rw, false, 64⟩, ⟨31, 31, .rw, false, 0⟩]⟩,
  -- ERR_WIN (R429): COUNT, START
  ⟨0xc38, 0x0, 1, [⟨7, 0, .rw, false, 0⟩, ⟨63, 16, .ro, false, 0⟩]⟩]

/-- The registers of one `l3s` window (header lines and field tables of the spec). -/
def l3sRegs : List RegRow := [
  -- L3S_CTL (R178): ALLOC, STREAM, SPARE, EVAC
  ⟨0x0, 0x0, 1, [⟨0, 0, .rw, false, 1⟩, ⟨1, 1, .rw, false, 1⟩, ⟨4, 4, .rw, false, 0⟩, ⟨5, 5, .wo, false, 0⟩]⟩,
  -- L3S_CMD (R178): OP
  ⟨0x8, 0x0, 1, [⟨1, 0, .wo, false, 0⟩]⟩,
  -- L3S_STAT (R178): BUSY, DIRTY, GATE_OK, HOSTING, EVACUATED, CMD_ERR, RETIRED, NRET
  ⟨0x10, 0x0, 1, [⟨0, 0, .ro, false, 0⟩, ⟨1, 1, .ro, false, 0⟩, ⟨2, 2, .ro, false, 0⟩, ⟨3, 3, .ro, true, 0⟩, ⟨4, 4, .ro, true, 0⟩, ⟨5, 5, .w1c, false, 0⟩, ⟨31, 16, .ro, true, 0⟩, ⟨34, 32, .ro, true, 0⟩]⟩,
  -- L3S_ERRCFG (R183): THRESH, WINDOW
  ⟨0x18, 0x0, 1, [⟨7, 0, .rw, false, 0⟩, ⟨63, 32, .rw, false, 3600⟩]⟩,
  -- L3S_WAYCE (R183): COUNT, RET, START
  ⟨0x100, 0x8, 16, [⟨7, 0, .rw, false, 0⟩, ⟨8, 8, .w1s, true, 0⟩, ⟨63, 16, .ro, false, 0⟩]⟩,
  -- ERR_STATUS (R429): V, OVF, CLASS, ADDRV, MCREQ, CODE, UNIT, HTID, HTIDV
  ⟨0xc00, 0x0, 1, [⟨0, 0, .w1c, true, 0⟩, ⟨1, 1, .w1c, true, 0⟩, ⟨3, 2, .ro, true, 0⟩, ⟨4, 4, .ro, true, 0⟩, ⟨5, 5, .ro, true, 0⟩, ⟨15, 8, .ro, true, 0⟩, ⟨19, 16, .ro, false, 0⟩, ⟨30, 20, .ro, true, 0⟩, ⟨31, 31, .ro, true, 0⟩]⟩,
  -- ERR_ADDR (R429): ERR_ADDR
  ⟨0xc08, 0x0, 1, [⟨63, 0, .ro, true, 0⟩]⟩,
  -- ERR_INFO (R429): ERR_INFO
  ⟨0xc10, 0x0, 1, [⟨63, 0, .ro, true, 0⟩]⟩,
  -- ERR_TIME (R429): ERR_TIME
  ⟨0xc18, 0x0, 1, [⟨63, 0, .ro, true, 0⟩]⟩,
  -- ERR_CNT (R429): CE, UE
  ⟨0xc20, 0x0, 1, [⟨31, 0, .ro, true, 0⟩, ⟨47, 32, .ro, true, 0⟩]⟩,
  -- ERR_CFG (R429): THRESH, IRQ_DEF, WINDOW
  ⟨0xc28, 0x0, 1, [⟨7, 0, .rw, false, 0⟩, ⟨8, 8, .rw, false, 0⟩, ⟨63, 32, .rw, false, 3600⟩]⟩,
  -- ERR_IRQ (R429): HTID, VECTOR, EN
  ⟨0xc30, 0x0, 1, [⟨10, 0, .rw, false, 0⟩, ⟨23, 16, .rw, false, 64⟩, ⟨31, 31, .rw, false, 0⟩]⟩,
  -- ERR_WIN (R429): COUNT, START
  ⟨0xc38, 0x0, 1, [⟨7, 0, .rw, false, 0⟩, ⟨63, 16, .ro, false, 0⟩]⟩]

/-- The registers of one `mesh` window (header lines and field tables of the spec). -/
def meshRegs : List RegRow := [
  -- MESH_ID (R236): X, Y, FOOT, TILE, BRICK
  ⟨0x0, 0x0, 1, [⟨3, 0, .ro, false, 0⟩, ⟨7, 4, .ro, false, 0⟩, ⟨8, 8, .ro, false, 0⟩, ⟨15, 9, .ro, false, 0⟩, ⟨18, 16, .ro, false, 0⟩]⟩,
  -- MESH_BRSTAT (R218): STATE, NREP_UP, NREP_DN, RETRAINS
  ⟨0x200, 0x20, 2, [⟨1, 0, .ro, false, 0⟩, ⟨4, 2, .ro, true, 0⟩, ⟨7, 5, .ro, true, 0⟩, ⟨23, 8, .ro, true, 0⟩]⟩,
  -- MESH_BRCFG (R218): THRESH, WINDOW
  ⟨0x208, 0x20, 2, [⟨7, 0, .rw, false, 16⟩, ⟨63, 32, .rw, false, 3600⟩]⟩,
  -- MESH_CPWR (R220): CMD, CMD_ERR, IWAKE, PSTATE, WOKE, NOTIFY, WAKE_HTID, WAKE_VEC
  ⟨0x400, 0x8, 2, [⟨1, 0, .wo, false, 0⟩, ⟨2, 2, .w1c, false, 0⟩, ⟨3, 3, .rw, false, 1⟩, ⟨5, 4, .ro, false, 0⟩, ⟨6, 6, .w1c, false, 0⟩, ⟨7, 7, .rw, false, 0⟩, ⟨18, 8, .rw, false, 0⟩, ⟨31, 24, .rw, false, 64⟩]⟩,
  -- MESH_L2PWR (R225): GATE_EN, PSTATE
  ⟨0x410, 0x0, 1, [⟨0, 0, .rw, false, 1⟩, ⟨2, 1, .ro, false, 0⟩]⟩,
  -- MESH_STCTL (R235): WIN
  ⟨0x800, 0x0, 1, [⟨1, 0, .rw, false, 0⟩]⟩,
  -- MESH_ST_SEQ (R235): SEQ
  ⟨0x1000, 0x200, 2, [⟨31, 0, .ro, false, 0⟩]⟩,
  -- MESH_ST_START (R235): MESH_ST_START
  ⟨0x1008, 0x200, 2, [⟨63, 0, .ro, false, 0⟩]⟩,
  -- MESH_ST_END (R235): MESH_ST_END
  ⟨0x1010, 0x200, 2, [⟨63, 0, .ro, false, 0⟩]⟩,
  -- MESH_ST_RDBYTES (R235): MESH_ST_RDBYTES
  ⟨0x1018, 0x200, 2, [⟨63, 0, .ro, false, 0⟩]⟩,
  -- MESH_ST_WRBYTES (R235): MESH_ST_WRBYTES
  ⟨0x1020, 0x200, 2, [⟨63, 0, .ro, false, 0⟩]⟩,
  -- MESH_ST_REQS (R235): MESH_ST_REQS
  ⟨0x1028, 0x200, 2, [⟨47, 0, .ro, false, 0⟩]⟩,
  -- MESH_ST_HIST block 0 (R235): BIN
  ⟨0x1040, 0x8, 16, [⟨31, 0, .ro, false, 0⟩]⟩,
  -- MESH_ST_HIST block 1 (R235): BIN
  ⟨0x1240, 0x8, 16, [⟨31, 0, .ro, false, 0⟩]⟩,
  -- ERR_STATUS (R429): V, OVF, CLASS, ADDRV, MCREQ, CODE, UNIT, HTID, HTIDV
  ⟨0xc00, 0x0, 1, [⟨0, 0, .w1c, true, 0⟩, ⟨1, 1, .w1c, true, 0⟩, ⟨3, 2, .ro, true, 0⟩, ⟨4, 4, .ro, true, 0⟩, ⟨5, 5, .ro, true, 0⟩, ⟨15, 8, .ro, true, 0⟩, ⟨19, 16, .ro, false, 0⟩, ⟨30, 20, .ro, true, 0⟩, ⟨31, 31, .ro, true, 0⟩]⟩,
  -- ERR_ADDR (R429): ERR_ADDR
  ⟨0xc08, 0x0, 1, [⟨63, 0, .ro, true, 0⟩]⟩,
  -- ERR_INFO (R429): ERR_INFO
  ⟨0xc10, 0x0, 1, [⟨63, 0, .ro, true, 0⟩]⟩,
  -- ERR_TIME (R429): ERR_TIME
  ⟨0xc18, 0x0, 1, [⟨63, 0, .ro, true, 0⟩]⟩,
  -- ERR_CNT (R429): CE, UE
  ⟨0xc20, 0x0, 1, [⟨31, 0, .ro, true, 0⟩, ⟨47, 32, .ro, true, 0⟩]⟩,
  -- ERR_CFG (R429): THRESH, IRQ_DEF, WINDOW
  ⟨0xc28, 0x0, 1, [⟨7, 0, .rw, false, 0⟩, ⟨8, 8, .rw, false, 0⟩, ⟨63, 32, .rw, false, 3600⟩]⟩,
  -- ERR_IRQ (R429): HTID, VECTOR, EN
  ⟨0xc30, 0x0, 1, [⟨10, 0, .rw, false, 0⟩, ⟨23, 16, .rw, false, 64⟩, ⟨31, 31, .rw, false, 0⟩]⟩,
  -- ERR_WIN (R429): COUNT, START
  ⟨0xc38, 0x0, 1, [⟨7, 0, .rw, false, 0⟩, ⟨63, 16, .ro, false, 0⟩]⟩]

/-- The registers of one `mc` window (header lines and field tables of the spec). -/
def mcRegs : List RegRow := [
  -- MC_CTL (R251): CE_WB, PPR_EN
  ⟨0x0, 0x0, 1, [⟨0, 0, .rw, false, 0⟩, ⟨1, 1, .rw, false, 0⟩]⟩,
  -- MC_GEOM (R243): DIMMS, RANKS, ROWX, SPEED, CAPG
  ⟨0x8, 0x0, 1, [⟨1, 0, .ro, false, 0⟩, ⟨3, 2, .ro, false, 0⟩, ⟨5, 4, .ro, false, 0⟩, ⟨31, 16, .ro, false, 0⟩, ⟨47, 32, .ro, false, 0⟩]⟩,
  -- MC_CECFG (R251): THRESH, WINDOW
  ⟨0x10, 0x0, 1, [⟨7, 0, .rw, false, 0⟩, ⟨63, 32, .rw, false, 0x15180⟩]⟩,
  -- MC_CESTAT (R251): CE_TOTAL, UE_TOTAL, TABFULL
  ⟨0x18, 0x0, 1, [⟨31, 0, .ro, true, 0⟩, ⟨47, 32, .ro, true, 0⟩, ⟨63, 48, .ro, true, 0⟩]⟩,
  -- MC_PRIRQ (R251): HTID, VECTOR, EN
  ⟨0x20, 0x0, 1, [⟨10, 0, .rw, false, 0⟩, ⟨23, 16, .rw, false, 64⟩, ⟨31, 31, .rw, false, 0⟩]⟩,
  -- MC_PPR (R482): ENTRY, GO, BUSY, CMD_ERR
  ⟨0x28, 0x0, 1, [⟨3, 0, .wo, false, 0⟩, ⟨4, 4, .wo, false, 0⟩, ⟨5, 5, .ro, false, 0⟩, ⟨6, 6, .w1c, false, 0⟩]⟩,
  -- MC_CE dw0 (R252): V, PR, PPR_DONE, PPR_FAIL, CLASS, DEV, SUB, DIMM, RANK, BG, BANK, ROW, COUNT
  ⟨0x1000, 0x20, 16, [⟨0, 0, .w1c, true, 0⟩, ⟨1, 1, .w1c, true, 0⟩, ⟨2, 2, .ro, true, 0⟩, ⟨3, 3, .ro, true, 0⟩, ⟨5, 4, .ro, true, 0⟩, ⟨9, 6, .ro, true, 0⟩, ⟨10, 10, .ro, true, 0⟩, ⟨11, 11, .ro, true, 0⟩, ⟨14, 12, .ro, true, 0⟩, ⟨17, 15, .ro, true, 0⟩, ⟨19, 18, .ro, true, 0⟩, ⟨37, 20, .ro, true, 0⟩, ⟨45, 38, .ro, true, 0⟩]⟩,
  -- MC_CE dw1 (R252): PA
  ⟨0x1008, 0x20, 16, [⟨63, 0, .ro, true, 0⟩]⟩,
  -- MC_CE dw2 (R252): FIRST
  ⟨0x1010, 0x20, 16, [⟨63, 0, .ro, true, 0⟩]⟩,
  -- MC_CE dw3 (R252): LAST
  ⟨0x1018, 0x20, 16, [⟨63, 0, .ro, true, 0⟩]⟩,
  -- TRW_CMD (R262): OP
  ⟨0x20000, 0x0, 1, [⟨1, 0, .wo, false, 0⟩]⟩,
  -- TRW_CFG (R262): MODE, IRQ_UE, IRQ_DONE, RATE
  ⟨0x20008, 0x0, 1, [⟨0, 0, .rw, false, 1⟩, ⟨1, 1, .rw, false, 0⟩, ⟨2, 2, .rw, false, 0⟩, ⟨31, 16, .rw, false, 0⟩]⟩,
  -- TRW_START/TRW_END (R262): LINE
  ⟨0x20010, 0x8, 2, [⟨51, 6, .rw, false, 0⟩]⟩,
  -- TRW_STAT (R262): BUSY, DONE, ABORTED, CMD_ERR, SUMERR, MISSED
  ⟨0x20020, 0x0, 1, [⟨0, 0, .ro, false, 0⟩, ⟨1, 1, .w1c, false, 0⟩, ⟨2, 2, .w1c, false, 0⟩, ⟨3, 3, .w1c, false, 0⟩, ⟨4, 4, .w1c, false, 0⟩, ⟨15, 8, .rw, false, 0⟩]⟩,
  -- TRW_POS (R262): LINE
  ⟨0x20028, 0x0, 1, [⟨51, 6, .ro, false, 0⟩]⟩,
  -- TRW_IRQ (R262): HTID, VECTOR, EN
  ⟨0x20030, 0x0, 1, [⟨10, 0, .rw, false, 0⟩, ⟨23, 16, .rw, false, 64⟩, ⟨31, 31, .rw, false, 0⟩]⟩,
  -- TRW_SUMADDR (R262): EN, ADDR
  ⟨0x20038, 0x0, 1, [⟨0, 0, .rw, false, 0⟩, ⟨51, 7, .rw, false, 0⟩]⟩,
  -- TRW_SUM (R262): TRW_SUM
  ⟨0x20100, 0x8, 16, [⟨63, 0, .ro, false, 0⟩]⟩,
  -- ERR_STATUS (R429): V, OVF, CLASS, ADDRV, MCREQ, CODE, UNIT, HTID, HTIDV
  ⟨0xc00, 0x0, 1, [⟨0, 0, .w1c, true, 0⟩, ⟨1, 1, .w1c, true, 0⟩, ⟨3, 2, .ro, true, 0⟩, ⟨4, 4, .ro, true, 0⟩, ⟨5, 5, .ro, true, 0⟩, ⟨15, 8, .ro, true, 0⟩, ⟨19, 16, .ro, false, 0⟩, ⟨30, 20, .ro, true, 0⟩, ⟨31, 31, .ro, true, 0⟩]⟩,
  -- ERR_ADDR (R429): ERR_ADDR
  ⟨0xc08, 0x0, 1, [⟨63, 0, .ro, true, 0⟩]⟩,
  -- ERR_INFO (R429): ERR_INFO
  ⟨0xc10, 0x0, 1, [⟨63, 0, .ro, true, 0⟩]⟩,
  -- ERR_TIME (R429): ERR_TIME
  ⟨0xc18, 0x0, 1, [⟨63, 0, .ro, true, 0⟩]⟩,
  -- ERR_CNT (R429): CE, UE
  ⟨0xc20, 0x0, 1, [⟨31, 0, .ro, true, 0⟩, ⟨47, 32, .ro, true, 0⟩]⟩,
  -- ERR_CFG (R429): THRESH, IRQ_DEF, WINDOW
  ⟨0xc28, 0x0, 1, [⟨7, 0, .rw, false, 0⟩, ⟨8, 8, .rw, false, 0⟩, ⟨63, 32, .rw, false, 3600⟩]⟩,
  -- ERR_IRQ (R429): HTID, VECTOR, EN
  ⟨0xc30, 0x0, 1, [⟨10, 0, .rw, false, 0⟩, ⟨23, 16, .rw, false, 64⟩, ⟨31, 31, .rw, false, 0⟩]⟩,
  -- ERR_WIN (R429): COUNT, START
  ⟨0xc38, 0x0, 1, [⟨7, 0, .rw, false, 0⟩, ⟨63, 16, .ro, false, 0⟩]⟩]

/-- The registers of one `lk` window (header lines and field tables of the spec). -/
def lkRegs : List RegRow := [
  -- LK_STAT (R290): STATE, ROLE, STBY_FOR, ACT, SPTX, SPRX, LANEX, RETRAINS, DOWNCAUSE
  ⟨0x0, 0x0, 1, [⟨3, 0, .ro, false, 0⟩, ⟨7, 4, .ro, false, 0⟩, ⟨11, 8, .ro, false, 0⟩, ⟨12, 12, .ro, false, 0⟩, ⟨13, 13, .ro, true, 0⟩, ⟨14, 14, .ro, true, 0⟩, ⟨15, 15, .ro, true, 0⟩, ⟨31, 16, .ro, true, 0⟩, ⟨34, 32, .ro, false, 0⟩]⟩,
  -- LK_CTL (R290): CMD, CMD_ERR
  ⟨0x8, 0x0, 1, [⟨1, 0, .wo, false, 0⟩, ⟨2, 2, .w1c, false, 0⟩]⟩,
  -- LK_NBR (R290): ID, ROLE, VALID
  ⟨0x10, 0x0, 1, [⟨14, 0, .ro, false, 0⟩, ⟨18, 15, .ro, false, 0⟩, ⟨19, 19, .ro, false, 0⟩]⟩,
  -- LK_LANECFG (R290): THRESH, WINDOW
  ⟨0x18, 0x0, 1, [⟨7, 0, .rw, false, 16⟩, ⟨63, 32, .rw, false, 3600⟩]⟩,
  -- LK_CNT (R290): CRCERR, REPLAY
  ⟨0x20, 0x0, 1, [⟨31, 0, .ro, false, 0⟩, ⟨63, 32, .ro, false, 0⟩]⟩,
  -- ERR_STATUS (R429): V, OVF, CLASS, ADDRV, MCREQ, CODE, UNIT, HTID, HTIDV
  ⟨0xc00, 0x0, 1, [⟨0, 0, .w1c, true, 0⟩, ⟨1, 1, .w1c, true, 0⟩, ⟨3, 2, .ro, true, 0⟩, ⟨4, 4, .ro, true, 0⟩, ⟨5, 5, .ro, true, 0⟩, ⟨15, 8, .ro, true, 0⟩, ⟨19, 16, .ro, false, 0⟩, ⟨30, 20, .ro, true, 0⟩, ⟨31, 31, .ro, true, 0⟩]⟩,
  -- ERR_ADDR (R429): ERR_ADDR
  ⟨0xc08, 0x0, 1, [⟨63, 0, .ro, true, 0⟩]⟩,
  -- ERR_INFO (R429): ERR_INFO
  ⟨0xc10, 0x0, 1, [⟨63, 0, .ro, true, 0⟩]⟩,
  -- ERR_TIME (R429): ERR_TIME
  ⟨0xc18, 0x0, 1, [⟨63, 0, .ro, true, 0⟩]⟩,
  -- ERR_CNT (R429): CE, UE
  ⟨0xc20, 0x0, 1, [⟨31, 0, .ro, true, 0⟩, ⟨47, 32, .ro, true, 0⟩]⟩,
  -- ERR_CFG (R429): THRESH, IRQ_DEF, WINDOW
  ⟨0xc28, 0x0, 1, [⟨7, 0, .rw, false, 0⟩, ⟨8, 8, .rw, false, 0⟩, ⟨63, 32, .rw, false, 3600⟩]⟩,
  -- ERR_IRQ (R429): HTID, VECTOR, EN
  ⟨0xc30, 0x0, 1, [⟨10, 0, .rw, false, 0⟩, ⟨23, 16, .rw, false, 64⟩, ⟨31, 31, .rw, false, 0⟩]⟩,
  -- ERR_WIN (R429): COUNT, START
  ⟨0xc38, 0x0, 1, [⟨7, 0, .rw, false, 0⟩, ⟨63, 16, .ro, false, 0⟩]⟩]

/-- The registers of one `rc` window (header lines and field tables of the spec). -/
def rcRegs : List RegRow := [
  -- PCIE_RCID (R380): RC, PORTS
  ⟨0x0, 0x0, 1, [⟨1, 0, .ro, false, 0⟩, ⟨15, 8, .ro, false, 0⟩]⟩,
  -- PCIE_APBASE/PCIE_APLIMIT (R380): GIB
  ⟨0x8, 0x8, 2, [⟨51, 30, .ro, false, 0⟩]⟩,
  -- PCIE_ATSTO (R380): MS
  ⟨0x18, 0x0, 1, [⟨15, 0, .rw, false, 10⟩]⟩,
  -- PCIE_RPSTAT (R380): UP, FLIT, SPEED, WIDTH, DPC, INTXDROP, STDROP
  ⟨0x100, 0x10, 8, [⟨0, 0, .ro, false, 0⟩, ⟨3, 3, .ro, false, 0⟩, ⟨6, 4, .ro, false, 0⟩, ⟨12, 7, .ro, false, 0⟩, ⟨13, 13, .ro, false, 0⟩, ⟨31, 16, .rw, false, 0⟩, ⟨47, 32, .rw, false, 0⟩]⟩,
  -- PCIE_RPCTL (R380): EPWR
  ⟨0x108, 0x10, 8, [⟨0, 0, .rw, false, 0⟩]⟩,
  -- ERR_STATUS (R429): V, OVF, CLASS, ADDRV, MCREQ, CODE, UNIT, HTID, HTIDV
  ⟨0xc00, 0x0, 1, [⟨0, 0, .w1c, true, 0⟩, ⟨1, 1, .w1c, true, 0⟩, ⟨3, 2, .ro, true, 0⟩, ⟨4, 4, .ro, true, 0⟩, ⟨5, 5, .ro, true, 0⟩, ⟨15, 8, .ro, true, 0⟩, ⟨19, 16, .ro, false, 0⟩, ⟨30, 20, .ro, true, 0⟩, ⟨31, 31, .ro, true, 0⟩]⟩,
  -- ERR_ADDR (R429): ERR_ADDR
  ⟨0xc08, 0x0, 1, [⟨63, 0, .ro, true, 0⟩]⟩,
  -- ERR_INFO (R429): ERR_INFO
  ⟨0xc10, 0x0, 1, [⟨63, 0, .ro, true, 0⟩]⟩,
  -- ERR_TIME (R429): ERR_TIME
  ⟨0xc18, 0x0, 1, [⟨63, 0, .ro, true, 0⟩]⟩,
  -- ERR_CNT (R429): CE, UE
  ⟨0xc20, 0x0, 1, [⟨31, 0, .ro, true, 0⟩, ⟨47, 32, .ro, true, 0⟩]⟩,
  -- ERR_CFG (R429): THRESH, IRQ_DEF, WINDOW
  ⟨0xc28, 0x0, 1, [⟨7, 0, .rw, false, 0⟩, ⟨8, 8, .rw, false, 0⟩, ⟨63, 32, .rw, false, 3600⟩]⟩,
  -- ERR_IRQ (R429): HTID, VECTOR, EN
  ⟨0xc30, 0x0, 1, [⟨10, 0, .rw, false, 0⟩, ⟨23, 16, .rw, false, 64⟩, ⟨31, 31, .rw, false, 0⟩]⟩,
  -- ERR_WIN (R429): COUNT, START
  ⟨0xc38, 0x0, 1, [⟨7, 0, .rw, false, 0⟩, ⟨63, 16, .ro, false, 0⟩]⟩]

/-- The registers of one `cx` window (header lines and field tables of the spec). -/
def cxRegs : List RegRow := [
  -- ERR_STATUS (R429): V, OVF, CLASS, ADDRV, MCREQ, CODE, UNIT, HTID, HTIDV
  ⟨0xc00, 0x0, 1, [⟨0, 0, .w1c, true, 0⟩, ⟨1, 1, .w1c, true, 0⟩, ⟨3, 2, .ro, true, 0⟩, ⟨4, 4, .ro, true, 0⟩, ⟨5, 5, .ro, true, 0⟩, ⟨15, 8, .ro, true, 0⟩, ⟨19, 16, .ro, false, 0⟩, ⟨30, 20, .ro, true, 0⟩, ⟨31, 31, .ro, true, 0⟩]⟩,
  -- ERR_ADDR (R429): ERR_ADDR
  ⟨0xc08, 0x0, 1, [⟨63, 0, .ro, true, 0⟩]⟩,
  -- ERR_INFO (R429): ERR_INFO
  ⟨0xc10, 0x0, 1, [⟨63, 0, .ro, true, 0⟩]⟩,
  -- ERR_TIME (R429): ERR_TIME
  ⟨0xc18, 0x0, 1, [⟨63, 0, .ro, true, 0⟩]⟩,
  -- ERR_CNT (R429): CE, UE
  ⟨0xc20, 0x0, 1, [⟨31, 0, .ro, true, 0⟩, ⟨47, 32, .ro, true, 0⟩]⟩,
  -- ERR_CFG (R429): THRESH, IRQ_DEF, WINDOW
  ⟨0xc28, 0x0, 1, [⟨7, 0, .rw, false, 0⟩, ⟨8, 8, .rw, false, 0⟩, ⟨63, 32, .rw, false, 3600⟩]⟩,
  -- ERR_IRQ (R429): HTID, VECTOR, EN
  ⟨0xc30, 0x0, 1, [⟨10, 0, .rw, false, 0⟩, ⟨23, 16, .rw, false, 64⟩, ⟨31, 31, .rw, false, 0⟩]⟩,
  -- ERR_WIN (R429): COUNT, START
  ⟨0xc38, 0x0, 1, [⟨7, 0, .rw, false, 0⟩, ⟨63, 16, .ro, false, 0⟩]⟩]

/-- The registers of one `iotu` window (header lines and field tables of the spec). -/
def iotuRegs : List RegRow := [
  -- IOTU_CTL (R162): EN
  ⟨0x0, 0x0, 1, [⟨0, 0, .rw, false, 0⟩]⟩,
  -- IOTU_CTXBASE (R162): BASE
  ⟨0x8, 0x0, 1, [⟨57, 12, .rw, false, 0⟩]⟩,
  -- IOTU_FQBASE (R162): LOG2N, BASE
  ⟨0x10, 0x0, 1, [⟨4, 0, .rw, false, 4⟩, ⟨57, 12, .rw, false, 0⟩]⟩,
  -- IOTU_FQPTR (R162): HEAD, TAIL, OVF, DROPS
  ⟨0x18, 0x0, 1, [⟨15, 0, .rw, false, 0⟩, ⟨31, 16, .ro, false, 0⟩, ⟨32, 32, .w1c, false, 0⟩, ⟨63, 48, .rw, false, 0⟩]⟩,
  -- IOTU_FQIRQ (R162): HTID, VECTOR, EN
  ⟨0x20, 0x0, 1, [⟨10, 0, .rw, false, 0⟩, ⟨23, 16, .rw, false, 64⟩, ⟨31, 31, .rw, false, 0⟩]⟩,
  -- IOTU_INV (R162): TYPE, PV, ATS, SRC, PASID
  ⟨0x28, 0x0, 1, [⟨2, 0, .wo, false, 0⟩, ⟨3, 3, .wo, false, 0⟩, ⟨4, 4, .wo, false, 0⟩, ⟨31, 16, .wo, false, 0⟩, ⟨51, 32, .wo, false, 0⟩]⟩,
  -- IOTU_INVADDR (R162): PAGE
  ⟨0x30, 0x0, 1, [⟨56, 12, .rw, false, 0⟩]⟩,
  -- IOTU_INVSTAT (R162): BUSY, OVR, ATSERR
  ⟨0x38, 0x0, 1, [⟨0, 0, .ro, false, 0⟩, ⟨1, 1, .w1c, false, 0⟩, ⟨2, 2, .w1c, false, 0⟩]⟩]

/-- The registers of one `cxbar` window (header lines and field tables of the spec). -/
def cxbarRegs : List RegRow := [
  -- CX_ID (R407): CX, CPIPES, DPIPES, QUEUES, CREDITS, MAXVF
  ⟨0x0, 0x0, 1, [⟨0, 0, .ro, false, 0⟩, ⟨7, 4, .ro, false, 4⟩, ⟨11, 8, .ro, false, 4⟩, ⟨26, 16, .ro, false, 1024⟩, ⟨46, 32, .ro, false, 0x4000⟩, ⟨56, 48, .ro, false, 256⟩]⟩,
  -- CX_INST_CFG (R407): EN, DLEN, QBASE, QCOUNT, WEIGHT
  ⟨0x10000, 0x40, 257, [⟨0, 0, .rw, false, 0⟩, ⟨1, 1, .rw, false, 0⟩, ⟨25, 16, .rw, false, 0⟩, ⟨42, 32, .rw, false, 0⟩, ⟨55, 48, .rw, false, 1⟩]⟩,
  -- CX_INST_CRED (R407): CREDITS, INUSE
  ⟨0x10008, 0x40, 257, [⟨14, 0, .rw, false, 0⟩, ⟨30, 16, .ro, false, 0⟩]⟩,
  -- CX_INST_STAT (R407): GEN, RESETTING, CMD_ERR, DLOVF
  ⟨0x10010, 0x40, 257, [⟨15, 0, .ro, false, 0⟩, ⟨16, 16, .ro, false, 0⟩, ⟨17, 17, .w1c, false, 0⟩, ⟨18, 18, .w1c, false, 0⟩]⟩,
  -- CX_INST_CMD (R407): RESET
  ⟨0x10018, 0x40, 257, [⟨0, 0, .wo, false, 0⟩]⟩,
  -- CX_INST_DLBASE (R407): PAGE
  ⟨0x10020, 0x40, 257, [⟨51, 12, .rw, false, 0⟩]⟩,
  -- CX_INST_DLLIMIT (R407): PAGE
  ⟨0x10028, 0x40, 257, [⟨51, 12, .rw, false, 0⟩]⟩,
  -- CX_Q_CFG (R407): EN, LOG2N, IRQV
  ⟨0x40000, 0x40, 1024, [⟨0, 0, .rw, false, 0⟩, ⟨4, 1, .rw, false, 6⟩, ⟨25, 16, .rw, false, 0⟩]⟩,
  -- CX_Q_BASE (R407): BASE
  ⟨0x40008, 0x40, 1024, [⟨63, 12, .rw, false, 0⟩]⟩,
  -- CX_Q_PTR (R407): HEAD, TAIL
  ⟨0x40010, 0x40, 1024, [⟨15, 0, .rw, false, 0⟩, ⟨31, 16, .rw, false, 0⟩]⟩,
  -- CX_Q_STAT (R407): IDLE, DBERR, FETCHERR, CRERR, CMD_ERR, OUTSTANDING, COMPLETED
  ⟨0x40018, 0x40, 1024, [⟨0, 0, .ro, false, 1⟩, ⟨1, 1, .w1c, false, 0⟩, ⟨2, 2, .w1c, false, 0⟩, ⟨3, 3, .w1c, false, 0⟩, ⟨4, 4, .w1c, false, 0⟩, ⟨31, 16, .ro, false, 0⟩, ⟨63, 32, .rw, false, 0⟩]⟩]

/-- The registers of one `tdm` window (header lines and field tables of the spec). -/
def tdmRegs : List RegRow := [
  -- TDM_STAT (R344): STATE, LK5UP, LK11UP, FSIN, ALIVE, READY, HELDDIV, IOCLOSED, LASTCODE
  ⟨0x0, 0x0, 1, [⟨3, 0, .ro, false, 0⟩, ⟨4, 4, .ro, false, 0⟩, ⟨5, 5, .ro, false, 0⟩, ⟨6, 6, .ro, false, 0⟩, ⟨7, 7, .ro, false, 0⟩, ⟨8, 8, .ro, false, 0⟩, ⟨9, 9, .ro, false, 0⟩, ⟨10, 10, .ro, false, 0⟩, ⟨23, 16, .ro, true, 0⟩]⟩,
  -- TDM_CFG (R344): LAG_LIMIT, AUTO_IO, AUTO_REJOIN, OUTPOL, TMAX, FW_HTID, CUT_PAGES
  ⟨0x8, 0x0, 1, [⟨6, 0, .rw, false, 0⟩, ⟨8, 8, .rw, false, 1⟩, ⟨9, 9, .rw, false, 0⟩, ⟨15, 12, .rw, false, 0⟩, ⟨23, 16, .rw, false, 5⟩, ⟨42, 32, .rw, false, 0⟩, ⟨63, 48, .rw, false, 0x2000⟩]⟩,
  -- TDM_CMD (R344): CMD, CMD_ERR
  ⟨0x10, 0x0, 1, [⟨3, 0, .wo, false, 0⟩, ⟨4, 4, .w1c, false, 0⟩]⟩,
  -- TDM_CUTTIME (R344): NS
  ⟨0x18, 0x0, 1, [⟨63, 0, .rw, false, 0⟩]⟩,
  -- TDM_LAG (R344): LAG, MAXLAG
  ⟨0x20, 0x0, 1, [⟨31, 0, .ro, false, 0⟩, ⟨63, 32, .rw, false, 0⟩]⟩,
  -- TDM_DBMAP (R344): EN, BASE
  ⟨0x28, 0x0, 1, [⟨0, 0, .rw, false, 0⟩, ⟨51, 12, .rw, false, 0⟩]⟩,
  -- TDM_REPAIR (R344): GO, BUSY, CMD_ERR, PAGE
  ⟨0x30, 0x0, 1, [⟨0, 0, .wo, false, 0⟩, ⟨1, 1, .ro, false, 0⟩, ⟨2, 2, .w1c, false, 0⟩, ⟨51, 12, .wo, false, 0⟩]⟩,
  -- TDM_CNT (R344): PROMOTIONS, DIVERGENCES, REJOINS, AMBIG
  ⟨0x38, 0x0, 1, [⟨15, 0, .ro, true, 0⟩, ⟨31, 16, .ro, true, 0⟩, ⟨47, 32, .ro, true, 0⟩, ⟨63, 48, .ro, true, 0⟩]⟩,
  -- ERR_STATUS (R429): V, OVF, CLASS, ADDRV, MCREQ, CODE, UNIT, HTID, HTIDV
  ⟨0xc00, 0x0, 1, [⟨0, 0, .w1c, true, 0⟩, ⟨1, 1, .w1c, true, 0⟩, ⟨3, 2, .ro, true, 0⟩, ⟨4, 4, .ro, true, 0⟩, ⟨5, 5, .ro, true, 0⟩, ⟨15, 8, .ro, true, 0⟩, ⟨19, 16, .ro, false, 0⟩, ⟨30, 20, .ro, true, 0⟩, ⟨31, 31, .ro, true, 0⟩]⟩,
  -- ERR_ADDR (R429): ERR_ADDR
  ⟨0xc08, 0x0, 1, [⟨63, 0, .ro, true, 0⟩]⟩,
  -- ERR_INFO (R429): ERR_INFO
  ⟨0xc10, 0x0, 1, [⟨63, 0, .ro, true, 0⟩]⟩,
  -- ERR_TIME (R429): ERR_TIME
  ⟨0xc18, 0x0, 1, [⟨63, 0, .ro, true, 0⟩]⟩,
  -- ERR_CNT (R429): CE, UE
  ⟨0xc20, 0x0, 1, [⟨31, 0, .ro, true, 0⟩, ⟨47, 32, .ro, true, 0⟩]⟩,
  -- ERR_CFG (R429): THRESH, IRQ_DEF, WINDOW
  ⟨0xc28, 0x0, 1, [⟨7, 0, .rw, false, 0⟩, ⟨8, 8, .rw, false, 0⟩, ⟨63, 32, .rw, false, 3600⟩]⟩,
  -- ERR_IRQ (R429): HTID, VECTOR, EN
  ⟨0xc30, 0x0, 1, [⟨10, 0, .rw, false, 0⟩, ⟨23, 16, .rw, false, 64⟩, ⟨31, 31, .rw, false, 0⟩]⟩,
  -- ERR_WIN (R429): COUNT, START
  ⟨0xc38, 0x0, 1, [⟨7, 0, .rw, false, 0⟩, ⟨63, 16, .ro, false, 0⟩]⟩]

/-- The registers of one `sc` window (header lines and field tables of the spec). -/
def scRegs : List RegRow := [
  -- SC_PART_ID (R2): VENDOR, PART, COURSES, DDR_CH, LK_COUNT, CX_METHOD, STEPPING
  ⟨0x0, 0x0, 1, [⟨15, 0, .ro, false, 0x1f6b⟩, ⟨31, 16, .ro, false, 0x7256⟩, ⟨37, 32, .ro, false, 32⟩, ⟨42, 38, .ro, false, 16⟩, ⟨46, 43, .ro, false, 12⟩, ⟨48, 47, .ro, false, 1⟩, ⟨59, 56, .ro, false, 0⟩]⟩,
  -- SC_UID0/SC_UID1 (R424): UID
  ⟨0x10, 0x8, 2, [⟨63, 0, .ro, false, 0⟩]⟩,
  -- SC_CACHE_MODE (R175): NOALLOC, BUSY, CMD_ERR
  ⟨0x100, 0x0, 1, [⟨0, 0, .rw, false, 1⟩, ⟨1, 1, .ro, false, 0⟩, ⟨2, 2, .w1c, false, 0⟩]⟩,
  -- SC_BOOTSTAT (R424): PHASE, HALT, COPY, AVALID, BVALID, SEQ, FSCOUNT
  ⟨0x200, 0x0, 1, [⟨3, 0, .ro, false, 0⟩, ⟨7, 4, .ro, false, 0⟩, ⟨8, 8, .ro, false, 0⟩, ⟨9, 9, .ro, false, 0⟩, ⟨10, 10, .ro, false, 0⟩, ⟨47, 16, .ro, false, 0⟩, ⟨55, 48, .ro, true, 0⟩]⟩,
  -- SC_RSTCAUSE (R424): CAUSE, X, Y, CLASS
  ⟨0x208, 0x0, 1, [⟨2, 0, .ro, true, 0⟩, ⟨11, 8, .ro, true, 0⟩, ⟨15, 12, .ro, true, 0⟩, ⟨17, 16, .ro, true, 0⟩]⟩,
  -- SC_RESET (R424): WARM, KEY
  ⟨0x210, 0x0, 1, [⟨0, 0, .wo, false, 0⟩, ⟨15, 8, .wo, false, 0⟩]⟩,
  -- SC_MEMINIT (R424): DONE, LIMIT
  ⟨0x218, 0x0, 1, [⟨0, 0, .ro, true, 0⟩, ⟨51, 12, .ro, true, 0⟩]⟩,
  -- SC_MCTARGET (R435): HTID
  ⟨0x220, 0x0, 1, [⟨10, 0, .rw, false, 0⟩]⟩,
  -- SC_ODOFUSE (R444): YEARS
  ⟨0x228, 0x0, 1, [⟨31, 0, .ro, false, 0⟩]⟩,
  -- SC_ERRPEND (R434): STOP
  ⟨0x230, 0x8, 3, [⟨63, 0, .ro, false, 0⟩]⟩,
  -- SC_DBGSTAT (R426): UNLOCKED, JTAG, SHIMMY, FAILS
  ⟨0x300, 0x0, 1, [⟨0, 0, .ro, false, 0⟩, ⟨1, 1, .ro, false, 0⟩, ⟨2, 2, .ro, false, 0⟩, ⟨5, 3, .ro, false, 0⟩]⟩,
  -- ERR_STATUS (R429): V, OVF, CLASS, ADDRV, MCREQ, CODE, UNIT, HTID, HTIDV
  ⟨0xc00, 0x0, 1, [⟨0, 0, .w1c, true, 0⟩, ⟨1, 1, .w1c, true, 0⟩, ⟨3, 2, .ro, true, 0⟩, ⟨4, 4, .ro, true, 0⟩, ⟨5, 5, .ro, true, 0⟩, ⟨15, 8, .ro, true, 0⟩, ⟨19, 16, .ro, false, 0⟩, ⟨30, 20, .ro, true, 0⟩, ⟨31, 31, .ro, true, 0⟩]⟩,
  -- ERR_ADDR (R429): ERR_ADDR
  ⟨0xc08, 0x0, 1, [⟨63, 0, .ro, true, 0⟩]⟩,
  -- ERR_INFO (R429): ERR_INFO
  ⟨0xc10, 0x0, 1, [⟨63, 0, .ro, true, 0⟩]⟩,
  -- ERR_TIME (R429): ERR_TIME
  ⟨0xc18, 0x0, 1, [⟨63, 0, .ro, true, 0⟩]⟩,
  -- ERR_CNT (R429): CE, UE
  ⟨0xc20, 0x0, 1, [⟨31, 0, .ro, true, 0⟩, ⟨47, 32, .ro, true, 0⟩]⟩,
  -- ERR_CFG (R429): THRESH, IRQ_DEF, WINDOW
  ⟨0xc28, 0x0, 1, [⟨7, 0, .rw, false, 0⟩, ⟨8, 8, .rw, false, 0⟩, ⟨63, 32, .rw, false, 3600⟩]⟩,
  -- ERR_IRQ (R429): HTID, VECTOR, EN
  ⟨0xc30, 0x0, 1, [⟨10, 0, .rw, false, 0⟩, ⟨23, 16, .rw, false, 64⟩, ⟨31, 31, .rw, false, 0⟩]⟩,
  -- ERR_WIN (R429): COUNT, START
  ⟨0xc38, 0x0, 1, [⟨7, 0, .rw, false, 0⟩, ⟨63, 16, .ro, false, 0⟩]⟩]

/-- The registers of one `cad` window (header lines and field tables of the spec). -/
def cadRegs : List RegRow := [
  -- CAD_CFG (R359): EN, POL, WIN, ACQ_EDGES, LOCK
  ⟨0x0, 0x0, 1, [⟨0, 0, .rwl, false, 0⟩, ⟨1, 1, .rwl, false, 0⟩, ⟨15, 8, .rwl, false, 0⟩, ⟨19, 16, .rwl, false, 4⟩, ⟨63, 63, .w1s, false, 0⟩]⟩,
  -- CAD_STAT (R359): STATE, SLEWING, TODVALID, TRACEABLE, CMD_ERR, GOOD, HOLDSEC
  ⟨0x8, 0x0, 1, [⟨1, 0, .ro, true, 0⟩, ⟨2, 2, .ro, true, 0⟩, ⟨3, 3, .ro, false, 0⟩, ⟨4, 4, .ro, true, 0⟩, ⟨5, 5, .w1c, false, 0⟩, ⟨11, 8, .ro, true, 0⟩, ⟨63, 32, .ro, true, 0⟩]⟩,
  -- CAD_PHASE (R359): E, REMAIN
  ⟨0x10, 0x0, 1, [⟨31, 0, .ro, true, 0⟩, ⟨63, 32, .ro, true, 0⟩]⟩,
  -- CAD_TIME_NS (R359): FRAC, NS
  ⟨0x18, 0x0, 1, [⟨15, 0, .ro, false, 0⟩, ⟨47, 16, .ro, false, 0⟩]⟩,
  -- CAD_TIME_SEC (R359): SEC
  ⟨0x20, 0x0, 1, [⟨47, 0, .ro, false, 0⟩]⟩,
  -- CAD_FREQ (R359): ADJ_F, ADJ
  ⟨0x28, 0x0, 1, [⟨31, 0, .rwl, true, 0⟩, ⟨63, 32, .ro, true, 0⟩]⟩,
  -- CAD_CNT (R359): TOOFAST, OUTWIN, TODERR, SECMIS
  ⟨0x30, 0x0, 1, [⟨15, 0, .rw, true, 0⟩, ⟨31, 16, .rw, true, 0⟩, ⟨47, 32, .rw, true, 0⟩, ⟨63, 48, .rw, true, 0⟩]⟩,
  -- CAD_TOD0/CAD_TOD1 (R359): TOD
  ⟨0x38, 0x8, 2, [⟨63, 0, .ro, true, 0⟩]⟩,
  -- CAD_SCHED dw0 (R356): EN, PER, ACTION, ALL, FIRED, MISSED, HTID, MCMASK
  ⟨0x10000, 0x20, 256, [⟨0, 0, .rw, false, 0⟩, ⟨1, 1, .rw, false, 0⟩, ⟨4, 2, .rw, false, 0⟩, ⟨5, 5, .rw, false, 0⟩, ⟨6, 6, .w1c, false, 0⟩, ⟨15, 8, .rw, false, 0⟩, ⟨26, 16, .rw, false, 0⟩, ⟨47, 32, .rw, false, 0⟩]⟩,
  -- CAD_SCHED dw1 (R356): TIME
  ⟨0x10008, 0x20, 256, [⟨63, 0, .rw, false, 0⟩]⟩,
  -- CAD_SCHED dw2 (R356): PERIOD
  ⟨0x10010, 0x20, 256, [⟨63, 0, .rw, false, 0⟩]⟩,
  -- CAD_SCHED dw3 (R356): NEXT
  ⟨0x10018, 0x20, 256, [⟨63, 0, .ro, false, 0⟩]⟩,
  -- ERR_STATUS (R429): V, OVF, CLASS, ADDRV, MCREQ, CODE, UNIT, HTID, HTIDV
  ⟨0xc00, 0x0, 1, [⟨0, 0, .w1c, true, 0⟩, ⟨1, 1, .w1c, true, 0⟩, ⟨3, 2, .ro, true, 0⟩, ⟨4, 4, .ro, true, 0⟩, ⟨5, 5, .ro, true, 0⟩, ⟨15, 8, .ro, true, 0⟩, ⟨19, 16, .ro, false, 0⟩, ⟨30, 20, .ro, true, 0⟩, ⟨31, 31, .ro, true, 0⟩]⟩,
  -- ERR_ADDR (R429): ERR_ADDR
  ⟨0xc08, 0x0, 1, [⟨63, 0, .ro, true, 0⟩]⟩,
  -- ERR_INFO (R429): ERR_INFO
  ⟨0xc10, 0x0, 1, [⟨63, 0, .ro, true, 0⟩]⟩,
  -- ERR_TIME (R429): ERR_TIME
  ⟨0xc18, 0x0, 1, [⟨63, 0, .ro, true, 0⟩]⟩,
  -- ERR_CNT (R429): CE, UE
  ⟨0xc20, 0x0, 1, [⟨31, 0, .ro, true, 0⟩, ⟨47, 32, .ro, true, 0⟩]⟩,
  -- ERR_CFG (R429): THRESH, IRQ_DEF, WINDOW
  ⟨0xc28, 0x0, 1, [⟨7, 0, .rw, false, 0⟩, ⟨8, 8, .rw, false, 0⟩, ⟨63, 32, .rw, false, 3600⟩]⟩,
  -- ERR_IRQ (R429): HTID, VECTOR, EN
  ⟨0xc30, 0x0, 1, [⟨10, 0, .rw, false, 0⟩, ⟨23, 16, .rw, false, 64⟩, ⟨31, 31, .rw, false, 0⟩]⟩,
  -- ERR_WIN (R429): COUNT, START
  ⟨0xc38, 0x0, 1, [⟨7, 0, .rw, false, 0⟩, ⟨63, 16, .ro, false, 0⟩]⟩]

/-- The registers of one `odo` window (header lines and field tables of the spec). -/
def odoRegs : List RegRow := [
  -- ODO_STAT (R444): BUSY, FRESH, ROLLBACK, NOSPACE, CMD_ERR, SECTOR, TICK, DEFER
  ⟨0x0, 0x0, 1, [⟨0, 0, .ro, false, 0⟩, ⟨1, 1, .ro, false, 0⟩, ⟨2, 2, .ro, false, 0⟩, ⟨3, 3, .ro, false, 0⟩, ⟨4, 4, .w1c, false, 0⟩, ⟨13, 8, .ro, false, 0⟩, ⟨31, 16, .ro, false, 0⟩, ⟨47, 32, .ro, false, 0⟩]⟩,
  -- ODO_SEQ (R444): SEQ
  ⟨0x8, 0x0, 1, [⟨63, 0, .ro, false, 0⟩]⟩,
  -- ODO_CMD (R444): SNAP
  ⟨0x10, 0x0, 1, [⟨0, 0, .wo, false, 0⟩]⟩,
  -- ODO_EVDATA0/1 (R444): EVDATA
  ⟨0x18, 0x8, 2, [⟨63, 0, .rw, false, 0⟩]⟩,
  -- ODO_EVCODE (R444): CODE
  ⟨0x28, 0x0, 1, [⟨7, 0, .wo, false, 0⟩]⟩,
  -- ODO_LIVE (R444): LIVE
  ⟨0x1000, 0x8, 512, [⟨63, 0, .ro, false, 0⟩]⟩]

/-- The registers of one `shm` window (header lines and field tables of the spec). -/
def shmRegs : List RegRow := [
  -- SHM_CTL (R464): ARM, DISARM
  ⟨0x0, 0x0, 1, [⟨0, 0, .wo, false, 0⟩, ⟨1, 1, .wo, false, 0⟩]⟩,
  -- SHM_STAT (R464): ARMED, CMD_ERR
  ⟨0x8, 0x0, 1, [⟨0, 0, .ro, false, 0⟩, ⟨1, 1, .w1c, false, 0⟩]⟩,
  -- SHM_START (R464): START
  ⟨0x10, 0x0, 1, [⟨63, 0, .rw, false, 0⟩]⟩,
  -- SHM_SLOT_CFG (R464): EN, KIND, TARGET
  ⟨0x1000, 0x40, 16, [⟨0, 0, .rw, false, 0⟩, ⟨3, 1, .rw, false, 0⟩, ⟨47, 16, .rw, false, 0⟩]⟩,
  -- SHM_SLOT_SEED (R464): SEED
  ⟨0x1008, 0x40, 16, [⟨31, 0, .rw, false, 1⟩]⟩,
  -- SHM_SLOT_PROB (R464): PROB
  ⟨0x1010, 0x40, 16, [⟨16, 0, .rw, false, 0⟩]⟩,
  -- SHM_SLOT_DLIM (R464): DMIN, DMAX
  ⟨0x1018, 0x40, 16, [⟨15, 0, .rw, false, 0⟩, ⟨31, 16, .rw, false, 0⟩]⟩,
  -- SHM_SLOT_EVENTS (R464): EVENTS
  ⟨0x1020, 0x40, 16, [⟨47, 0, .ro, false, 0⟩]⟩,
  -- SHM_SLOT_FIRES (R464): FIRES
  ⟨0x1028, 0x40, 16, [⟨47, 0, .ro, false, 0⟩]⟩,
  -- SHM_SLOT_R (R464): R
  ⟨0x1030, 0x40, 16, [⟨31, 0, .ro, false, 0⟩]⟩]

/-- The registers of one `mgt` window (header lines and field tables of the spec). -/
def mgtRegs : List RegRow := [
  -- MGT_ID (R452): ID
  ⟨0x0, 0x0, 1, [⟨63, 0, .ro, false, 0⟩]⟩,
  -- MGT_PWR (R452): P_1MS, P_1S, CAP
  ⟨0x100, 0x0, 1, [⟨15, 0, .ro, false, 0⟩, ⟨31, 16, .ro, false, 0⟩, ⟨47, 32, .ro, false, 0⟩]⟩,
  -- MGT_ENERGY (R452): ENERGY
  ⟨0x108, 0x0, 1, [⟨63, 0, .ro, false, 0⟩]⟩,
  -- MGT_TEMP (R452): TJMAX, HOTCOURSE, TF0, TF1
  ⟨0x110, 0x0, 1, [⟨7, 0, .ro, false, 0⟩, ⟨12, 8, .ro, false, 0⟩, ⟨23, 16, .ro, false, 0⟩, ⟨31, 24, .ro, false, 0⟩]⟩,
  -- MGT_PL (R452): PL1, PL2
  ⟨0x200, 0x0, 1, [⟨15, 0, .rw, false, 0⟩, ⟨31, 16, .rw, false, 0⟩]⟩,
  -- MGT_THERM (R452): THROT, TRIPPED
  ⟨0x208, 0x0, 1, [⟨7, 0, .rw, false, 105⟩, ⟨8, 8, .ro, false, 0⟩]⟩,
  -- MGT_ALERT (R452): MBX, THROT, ERR, RAIL
  ⟨0x210, 0x0, 1, [⟨0, 0, .w1c, false, 0⟩, ⟨1, 1, .w1c, false, 0⟩, ⟨2, 2, .w1c, false, 0⟩, ⟨3, 3, .w1c, false, 0⟩]⟩,
  -- MGT_ALERTEN (R452): MBX, THROT, ERR, RAIL
  ⟨0x218, 0x0, 1, [⟨0, 0, .rw, false, 0⟩, ⟨1, 1, .rw, false, 0⟩, ⟨2, 2, .rw, false, 0⟩, ⟨3, 3, .rw, false, 0⟩]⟩,
  -- MGT_FWTO (R452): MS
  ⟨0x318, 0x0, 1, [⟨15, 0, .rw, false, 1000⟩]⟩,
  -- MGT_COURSE (R452): TJ, POINT, THROT, PLCAP, GATED, MHZ, VSET
  ⟨0x400, 0x8, 32, [⟨7, 0, .ro, false, 0⟩, ⟨10, 8, .ro, false, 0⟩, ⟨11, 11, .ro, false, 0⟩, ⟨12, 12, .ro, false, 0⟩, ⟨13, 13, .ro, false, 0⟩, ⟨31, 16, .ro, false, 0⟩, ⟨47, 32, .ro, false, 0⟩]⟩,
  -- MGT_RAIL (R452): MV, DA, FAULT
  ⟨0x500, 0x8, 14, [⟨15, 0, .ro, false, 0⟩, ⟨31, 16, .ro, false, 0⟩, ⟨32, 32, .ro, false, 0⟩]⟩,
  -- MGT_CREQ (R452): MHZ
  ⟨0x600, 0x8, 32, [⟨15, 0, .rw, false, 0⟩]⟩,
  -- MGT_MBX_CMD (R449): OP, LEN, GO
  ⟨0x300, 0x0, 1, [⟨7, 0, .rw, false, 0⟩, ⟨20, 8, .rw, false, 0⟩, ⟨31, 31, .wo, false, 0⟩]⟩,
  -- MGT_MBX_ARG (R449): ARG
  ⟨0x308, 0x0, 1, [⟨63, 0, .rw, false, 0⟩]⟩,
  -- MGT_MBX_STAT (R449): BUSY, DONE, CMD_ERR, RESULT, RLEN
  ⟨0x310, 0x0, 1, [⟨0, 0, .ro, false, 0⟩, ⟨1, 1, .w1c, false, 0⟩, ⟨2, 2, .w1c, false, 0⟩, ⟨15, 8, .ro, false, 0⟩, ⟨28, 16, .ro, false, 0⟩]⟩,
  -- MGT_MBX data (R449): DATA
  ⟨0x1000, 0x8, 512, [⟨63, 0, .rw, false, 0⟩]⟩,
  -- MGT_MBX_CMD (R449): OP, LEN, GO
  ⟨0x10000, 0x0, 1, [⟨7, 0, .rw, false, 0⟩, ⟨20, 8, .rw, false, 0⟩, ⟨31, 31, .wo, false, 0⟩]⟩,
  -- MGT_MBX_ARG (R449): ARG
  ⟨0x10008, 0x0, 1, [⟨63, 0, .rw, false, 0⟩]⟩,
  -- MGT_MBX_STAT (R449): BUSY, DONE, CMD_ERR, RESULT, RLEN
  ⟨0x10010, 0x0, 1, [⟨0, 0, .ro, false, 0⟩, ⟨1, 1, .w1c, false, 0⟩, ⟨2, 2, .w1c, false, 0⟩, ⟨15, 8, .ro, false, 0⟩, ⟨28, 16, .ro, false, 0⟩]⟩,
  -- MGT_MBX data (R449): DATA
  ⟨0x11000, 0x8, 512, [⟨63, 0, .rw, false, 0⟩]⟩,
  -- MGT_FWREQ (R451): OP, LEN, PEND
  ⟨0x20000, 0x0, 1, [⟨7, 0, .ro, false, 0⟩, ⟨20, 8, .ro, false, 0⟩, ⟨31, 31, .ro, false, 0⟩]⟩,
  -- MGT_FWARG (R451): ARG
  ⟨0x20008, 0x0, 1, [⟨63, 0, .ro, false, 0⟩]⟩,
  -- MGT_FWDONE (R451): RESULT, RLEN, DONE
  ⟨0x20010, 0x0, 1, [⟨7, 0, .wo, false, 0⟩, ⟨20, 8, .wo, false, 0⟩, ⟨31, 31, .wo, false, 0⟩]⟩,
  -- MGT_FWIRQ (R451): HTID, VECTOR, EN
  ⟨0x20018, 0x0, 1, [⟨10, 0, .rw, false, 0⟩, ⟨23, 16, .rw, false, 64⟩, ⟨31, 31, .rw, false, 0⟩]⟩,
  -- MGT_FWSTAT (R451): CMD_ERR
  ⟨0x20020, 0x0, 1, [⟨0, 0, .w1c, false, 0⟩]⟩,
  -- request data (R451): DATA
  ⟨0x21000, 0x8, 512, [⟨63, 0, .ro, false, 0⟩]⟩,
  -- response data (R451): DATA
  ⟨0x22000, 0x8, 512, [⟨63, 0, .ws, false, 0⟩]⟩]

/-- The registers of one `fab` window (header lines and field tables of the spec). -/
def fabRegs : List RegRow := [
  -- FAB_SELF (R290): ID, MODE, K0M1, K1M1, K2M1, K3M1
  ⟨0x0, 0x0, 1, [⟨14, 0, .ro, false, 0⟩, ⟨17, 16, .ro, false, 0⟩, ⟨26, 24, .ro, false, 0⟩, ⟨30, 28, .ro, false, 0⟩, ⟨35, 32, .ro, false, 0⟩, ⟨39, 36, .ro, false, 0⟩]⟩,
  -- FAB_RTCTL (R290): ACTIVE, FLIP, WERR, GEN0, GEN1
  ⟨0x8, 0x0, 1, [⟨0, 0, .ro, false, 0⟩, ⟨1, 1, .wo, false, 0⟩, ⟨2, 2, .w1c, false, 0⟩, ⟨7, 4, .rw, false, 0⟩, ⟨11, 8, .rw, false, 1⟩]⟩,
  -- FAB_CNT (R290): UNREACH, DOWN_DISC, GEN_MISS, BADHDR
  ⟨0x10, 0x0, 1, [⟨15, 0, .rw, false, 0⟩, ⟨31, 16, .rw, false, 0⟩, ⟨47, 32, .rw, false, 0⟩, ⟨63, 48, .rw, false, 0⟩]⟩,
  -- FAB_EXPWIN (R307): EN, BASE
  ⟨0x100, 0x0, 1, [⟨0, 0, .rw, false, 0⟩, ⟨51, 12, .rw, false, 0⟩]⟩,
  -- FAB_EXPSIZE (R307): SIZE
  ⟨0x108, 0x0, 1, [⟨42, 12, .rw, false, 0⟩]⟩,
  -- FAB_JRNL (R307): LOG2N, BASE
  ⟨0x110, 0x0, 1, [⟨4, 0, .rw, false, 12⟩, ⟨51, 12, .rw, false, 0⟩]⟩,
  -- FAB_LEAD (R307): ID, ISLEAD
  ⟨0x120, 0x0, 1, [⟨14, 0, .rw, false, 0⟩, ⟨15, 15, .ro, false, 0⟩]⟩,
  -- FAB_MSTAT (R307): STATE, SILENT, MGEN
  ⟨0x128, 0x0, 1, [⟨2, 0, .ro, false, 0⟩, ⟨3, 3, .ro, false, 0⟩, ⟨31, 16, .ro, false, 0⟩]⟩,
  -- FAB_MCMD (R307): CMD, CMD_ERR
  ⟨0x130, 0x0, 1, [⟨1, 0, .wo, false, 0⟩, ⟨2, 2, .w1c, false, 0⟩]⟩,
  -- FAB_XCNT (R307): RETRY, ABSENT, SEQDISC, BUSY
  ⟨0x138, 0x0, 1, [⟨15, 0, .rw, false, 0⟩, ⟨31, 16, .rw, false, 0⟩, ⟨47, 32, .rw, false, 0⟩, ⟨63, 48, .rw, false, 0⟩]⟩,
  -- ERR_STATUS (R429): V, OVF, CLASS, ADDRV, MCREQ, CODE, UNIT, HTID, HTIDV
  ⟨0xc00, 0x0, 1, [⟨0, 0, .w1c, true, 0⟩, ⟨1, 1, .w1c, true, 0⟩, ⟨3, 2, .ro, true, 0⟩, ⟨4, 4, .ro, true, 0⟩, ⟨5, 5, .ro, true, 0⟩, ⟨15, 8, .ro, true, 0⟩, ⟨19, 16, .ro, false, 0⟩, ⟨30, 20, .ro, true, 0⟩, ⟨31, 31, .ro, true, 0⟩]⟩,
  -- ERR_ADDR (R429): ERR_ADDR
  ⟨0xc08, 0x0, 1, [⟨63, 0, .ro, true, 0⟩]⟩,
  -- ERR_INFO (R429): ERR_INFO
  ⟨0xc10, 0x0, 1, [⟨63, 0, .ro, true, 0⟩]⟩,
  -- ERR_TIME (R429): ERR_TIME
  ⟨0xc18, 0x0, 1, [⟨63, 0, .ro, true, 0⟩]⟩,
  -- ERR_CNT (R429): CE, UE
  ⟨0xc20, 0x0, 1, [⟨31, 0, .ro, true, 0⟩, ⟨47, 32, .ro, true, 0⟩]⟩,
  -- ERR_CFG (R429): THRESH, IRQ_DEF, WINDOW
  ⟨0xc28, 0x0, 1, [⟨7, 0, .rw, false, 0⟩, ⟨8, 8, .rw, false, 0⟩, ⟨63, 32, .rw, false, 3600⟩]⟩,
  -- ERR_IRQ (R429): HTID, VECTOR, EN
  ⟨0xc30, 0x0, 1, [⟨10, 0, .rw, false, 0⟩, ⟨23, 16, .rw, false, 64⟩, ⟨31, 31, .rw, false, 0⟩]⟩,
  -- ERR_WIN (R429): COUNT, START
  ⟨0xc38, 0x0, 1, [⟨7, 0, .rw, false, 0⟩, ⟨63, 16, .ro, false, 0⟩]⟩,
  -- FAB_RT bank 0 (R290): RT
  ⟨0x10000, 0x8, 4096, [⟨63, 0, .rw, false, 0⟩]⟩,
  -- FAB_RT bank 1 (R290): RT
  ⟨0x20000, 0x8, 4096, [⟨63, 0, .rw, false, 0⟩]⟩,
  -- FAB_MAP (R307): MAP
  ⟨0x30000, 0x8, 512, [⟨63, 0, .ro, false, 0⟩]⟩,
  -- FAB_RQ_CFG (R307): EN, LOG2N, BASE
  ⟨0x40000, 0x40, 64, [⟨0, 0, .rw, false, 0⟩, ⟨5, 1, .rw, false, 6⟩, ⟨51, 12, .rw, false, 0⟩]⟩,
  -- FAB_RQ_HEAD (R307): HEAD
  ⟨0x40008, 0x40, 64, [⟨15, 0, .rw, false, 0⟩]⟩,
  -- FAB_RQ_TAIL (R307): TAIL
  ⟨0x40010, 0x40, 64, [⟨15, 0, .ro, false, 0⟩]⟩,
  -- FAB_RQ_IRQ (R307): HTID, VECTOR, EN
  ⟨0x40018, 0x40, 64, [⟨10, 0, .rw, false, 0⟩, ⟨23, 16, .rw, false, 64⟩, ⟨31, 31, .rw, false, 0⟩]⟩,
  -- FAB_SEND PAYLOAD dw0 (R307): PAYLOAD
  ⟨0x100000, 0x80, 2048, [⟨63, 0, .ws, false, 0⟩]⟩,
  -- FAB_SEND PAYLOAD dw1 (R307): PAYLOAD
  ⟨0x100008, 0x80, 2048, [⟨63, 0, .ws, false, 0⟩]⟩,
  -- FAB_SEND PAYLOAD dw2 (R307): PAYLOAD
  ⟨0x100010, 0x80, 2048, [⟨63, 0, .ws, false, 0⟩]⟩,
  -- FAB_SEND PAYLOAD dw3 (R307): PAYLOAD
  ⟨0x100018, 0x80, 2048, [⟨63, 0, .ws, false, 0⟩]⟩,
  -- FAB_SEND PAYLOAD dw4 (R307): PAYLOAD
  ⟨0x100020, 0x80, 2048, [⟨63, 0, .ws, false, 0⟩]⟩,
  -- FAB_SEND PAYLOAD dw5 (R307): PAYLOAD
  ⟨0x100028, 0x80, 2048, [⟨63, 0, .ws, false, 0⟩]⟩,
  -- FAB_SEND PAYLOAD dw6 (R307): PAYLOAD
  ⟨0x100030, 0x80, 2048, [⟨63, 0, .ws, false, 0⟩]⟩,
  -- FAB_SEND PAYLOAD dw7 (R307): PAYLOAD
  ⟨0x100038, 0x80, 2048, [⟨63, 0, .ws, false, 0⟩]⟩,
  -- FAB_SEND CTL (R307): DST, QUEUE, GO
  ⟨0x100040, 0x80, 2048, [⟨14, 0, .ws, false, 0⟩, ⟨20, 15, .ws, false, 0⟩, ⟨21, 21, .wo, false, 0⟩]⟩,
  -- FAB_SEND STAT (R307): BUSY, DONE, ERR, RESULT
  ⟨0x100048, 0x80, 2048, [⟨0, 0, .ro, false, 0⟩, ⟨1, 1, .w1c, false, 0⟩, ⟨2, 2, .w1c, false, 0⟩, ⟨5, 3, .ro, false, 0⟩]⟩,
  -- FAB_WERR dw0 (R307): V, STATUS, MORE
  ⟨0x180000, 0x10, 2048, [⟨0, 0, .w1c, false, 0⟩, ⟨3, 1, .ro, false, 0⟩, ⟨15, 8, .rw, false, 0⟩]⟩,
  -- FAB_WERR dw1 (R307): PA
  ⟨0x180008, 0x10, 2048, [⟨63, 0, .ro, false, 0⟩]⟩]
/-- The register table of a window. -/
def Win.rows : Win → List RegRow
  | .core _ => coreRegs | .tic _ => ticRegs | .l2 _ => l2Regs | .l3s _ => l3sRegs | .mesh _ => meshRegs
  | .mc _ => mcRegs | .lk _ => lkRegs | .rc _ => rcRegs | .cx _ => cxRegs | .iotu _ => iotuRegs
  | .cxbar _ => cxbarRegs | .tdm => tdmRegs | .sc => scRegs | .cad => cadRegs | .odo => odoRegs
  | .shm => shmRegs | .mgt => mgtRegs | .fab => fabRegs

/-- Whether offset `o` is one of the registers of row `r`. -/
def RegRow.has (r : RegRow) (o : Nat) : Bool :=
  if r.stride = 0 then o == r.off
  else decide (r.off ≤ o) && (o - r.off) % r.stride == 0 && decide ((o - r.off) / r.stride < r.count)

/-- The statistics blocks that exist (R232): both cores' of a tile; block p for a link, root complex or compression
complex at port p; block 1 of F0 stop 15 for the SC. -/
def statBlock (stop p : Nat) : Bool :=
  if 16 ≤ stop ∧ stop < 144 then true
  else
    let x := stop % 16
    if x % 2 = 0 then false
    else if x = 7 then true
    else if x = 15 then decide (p = 0 ∨ stop = 15)
    else decide (p = 0)

/-- Whether a router register is absent at that stop (CPWR and L2PWR: tile routers only; R232). -/
def meshAbsent (stop o : Nat) : Bool :=
  if 0x400 ≤ o ∧ o < 0x800 then !decide (16 ≤ stop ∧ stop < 144)
  else if 0x1000 ≤ o then !statBlock stop ((o - 0x1000) / 0x200)
  else false

/-- The register at a DRS offset: its window, its offset there and its table row; none for an unassigned offset (R22). -/
def regAt (off : Nat) : Option (Win × Nat × RegRow) :=
  match winOf off with
  | none => none
  | some (w, o) =>
    match w.rows.find? (·.has o) with
    | none => none
    | some r =>
      match w with
      | .mesh s => if meshAbsent s o then none else some (w, o, r)
      | _ => some (w, o, r)

/-- The unit class of ERR_STATUS.UNIT (R429). -/
def Win.errUnit : Win → Nat
  | .core _ => 0 | .l2 _ => 1 | .l3s _ => 2 | .mesh _ => 3 | .mc _ => 4 | .lk _ => 5 | .fab => 6 | .rc _ => 7
  | .cx _ => 8 | .tdm => 9 | .cad => 10 | .sc => 11 | _ => 15

/-- Whether edge e of a stop has a bridge: e = 0 the edge toward higher x, e = 1 the edge toward higher y (R17, R218). -/
def bridgeAt (stop e : Nat) : Bool :=
  let x := stop % 16
  let y := stop / 16
  if e = 0 then decide (1 ≤ y ∧ y ≤ 8 ∧ x % 4 = 3 ∧ x < 15)
  else decide (y = 0 ∨ y = 4 ∨ y = 8)

/-- Reset values that depend on the unit (the per-stop, per-unit and per-core entries of the Reset columns). -/
def regSpecial (w : Win) (o : Nat) : Nat :=
  match w with
  | .core c => if o = 8 then 8 * c else 0
  | .mesh s =>
    let x := s % 16
    let y := s / 16
    if o = 0 then
      if 16 ≤ s ∧ s < 144 then
        x + y * 16 + (s - 16) * 512 + (x / 4 + 4 * ((y - 1) / 4)) * 65536
      else x + y * 16 + 256
    else if o = 0x200 then (if bridgeAt s 0 then 1 else 0)
    else if o = 0x220 then (if bridgeAt s 1 then 1 else 0)
    else if o = 0xC00 then 3 * 65536 else 0
  | .rc i => if o = 0 then i else if o = 0xC00 then 7 * 65536 else 0
  | .cxbar i => if o = 0 then i else 0
  | .mgt => if o = 0 then 0x0000E42072561F6B else 0
  | w => if o = 0xC00 then w.errUnit * 65536 else 0

/-- The reset value of the register at a DRS offset (0 for an offset that names none). -/
def regReset (off : Nat) : Word :=
  match regAt off with
  | none => 0#64
  | some (w, o, r) => BitVec.ofNat 64 (r.flds.foldl (fun a f => a + f.rst * 2 ^ f.lo) (regSpecial w o))

/-- The bits of a register that keep their value through warm and fail-stop reset (R9). -/
def regStkMask (off : Nat) : Word :=
  match regAt off with
  | none => 0#64
  | some (_, _, r) =>
    r.flds.foldl (fun a f => if f.stk then a ||| BitVec.ofNat 64 ((2 ^ (f.hi - f.lo + 1) - 1) * 2 ^ f.lo) else a) 0#64

/-- The mask of bits [hi:lo]. -/
def fmask (hi lo : Nat) : Word := BitVec.ofNat 64 ((2 ^ (hi - lo + 1) - 1) * 2 ^ lo)

/-- Bits [hi:lo] of a word, as a number (R6). -/
def bits (v : Word) (hi lo : Nat) : Nat := v.toNat / 2 ^ lo % 2 ^ (hi - lo + 1)

/-- `v` with bits [hi:lo] replaced by `x`. -/
def setBits (v : Word) (hi lo x : Nat) : Word :=
  (v &&& ~~~(fmask hi lo)) ||| (BitVec.ofNat 64 (x % 2 ^ (hi - lo + 1) * 2 ^ lo))

/-- The new value of a register written with `w` when it holds `v`, field by field (R8, R11); `locked` is the unit's
LOCK bit as it stood before the write (R9). -/
def regWriteBits (flds : List Fld) (locked : Bool) (v w : Word) : Word :=
  flds.foldl (fun a f =>
    match f.acc with
    | .rw | .ws => setBits a f.hi f.lo (bits w f.hi f.lo)
    | .rwl => if locked then a else setBits a f.hi f.lo (bits w f.hi f.lo)
    | .w1c => setBits a f.hi f.lo (bits (v &&& ~~~w) f.hi f.lo)
    | .w1s => setBits a f.hi f.lo (bits (v ||| w) f.hi f.lo)
    | .ro | .wo => a) v

/-- What a read returns: WO fields read 0 (R8). -/
def regReadBits (flds : List Fld) (v : Word) : Word :=
  flds.foldl (fun a f =>
    match f.acc with
    | .wo | .ws => setBits a f.hi f.lo 0
    | _ => a) v

end Sys2Proof.Machine
end

