-- ==== Sys2Proof/Machine/TypesCore.lean ====
section
/-!
DEFINITION. Machine/TypesCore.lean: the plain data of threads, cores, caches and translation (spec/02 to 07).
-/
namespace Sys2Proof.Machine

/-- Thread states (02 R54), in the encoding of CORE_THR_CTL.STATE. -/
inductive ThrSt where
  | off | run | parked | timewait | halted | faulted
deriving DecidableEq, Repr

/-- The STATE code of R57. -/
def ThrSt.code : ThrSt → Nat
  | .off => 0 | .run => 1 | .parked => 2 | .timewait => 3 | .halted => 4 | .faulted => 5

/-- Access kinds of FINFO.ACCESS (04 R112). -/
inductive AccKind where
  | fetch | load | store | atomic
deriving DecidableEq, Repr

/-- Where a load's value goes (03 R69, R76, R88): a G register, its width and whether it is sign-extended; an F
register; a V register; a pair of G registers (CAS128); the thread's buffer of bytes from outside the package's DRAM, which a
granule, a frame or a vector table needs (`buf`). -/
inductive Dest where
  | g (r n : Nat) (sgn : Bool)
  | f (r n : Nat)
  | v (r : Nat)
  | gg (r : Nat)
  | buf
deriving DecidableEq, Repr

/-- A store buffer entry (02 R46): bytes within one line, or one whole line. `data` is little-endian. -/
structure SbEnt where
  pa : Nat
  ai : Nat
  n : Nat
  data : Nat
deriving DecidableEq, Repr

/-- One half of an outstanding load (04 R125); `got` is its value once it has been performed. -/
structure Part where
  pa : Nat
  ai : Nat
  n : Nat
  got : Option Nat
deriving DecidableEq, Repr

/-- An open chunk (12 R313 to R316): steps, drains, the lines of its signatures, when it opened (ns); `due`: a line of
its signatures has left the tile (R315). -/
structure Chunk where
  steps : Nat := 0
  drn : Nat := 0
  rsig : List Nat := []
  wsig : List Nat := []
  t0 : Nat := 0
  due : Bool := false
deriving DecidableEq, Repr

/-- What a load's thread held before it, for a load that has passed its hold time and whose value may still prove to be in
error, or whose chunk may have to end before it (02 R42, R53, R62; 12 R314; log entry 13). -/
structure Snap where
  g : Map Word
  f : Map Word
  v : Map VWord
  sr : Map Word
  chunk : Option Chunk
deriving DecidableEq, Repr

/-- A load, or an atomic, whose destination awaits its value (02 R53, 03 R89). `blk`: its instruction has not completed
and is still the thread's head (device and remote accesses, which may yet fault); `atomic`: a remote atomic; `dflags`:
a DAMOADD; `nsb`: how many of the thread's store buffer entries are older (07 R194); `snap`: what comes back if it is undone;
`err`: its fill was in error: the SRC, FADDR and whether on the upper half; `acc`: FINFO.ACCESS of bytes for the thread's
buffer; `t0`: when its requests left the core (08 R233). -/
structure Await where
  dest : Dest
  parts : List Part
  va : Word
  pc : Word
  blk : Bool := false
  atomic : Bool := false
  dflags : Bool := false
  nsb : Nat := 0
  snap : Option Snap := none
  err : Option (Nat × Word × Bool) := none
  acc : Nat := 1
  t0 : Nat := 0
deriving DecidableEq, Repr

/-- An exception entry that waits for bytes from outside the package's DRAM (04 R110, R115): its level and vector, the frame,
where the frame goes, and whether the frame has been stored, or is in the emergency frame. -/
structure Ent where
  lvl : Nat
  v : Nat
  frame : Nat
  slot : Word
  stored : Bool
  emerg : Bool
deriving DecidableEq, Repr

/-- A translation that a thread's head instruction or fetch needs and the TLBs do not hold (05 R146). -/
structure WalkReq where
  va : Word
  n : Nat
  kind : AccKind
deriving DecidableEq, Repr

/-- One hardware thread (02 R30, R54; 03 R68; 04 R102 on). `queue`: decoded instructions with their addresses; `fpc`: the
next fetch address; `redirect`, `fstall`: R34, R43; `held`, `hparts`: a held load and its accesses (R47); `long`: a long
resumable instruction runs; `lagged`: 12 R329; `wreason`: the WAITT reason that a paired captain has still to commit; `sel`:
the selector has picked the head, which has not completed (R38); `ebuf`: bytes from outside DRAM that the head has read; `ent`:
an exception entry in progress. -/
structure Thread where
  st : ThrSt := .off
  prior : ThrSt := .off
  halting : Bool := false
  g : Map Word := []
  f : Map Word := []
  v : Map VWord := []
  pc : Word := 0#64
  sr : Map Word := []
  queue : List (Word × Word32) := []
  fpc : Word := 0#64
  redirect : Bool := false
  fstall : Bool := false
  sb : List SbEnt := []
  await : Option Await := none
  held : Bool := false
  hparts : List Part := []
  walk : Option WalkReq := none
  mon : Option Nat := none
  monWake : Bool := false
  waitt : Option (Word × Nat) := none
  long : Bool := false
  sel : Bool := false
  ebuf : List Part := []
  ent : Option Ent := none
  chunk : Option Chunk := none
  lagged : Bool := false
  wreason : Option Nat := none
  fin32 : Word := 0#64
  fin33 : Word := 0#64
deriving DecidableEq, Repr

/-- A merge buffer line (02 R48): the whole line, with or without write permission. `last` is when it was last written;
`dirty`: its bytes are newer than the copy below; `owe`: the thread whose store buffer entry asked for it and has still to
drain (07 R191). -/
structure MergeLine where
  line : Nat
  perm : Bool
  ai : Nat
  data : BitVec 512
  poison : Bool
  last : Nat
  dirty : Bool := false
  owe : Option Nat := none
deriving DecidableEq, Repr

/-- A write-combining buffer (07 R201); `mask` bit k: byte k written; `owners` bit t: thread t's bytes are in it. -/
structure WcBuf where
  line : Nat
  mask : BitVec 64
  data : BitVec 512
  owners : BitVec 8
  last : Nat
deriving DecidableEq, Repr

/-- What a miss entry waits for (02 R52). -/
inductive MissKind where
  | load | ifetch | prefetch | perm
deriving DecidableEq, Repr

/-- A miss entry (02 R52); `stream`: its fill is streaming (06 R171); `data` is the line once the home has delivered it
without an L2 copy; `err`: the BUS_ERR SRC with which a remote home answered; `asked`: a request has gone to the home, whose answer
carries so many bytes (08 R233). -/
structure Miss where
  thr : Nat
  line : Nat
  kind : MissKind
  ai : Nat
  stream : Bool
  data : Option (BitVec 512 × Bool)
  err : Option Nat := none
  asked : Option Nat := none
deriving DecidableEq, Repr

/-- An entry of the stride detector (06 R171). -/
structure Stride where
  last : Nat
  count : Nat
deriving DecidableEq, Repr

/-- The translation regimes (05 R136). -/
inductive Regime where
  | us | h | m
deriving DecidableEq, Repr

/-- The stage-2 half of a combined entry: guest page, size, permissions, D and attribute index (05 R150). -/
structure S2Half where
  gpa : Nat
  sz : Nat
  r : Bool
  w : Bool
  x : Bool
  d : Bool
  ai : Nat
  level : Nat
deriving DecidableEq, Repr

/-- A TLB entry (05 R153): `va` and `pa` are multiples of 2^`sz`. `part`: 0 a whole translation, 1 a stage-1 leaf alone, 2 a stage-2
leaf alone, whose `va` is a guest PA. -/
structure TlbE where
  reg : Regime
  vmid : Nat
  asid : Nat
  glob : Bool
  va : Nat
  sz : Nat
  pa : Nat
  r : Bool
  w : Bool
  x : Bool
  u : Bool
  a : Bool
  d : Bool
  ai : Nat
  level : Nat
  s1 : Bool
  s2 : Option S2Half
  part : Nat := 0
deriving DecidableEq, Repr

/-- A walk cache entry: the table that a pointer at `level` reached (05 R153); `stage2` for stage-2 pointers. -/
structure WalkC where
  reg : Regime
  stage2 : Bool
  vmid : Nat
  asid : Nat
  level : Nat
  pre : Nat
  table : Nat
deriving DecidableEq, Repr

/-- The execution units that the selector claims (02 R38, R39): the two ALUs are one kind; `both` is the two port directions of the L1D,
which an atomic and a long resumable instruction use; `alone` claims none. -/
inductive ExUnit where
  | alu | mul | fp | ldPort | stPort | both | simd | branch | alone
deriving DecidableEq, Repr

/-- The selector of a core (02 R36 to R41) in core cycles, as few of them as its picks need: the cycle, the threads chosen in it
with the units they claim, each thread's earliest next selection, when each register is available, until when the two dividers
are busy, the starve counts, the promotions that have been counted, and what THREADSEL does in the cycle (19 R461): the pointer of every
level, and whether at most one instruction issues. -/
structure Sched where
  cyc : Nat := 0
  slots : List (Nat × ExUnit) := []
  hold : Map Nat := []
  avail : Map Nat := []
  divI : Nat := 0
  divF : Nat := 0
  starve : Map Nat := []
  noted : List Nat := []
  shim : Option (Nat × Bool) := none
deriving DecidableEq, Repr

/-- The shared structures of one core (02 R30, R38, R48, R52; 05 R153; 06 R171; 07 R201). -/
structure Core where
  ptr : List Nat := [7, 7, 7, 7]
  sched : Sched := {}
  rrFetch : Nat := 7
  rrDrain : Nat := 7
  merge : List MergeLine := []
  wc : List WcBuf := []
  miss : List Miss := []
  stride : List Stride := []
  strideRr : Nat := 0
  csr : Map Word := []
  itlb : List TlbE := []
  dtlb : List TlbE := []
  tlb2 : List TlbE := []
  walkc : List WalkC := []
deriving DecidableEq, Repr

/-- L2 line states (07 R187); L3 lines use E for clean and M for dirty, L1 lines S. -/
inductive Moesi where
  | I | S | E | O | M
deriving DecidableEq, Repr

/-- One way of a cache: the line number (PA / 64), its state, data, replacement age (06 R170) and poison (R180). -/
structure CLine where
  line : Nat := 0
  st : Moesi := .I
  data : BitVec 512 := 0#512
  age : Nat := 0
  poison : Bool := false
deriving DecidableEq, Repr

/-- Directory entry states (07 R188). -/
inductive DirSt where
  | none | shared | excl
deriving DecidableEq, Repr

/-- One way of a directory (07 R188). -/
structure DirE where
  line : Nat := 0
  st : DirSt := .none
  owner : Nat := 0
  vec : BitVec 128 := 0#128
  age : Nat := 0
deriving DecidableEq, Repr

/-- Requests that a home processes (07 R188). -/
inductive HomeReq where
  | rdShared | rdUnique | upgrade
deriving DecidableEq, Repr

/-- A home tracker (07 R189): the tiles whose snoop answers are awaited, and whether DRAM (or a remote home's) data is; `wait`:
the requests for the line that wait, in order of arrival, with what their lookup will find. -/
structure Tracker where
  line : Nat
  req : HomeReq
  tile : Nat
  snoops : BitVec 128
  dram : Bool
  remote : Bool
  data : Option (BitVec 512 × Bool) := none
  wait : List (Nat × HomeReq × ArrErr) := []
deriving DecidableEq, Repr

/-- A whole-cache operation in progress (06 R178, R182, R184, R185): on slice or L2 `n`. -/
inductive CacheOp where
  | retire (l3 : Bool) (n w : Nat)
  | clean (l3 : Bool) (n : Nat) (inv : Bool)
  | reserve (n : Nat)
  | evac (n : Nat)
deriving DecidableEq, Repr

/-- A device access, or an uncached access to DRAM, that a thread has sent and that has not been performed (07 R192, R199
to R201; 14 R372): `h` the thread, `wr` a write, `wait`: an AI 2 access, which the thread's next one waits for; `wc`:
the threads of the core whose write-combined bytes it carries; `part`: the part of the waiting load that it answers; `ack`: a
write for whose completion the thread's entry waits (04 R111);
`sent`: a request that awaits its completion, from root port `port` (8r + p), sent at `t0`. -/
structure DevReq where
  h : Nat
  pa : Nat
  n : Nat
  data : Nat
  be : Nat
  wr : Bool
  wait : Bool
  wc : BitVec 8 := 0#8
  part : Nat := 0
  ack : Bool := false
  sent : Bool := false
  port : Nat := 0
  t0 : Nat := 0
deriving DecidableEq, Repr

end Sys2Proof.Machine
end

