-- ==== Sys2Proof/Machine/TypesIo.lean ====
section
/-!
DEFINITION. Machine/TypesIo.lean: the plain data of the mesh, memory controllers, links, fabric, Tandem unit, Cadence,
PCIe, compression complexes and system controller (spec/08 to 20).
-/
namespace Sys2Proof.Machine

/-- The live counts of a statistics block since the window began (08 R233): `seen` is the index of the Cadence ms or
second that the block last sampled. -/
structure StLive where
  start : Word := 0#64
  seen : Nat := 0
  rd : Nat := 0
  wr : Nat := 0
  reqs : Nat := 0
  hist : List Nat := []
deriving DecidableEq, Repr
/-- A flit in a router buffer (08 R211, R226): what entered the mesh, its check bits, whether its line is poisoned, whether the router has
checked it, and when it entered the buffer (R229, R231). -/
structure Flit where
  op : FlitOp
  chk : BitVec 48
  poison : Bool := false
  seen : Bool := false
  age : Nat := 0
deriving DecidableEq, Repr
/-- The mesh (08). `wokeInt`: cores being woken by an interrupt (R223); `woke`: cores whose wake is in progress because
of a wake that met a gating; `bufs`: flits by router input and VN (R226), the oldest first, `tick` the age of the next; `rr`: the
round-robin pointers of the router outputs (R228); `lanes`: the windowed error count of a bridge
lane (R216); `mapped`: lanes mapped out; `repairing`: lanes of the retrain in progress; `live`: statistics (R233). -/
structure Noc where
  wokeInt : List Nat := []
  bufs : Map (List Flit) := []
  tick : Nat := 0
  rr : Map Nat := []
  lanes : Map Word := []
  mapped : List Nat := []
  repairing : List Nat := []
  live : Map StLive := []
deriving DecidableEq, Repr
/-- What a DRAM read is for: a home's tracker, or Trowel (09 R256). -/
inductive McFor where
  | home (slice : Nat) | trowel
deriving DecidableEq, Repr
/-- A line read that a memory controller has taken (09 R241); `sched`: scheduled on its channel; `newer`: a write to the
line has entered the queue since (R248). -/
structure McReq where
  line : Nat
  purpose : McFor
  sched : Bool
  newer : Bool
deriving DecidableEq, Repr
/-- A line write in a controller's write queue. -/
structure McWr where
  line : Nat
  data : BitVec 512
  poison : Bool
deriving DecidableEq, Repr
/-- A patrol pass (09 R256 to R262) with the values it took at its start. -/
structure TrwPass where
  wb : Bool
  irqUe : Bool
  irqDone : Bool
  rate : Nat
  start : Nat
  stop : Nat
  sumaddr : Word
  pos : Nat
  t0 : Word
  lines : Nat := 0
  ce : Nat := 0
  rew : Nat := 0
  ue : Nat := 0
  poison : Nat := 0
  ueAddr : List Nat := []
  abort : Bool := false
  ms : Nat := 0
  inMs : Nat := 0
deriving DecidableEq, Repr
/-- A memory controller (09): its queues, since when they are empty, the repairs that are due with the moment each fell
due (R254), the repair in progress, Trowel's pass and pass count. -/
structure Mc where
  rq : List McReq := []
  wq : List McWr := []
  idleSince : Nat := 0
  due : List (Nat × Nat) := []
  rep : Option Nat := none
  trw : Option TrwPass := none
  trwSeq : Nat := 0
deriving DecidableEq, Repr
/-- A DATA flit in a replay buffer (10 R269): its number, its slots, and how often it has been resent. -/
structure LFlit where
  seq : Nat
  slots : List (BitVec 128)
  sop : Bool
  tries : Nat
deriving DecidableEq, Repr
/-- The acknowledgement and credit returns of a flit header (10 R268); `ok`: its CRC passes and its FTYPE is below 6. -/
structure FlitHdr where
  ok : Bool
  ack : Option (BitVec 12)
  cvc0 : Fin 8
  ccnt0 : BitVec 8
  cvc1 : Fin 8
  ccnt1 : BitVec 8
deriving DecidableEq, Repr
/-- A DATA flit (R268): SEQ, SOP, FILL and the 15 payload slots. -/
structure DataFlit where
  hdr : FlitHdr
  seq : BitVec 12
  sop : BitVec 15
  fill : BitVec 15
  slots : List (BitVec 128)
deriving DecidableEq, Repr
/-- What a link sends (R266, R268, R273, R276): a flit, and whether it reports this end DOWN; a CHECK flit, by the bits of its logical
lanes; a TRAIN flit with this end's fabric device ID and role. -/
inductive LkOut where
  | flit (f : BitVec 2048) (down : Bool)
  | check (lanes : List (BitVec 256))
  | train (id role : Nat)
deriving DecidableEq, Repr
/-- A packet that waits to be sent, and the link and VC whose receive buffer it still occupies (R270); none: the buffer space reserved
for it on its VC (R284). -/
structure VcEnt where
  p : FPkt
  src : Option (Nat × Nat) := none
deriving DecidableEq, Repr
/-- A Lerlora link beside its registers (10): the next SEQ to send and to expect, whether a flit has been received in order, the replay buffer,
whether a NAK is out, when ACK last advanced, the packets queued by VC and the VC served last, the far end's free slots by VC, the slots of
this end's receive buffers that are occupied and those to return, a packet in reassembly, the windowed error counts of the receive lanes,
the physical lane of each logical receive lane and the inverted ones, the lane mapped out, a drain in progress with its cause and start,
the next training attempt, a lane repair in progress, here and at the far end, a takeover: the failed link and its start (R277); what has been
sent since the last REFCLK edge, and the number of the last CHECK flit time. -/
structure Link where
  tx : Nat := 0
  rx : Nat := 0
  got : Bool := false
  replay : List LFlit := []
  nak : Bool := false
  ackAt : Nat := 0
  vcq : Map (List VcEnt) := []
  rr : Nat := 0
  credit : List Nat := [256, 256, 256, 256, 256, 256]
  occ : List Nat := [0, 0, 0, 0, 0, 0]
  ret : List Nat := [0, 0, 0, 0, 0, 0]
  part : FPkt := []
  lanes : Map Word := []
  rmap : List Nat := [0, 1, 2, 3, 4, 5, 6, 7]
  rinv : BitVec 9 := 0#9
  bad : Option Nat := none
  drain : Option (Nat × Nat) := none
  retryAt : Option Nat := none
  repair : Option Nat := none
  farRep : Bool := false
  take : Option (Nat × Nat) := none
  wire : List LkOut := []
  chk : Nat := 0
deriving DecidableEq, Repr
/-- The kinds of fabric requests that a node makes (11 R293, R299, R302). -/
inductive GKind where
  | rd | wr | atom | flush | msg
deriving DecidableEq, Repr
/-- Who waits for a global request: a part of a thread's load, a home's fill, a write-back (for the thread whose CVA or
CIVA started it, if any), a thread's store, atomic, message or fence, a device below a root port, whose request is
posted or not, a compression complex with the number of its access. -/
inductive GFor where
  | load (h part : Nat) | fill (slice line : Nat) | wb (h : Option Nat) | store (h : Nat) | atomic (h : Nat)
  | msg (h : Nat) | fence (h : Nat) | dev (port : Nat) (np : Bool) | io (k id : Nat)
deriving DecidableEq, Repr
/-- A global access that the home agent has not yet turned into fabric transactions (11 R280, R294). `op`: ATOP, with 16 times the
rounding mode of a DAMOADD, or the queue of a message; the operand of a CAS precedes its new value in `data`; `gsn`: the
chunk that made it (12 R321); `poison`: a poisoned line moves on (06 R180). -/
structure GReq where
  kind : GKind
  pa : Nat
  n : Nat
  data : Nat
  op : Nat
  who : GFor
  gsn : Nat := 0
  poison : Bool := false
deriving DecidableEq, Repr
/-- An outstanding request of a stream (11 R294): its SEQ, TYPE, CLASS and TAG, its slots from slot 1 on, who waits for
it, its global PA and width, when it was last sent (none: held by the Tandem unit), and whether it has been resent. -/
structure FOut where
  seq : Nat
  typ : Nat
  cls : Nat
  tag : Nat
  body : FPkt
  who : GFor
  pa : Nat
  n : Nat
  t : Option Nat
  again : Bool := false
deriving DecidableEq, Repr
/-- The source's state of a stream (R294, R298, R301): `gen`: the generation of its outstanding requests; `busy`: the SEQ
that was answered BUSY, and when; `idle`: since when nothing is outstanding and no RELEASE has been sent (R297). -/
structure SrcStream where
  next : Nat := 0
  epoch : Nat := 0
  out : List FOut := []
  gen : Nat := 0
  busy : Option (Nat × Nat) := none
  idle : Option Nat := none
deriving DecidableEq, Repr
/-- The home's state of a stream (R294, R297): `port`: the link on which its last request came (R293); `acks`: writes not acknowledged, since `ackAt`; `cov`: SEQ and GSN of writes
whose acknowledgement waits for the stoker (12 R325). -/
structure HomeStream where
  exp : Nat := 0
  epoch : Nat := 0
  jrn : List JEnt := []
  acks : Nat := 0
  ackAt : Nat := 0
  cov : List (Nat × Nat) := []
  port : Nat := 5
deriving DecidableEq, Repr
/-- A membership message that the lead has sent and that has not been answered (R303). -/
structure MSent where
  dst : Nat
  typ : Nat
  mid : Nat
  fields : Nat
  more : FPkt
  t : Nat
deriving DecidableEq, Repr
/-- A membership change that the lead has to make (R305, R306): the device and whether it joins (none: new tables only,
10 R288), and the MID of the JOIN or LEAVE that asked. -/
structure MChange where
  dev : Option (Nat × Bool)
  mid : Option Nat
deriving DecidableEq, Repr
/-- The change in progress: `phase` 1 TABLE, 2 FLIP, 3 MAPUPD. -/
structure MRun where
  chg : MChange
  phase : Nat
  gen : Nat
deriving DecidableEq, Repr
/-- The fabric (10, 11): global accesses waiting to enter it; packets waiting at the switches in the links' receive
buffers (6i + VC), and those that have entered from Mortar, with their link stop (10 R280); packets ejected and waiting for the home agents, and the input and
time of each; streams by destination and by source; the next MID; answers
given, by source and MID (R304); as lead: messages sent, changes to make and in progress, since when 1 ms must pass
before the next one, whether the first change of a new lead is still to come (R307), probes (device, MID, when); as member:
the JOIN or LEAVE sent: TYPE, MID, when first and when last; `base`: the EPOCH of every unlisted stream (R306). The standby and active route banks are registers. -/
structure Fab where
  gq : List GReq := []
  inq : Map (List FPkt) := []
  inj : List (Nat × FPkt) := []
  ejq : List FPkt := []
  via : List (Nat × Nat) := []
  src : Map SrcStream := []
  home : Map HomeStream := []
  mid : Nat := 0
  ans : Map Nat := []
  sent : List MSent := []
  todo : List MChange := []
  run : Option MRun := none
  flipAt : Option Nat := none
  newLead : Bool := false
  probes : List (Nat × Nat × Nat) := []
  asked : Option (Nat × Nat × Nat × Nat) := none
  base : Nat := 0
deriving DecidableEq, Repr

/-- A committed record whose signatures are retained (12 R317). -/
structure Retained where
  gsn : Nat
  rsig : List Nat
  wsig : List Nat
deriving DecidableEq, Repr
/-- What an output is (12 R325): a device access (class 0, 1), a fabric packet (2), a mailbox response (3: offset, size,
data). -/
inductive OutWhat where
  | dev (r : DevReq)
  | fab (p : FPkt) (resend : Bool)
  | mgt (off n data : Nat)
deriving DecidableEq, Repr
/-- An output in the hold buffer (R326): `go`: it may leave (its digests agree, or its class follows RELEASE). -/
structure Held where
  osn : Nat
  cls : Nat
  h : Option Nat
  what : OutWhat
  digest : Word
  go : Bool
deriving DecidableEq, Repr
/-- The input that the last step of a replayed chunk consumes (R322). -/
structure ReplayIn where
  cause : Nat
  value : Nat
  fault : Nat
  dfl : Nat
  arg : Nat
deriving DecidableEq, Repr
/-- What a Tandem unit sends to its partner beside the log (12 R310, R321, R338, R339, R341): its values in the handshake; DIGEST; PROGRESS; a
stoker's report of a divergence; the captain's command to fail-stop; the start of a rejoin and of a swap. -/
inductive TduMsg where
  | hello (m : TduHello)
  | digest (osn : Nat) (dg : Word)
  | progress (g : Nat)
  | report
  | stop
  | rejoin
  | swap
deriving DecidableEq, Repr
/-- The Tandem unit (12). `track`: dirty pages are recorded (R341); `dirty`: those pages; `pause`: threads select nothing and inbound traffic waits (cut-over, swap); `live`: a promoting member's
threads run; `gsn`, `osn`: the last numbers given; `recs`: R317; `log`: records sent and not yet covered by PROGRESS;
`commits`: GSN and T_COMMIT of committed records from `progress` on; `hold`: R326; `inlog`: records the stoker has
received and not replayed; `doneTo`, `done`: those it has; `outmaps`: outputs it must form; `formed`: digests it has
returned; `released`: the last OSN released; `left`: outputs of class RELEASE that have left; `inp`: the input a replay consumes;
`tlast`: the last logged time value; `tfloor`: R336; `repair`: the page being repaired; `partnerWait`: the partner is in STOKER_WAIT; `refused`: REJOIN is refused
(R310); `auto`: the captain is alone because of a divergence (R338); `steps`, `report`: steps of the chunk being replayed, and a stoker's
report of a divergence (R322); `tell`: messages sent since the last REFCLK edge. -/
structure Tdm where
  track : Bool := false
  dirty : List Nat := []
  pause : Bool := false
  live : Bool := false
  gsn : Nat := 0
  osn : Nat := 0
  recs : List Retained := []
  log : List LogRec := []
  commits : List (Nat × Nat) := []
  progress : Nat := 0
  hold : List Held := []
  inlog : List LogRec := []
  doneTo : Nat := 0
  done : List Nat := []
  outmaps : List OutmapRec := []
  formed : List (Nat × Word) := []
  released : Nat := 0
  left : List (Nat × Word) := []
  inp : Option ReplayIn := none
  tlast : Nat := 0
  tfloor : Nat := 0
  repair : Option Nat := none
  partnerWait : Bool := false
  refused : Bool := false
  auto : Bool := false
  steps : Nat := 0
  report : Bool := false
  tell : List TduMsg := []
deriving DecidableEq, Repr
/-- Cadence (13). `t` is the counter in units of 2^-32 ns; `slew` what is left to slew, in the same units; when the last edge
was accepted; the REFCLK cycle of the previous accepted edge of this run of ACQUIRING (R354); its frame's SEC; whether the
unit has been LOCKED since cold reset; consecutive mismatches (R353); valid frames not yet claimed, with when they ended;
when a frame was last associated; when HOLDOVER began, and whether its 24 hours have been counted (R360). -/
structure Cad where
  t : Nat := 0
  slew : Nat := 0
  lastEdge : Option Nat := none
  prevCyc : Option Nat := none
  prevSec : Option Nat := none
  locked : Bool := false
  mis : Nat := 0
  frames : List (Nat × List Byte) := []
  assoc : Option Nat := none
  holdAt : Option Nat := none
  day : Bool := false
deriving DecidableEq, Repr
/-- A context of an IOTU as a request uses it (05 R159, R160): its source and PASID, the fields of the context entry and, with a
PASID table, of the PASID entry. -/
structure IoCtx where
  src : Nat
  pasid : Option Nat
  s1 : Bool
  s2 : Bool
  hwad : Bool
  ats : Bool
  vmid : Nat
  did : Nat
  root : Nat
  s2root : Nat
  supv : Bool
deriving DecidableEq, Repr
/-- An ATS Invalidate Request that a root complex has sent to a device and that awaits its completion (05 R163; 14 R377): when, the TYPE
of the invalidation, the device, the PASID if any, and the page. -/
structure AtsInv where
  t0 : Nat
  ty : Nat
  src : Nat
  pasid : Option Nat
  page : Nat
deriving DecidableEq, Repr
/-- An IOTU (05 R163): cached contexts, the IOTLB and the walk cache, tagged with source and PASID; the ATS Invalidate Request in
progress. -/
structure Iotu where
  ctx : List IoCtx := []
  tlb : List ((Nat × Option Nat) × TlbE) := []
  walkc : List ((Nat × Option Nat) × WalkC) := []
  ats : Option AtsInv := none
deriving DecidableEq, Repr
/-- The configuration spaces of root ports, PFs and VFs (14 R365), by routing ID and doubleword; functions in FLR, and with a
Bus Master drain, with its start (R380); devices whose Bus Master Enable a stoker keeps in the shadow (12 R330); the root ports 8r + p
whose PCIE_PERST_N is high (20 R469). -/
structure Pcie where
  cfg : Map (BitVec 32) := []
  flr : List (Nat × Nat) := []
  drain : List (Nat × Nat) := []
  shadow : List Nat := []
  perst : List Nat := []
deriving DecidableEq, Repr
/-- How a descriptor has ended (15 R396): STATUS, STORED, CONSUMED, PRODUCED, CHECK, ERROFF. -/
structure CxRes where
  status : Nat
  stored : Bool := false
  consumed : Nat := 0
  produced : Nat := 0
  check : Nat := 0
  erroff : Nat := 0
deriving DecidableEq, Repr
/-- A remote access of a complex (15 R394): its number, how many bytes, and once it has been answered its status and data. -/
structure CxAsk where
  id : Nat
  n : Nat
  ans : Option (Nat × Nat) := none
deriving DecidableEq, Repr
/-- A descriptor that has been read and is not complete (15 R391): queue, instance, local queue, generation, its eight
doublewords, the pipeline that runs it (0 to 3 compression, 4 to 7 decompression), whether it has started, the source bytes that it has
read, its output with how much has been written and the result that follows, its remote access, its result. -/
structure CxJob where
  q : Nat
  inst : Nat
  j : Nat
  gen : Nat
  d : List Word
  pipe : Option Nat := none
  started : Bool := false
  got : List Byte := []
  out : Option (List Byte × Nat × CxRes) := none
  ask : Option CxAsk := none
  res : Option CxRes := none
deriving DecidableEq, Repr
/-- A descriptor read from remote memory: queue, instance. -/
structure CxFetch where
  q : Nat
  inst : Nat
  ask : CxAsk
deriving DecidableEq, Repr
/-- A compression complex beside its registers (15): outstanding descriptors in the order of their reads; the round-robin
state of R401: by kind (0 compression, 1 decompression) and instance the deficit, the instance and, by instance, the queue served last; MSI-X tables by instance, entry
and doubleword; pending MSI-X vectors (1,024 times the instance, plus the entry); remote descriptor reads; the number of the next remote access. -/
structure Cx where
  jobs : List CxJob := []
  deficit : Map Nat := []
  last : List Nat := [0, 0]
  lastq : Map Nat := []
  msix : Map (BitVec 32) := []
  pba : List Nat := []
  fetches : List CxFetch := []
  seq : Nat := 0
deriving DecidableEq, Repr
/-- What the package has last sent outside in answer to a request or as a PCIe request: a Completion (status 0 SC, 1 UR, 4 CA);
a request of a root port (8r + p), perhaps poisoned; an ATS translation; bytes; an AVSBus Voltage write. -/
inductive Reply where
  | none
  | cpl (status n data : Nat)
  | tlp (port : Nat) (cfg wr : Bool) (addr n data be : Nat) (ep : Bool)
  | ats (r w priv glob : Bool) (pa size : Nat)
  | bytes (l : List Byte)
  | avs (rail mv : Nat)
deriving DecidableEq, Repr
/-- How the package has stopped (16 R421): the cause (1 to 4 as SC_RSTCAUSE.CAUSE; 5: until a warm or cold reset, 6: until a
cold start) and when the stop began. -/
structure Stop where
  cause : Nat
  since : Nat
deriving DecidableEq, Repr
/-- What survives without power: the flash, with its size, the owner key hash once it is fused (16 R413), the unique identifier,
the fuses of SC_ODOFUSE (17 R444) and the silicon stepping of SC_PART_ID (00 R2). Unlisted flash bytes read as erased, 0xFF (log entry 12). -/
structure Nv where
  flash : Map (BitVec 8) := []
  size : Nat := 2 ^ 32
  keyHash : Option (List Byte) := none
  uid : Nat := 0
  odofuse : BitVec 32 := 0#32
  stepping : Fin 16 := 0
deriving DecidableEq, Repr
/-- Boot and reset (16). `ended`: boot has ended, so that schedule entries fire (13 R356); `stop`: a stop sequence; `compat`: UE_POLICY;
`capacity`: C; `mcq`: machine checks to deliver; `bci`: the copy in use; `cold`: this boot is a cold start; `t0`: when its
present wait began; `loaded`: the image is in DRAM; `fsStart`: the start of the window of R423. -/
structure Boot where
  ended : Bool := false
  stop : Option Stop := none
  compat : Bool := false
  capacity : Nat := 0
  mcq : List (Nat × Nat) := []
  bci : List Byte := []
  cold : Bool := false
  t0 : Nat := 0
  loaded : Bool := false
  fsStart : Nat := 0
deriving DecidableEq, Repr
/-- The Odometer (17 R439 to R444) beside its registers and live record: a write in progress and its REASON, when the
last unscheduled record was written, the REASON of a record that fell due during a write; whether the live state is present, the flash offset
of the partition, sectors found unusable since cold reset, the record being written; the last second and hour counted, the sector and SEQ of the newest record; the thermal-cycle detector: armed, and
its low or high reading. -/
structure Odo where
  writing : Option Nat := none
  lastUnsched : Option Nat := none
  again : Option Nat := none
  live : Bool := false
  part : Option Nat := none
  bad : List Nat := []
  snap : List Word := []
  sec : Nat := 0
  hour : Nat := 0
  hourAt : Nat := 0
  sector : Option Nat := none
  seq : Nat := 0
  armed : Bool := true
  ext : Option Int := none
deriving DecidableEq, Repr
/-- The management port and the mailboxes (18 R445 to R451): mailboxes with a command, in the order of their GO writes
(true: the port's); since when a forwarded command waits; the static address bits, the dynamic address, whether target
interrupts are enabled, when the last IBI was sent; the latched high unit and the held low unit with their offsets; when a
RESET command completed. -/
structure Mgt where
  q : List Bool := []
  fwdAt : Option Nat := none
  addr : BitVec 2 := 0#2
  dyn : Option (BitVec 7) := none
  ibi : Bool := false
  ibiAt : Option Nat := none
  latch : Option (Nat × BitVec 32) := none
  low : Option (Nat × BitVec 32) := none
  resetAt : Option Nat := none
deriving DecidableEq, Repr
/-- A course (18 R454 to R456): the point it runs at and the one it goes to, its thermal point, whether it throttles, for how many
samples it has been cool. -/
structure Course where
  point : Nat := 0
  want : Nat := 0
  therm : Nat := 7
  throt : Bool := false
  cool : Nat := 0
deriving DecidableEq, Repr
/-- Power and thermal control (18 R452 to R457): the averages of package power in units of 2^-16 W; CAP; courses; by rail the
AVSBus frames that have failed in succession; samples in succession at 115 °C or more; energy not yet counted, in units of
10 nJ. -/
structure Pwr where
  avg1ms : Nat := 0
  avg1s : Nat := 0
  cap : Nat := 7
  courses : Map Course := []
  fails : Map Nat := []
  hot : Nat := 0
  frac : Nat := 0
deriving DecidableEq, Repr
/-- A perturbation in progress (19 R461): its slot, kind and target, when it ends, and what it puts off. -/
structure ShmAct where
  slot : Nat
  kind : Nat
  what : Nat
  due : Nat
  arg : Nat := 0
  cmd : Option Instr := none
deriving DecidableEq, Repr
/-- Shimmy beside its registers (19): whether the slots decide (false while they wait for SHM_START), up to when the decisions of
every cycle have been made, how often in succession RETRY has discarded a flit (R462), perturbations in progress. -/
structure Shm where
  on : Bool := false
  cyc : Nat := 0
  tries : Map Nat := []
  acts : List ShmAct := []
deriving DecidableEq, Repr
/-- The instruction in the JTAG TAP (19 R465). -/
inductive Tap where
  | bypass | idcode | sample | extest | scChal | dbgAccess
deriving DecidableEq, Repr
/-- JTAG and the debug challenge (16 R425, 19 R465, R466): the TAP's instruction, whether TRST_N is low, the nonce, the stored segments, the submission being
checked, with its nonce (none: a segment was missing), DONE, SEGERR, what DBG_ACCESS captures. -/
structure Jtag where
  ir : Tap := .idcode
  trst : Bool := false
  nonce : Option (List Byte) := none
  segs : Map (List Byte) := []
  check : Option (List Byte × Option (List Byte)) := none
  done : Bool := false
  segErr : Bool := false
  dbg : BitVec 128 := 0#128
deriving DecidableEq, Repr
/-- The package's pins (20). `alive`: TDM_ALIVE is not held low by this member; `partner`: nor by its partner; `fsIn` reads asserted while
no partner drives it (R470). -/
structure Pins where
  vaux : Bool := false
  pwrgood : Bool := false
  refclk : Bool := true
  warmRstN : Bool := true
  fsOut : Bool := true
  fsIn : Bool := true
  alive : Bool := false
  partner : Bool := false
  thermtripN : Bool := true
deriving DecidableEq, Repr

end Sys2Proof.Machine
end

