-- ==== Sys2Proof/Machine/State.lean ====
section
/-!
DEFINITION. Machine/State.lean: the whole state of the package as plain data (INVENTORY.md, "## State"), the outcomes a
step can stop with, and the state after a cold reset of an unpowered package (log entry 9).
-/
namespace Sys2Proof.Machine

/-- Why a step stops with a fault. Every error of spec/ is an exception, a status or a reset of the package, so no
meaning raises one. -/
inductive Fault where
  /-- Raised by no meaning: kept so that the type is not empty. Safe. -/
  | unreachable
deriving DecidableEq, Repr

/-- Why a command is refused. -/
inductive Refusal where
  /-- Raised by an arm of exec whose command has no meaning yet, with its mnemonic. Safe. -/
  | notModelled (mnemonic : String)
deriving DecidableEq, Repr

/-- The package: everything but its non-volatile parts. -/
structure Pkg where
  -- threads, cores, caches (02 to 07)
  threads : Map Thread := []
  cores : Map Core := []
  l1i : Map CLine := []
  l1d : Map CLine := []
  l2 : Map CLine := []
  l3 : Map CLine := []
  dir : Map DirE := []
  trackers : Map (List Tracker) := []
  cops : List CacheOp := []
  spare : Map (BitVec 16) := []
  evac : List Nat := []
  devq : List DevReq := []
  -- DRAM (09) and the registers (DRS and the compression complexes' BARs)
  mem : List Host.Cell := []
  dpoison : Map Bool := []
  dsym : Map (List SymErr) := []
  drs : Map Word := []
  -- the package's units
  noc : Noc := {}
  mcs : Map Mc := []
  links : Map Link := []
  fab : Fab := {}
  tdm : Tdm := {}
  cad : Cad := {}
  iotus : Map Iotu := []
  pcie : Pcie := {}
  cxs : Map Cx := []
  boot : Boot := {}
  odo : Odo := {}
  mgt : Mgt := {}
  pwr : Pwr := {}
  shm : Shm := {}
  jtag : Jtag := {}
  pins : Pins := {}
  -- the last answer given outside (the model's own)
  reply : Reply := .none
  -- the model's own clock (ps since power-up) and free-value counter
  now : Nat := 0
  fresh : Nat := 0
deriving DecidableEq, Repr

/-- The whole state: the package, its fuses and flash (16 R409, R410), and the commands that wait, first in, first
out. -/
structure State where
  pkg : Pkg := {}
  nv : Nv := {}
  pending : List Instr := []
deriving DecidableEq, Repr

/-- The machine right after reset: no power, every register at its reset value, nothing pending (log entry 9). -/
def State.reset : State := {}

end Sys2Proof.Machine
end

