-- ==== Sys2Proof/Machine/Ops.lean ====
section
/-!
DEFINITION. Machine/Ops.lean: the named operations that every meaning uses: threads, cores and registers, bytes of lines,
time, the thread interrupt controllers (04 R128 to R133), monitors (03 R93), error records and fail-stop
(17 R427 to R435, 16 R421), the Odometer's events (17 R441).
-/
namespace Sys2Proof.Machine

/-- The outcome of a step. -/
abbrev Out := Host.Outcome State Fault Refusal

/-! ### Access -/

/-- What an unlisted thread holds: OFF with every register at reset (02 R58, 16 R424). -/
def thr0 : Nat → Thread := fun _ => {}
def core0 : Nat → Core := fun _ => {}
def line0 : Nat → CLine := fun _ => {}

def Pkg.thr (s : Pkg) (h : Nat) : Thread := Map.get thr0 s.threads h
def Pkg.setThr (s : Pkg) (h : Nat) (t : Thread) : Pkg := { s with threads := Map.set thr0 s.threads h t }
def Pkg.updThr (s : Pkg) (h : Nat) (f : Thread → Thread) : Pkg := s.setThr h (f (s.thr h))
def Pkg.core (s : Pkg) (c : Nat) : Core := Map.get core0 s.cores c
def Pkg.setCore (s : Pkg) (c : Nat) (k : Core) : Pkg := { s with cores := Map.set core0 s.cores c k }
def Pkg.updCore (s : Pkg) (c : Nat) (f : Core → Core) : Pkg := s.setCore c (f (s.core c))

/-- A DRS (or compression BAR) register's contents, by its offset. -/
def Pkg.rd (s : Pkg) (off : Nat) : Word := Map.get regReset s.drs off
def Pkg.wr (s : Pkg) (off : Nat) (v : Word) : Pkg := { s with drs := Map.set regReset s.drs off v }
/-- Field [hi:lo] of a register. -/
def Pkg.rf (s : Pkg) (off hi lo : Nat) : Nat := bits (s.rd off) hi lo
def Pkg.wf (s : Pkg) (off hi lo x : Nat) : Pkg := s.wr off (setBits (s.rd off) hi lo x)
/-- A one-bit field. -/
def Pkg.rb (s : Pkg) (off i : Nat) : Bool := (s.rd off).getLsbD i
def Pkg.wb (s : Pkg) (off i : Nat) (b : Bool) : Pkg := s.wf off i i (if b then 1 else 0)
/-- Increment a counter field, saturating. -/
def Pkg.sat (s : Pkg) (off hi lo : Nat) (k : Nat := 1) : Pkg :=
  s.wf off hi lo (min (s.rf off hi lo + k) (2 ^ (hi - lo + 1) - 1))
/-- Increment a counter field, wrapping. -/
def Pkg.inc (s : Pkg) (off hi lo : Nat) (k : Nat := 1) : Pkg := s.wf off hi lo (s.rf off hi lo + k)

/-- A free value (log entry 1) and the state that has drawn it. -/
def Pkg.draw (s : Pkg) : Word × Pkg := (Config.free s.fresh, { s with fresh := s.fresh + 1 })

/-! ### Thread registers -/

def w0 : Nat → Word := fun _ => 0#64
def v0 : Nat → VWord := fun _ => 0#256

/-- G[r]; G0 reads 0 (03 R68). -/
def Thread.rg (t : Thread) (r : Nat) : Word := if r = 0 then 0#64 else Map.get w0 t.g r
/-- Write G[r]; a write of G0 is discarded. -/
def Thread.wg (t : Thread) (r : Nat) (v : Word) : Thread := if r = 0 then t else { t with g := Map.set w0 t.g r v }
def Thread.rF (t : Thread) (r : Nat) : Word := Map.get w0 t.f r
def Thread.wF (t : Thread) (r : Nat) (v : Word) : Thread := { t with f := Map.set w0 t.f r v }
def Thread.rV (t : Thread) (r : Nat) : VWord := Map.get v0 t.v r
def Thread.wV (t : Thread) (r : Nat) (v : VWord) : Thread := { t with v := Map.set v0 t.v r v }

/-- Reset values of the system registers (the Reset columns of 02 to 05, 12): PS.LVL 3, TPRI 1, TCMP all ones,
SCE_CTL.LVL 1, TCTL_x.HWAD 1, VMCTL.S2HWAD 1, the others 0. -/
def srReset (n : Nat) : Word :=
  match n with
  | 0x010 => 1#64
  | 0x100 => 3#64
  | 0x208 | 0x209 | 0x20A | 0x210 | 0x302 => 2#64
  | 0x401 => 0xFFFFFFFFFFFFFFFF#64
  | _ => 0#64

def Thread.rs (t : Thread) (n : Nat) : Word := Map.get srReset t.sr n
def Thread.ws (t : Thread) (n : Nat) (v : Word) : Thread := { t with sr := Map.set srReset t.sr n v }

/-- PS (04 R102). -/
def Thread.ps (t : Thread) : Word := t.rs 0x100
def Thread.setPs (t : Thread) (v : Word) : Thread := t.ws 0x100 v
/-- PS.LVL: 0 U, 1 S, 2 H, 3 M. -/
def Thread.lvl (t : Thread) : Nat := bits t.ps 1 0

/-- The level base of R105 for S, H, M (1, 2, 3). -/
def lvlBase (l : Nat) : Nat := 0x100 + 0x20 * l

/-- Write an awaited value into its destination (03 R69, R76). -/
def Thread.deliver (t : Thread) (d : Dest) (x : Nat) : Thread :=
  match d with
  | .g r n sgn =>
    t.wg r (if sgn then (BitVec.ofNat (8 * n) x).signExtend 64 else BitVec.ofNat 64 x)
  | .f r n => t.wF r (BitVec.ofNat 64 (x % 2 ^ (8 * n)))
  | .v r => t.wV r (BitVec.ofNat 256 x)
  | .gg r => (t.wg r (BitVec.ofNat 64 x)).wg (r + 1) (BitVec.ofNat 64 (x / 2 ^ 64))
  | .buf => t

/-! ### Bytes of a line -/

/-- Bytes o … o + n − 1 of a line, little-endian. -/
def lineGet (d : BitVec 512) (o n : Nat) : Nat := (d.toNat / 2 ^ (8 * o)) % 2 ^ (8 * n)
/-- The line with bytes o … o + n − 1 replaced. -/
def linePut (d : BitVec 512) (o n x : Nat) : BitVec 512 :=
  let m : BitVec 512 := BitVec.ofNat 512 ((2 ^ (8 * n) - 1) * 2 ^ (8 * o))
  (d &&& ~~~m) ||| (BitVec.ofNat 512 (x % 2 ^ (8 * n) * 2 ^ (8 * o)))
/-- The 512-bit mask of a byte mask. -/
def byteMask (m : BitVec 64) : BitVec 512 :=
  (List.range 64).foldl (fun a k => if m.getLsbD k then a ||| BitVec.ofNat 512 (255 * 2 ^ (8 * k)) else a) 0#512

/-! ### Time (03 R92, 13 R346 to R349) -/

/-- One nanosecond in the units of Cad.t. -/
def nsUnit : Nat := 4294967296
/-- The counter wraps after 2^48 seconds. -/
def cadWrap : Nat := 2 ^ 48 * 1000000000 * nsUnit
/-- Cadence time in whole ns. -/
def Pkg.cadNs (s : Pkg) : Nat := s.cad.t / nsUnit
/-- The RDTIME form of Cadence time (R92). -/
def Pkg.rdtime (s : Pkg) : Word := BitVec.ofNat 64 s.cadNs
/-- Cadence seconds. -/
def Pkg.cadSec (s : Pkg) : Nat := s.cadNs / 1000000000

/-- ADJ, signed, from CAD_FREQ[63:32]. -/
def Pkg.adj (s : Pkg) : Int := (BitVec.ofNat 32 (s.rf (cadBase + 0x28) 63 32)).toInt

/-- CAD_PHASE.REMAIN for what is left to slew (R359): whole ns, rounded up, saturating. -/
def remainOf (slew : Nat) : Nat := min ((slew + nsUnit - 1) / nsUnit) (2 ^ 32 - 1)

/-- `dt` ps pass: each REFCLK edge (every 10 ns) adds 10 ns + ADJ to Cadence time; while a slew runs the counter
runs 1,000 ppm slower (R346, R349). Nothing advances without REFCLK (20 R473) or VAUX. -/
def Pkg.elapse (s : Pkg) (dt : Nat) : Pkg :=
  if s.pins.refclk && s.pins.vaux then
    let n := (s.now + dt) / 10000 - s.now / 10000
    let gain : Int := (n : Int) * (10 * (nsUnit : Int) + s.adj)
    let cut := min s.cad.slew (n * ((10 * (nsUnit : Int) + s.adj) / 1000).toNat)
    let t := (s.cad.t + gain.toNat - cut) % cadWrap
    let s1 := { s with now := s.now + dt, cad := { s.cad with t := t, slew := s.cad.slew - cut } }
    if s.cad.slew = 0 then s1 else s1.wf (cadBase + 0x10) 63 32 (remainOf (s.cad.slew - cut))
  else { s with now := s.now + dt }

/-! ### Thread interrupt controllers (04) -/

def ticPend (h : Nat) : Nat := ticBase h + 8
def ticEn (h : Nat) : Nat := ticBase h + 0x10
def ticThresh (h : Nat) : Nat := ticBase h + 0x18
def ticSyspend (h : Nat) : Nat := ticBase h + 0x20
def ticSysen (h : Nat) : Nat := ticBase h + 0x28
def ticStatus (h : Nat) : Nat := ticBase h + 0x38

/-- Whether vector v (32 to 127) is pending in the TIC of h. -/
def Pkg.pendv (s : Pkg) (h v : Nat) : Bool :=
  if v < 64 then s.rb (ticSyspend h) (v - 32) else s.rb (ticPend h) (v - 64)
/-- Whether its enable is set; 32 and 33 always (R131, R223). -/
def Pkg.env (s : Pkg) (h v : Nat) : Bool :=
  if v < 34 then true else if v < 64 then s.rb (ticSysen h) (v - 32) else s.rb (ticEn h) (v - 64)
/-- Set or clear a pending bit. -/
def Pkg.putPend (s : Pkg) (h v : Nat) (b : Bool) : Pkg :=
  if v < 64 then s.wb (ticSyspend h) (v - 32) b else s.wb (ticPend h) (v - 64) b

/-- The fixed delegation bits of R109: vectors whose MDELEG, and whose HDELEG, bit reads 0. -/
def mdelegFixed (v : Nat) : Bool :=
  v = 12 || v = 18 || v = 32 || v = 33 || (decide (19 ≤ v) && decide (v ≤ 31)) || (decide (39 ≤ v) && decide (v ≤ 63))
def hdelegFixed (v : Nat) : Bool := mdelegFixed v || v = 17

/-- The target level of a vector (R108). -/
def Thread.target (t : Thread) (v : Nat) : Nat :=
  let md := (t.rs (0x108 + v / 64)).getLsbD (v % 64)
  let hd := (t.rs (0x10C + v / 64)).getLsbD (v % 64)
  if md then (if hd then 1 else 2) else 3

/-- Whether R128 takes pending vector v at the thread's current PS. -/
def Pkg.takeable (s : Pkg) (h v : Nat) : Bool :=
  let t := s.thr h
  let tg := t.target v
  s.pendv h v && s.env h v
    && (decide (tg > t.lvl) || (tg == t.lvl && t.ps.getLsbD 2))
    && (decide (v < 64) || decide (v > s.rf (ticThresh h) 6 0))

/-- The asynchronous vectors in the order of R128 within one level: system ones rising, external ones falling. -/
def asyncOrder : List Nat := (List.range 32).map (· + 32) ++ (List.range 64).map (127 - ·)

/-- The vector taken at a boundary (R128): highest target level first, then asyncOrder. -/
def Pkg.pickVector (s : Pkg) (h : Nat) : Option Nat :=
  let c := asyncOrder.filter (s.takeable h)
  match c.find? (fun v => (s.thr h).target v == 3) with
  | some v => some v
  | none =>
    match c.find? (fun v => (s.thr h).target v == 2) with
    | some v => some v
    | none => c.head?

/-! ### Tandem states (12 R312) -/

/-- TDM_STAT.STATE. -/
def Pkg.tdmState (s : Pkg) : Nat := s.rf tdmBase 3 0
def Pkg.setTdm (s : Pkg) (x : Nat) : Pkg := s.wf tdmBase 3 0 x
/-- CAPTAIN_PAIRED: chunks are formed (R313). -/
def Pkg.paired (s : Pkg) : Bool := s.tdmState == 5
/-- A member that replays (R322): a stoker, one that promotes and has not yet replayed every record, one that swaps. -/
def Pkg.replaying (s : Pkg) : Bool :=
  s.tdmState == 8 || (s.tdmState == 9 && !s.tdm.live) || (s.tdmState == 10 && s.rf fabBase 17 16 == 2)

/-! ### Wakes -/

/-- A wake of a sleeping thread (02 R55): PARK completes and disarms its monitor (R93), WAITT completes with its
reason (R92). -/
def Thread.wake (t : Thread) (reason : Nat) : Thread :=
  match t.st with
  | .parked => { t with st := .run, mon := none, monWake := false }
  | .timewait =>
    match t.waitt with
    | some (_, rd) => { t with st := .run, waitt := none }.wg rd (BitVec.ofNat 64 reason)
    | none => { t with st := .run }
  | _ => t

/-- Time as threads see it (R92; 12 R336). -/
def Pkg.timeNs (s : Pkg) : Nat := max s.cadNs s.tdm.tfloor
/-- Whether a perturbation of this kind and target is in progress (18 R461). -/
def Pkg.shmHas (s : Pkg) (kind what : Nat) : Bool := s.shm.acts.any (fun a => a.kind == kind && a.what == what)
/-- The numbers of WAITT and TIMER releases; a schedule entry's is its index. -/
def skewWaitt (h : Nat) : Nat := 65536 + h
def skewTimer (h : Nat) : Nat := 131072 + h

/-- A thread wakes; a WAITT whose time has been reached has reason 0, the lowest (03 R92). The reason of a paired captain's WAITT is kept
for its commit (12 R314). A replayed thread wakes as the log says (12 R322). -/
def Pkg.wakeThr (s : Pkg) (h reason : Nat) : Pkg :=
  if s.replaying then s
  else
    let p := s.paired
    let due := match (s.thr h).waitt with | some (w, _) => decide (w.toNat ≤ s.timeNs % 2 ^ 64) | none => false
    let reason := if due && !s.shmHas 7 (skewWaitt h) then 0 else reason
    s.updThr h (fun t => { t.wake reason with wreason := if p && t.st == .timewait then some reason else t.wreason })

/-- MESH_CPWR of core c (08 R220). -/
def meshCpwr (c : Nat) : Nat := meshBase (c / 2 + 16) + 0x400 + 8 * (c % 2)
def meshL2pwr (n : Nat) : Nat := meshBase (n + 16) + 0x410
/-- PSTATE of a core and of an L2: 0 ON, 1 GATING, 2 GATED, 3 WAKING. -/
def Pkg.coreP (s : Pkg) (c : Nat) : Nat := s.rf (meshCpwr c) 5 4
def Pkg.l2P (s : Pkg) (n : Nat) : Nat := s.rf (meshL2pwr n) 2 1

/-- A wake condition of core c (R223, R224): a gating is abandoned, a gated core starts waking (its L2 first). -/
def Pkg.wakeCore (s : Pkg) (c : Nat) (byInt : Bool) : Pkg :=
  if s.coreP c = 1 then s.wf (meshCpwr c) 5 4 0
  else if s.coreP c = 2 then
    let s := s.wf (meshCpwr c) 5 4 3
    let s := if s.l2P (c / 2) = 2 then s.wf (meshL2pwr (c / 2)) 2 1 3 else s
    if byInt then { s with noc := { s.noc with wokeInt := c :: s.noc.wokeInt } } else s
  else s

/-- Judge the wake conditions of a thread (R55, R129). -/
def Pkg.evalWake (s : Pkg) (h : Nat) : Pkg :=
  match (s.thr h).st with
  | .parked | .timewait =>
    match s.pickVector h with
    | some _ => s.wakeThr h 2
    | none => s
  | _ => s

/-- The vectors that are pending with their enable bits set in a thread's TIC (R223). -/
def Pkg.ripe (s : Pkg) (h : Nat) : List Nat := asyncOrder.filter (fun v => s.pendv h v && s.env h v)
/-- The TIC of a thread has changed: a vector that has become pending and enabled, which was not among `old`, wakes its core (R223); the
thread's wake conditions are judged. -/
def Pkg.ticChanged (s : Pkg) (h : Nat) (old : List Nat) : Pkg :=
  (if (s.coreP (h / 8) = 1 ∨ s.coreP (h / 8) = 2) ∧ s.rb (meshCpwr (h / 8)) 3 ∧ (s.ripe h).any (fun v => !old.contains v) then
    s.wakeCore (h / 8) true else s).evalWake h

/-- A vector becomes pending (R130): the FINFO of 32 and 33 is that of the first event of a merged group. -/
def Pkg.raiseVec (s : Pkg) (h v : Nat) (fin : Word := 0#64) : Pkg :=
  let s :=
    if s.pendv h v then s
    else if v = 32 then s.updThr h (fun t => { t with fin32 := fin })
    else if v = 33 then s.updThr h (fun t => { t with fin33 := fin })
    else s
  (s.putPend h v true).ticChanged h (s.ripe h)

/-- A 4-byte write to TIC_MSI (R131). -/
def Pkg.msiWrite (s : Pkg) (h : Nat) (x : Nat) : Pkg :=
  if 64 ≤ x ∧ x ≤ 127 then s.raiseVec h x
  else (s.wb (ticStatus h) 0 true).sat (ticStatus h) 15 8

/-! ### The Tandem log (12 R312 to R320) -/

/-- A captain whose log and hold buffer work (R326): paired, or swapping. -/
def Pkg.logging (s : Pkg) : Bool := s.paired || (s.tdmState == 10 && s.rf fabBase 17 16 == 1)
/-- The Tandem unit sends its partner a message. -/
def Pkg.tell (s : Pkg) (m : TduMsg) : Pkg := { s with tdm := { s.tdm with tell := s.tdm.tell ++ [m] } }
/-- Two lines conflict in a signature: the same line, or a false match of the hash (log entry 6). -/
def sigHit (a b : Nat) : Bool := a == b || Config.sigAlias a b
def sigHits (l : List Nat) (b : Nat) : Bool := l.any (fun a => sigHit a b)

/-- The predecessor of a record with these signatures (R317). -/
def Pkg.pred (s : Pkg) (rsig wsig : List Nat) : Nat :=
  let base := match s.tdm.recs.head? with | some r => r.gsn - 1 | none => 0
  s.tdm.recs.foldl (fun a r =>
    if r.wsig.any (fun l => sigHits rsig l || sigHits wsig l) || r.rsig.any (sigHits wsig) then max a r.gsn else a) base

/-- Send a record and retain its signatures (R317, R319). -/
def Pkg.sendRec (s : Pkg) (r : LogRec) (rsig wsig : List Nat) : Pkg :=
  let g := s.tdm.gsn + 1
  let recs := s.tdm.recs ++ [⟨g, rsig, wsig⟩]
  { s with tdm := { s.tdm with
      gsn := g, log := s.tdm.log ++ [r], recs := recs.drop (recs.length - 4096), commits := s.tdm.commits ++ [(g, s.cadNs)] } }

/-- An event from outside the threads commits as an INB record (R320); `lines`: the lines it writes, `rl`: those it reads. -/
def Pkg.inb (s : Pkg) (r : InbRec) (lines : List Nat) (rl : List Nat := []) : Pkg :=
  if s.paired then s.sendRec (.inb { r with gsn := s.tdm.gsn + 1, pred := s.pred rl lines }) rl lines else s
def inbBlank : InbRec := { gsn := 0, pred := 0, kind := 0, nbytes := 0, addr := 0, atop := 0, rm := 0, poison := false, source := 0, be := 0, slot1 := 0#128, ts := 0, data := [] }

/-- A set of a TIC pending bit from outside a thread (R320 kind 7); on a stoker local sources are discarded (R324). -/
def Pkg.ticSet (s : Pkg) (h v : Nat) : Pkg :=
  if s.replaying then s
  else (s.inb { inbBlank with kind := 7, addr := h + v * 65536 } []).raiseVec h v
/-- A TIC_MSI write from outside a thread. -/
def Pkg.msiIn (s : Pkg) (h x : Nat) : Pkg :=
  if s.replaying then s
  else if 64 ≤ x ∧ x ≤ 127 then s.ticSet h x else s.msiWrite h x

/-- The interrupt that a register in the layout of MC_PRIRQ requests (09 R251): HTID, VECTOR, EN. -/
def Pkg.irqOf (s : Pkg) (off : Nat) : Pkg :=
  if s.rb off 31 then s.msiIn (s.rf off 10 0) (s.rf off 23 16) else s

/-! ### Monitors (03 R93) -/

/-- A write to a line by any agent sets the wake condition of every monitor armed on it; a PARKED thread wakes. -/
def Pkg.monHit (s : Pkg) (line : Nat) : Pkg :=
  let held := s.replaying
  (s.threads.filter (fun p => p.2.mon = some line)).foldl (fun s p =>
    s.updThr p.1 (fun t =>
      let t := { t with monWake := true }
      match t.st with
      | .parked => if held then t else t.wake 0
      | _ => t)) s

/-! ### Odometer events and requests (17 R440 to R442) -/

/-- The live record's doubleword at byte offset `o` (ODO_LIVE, R444). -/
def odoLive (o : Nat) : Nat := odoBase + 0x1000 + o / 8 * 8
/-- A field of the live record: n bytes at byte offset o, not crossing a doubleword. -/
def Pkg.liveGet (s : Pkg) (o n : Nat) : Nat := s.rf (odoLive o) (8 * (o % 8 + n) - 1) (8 * (o % 8))
def Pkg.livePut (s : Pkg) (o n x : Nat) : Pkg := s.wf (odoLive o) (8 * (o % 8 + n) - 1) (8 * (o % 8)) x
/-- Add to a live count (counts only grow: it saturates). -/
def Pkg.liveAdd (s : Pkg) (o n k : Nat) : Pkg := s.livePut o n (min (s.liveGet o n + k) (2 ^ (8 * n) - 1))

/-- The clock (MHz) and setpoint (mV) of the eight operating points (18 R454). -/
def pointMhz (p : Nat) : Nat := [1200, 1800, 2400, 3000, 3100, 3200, 3300, 3400].getD p 0
def pointMv (p : Nat) : Nat := [700, 740, 800, 880, 910, 940, 970, 1000].getD p 0
/-- The tiles of course k (01 R15), and whether a core of it is powered. -/
def courseTiles (k : Nat) : List Nat := (List.range 4).map (fun j => 16 * (4 * (k / 16) + k % 4) + 4 * (k / 4 % 4) + j)
def course0 : Nat → Course := fun _ => {}
def Pkg.course (s : Pkg) (k : Nat) : Course := Map.get course0 s.pwr.courses k
/-- The course of a core (01 R15), and its clock. -/
def courseOf (c : Nat) : Nat := 16 * (c / 2 / 16 / 4) + 4 * (c / 2 % 16 / 4) + c / 2 / 16 % 4
def Pkg.coreMhz (s : Pkg) (c : Nat) : Nat := pointMhz (s.course (courseOf c)).point
def Pkg.coursePowered (s : Pkg) (k : Nat) : Bool :=
  (courseTiles k).any (fun n => s.rf (meshBase (n + 16) + 0x400) 5 4 != 2 || s.rf (meshBase (n + 16) + 0x408) 5 4 != 2)
/-- LIFE_PPM (R439), rounded down. -/
def Pkg.lifePpm (s : Pkg) : Pkg :=
  let age := (List.range 32).foldl (fun a k => max a (s.liveGet (0x122 + 4 * k) 2)) 0
  let l := max (s.liveGet 0x58 8 * 1000000 / (631152000 * 65536)) (max (s.liveGet 0x3C 4 * 1000000 / 7300) (age * 1000000 / 25000))
  s.livePut 0x50 4 (max (s.liveGet 0x50 4) (min l (2 ^ 32 - 1)))
/-- A record write begins (R439, R443): every powered course measures its oscillator, a free reading (log entry 1), and the live
state is taken. -/
def Pkg.odoBegin (s : Pkg) (reason : Nat) : Pkg :=
  let s := (List.range 32).foldl (fun s k =>
    if s.coursePowered k then
      let (x, s) := s.draw
      let a := x.toNat % 65536
      (s.livePut (0x120 + 4 * k) 2 a).livePut (0x122 + 4 * k) 2 (max a (s.liveGet (0x122 + 4 * k) 2))
    else s) s
  let s := s.lifePpm
  let fl := (if s.rf (cadBase + 8) 1 0 = 2 then 0 else 1) + 2 * s.rf odoBase 2 2 + 4 * s.rf odoBase 1 1
  let snap := (List.range 512).map (fun i =>
    let v := s.rd (odoLive (8 * i))
    if i = 0 then setBits v 63 48 fl else if i = 4 then s.rdtime else if i = 5 then setBits v 7 0 reason else v)
  { s with odo := { s.odo with writing := some reason, again := none, snap := snap } }.wb odoBase 0 true

/-- A record is due (R442): REASON 0 hourly, 1 snapshot, 2 event, 3 cold start. An unscheduled one within 3,600 s of
the previous unscheduled one is carried by the next record and counted in DEFER; one due during a write, or before the partition has
been found, is written after that. -/
def Pkg.odoRequest (s : Pkg) (reason : Nat) : Pkg :=
  let soon := match s.odo.lastUnsched with
    | some t => decide (s.now - t < 3600 * 1000000000000)
    | none => false
  if reason != 0 && soon then s.sat odoBase 47 32
  else if s.odo.writing.isSome || s.odo.part.isNone then { s with odo := { s.odo with again := some (s.odo.again.getD reason) } }
  else if s.rb odoBase 3 then s
  else
    let s := if reason = 0 then s else { s with odo := { s.odo with lastUnsched := some s.now } }
    s.odoBegin reason

/-- Event codes that request an unscheduled record (R442). -/
def odoEventAsks (code : Nat) : Bool := [0x03, 0x04, 0x0B, 0x0D, 0x0E].contains code

/-- Enter an event in the ring (R441). -/
def Pkg.odoEvent (s : Pkg) (code unit stop d0 d1 : Nat) : Pkg :=
  let n := s.liveGet 0x340 4
  let b := 0x400 + 32 * (n % 64)
  let s := s.livePut b 8 s.rdtime.toNat
  let s := s.wr (odoLive (b + 8))
    (BitVec.ofNat 64 (code + s.rf (cadBase + 8) 1 0 * 2 ^ 16 + unit * 2 ^ 24 + (stop % 16) * 2 ^ 32 + (stop / 16) * 2 ^ 40))
  let s := s.livePut (b + 16) 8 d0
  let s := s.livePut (b + 24) 8 d1
  let s := s.livePut 0x340 4 (n + 1)
  if odoEventAsks code then s.odoRequest 2 else s

/-! ### Error records (17 R427 to R435) -/

/-- A window's base offset. -/
def Win.base : Win → Nat
  | .core c => coreBase c | .tic h => ticBase h | .l2 n => l2Base n | .l3s n => l3sBase n | .mesh s => meshBase s
  | .mc i => mcBase i | .lk i => lkBase i | .rc i => rcBase i | .cx i => cxBase i | .iotu u => iotuBase u
  | .cxbar i => cxBar i | .tdm => tdmBase | .sc => scBase | .cad => cadBase | .odo => odoBase | .shm => shmBase
  | .mgt => mgtBase | .fab => fabBase

/-- The error record of a unit: the error goes to its IOTU's owner for an IOTU. -/
def Win.err (w : Win) : Nat := w.base + 0xC00
/-- The physical address of a DRS offset. -/
def drsPa (off : Nat) : Nat := 0xFF00000000000 + off

/-- An error (R427, R431): class 0 CE, 1 DEFERRED, 2 UE, 3 FATAL; `inWin`: a CE that ERR_WIN counts; `held`: offered to the record. -/
structure Err where
  cls : Nat
  code : Nat
  addr : Option Nat := none
  info : Nat := 0
  htid : Option Nat := none
  mcreq : Bool := false
  inWin : Bool := true
  held : Bool := true
deriving DecidableEq, Repr

/-- ERR_STATUS of an error (R429). -/
def Err.status (e : Err) (unit : Nat) (ovf : Bool) : Word :=
  BitVec.ofNat 64 (1 + (if ovf then 2 else 0) + e.cls * 4 + (if e.addr.isSome then 16 else 0)
    + (if e.mcreq then 32 else 0) + e.code * 2 ^ 8 + unit * 2 ^ 16
    + (match e.htid with | some h => h * 2 ^ 20 + 2 ^ 31 | none => 0))

/-- The windowed count of 06 R181 in a register with COUNT in [7:0] and START in [63:16], for a WINDOW in Cadence
seconds: the new register value. -/
def winCount (v : Word) (window nowSec : Nat) : Word :=
  if bits v 7 0 = 0 ∨ nowSec - bits v 63 16 ≥ window then setBits (setBits v 63 16 nowSec) 7 0 1
  else setBits v 7 0 (min (bits v 7 0 + 1) 255)

/-- Whether an error makes such a count equal to its threshold: it was not before, or a new window has begun (06 R183). -/
def winHit (v : Word) (window nowSec th : Nat) : Bool :=
  th != 0 && bits (winCount v window nowSec) 7 0 == th
    && (bits v 7 0 != th || decide (nowSec - bits v 63 16 ≥ window))

/-- Whether any record of class DEFERRED or higher is held, and the doubleword j of SC_ERRPEND (R434). -/
def Pkg.errPend (s : Pkg) (j : Nat) : Word :=
  s.drs.foldl (fun a p =>
    match winOf p.1 with
    | some (w, 0xC00) =>
      if p.2.getLsbD 0 && decide (bits p.2 3 2 ≥ 1) && decide (w.stop / 64 = j) && (w.rows.any (·.off == 0xC00))
      then a ||| BitVec.ofNat 64 (2 ^ (w.stop % 64)) else a
    | _ => a) 0#64
def Pkg.errAny (s : Pkg) : Bool := (s.errPend 0 != 0#64) || (s.errPend 1 != 0#64) || (s.errPend 2 != 0#64)

/-- Write an error into its unit's record and count it (R429, R430), with the unit notification of R433 and the
Odometer's counts and events (R440, R441). -/
def Pkg.record (s : Pkg) (w : Win) (e : Err) : Pkg :=
  let b := w.err
  let quiet := !s.errAny
  let v := s.rb b 0
  let old := s.rd b
  let take := e.held && (!v || decide (e.cls > bits old 3 2))
  let s := if take then
      let s := s.wr b (e.status w.errUnit (v || s.rb b 1))
      let s := s.wr (b + 8) (BitVec.ofNat 64 (e.addr.getD 0))
      let s := s.wr (b + 0x10) (BitVec.ofNat 64 e.info)
      s.wr (b + 0x18) s.rdtime
    else if e.held then s.wb b 1 true else s
  let s := if e.cls = 0 then s.inc (b + 0x20) 31 0 else s.sat (b + 0x20) 47 32
  let o := 0x1A0 + 32 * w.errUnit
  let s := if e.cls = 0 then s.liveAdd o 8 1 else if e.cls = 1 then s.liveAdd (o + 8) 8 1
    else if e.cls = 2 then s.liveAdd (o + 16) 4 1 else s.liveAdd (o + 20) 4 1
  let s := if take && decide (e.cls ≥ 2) then s.odoEvent 0x05 w.errUnit w.stop (drsPa b) (s.rd b).toNat else s
  -- R433
  let s := if e.cls = 0 && e.inWin then
      let nv := winCount (s.rd (b + 0x38)) (s.rf (b + 0x28) 63 32) s.cadSec
      let th := s.rf (b + 0x28) 7 0
      let hit := winHit (s.rd (b + 0x38)) (s.rf (b + 0x28) 63 32) s.cadSec th
      let s := s.wr (b + 0x38) nv
      if hit then (s.irqOf (b + 0x30)).odoEvent 0x06 w.errUnit w.stop (drsPa b) nv.toNat else s
    else if e.cls = 1 && s.rb (b + 0x28) 8 then s.irqOf (b + 0x30)
    else s
  if quiet && s.errAny then s.wb (mgtBase + 0x210) 2 true else s

/-! ### Stopping the package (16 R421) -/

/-- The start of a stop sequence: no output leaves, threads stop, TDM_FS_OUT asserts and TDM_ALIVE is held low. A
second request during one is absorbed. `cause` is SC_RSTCAUSE.CAUSE. -/
def Pkg.beginStop (s : Pkg) (cause x y cls : Nat) : Pkg :=
  match s.boot.stop with
  | some _ => s
  | none =>
    let s := s.wr (scBase + 0x208) (BitVec.ofNat 64 (cause + x * 2 ^ 8 + y * 2 ^ 12 + cls * 2 ^ 16))
    { s with
      boot := { s.boot with stop := some { cause := cause, since := s.now } }
      pins := { s.pins with fsOut := true, alive := false } }

/-- Fail-stop (R421): SC_RSTCAUSE names the stop and class; the Odometer enters event 0x03. -/
def Pkg.failStop (s : Pkg) (w : Win) (cls : Nat) : Pkg :=
  match s.boot.stop with
  | some _ => s
  | none =>
    let s := s.beginStop 4 (w.stop % 16) (w.stop / 16) cls
    s.odoEvent 0x03 w.errUnit w.stop (s.rd (scBase + 0x208)).toNat (s.rd w.err).toNat

/-- The thread that receives the machine checks of a unit (R435): CORE_MC_TARGET of core 2n for an L2, of the core
for a core, else SC_MCTARGET. -/
def Pkg.mcTarget (s : Pkg) (w : Win) : Nat :=
  match w with
  | .core c => s.rf (coreBase c + 8) 10 0
  | .l2 n => s.rf (coreBase (2 * n) + 8) 10 0
  | _ => s.rf (scBase + 0x220) 10 0

/-- Queue a MACHINE_CHECK for a thread: the command MACHINE_CHECK_PENDING delivers it (R435, log entry 10). -/
def Pkg.mcQueue (s : Pkg) (target code about : Nat) : Pkg :=
  { s with boot := { s.boot with mcq := s.boot.mcq ++ [(target, code + about * 2 ^ 8)] } }

/-- A UE whose consequence is UE_POLICY (R435): NATIVE fail-stops, COMPAT sets MCREQ and raises vector 32. -/
def Pkg.ueError (s : Pkg) (w : Win) (e : Err) : Pkg :=
  if s.boot.compat then
    let t := s.mcTarget w
    (s.record w { e with cls := 2, mcreq := true }).mcQueue t 3 (e.htid.getD t)
  else (s.record w { e with cls := 2 }).failStop w 2

/-- A FATAL error (R427). -/
def Pkg.fatal (s : Pkg) (w : Win) (e : Err) : Pkg :=
  (s.record w { e with cls := 3 }).failStop w 3

/-- A corrected error. -/
def Pkg.ce (s : Pkg) (w : Win) (code : Nat) (addr : Option Nat) (info : Nat) : Pkg :=
  s.record w { cls := 0, code := code, addr := addr, info := info }

/-- Whether the package runs: powered, no stop sequence in progress. -/
def Pkg.live (s : Pkg) : Bool := s.boot.stop.isNone && s.pins.pwrgood && s.pins.vaux

/-! ### Forms of a command's effect -/

/-- A command that acts on the package alone. -/
def State.on (s : State) (f : Pkg → Pkg) : Out := .next { s with pkg := f s.pkg }
/-- Whether the system controller's logic runs: VAUX, PWRGOOD and REFCLK. -/
def Pkg.scLive (s : Pkg) : Bool := s.pins.vaux && s.pins.pwrgood && s.pins.refclk
/-- A command that acts while the package runs. -/
def Pkg.ifLive (f : Pkg → Pkg) (p : Pkg) : Pkg := if p.live then f p else p
def State.run (s : State) (f : Pkg → Pkg) : Out := s.on (Pkg.ifLive f)
/-- The same, `dt` ps after the command before it. -/
def State.runAt (s : State) (dt : Nat) (f : Pkg → Pkg) : Out := s.on (fun p => Pkg.ifLive f (p.elapse dt))

/-- A command of the system controller, or of Cadence, which a stop sequence does not stop. -/
def State.runSc (s : State) (dt : Nat) (f : Pkg → Pkg) : Out :=
  s.on (fun p => let q := p.elapse dt; if q.scLive then f q else q)

end Sys2Proof.Machine
end

