-- ==== Sys2Proof/Machine/Shim.lean ====
section
/-!
DEFINITION. Machine/Shim.lean: Shimmy's slots, their decisions, and the delays and holds that they apply (19 R460 to R463).
-/
namespace Sys2Proof.Machine

/-- Register k of SHM_SLOT[i]. -/
def shmSlot (i k : Nat) : Nat := shmBase + 0x1000 + 0x40 * i + 8 * k

/-- One eligible event of a slot (R460): the amount of a firing. -/
def Pkg.shmDecide (s : Pkg) (i : Nat) : Pkg × Option Nat :=
  let r0 := s.rf (shmSlot i 6) 31 0
  let r := Nat.xor (r0 / 2) (if r0 % 2 = 1 then 0x80200003 else 0)
  let s := (s.wf (shmSlot i 6) 31 0 r).sat (shmSlot i 4) 47 0
  if r % 65536 < s.rf (shmSlot i 2) 16 0 then
    let lo := s.rf (shmSlot i 3) 15 0
    let hi := s.rf (shmSlot i 3) 31 16
    (s.sat (shmSlot i 5) 47 0, some (if hi ≤ lo then lo else lo + r / 65536 % (hi - lo + 1)))
  else (s, none)
/-- An event: every armed slot of the kind whose TARGET it meets decides; the firings, by slot, with their amounts. -/
def Pkg.shmAsk (s : Pkg) (kind : Nat) (hit : Nat → Bool) : Pkg × List (Nat × Nat) :=
  if !s.shm.on then (s, [])
  else (List.range 16).foldl (fun (q : Pkg × List (Nat × Nat)) i =>
    if q.1.rb (shmSlot i 0) 0 && q.1.rf (shmSlot i 0) 3 1 == kind && hit (q.1.rf (shmSlot i 0) 47 16) then
      match q.1.shmDecide i with
      | (s, some a) => (s, q.2 ++ [(i, a)])
      | (s, none) => (s, q.2)
    else q) (s, [])
/-- The sum of the amounts: delays add (R463). -/
def shmSum (l : List (Nat × Nat)) : Nat := (l.map (·.2)).sum

/-- Something is put off by ns nanoseconds; what is put off on one target comes about in order. -/
def Pkg.shmPut (s : Pkg) (kind what ns arg : Nat) (cmd : Option Instr) : Pkg :=
  let due := (s.shm.acts.filter (fun a => a.kind == kind && a.what == what)).foldl (fun m a => max m a.due) (s.now + 1000 * ns)
  { s with shm := { s.shm with acts := s.shm.acts ++ [({ slot := 0, kind := kind, what := what, due := due, arg := arg, cmd := cmd } : ShmAct)] } }

/-- CADSKEW of a release (bit 0 a schedule firing, 1 a WAITT wake, 2 a TIMER pending) of number `what`. -/
def Pkg.shmSkew (s : Pkg) (bit what arg : Nat) (k : Pkg → Pkg) : Pkg :=
  let (s, r) := s.shmAsk 7 (·.testBit bit)
  if shmSum r = 0 then k s else s.shmPut 7 what (shmSum r) arg none

/-- RETRY of a flit (R462): whether it is discarded, at most four times in succession. -/
def Pkg.shmRetry (s : Pkg) (key : Nat) (hit : Nat → Bool) : Pkg × Bool :=
  let (s, r) := s.shmAsk 6 hit
  let n := Map.get (fun _ => 0) s.shm.tries key
  let drop := !r.isEmpty && decide (n < 4)
  ({ s with shm := { s.shm with tries := Map.set (fun _ => 0) s.shm.tries key (if drop then n + 1 else 0) } }, drop)

/-- CHUNKEND at a step of thread h (12 R314): whether its chunk is forced to end. -/
def Pkg.shmChunk (s : Pkg) (h : Nat) : Pkg × Bool :=
  if s.paired then
    let (s, r) := s.shmAsk 5 (fun t => t.testBit 8 || t % 256 == h / 8)
    (s, !r.isEmpty)
  else (s, false)

/-! ### Decisions of every mesh cycle (R461 kind 1) -/

/-- A hold of BACKPRESS: stop, output and VN mask as one number. -/
def holdKey (stop out mask : Nat) : Nat := stop + 256 * out + 2048 * mask
/-- Whether credits are withheld from an output of a router for a VN. -/
def Pkg.creditHeld (s : Pkg) (stop out vn : Nat) : Bool :=
  s.shm.acts.any (fun a => a.kind == 1 && a.what % 256 == stop && a.what / 256 % 8 == out && (a.what / 2048).testBit vn)
/-- Mesh cycles that have ended by a moment (08 R213: 2.4 GHz). -/
def meshCycles (t : Nat) : Nat := t * 24 / 10000

/-- BACKPRESS of slot i in one mesh cycle: a firing holds, or extends the slot's hold. -/
def Pkg.shmBack (s : Pkg) (i : Nat) : Pkg :=
  let t := s.rf (shmSlot i 0) 47 16
  if t % 8192 / 16 % 16 ≥ 10 ∨ t / 256 % 8 ≥ 6 then s
  else
    match s.shmDecide i with
    | (s, none) => s
    | (s, some a) =>
      let due := s.now + (a * 10000 + 23) / 24
      let old := (s.shm.acts.filter (fun x => x.kind == 1 && x.slot == i)).foldl (fun m x => max m x.due) due
      let key := holdKey (16 * (t / 16 % 16) + t % 16) (t / 256 % 8) (t / 65536 % 128)
      if a = 0 then s
      else { s with shm := { s.shm with
        acts := s.shm.acts.filter (fun x => !(x.kind == 1 && x.slot == i)) ++ [({ slot := i, kind := 1, what := key, due := old } : ShmAct)] } }
def iter {α : Type} (f : α → α) : Nat → α → α
  | 0, x => x
  | n + 1, x => iter f n (f x)
/-- The decisions of the mesh cycles that have passed since they were last made. -/
def Pkg.shmCycles (s : Pkg) : Pkg :=
  if !s.shm.on then s
  else
    let t0 := s.shm.cyc
    let s := { s with shm := { s.shm with cyc := s.now } }
    ((List.range 16).map (15 - ·)).foldl (fun s i =>
      if !s.rb (shmSlot i 0) 0 then s
      else
        if s.rf (shmSlot i 0) 3 1 = 1 then iter (·.shmBack i) (meshCycles s.now - meshCycles t0) s else s) s

/-! ### Decisions of every core cycle (R461 kind 4) -/

/-- THREADSEL in the `n` cycles of core c that have passed: of the firings in the last one, the pointer that the lowest slot gives, and
whether SINGLE applies. -/
def Pkg.shmSelect (s : Pkg) (c n : Nat) : Pkg × Option (Nat × Bool) :=
  let hit (t : Nat) : Bool := t % 256 == c
  let s := iter (fun s => (s.shmAsk 4 hit).1) (n - 1) s
  let (s, r) := s.shmAsk 4 hit
  (s, match r with
    | [] => none
    | (i, _) :: _ => some (s.rf (shmSlot i 6) 18 16, r.any (fun q => s.rb (shmSlot q.1 0) 24)))

end Sys2Proof.Machine
end

