-- ==== Sys2Proof/Machine/Ecc.lean ====
section
/-!
DEFINITION. Machine/Ecc.lean: the Reed-Solomon code of a DRAM line and what its decoder makes of symbols in error (09 R244
to R246, 17 R437); the addresses of a controller (09 R241, R242); corrected errors and the row table (R248 to R251). The code is
linear: the syndromes, and so the outcome, depend on the errors alone, to which the poison signature of R246 is added.
-/
namespace Sys2Proof.Machine

/-! ### GF(2^8) (R244) -/

/-- Multiplication by α modulo x^8 + x^4 + x^3 + x^2 + 1. -/
def gfX (a : BitVec 8) : BitVec 8 := if a.getLsbD 7 then (a <<< 1) ^^^ 0x1D#8 else a <<< 1
def gfMul (a b : BitVec 8) : BitVec 8 :=
  ((List.range 8).foldl (fun (q : BitVec 8 × BitVec 8) i => (if b.getLsbD i then q.1 ^^^ q.2 else q.1, gfX q.2)) (0#8, a)).1
def gfPow (a : BitVec 8) : Nat → BitVec 8
  | 0 => 1#8
  | n + 1 => gfMul a (gfPow a n)
/-- The inverse: a^254. -/
def gfInv (a : BitVec 8) : BitVec 8 := gfPow a 254
/-- α to the power of a symbol's place: symbol 0 is the coefficient of x^79, symbol 79 the constant (log entry 8). -/
def gfLoc (k : Nat) : BitVec 8 := gfPow 2#8 (79 - k)

/-- Errors by symbol, none of them 0. -/
abbrev Syms := List (Nat × BitVec 8)
/-- Syndrome j: the value at α^j (R244). -/
def syndrome (l : Syms) (j : Nat) : BitVec 8 := l.foldl (fun a p => a ^^^ gfMul p.2 (gfPow (gfLoc p.1) j)) 0#8
def syndromes (l : Syms) : List (BitVec 8) := (List.range 16).map (syndrome l)

/-- One step of elimination: the rows after column c, with a pivot row taken out. -/
def gfStep (c : Nat) (rows : List (List (BitVec 8))) : Option (List (BitVec 8) × List (List (BitVec 8))) :=
  match rows.findIdx? (fun r => r.getD c 0#8 != 0#8) with
  | none => none
  | some i =>
    let r := rows.getD i []
    let v := gfInv (r.getD c 0#8)
    let r := r.map (gfMul v)
    let red (q : List (BitVec 8)) : List (BitVec 8) := q.zipWith (fun x y => x ^^^ gfMul (q.getD c 0#8) y) r
    some (r, (rows.eraseIdx i).map red)
/-- Solve a system of 16 equations in n unknowns, each row its coefficients and the right side; none if it has no solution. -/
def gfSolve : Nat → Nat → List (List (BitVec 8)) → Option (List (BitVec 8))
  | 0, c, rows => if rows.all (fun r => r.getD c 0#8 == 0#8) then some [] else none
  | n + 1, c, rows =>
    match gfStep c rows with
    | none => none
    | some (p, rest) =>
      match gfSolve n (c + 1) rest with
      | none => none
      | some xs =>
        let rhs := p.getD (c + n + 1) 0#8
        let t := (xs.zipIdx).foldl (fun a q => a ^^^ gfMul q.1 (p.getD (c + 1 + q.2) 0#8)) rhs
        some (t :: xs)
/-- The error of device d alone that has these syndromes. -/
def devFit (syn : List (BitVec 8)) (d : Nat) : Option Syms :=
  let rows := (List.range 16).map (fun j => (List.range 8).map (fun k => gfPow (gfLoc (8 * d + k)) j) ++ [syn.getD j 0#8])
  (gfSolve 8 0 rows).map (fun xs => ((List.range 8).map (fun k => (8 * d + k, xs.getD k 0#8))).filter (·.2 != 0#8))

/-! ### Errors of a line (R244 to R246) -/

/-- The errors of a codeword, one entry per symbol, none of them 0. -/
def symNorm (l : List SymErr) : Syms :=
  ((List.range 80).map (fun k => (k, l.foldl (fun a e => if e.sym.val = k then a ^^^ e.x else a) 0#8))).filter (·.2 != 0#8)
/-- Two sets of errors together. -/
def symAdd (a b : Syms) : Syms :=
  ((List.range 80).map (fun k => (k, (a ++ b).foldl (fun x p => if p.1 = k then x ^^^ p.2 else x) 0#8))).filter (·.2 != 0#8)
/-- The poison signature: 0xA5 in every check symbol (R246). -/
def poisonSig : Syms := (List.range 16).map (fun k => (64 + k, 0xA5#8))
/-- The device of a symbol. -/
def symDev (k : Nat) : Nat := k / 8
/-- A line with the errors of its data symbols: symbol 8d + k is beat 2k and 2k + 1 of device d. -/
def symApply (d : BitVec 512) (l : Syms) : BitVec 512 :=
  l.foldl (fun a p =>
    if p.1 < 64 then
      let dev := p.1 / 8
      let k := p.1 % 8
      a ^^^ BitVec.ofNat 512 (p.2.toNat % 16 * 2 ^ (64 * k + 4 * dev) + p.2.toNat / 16 * 2 ^ (64 * k + 32 + 4 * dev))
    else a) d

/-- A decoder outcome: the class (0 CLEAN, 1 BIT, 2 SYMBOL, 3 DEVICE, 4 POISON, 5 UE), the correction's class and device
if one was made, the data delivered and whether it is poisoned. -/
structure DecOut where
  cls : Nat
  fix : Option (Nat × Nat)
  data : BitVec 512
  poison : Bool
deriving DecidableEq, Repr

/-- The class of an error confined to one device. -/
def fixClass (l : Syms) : Nat :=
  match l with
  | [(_, x)] => if ((List.range 8).filter (fun i => x.getLsbD i)).length = 1 then 1 else 2
  | _ => 3

/-- The decoder (R245, R246): no error, an error of one device, the signature, the signature with an error of one device, else
UE. `l` is what the codeword differs by from the one written without a signature. -/
def rsDecode (d : BitVec 512) (l : Syms) : DecOut :=
  let try1 (q : Syms) : Option (Option Syms) :=
    let syn := syndromes q
    if syn.all (· == 0#8) then some none
    else match (List.range 10).findSome? (devFit syn) with
      | some v => some (some v)
      | none => none
  let out (q : Syms) (p : Bool) (v : Option Syms) : DecOut :=
    match v with
    | none => ⟨if p then 4 else 0, none, symApply d q, p⟩
    | some v => ⟨if p then 4 else fixClass v, some (fixClass v, symDev ((v.head?.map (·.1)).getD 0)), symApply d (symAdd q v), p⟩
  match try1 l with
  | some v => out l false v
  | none =>
    let q := symAdd l poisonSig
    match try1 q with
    | some v => out q true v
    | none => ⟨5, none, symApply d l, true⟩

/-- The decode of a line stored as `d`, poisoned or not, with errors `err`. An error of one device is corrected and one of two
is a UE, whatever the syndromes of the latter are (R245); a wider one is what the code makes of it (R437). -/
def decodeLine (d : BitVec 512) (p : Bool) (err : List SymErr) : DecOut :=
  let l := symNorm err
  match (l.map (fun q => symDev q.1)).eraseDups with
  | [] => ⟨if p then 4 else 0, none, d, p⟩
  | [dev] => ⟨if p then 4 else fixClass l, some (fixClass l, dev), d, p⟩
  | [_, _] => ⟨5, none, d, true⟩
  | _ => rsDecode d (if p then symAdd l poisonSig else l)

/-! ### The check symbols of a line (R244) -/

/-- Data symbol s of a line. -/
def symOf (d : BitVec 512) (s : Nat) : BitVec 8 :=
  let dev := s / 8
  let k := s % 8
  BitVec.ofNat 8 (d.toNat / 2 ^ (64 * k + 4 * dev) % 16 + d.toNat / 2 ^ (64 * k + 32 + 4 * dev) % 16 * 16)
/-- The generator polynomial, lowest coefficient first. -/
def rsGen : List (BitVec 8) :=
  (List.range 16).foldl (fun g i =>
    ((0#8 :: g).zip (g.map (gfMul (gfPow 2#8 i)) ++ [0#8])).map (fun q => q.1 ^^^ q.2)) [1#8]
/-- The codeword that the controller writes for a line (R244, R246): 64 data symbols and 16 check symbols, with the signature if
the line is poisoned. -/
def rsEncode (d : BitVec 512) (p : Bool) : List (BitVec 8) :=
  let data := (List.range 64).map (symOf d)
  let g := (rsGen.take 16).reverse
  let rem := data.foldl (fun (r : List (BitVec 8)) x =>
    let f := x ^^^ r.getD 0 0#8
    (r.drop 1 ++ [0#8]).zipWith (fun a b => a ^^^ gfMul f b) g) (List.replicate 16 0#8)
  data ++ (if p then rem.map (· ^^^ 0xA5#8) else rem)

/-! ### Memory controllers -/

/-- The memory controller of a line (R241): the XOR of the eleven 4-bit groups of PA[51:8]. -/
def mcOf (line : Nat) : Nat := (List.range 11).foldl (fun c j => c ^^^ (line / 2 ^ (2 + 4 * j) % 16)) 0
def mc0 : Nat → Mc := fun _ => {}
def Pkg.mc (s : Pkg) (i : Nat) : Mc := Map.get mc0 s.mcs i
def Pkg.updMc (s : Pkg) (i : Nat) (f : Mc → Mc) : Pkg := { s with mcs := Map.upd mc0 s.mcs i f }

/-! ### Addresses (R241, R242) -/

/-- The channel address of a line's first byte. -/
def caOf (line : Nat) : Nat := line / 64 * 256 + line % 4 * 64
/-- The line at a channel address of controller i (the inverse map, R241). -/
def lineOfCa (i ca : Nat) : Nat :=
  let up := ca / 256 * 64
  up + (mcOf up ^^^ i) * 4 + ca % 256 / 64

/-- SUB, DIMM, RANK, BG, BANK and ROW of a line, packed as bits [37:10] of an MC_CE entry (R242, R252). -/
def Pkg.rowKey (s : Pkg) (i line : Nat) : Nat :=
  let ca := caOf line
  let lr := s.rf (mcBase i + 8) 3 2
  let two := s.rf (mcBase i + 8) 1 0 = 2
  let up := ca / 2 ^ 19
  let rank := up % 2 ^ lr
  let up := up / 2 ^ lr
  let dimm := if two then up % 2 else 0
  let row := if two then up / 2 else up
  ca / 64 % 2 + dimm * 2 + rank * 4 + ca / 256 % 8 * 32 + ca / 2048 % 4 * 256 + row % 2 ^ 18 * 1024
/-- The rank of a line: the DIMM and RANK bits of its key. -/
def rankOfKey (key : Nat) : Nat := key / 2 % 16

/-- The lines of a row, in column order (R242): line j of 128. -/
def Pkg.rowLine (s : Pkg) (i key j : Nat) : Nat :=
  let lr := s.rf (mcBase i + 8) 3 2
  let two := s.rf (mcBase i + 8) 1 0 = 2
  let row := key / 1024
  let up := key / 4 % 8 % 2 ^ lr + 2 ^ lr * (if two then key / 2 % 2 + 2 * row else row)
  lineOfCa i (key % 2 * 64 + j % 2 * 128 + key / 32 % 8 * 256 + key / 256 % 4 * 2048 + j / 2 * 8192 + up * 2 ^ 19)

/-! ### Corrected errors (R248 to R251) -/

def mcCe (i e : Nat) : Nat := mcBase i + 0x1000 + 0x20 * e

/-- A repair falls due (R254). -/
def Pkg.pprDue (s : Pkg) (i e : Nat) : Pkg :=
  if (s.mc i).due.any (·.1 == e) then s else s.updMc i (fun m => { m with due := m.due ++ [(e, s.now)] })

/-- The entry that a CE of row `key` is charged to (R250). -/
def Pkg.ceSlot (s : Pkg) (i key : Nat) : Option Nat :=
  let es := List.range 16
  match es.find? (fun e => s.rb (mcCe i e) 0 && s.rf (mcCe i e) 37 10 == key) with
  | some e => some e
  | none =>
    match es.find? (fun e => !s.rb (mcCe i e) 0) with
    | some e => some e
    | none =>
      let c := es.filter (fun e => !s.rb (mcCe i e) 1)
      c.foldl (fun a e =>
        match a with
        | none => some e
        | some b =>
          let (x, y) := (s.rf (mcCe i e) 45 38, s.rf (mcCe i b) 45 38)
          if x < y ∨ (x = y ∧ (s.rd (mcCe i e + 0x18)).toNat < (s.rd (mcCe i b + 0x18)).toNat) then some e else some b) none

/-- ERR_INFO of a memory controller (17 R432). -/
def mcInfo (cls dev sub e : Nat) (done fail : Bool) : Nat :=
  cls + dev * 8 + sub * 128 + e * 256 + (if done then 4096 else 0) + (if fail then 8192 else 0)

/-- Charge a CE of class k (1 BIT, 2 SYMBOL, 3 DEVICE) and device dev to its row, with the record of it (R250, R251). -/
def Pkg.rowCharge (s : Pkg) (i line k dev : Nat) : Pkg :=
  let key := s.rowKey i line
  let stat := mcBase i + 0x18
  let slot := s.ceSlot i key
  let s := s.ce (.mc i) 1 (some (64 * line)) (mcInfo k dev (key % 2) (slot.getD 0) false false)
  match slot with
  | none => s.sat stat 63 48
  | some e =>
    let a := mcCe i e
    let fresh := !(s.rb a 0 && s.rf a 37 10 == key)
    let s : Pkg := if fresh then (((s.wr a (BitVec.ofNat 64 (1 + key * 2 ^ 10))).wr (a + 8) 0#64).wr (a + 0x10) 0#64).wr (a + 0x18) 0#64 else s
    let now := s.rdtime
    let s : Pkg := if s.rf a 45 38 = 0 ∨ now.toNat - (s.rd (a + 0x10)).toNat ≥ s.rf (mcBase i + 0x10) 63 32 * 1000000000
      then (s.wr (a + 0x10) now).wf a 45 38 0 else s
    let s := s.sat a 45 38
    let s := (s.wf a 5 4 (k - 1)).wf a 9 6 dev
    let s := (s.wr (a + 8) (BitVec.ofNat 64 (64 * line))).wr (a + 0x18) now
    let th := s.rf (mcBase i + 0x10) 7 0
    let s : Pkg :=
      if th ≠ 0 ∧ s.rf a 45 38 = th then
        let s := s.wb a 1 true
        let s := s.irqOf (mcBase i + 0x20)
        let s : Pkg := if s.rb (mcBase i) 1 then s.pprDue i e else s
        let s := s.ce (.mc i) 0x10 (some (64 * line)) (mcInfo k dev (key % 2) e false false)
        s.odoEvent 0x06 4 (Win.mc i).stop (drsPa (Win.mc i).err) (s.rd ((Win.mc i).err + 0x38)).toNat
      else s
    s.inc stat 31 0

/-- A UE (R245): counted and recorded. -/
def Pkg.mcUe (s : Pkg) (i line : Nat) (trowel : Bool) : Pkg :=
  let s := s.sat (mcBase i + 0x18) 47 32
  s.record (.mc i) { cls := 1, code := if trowel then 0x12 else 4, addr := some (64 * line), info := mcInfo 5 0 (s.rowKey i line % 2) 0 false false }

end Sys2Proof.Machine
end

