-- ==== Sys2Proof/Machine/Cache.lean ====
section
/-!
DEFINITION. Machine/Cache.lean: DRAM bytes, the four levels of cache, the directory, the merge and write-combining
buffers, and the named operations over them (02 R48 to R51; 06 R164 to R186; 07 R187 to R202). A line is named by its
number, PA / 64; a global line (PA[57] = 1) has line bit 51 set.
-/
namespace Sys2Proof.Machine

/-! ### The physical map (01 R20) -/

/-- Whether a local physical address lies in a device region of the boot-time attribute map. -/
def devRegion (pa : Nat) : Bool := decide (2 ^ 51 ≤ pa) && decide (pa < 2 ^ 52)
def drsLo : Nat := 0xFF00000000000
/-- The regions of R20 and R21: 0 DRAM, 1 PCIe MMIO, 2 ECAM, 3 DRS, 4 reserved, 5 global, 6 no local address (R135). -/
def region (pa : Nat) : Nat :=
  if pa ≥ 2 ^ 57 then 5
  else if pa ≥ 2 ^ 52 then 6
  else if pa < 2 ^ 51 then 0
  else if pa < 0xF000000000000 then 1
  else if pa < 0xF100000000000 then 2
  else if pa < drsLo then 4
  else if pa < drsLo + 0x40000000 then 3
  else 4

/-! ### DRAM (09) -/

/-- What an unlisted byte of DRAM reads as (log entry 5). -/
def byte0 : Nat → BitVec 8 := fun _ => 0#8
def Pkg.memByte (s : Pkg) (a : Nat) : BitVec 8 := Map.get byte0 s.mem a
def Pkg.memSetByte (s : Pkg) (a : Nat) (b : BitVec 8) : Pkg := { s with mem := Map.set byte0 s.mem a b }
/-- The canonical form of memory: addresses strictly rising, no byte listed that reads as the default. -/
def Memory.wf (m : List Host.Cell) : Bool := Map.wf byte0 m

/-- n bytes of DRAM at a, little-endian. -/
def Pkg.memRead (s : Pkg) (a : Nat) : Nat → Nat
  | 0 => 0
  | n + 1 => (s.memByte a).toNat + 256 * s.memRead (a + 1) n
/-- Write n bytes of DRAM at a. -/
def Pkg.memWrite (s : Pkg) (a : Nat) : Nat → Nat → Pkg
  | 0, _ => s
  | n + 1, x => (s.memSetByte a (BitVec.ofNat 8 x)).memWrite (a + 1) n (x / 256)

/-- SC_MEMINIT.LIMIT: the populated capacity in bytes until initialisation is complete (16 R417). -/
def Pkg.memLimit (s : Pkg) : Nat := s.rf (scBase + 0x218) 51 12 * 4096

def flag0 : Nat → Bool := fun _ => false

/-- Whether a line is global. -/
def isGlobal (line : Nat) : Bool := decide (line ≥ 2 ^ 51)

def sym0 : Nat → List SymErr := fun _ => []
/-- A line as its controller delivers it: the newest queued write, else DRAM with the symbols in error that its devices hold (09
R245, R246); a global line's backing store is its remote home, which the model answers with free bytes when an operation reads
it whole in one step (log entry 2). -/
def Pkg.dramLine (s : Pkg) (line : Nat) : BitVec 512 × Bool :=
  if isGlobal line then
    ((List.range 64).foldl (fun a k =>
      a ||| BitVec.ofNat 512 ((Config.remoteByte s.fresh (64 * line + k)).toNat * 2 ^ (8 * k))) 0#512, false)
  else
    match (s.mc (mcOf line)).wq.reverse.find? (·.line == line) with
    | some w => (w.data, w.poison)
    | none =>
      let o := decodeLine (BitVec.ofNat 512 (s.memRead (64 * line) 64)) (Map.get flag0 s.dpoison line) (Map.get sym0 s.dsym line)
      (o.data, o.poison)
/-- Write a line to the DRAM devices, normally or with the poison signature (09 R246). -/
def Pkg.dramPut (s : Pkg) (line : Nat) (d : BitVec 512) (poison : Bool) : Pkg :=
  let s := s.memWrite (64 * line) 64 d.toNat
  { s with dpoison := Map.set flag0 s.dpoison line poison, dsym := Map.set sym0 s.dsym line [] }

/-- A line write enters its controller's write queue; DRAM_WRITE performs it. A correction being read is overtaken
(09 R248). -/
def Pkg.dramQueue (s : Pkg) (line : Nat) (d : BitVec 512) (poison : Bool) : Pkg :=
  s.updMc (mcOf line) (fun m => { m with
    wq := m.wq ++ [⟨line, d, poison⟩]
    rq := m.rq.map (fun r => if r.line = line then { r with newer := true } else r) })

/-- The pages of the dirty bitmap (12 R341): its first page, and how many it takes. -/
def Pkg.dbmapPage (s : Pkg) : Nat := s.rf (tdmBase + 0x28) 51 12
def Pkg.dbmapLen (s : Pkg) : Nat := (s.boot.capacity / 32768 + 4095) / 4096
/-- A page is granted write permission, or written from outside, while Tandem tracks dirty pages (12 R341): its bit of the
bitmap is set. -/
def Pkg.dirtyPage (s : Pkg) (line : Nat) : Pkg :=
  let p := line / 64
  if s.tdm.track && !isGlobal line && !s.tdm.dirty.contains p
      && !(decide (s.dbmapPage ≤ p) && decide (p < s.dbmapPage + s.dbmapLen)) then
    let a := s.dbmapPage * 4096 + p / 8
    ({ s with tdm := { s.tdm with dirty := p :: s.tdm.dirty } }).memSetByte a (s.memByte a ||| BitVec.ofNat 8 (2 ^ (p % 8)))
  else s

/-! ### Where a line may be -/

/-- The home slice (06 R169). -/
def homeOf (line : Nat) : Nat :=
  (List.range 7).foldl (fun a i =>
    let b := (List.range 7).foldl (fun b j => if i + 7 * j ≤ 45 then b ^^ line.testBit (i + 7 * j) else b) false
    if b then a + 2 ^ i else a) 0

def l2Key (t line w : Nat) : Nat := t * 16384 + line % 1024 * 16 + w
def l3Key (n line w : Nat) : Nat := n * 32768 + line % 2048 * 16 + w
def l1dKey (c line w : Nat) : Nat := c * 1024 + line % 128 * 8 + w
def l1iKey (c line w : Nat) : Nat := c * 1024 + line % 256 * 4 + w

/-- The key at which a set holds a line, if it does. -/
def findKey (m : Map CLine) (key : Nat → Nat) (ways line : Nat) : Option Nat :=
  ((List.range ways).map key).find? (fun k => let c := Map.get line0 m k; c.line == line && c.st != Moesi.I)

def Pkg.findL2 (s : Pkg) (t line : Nat) : Option Nat := findKey s.l2 (l2Key t line) 16 line
def Pkg.findL1d (s : Pkg) (c line : Nat) : Option Nat := findKey s.l1d (l1dKey c line) 8 line
def Pkg.findL1i (s : Pkg) (c line : Nat) : Option Nat := findKey s.l1i (l1iKey c line) 4 line
/-- A line's L3 copy: in its home's own ways, or in the buddy's spare ways (R185). -/
def Pkg.findL3 (s : Pkg) (line : Nat) : Option Nat :=
  let n := homeOf line
  match findKey s.l3 (l3Key n line) 16 line with
  | some k => some k
  | none => findKey s.l3 (l3Key (Nat.xor n 1) line) 16 line

def Pkg.getL2 (s : Pkg) (k : Nat) : CLine := Map.get line0 s.l2 k
def Pkg.putL2 (s : Pkg) (k : Nat) (c : CLine) : Pkg := { s with l2 := Map.set line0 s.l2 k c }
def Pkg.getL3 (s : Pkg) (k : Nat) : CLine := Map.get line0 s.l3 k
def Pkg.putL3 (s : Pkg) (k : Nat) (c : CLine) : Pkg := { s with l3 := Map.set line0 s.l3 k c }

/-- The L2s that hold a line (the directory's vector, R188). -/
def Pkg.holders (s : Pkg) (line : Nat) : List Nat :=
  (s.l2.filter (fun p => p.2.line == line && p.2.st != Moesi.I)).map (·.1 / 16384)

/-- An L2's state for a line. -/
def Pkg.stL2 (s : Pkg) (t line : Nat) : Moesi :=
  match s.findL2 t line with
  | some k => (s.getL2 k).st
  | none => .I

/-- The merge buffer line of core c for a line. -/
def Pkg.mergeOf (s : Pkg) (c line : Nat) : Option MergeLine := (s.core c).merge.find? (·.line == line)

/-- A merge buffer that holds a line with permission, anywhere (R48). -/
def Pkg.mergeAny (s : Pkg) (line : Nat) : Option MergeLine :=
  (s.cores.filterMap (fun p => p.2.merge.find? (fun m => m.line == line && m.perm))).head?

/-- The current data of a line, wherever it is (R167, R188): the merge buffer that may write it, a dirty L2 copy, any L2
copy, the home slice, DRAM. -/
def Pkg.curLine (s : Pkg) (line : Nat) : BitVec 512 × Bool :=
  match s.mergeAny line with
  | some m => (m.data, m.poison)
  | none =>
    match s.l2.find? (fun p => p.2.line == line && (p.2.st == Moesi.M || p.2.st == Moesi.O)) with
    | some (_, c) => (c.data, c.poison)
    | none =>
      match s.l2.find? (fun p => p.2.line == line && p.2.st != Moesi.I) with
      | some (_, c) => (c.data, c.poison)
      | none =>
        match s.findL3 line with
        | some k => ((s.getL3 k).data, (s.getL3 k).poison)
        | none => s.dramLine line

/-! ### Replacement (06 R170, R171) -/

/-- The victim among candidate ways (key, line): the lowest invalid one, else the first of the greatest age, every
candidate having aged until that age is 3. Returns the victim's key and how much the candidates age. -/
def victim (cand : List (Nat × CLine)) : Option (Nat × Nat) :=
  match cand.find? (fun p => p.2.st == Moesi.I) with
  | some p => some (p.1, 0)
  | none =>
    let m := cand.foldl (fun a p => max a p.2.age) 0
    match cand.find? (fun p => p.2.age == m) with
    | some p => some (p.1, 3 - m)
    | none => none

/-- Age the candidates of a set. -/
def ageAll (m : Map CLine) (cand : List (Nat × CLine)) (k : Nat) : Map CLine :=
  if k = 0 then m else cand.foldl (fun m p => Map.set line0 m p.1 { p.2 with age := p.2.age + k }) m

/-- NOALLOC in force (R175). -/
def Pkg.noalloc (s : Pkg) : Bool := s.rb (scBase + 0x100) 0
/-- Whether an L2, and a slice, allocate on a miss (R175, R177, R178). -/
def Pkg.alloc2 (s : Pkg) (t : Nat) : Bool := !s.noalloc && s.rb (l2Base t) 0 && s.l2P t == 0
def Pkg.alloc3 (s : Pkg) (n : Nat) : Bool := !s.noalloc && s.rb (l3sBase n) 0
/-- A retired way (R182). -/
def Pkg.ret2 (s : Pkg) (t w : Nat) : Bool := s.rb (l2Base t + 0x100 + 8 * w) 8
def Pkg.ret3 (s : Pkg) (n w : Nat) : Bool := s.rb (l3sBase n + 0x100 + 8 * w) 8
def mask0 : Nat → BitVec 16 := fun _ => 0#16
/-- The spare way set that slice n reserves for its buddy (R184). -/
def Pkg.spareOf (s : Pkg) (n : Nat) : BitVec 16 := Map.get mask0 s.spare n
/-- Slice n no longer fills its own ways (R185). -/
def Pkg.evacd (s : Pkg) (n : Nat) : Bool := s.rb (l3sBase n + 0x10) 4 || s.evac.contains n

/-- The L3 ways, with their keys, that a line of home n may be filled into (R170, R184, R185). -/
def Pkg.cand3 (s : Pkg) (line : Nat) : List (Nat × CLine) :=
  let n := homeOf line
  let ks :=
    if s.evacd n then
      let b := Nat.xor n 1
      ((List.range 16).filter (fun w => (s.spareOf b).getLsbD w && !s.ret3 b w)).map (l3Key b line)
    else ((List.range 16).filter (fun w => !(s.spareOf n).getLsbD w && !s.ret3 n w)).map (l3Key n line)
  ks.map (fun k => (k, s.getL3 k))

/-- Statistics block p of a stop: 2·stop + p (08 R232). -/
def st0 : Nat → StLive := fun _ => {}
def Pkg.stat (s : Pkg) (b : Nat) (f : StLive → StLive) : Pkg := { s with noc := { s.noc with live := Map.upd st0 s.noc.live b f } }
/-- The block of core c. -/
def stCore (c : Nat) : Nat := 2 * (c / 2 + 16) + c % 2
def Pkg.stReq (s : Pkg) (b n : Nat) : Pkg := s.stat b (fun l => { l with reqs := min (l.reqs + 1) (2 ^ 48 - 1), wr := (l.wr + n) % 2 ^ 64 })
/-- A completion of n bytes with latency `ns` (R233). -/
def Pkg.stRd (s : Pkg) (b n ns : Nat) : Pkg :=
  let i := if ns < 2 then 0 else min 15 (Nat.log2 ns)
  s.stat b (fun l => { l with
    rd := (l.rd + n) % 2 ^ 64
    hist := (List.range 16).map (fun j => min (l.hist.getD j 0 + (if j = i then 1 else 0)) (2 ^ 32 - 1)) })

/-- A write-back to a remote home (07 R205, R206), for the thread whose CVA or CIVA started it; poison goes with it (R180). -/
def Pkg.remoteWb (s : Pkg) (line : Nat) (d : BitVec 512) (p : Bool) (h : Option Nat) : Pkg :=
  { s with fab := { s.fab with gq := s.fab.gq ++ [{ kind := .wr, pa := 64 * line, n := 64, data := d.toNat, op := 0, who := .wb h, gsn := 0, poison := p }] } }

/-- A line leaves the caches for its backing store: DRAM, or the remote home for a global line (R167). -/
def Pkg.toStore (s : Pkg) (line : Nat) (d : BitVec 512) (p : Bool) (h : Option Nat := none) : Pkg :=
  if isGlobal line then s.remoteWb line d p h else s.dramQueue line d p

/-- Install a line in L3 (R167, R170); a dirty victim goes to its backing store. -/
def Pkg.fillL3 (s : Pkg) (line : Nat) (d : BitVec 512) (p dirty stream : Bool) : Pkg :=
  let st := if dirty then Moesi.M else Moesi.E
  match s.findL3 line with
  | some k => s.putL3 k { s.getL3 k with data := d, poison := p, st := if dirty then .M else (s.getL3 k).st, age := 0 }
  | none =>
    let cand := s.cand3 line
    match victim cand with
    | none => if dirty then s.toStore line d p else s
    | some (k, a) =>
      let v := s.getL3 k
      let s : Pkg := if v.st = .M then s.toStore v.line v.data v.poison else s
      let s := { s with l3 := ageAll s.l3 cand a }
      let n := k / 32768
      s.putL3 k ⟨line, st, d, if stream && s.rb (l3sBase n) 1 then 2 else 0, p⟩

/-- A dirty line arrives at its home (WrBack, R167, R175, R177). -/
def Pkg.writeHome (s : Pkg) (line : Nat) (d : BitVec 512) (p : Bool) (h : Option Nat := none) : Pkg :=
  let n := homeOf line
  if s.alloc3 n then s.fillL3 line d p true false
  else
    match s.findL3 line with
    | some k =>
      if s.noalloc then (s.putL3 k { s.getL3 k with data := d, poison := p, st := .E }).toStore line d p h
      else s.putL3 k { s.getL3 k with data := d, poison := p, st := .M }
    | none => s.toStore line d p h

/-- A write-through (AI 1, or any level under NOALLOC; R166, R175): the slice's copy is updated and stays clean, and
the backing store is written. -/
def Pkg.writeThrough (s : Pkg) (line : Nat) (d : BitVec 512) (p : Bool) (h : Option Nat := none) : Pkg :=
  let s : Pkg := match s.findL3 line with
    | some k => s.putL3 k { s.getL3 k with data := d, poison := p, st := .E }
    | none => s
  s.toStore line d p h

/-- Whether no cache of the package holds a line: its data is DRAM's. -/
def Pkg.uncopied (s : Pkg) (line : Nat) : Bool := (s.mergeAny line).isNone && (s.holders line).isEmpty && (s.findL3 line).isNone
/-- A read of a line that takes its data in the same step: where it comes from the DRAM devices their errors are classed, counted and
recorded, and the corrected line is written back unless CE_WB = 0 (09 R245, R248). -/
def Pkg.seen (s : Pkg) (line : Nat) : Pkg :=
  let i := mcOf line
  if isGlobal line || (Map.get sym0 s.dsym line).isEmpty || !s.uncopied line || (s.mc i).wq.any (·.line == line) then s
  else
    let o := decodeLine (BitVec.ofNat 512 (s.memRead (64 * line) 64)) (Map.get flag0 s.dpoison line) (Map.get sym0 s.dsym line)
    let s : Pkg := match o.fix with
      | some (k, dev) =>
        let s := s.rowCharge i line k dev
        if s.rb (mcBase i) 0 then s.dramQueue line o.data o.poison else s
      | none => s
    if o.cls = 5 then s.mcUe i line false else s

/-! ### The directory (06 R168, 07 R188) -/

def dir0 : Nat → DirE := fun _ => {}
def dirKey (line w : Nat) : Nat := l3Key (homeOf line) line w
def Pkg.findDir (s : Pkg) (line : Nat) : Option Nat :=
  ((List.range 16).map (dirKey line)).find? (fun k => let e := Map.get dir0 s.dir k; e.line == line && e.st != DirSt.none)
/-- The directory entry of a line (NONE where there is none). -/
def Pkg.dirOf (s : Pkg) (line : Nat) : DirE :=
  match s.findDir line with
  | some k => Map.get dir0 s.dir k
  | none => { line := line }

/-- Bring a line's directory entry up to date with the L2s that hold it, in the entry it has or in a free one. -/
def Pkg.dirSync (s : Pkg) (line : Nat) : Pkg :=
  let hs := s.holders line
  let slot := match s.findDir line with
    | some k => some k
    | none => ((List.range 16).map (dirKey line)).find? (fun k => (Map.get dir0 s.dir k).st == DirSt.none)
  match slot with
  | none => s
  | some k =>
    if hs.isEmpty then { s with dir := Map.set dir0 s.dir k {} }
    else
      let own := hs.find? (fun t => s.stL2 t line == Moesi.M || s.stL2 t line == Moesi.E)
      let ow2 := hs.find? (fun t => s.stL2 t line == Moesi.O)
      let vec : BitVec 128 := hs.foldl (fun a t => a ||| BitVec.ofNat 128 (2 ^ t)) 0#128
      let e : DirE := match own with
        | some t => ⟨line, .excl, t, vec, 0⟩
        | none => ⟨line, .shared, ow2.getD 0, vec, 0⟩
      { s with dir := Map.set dir0 s.dir k e }

/-! ### Removing copies -/

/-- Remove a line from the L1s of a core. -/
def Pkg.dropL1 (s : Pkg) (c line : Nat) (instr : Bool) : Pkg :=
  let s : Pkg := match s.findL1d c line with
    | some k => { s with l1d := Map.set line0 s.l1d k {} }
    | none => s
  if instr then
    match s.findL1i c line with
    | some k => { s with l1i := Map.set line0 s.l1i k {} }
    | none => s
  else s

/-- Release a line that core c's merge buffer holds with permission (R51): once written, its data goes to the L2 copy (dirty), or on
to the home slice when the L2 does not hold the line; an AI 1 line and every line under NOALLOC is written through and stays clean
(R166, R175). `h`: the thread whose maintenance releases it. -/
def Pkg.releaseMerge (s : Pkg) (c line : Nat) (h : Option Nat := none) : Pkg :=
  match (s.core c).merge.find? (fun m => m.line == line && m.perm) with
  | none => s
  | some m =>
    let s := s.updCore c (fun k : Core => { k with merge := k.merge.filter (·.line != line) })
    if !m.dirty then s
    else
      match s.findL2 (c / 2) line with
      | some k =>
        let l := s.getL2 k
        if m.ai = 1 || s.noalloc then
          ((s.putL2 k { l with data := m.data, poison := m.poison, st := .E }).writeThrough line m.data m.poison h).stReq (stCore c) 64
        else s.putL2 k { l with data := m.data, poison := m.poison, st := .M }
      | none =>
        (if m.ai = 1 || s.noalloc then s.writeThrough line m.data m.poison h else s.writeHome line m.data m.poison h).stReq (stCore c) 64

/-- Release the line from both cores' merge buffers of a tile. -/
def Pkg.releaseTile (s : Pkg) (t line : Nat) (h : Option Nat := none) : Pkg := (s.releaseMerge (2 * t) line h).releaseMerge (2 * t + 1) line h

/-- Remove a line from an L2, with its L1 and merge buffer copies; the data is lost (R167). -/
def Pkg.purgeTile (s : Pkg) (t line : Nat) : Pkg :=
  let s : Pkg := (s.dropL1 (2 * t) line true).dropL1 (2 * t + 1) line true
  let s := s.updCore (2 * t) (fun k : Core => { k with merge := k.merge.filter (fun m => m.line != line || !m.perm) })
  let s := s.updCore (2 * t + 1) (fun k : Core => { k with merge := k.merge.filter (fun m => m.line != line || !m.perm) })
  match s.findL2 t line with
  | some k => s.putL2 k {}
  | none => s

/-- A line leaves a tile: the chunks of the tile's threads that have it in a signature must end (12 R315). -/
def Pkg.leaving (s : Pkg) (t line : Nat) : Pkg :=
  if !s.paired then s
  else { s with threads := s.threads.map (fun p =>
    match p.2.chunk with
    | some k =>
      if p.1 / 16 = t ∧ (sigHits k.rsig line || sigHits k.wsig line) then (p.1, { p.2 with chunk := some { k with due := true } }) else p
    | none => p) }

/-- An L2 gives up a line: dirty data goes to its home (WrBack), a clean line is dropped (Drop). `by'`: the core whose fill or
maintenance causes it (08 R233). -/
def Pkg.evictL2 (s : Pkg) (t line : Nat) (by' : Option Nat := none) : Pkg :=
  let s := s.releaseTile t line
  match s.findL2 t line with
  | none => s
  | some k =>
    let l := s.getL2 k
    let s := (s.leaving t line).purgeTile t line
    let s : Pkg := if l.st = .M ∨ l.st = .O then
        let s := s.writeHome line l.data l.poison
        match by' with | some c => s.stReq (stCore c) 64 | none => s
      else s
    s.dirSync line

/-- Make room for a line's directory entry (R168): a full set gives up a victim entry, whose L2 copies are removed. -/
def Pkg.dirRoom (s : Pkg) (line : Nat) : Pkg :=
  match s.findDir line with
  | some _ => s
  | none =>
    let ks := (List.range 16).map (dirKey line)
    match ks.find? (fun k => (Map.get dir0 s.dir k).st == DirSt.none) with
    | some _ => s
    | none =>
      let m := ks.foldl (fun a k => max a (Map.get dir0 s.dir k).age) 0
      match ks.find? (fun k => (Map.get dir0 s.dir k).age == m) with
      | none => s
      | some k =>
        let v := (Map.get dir0 s.dir k).line
        let s := { s with dir := ks.foldl (fun d k =>
          let e := Map.get dir0 d k
          Map.set dir0 d k { e with age := min 3 (e.age + (3 - m)) }) s.dir }
        (s.holders v).foldl (fun s t => s.evictL2 t v) s

/-- Install a line in an L2 (R167, R170). -/
def Pkg.fillL2 (s : Pkg) (t line : Nat) (st : Moesi) (d : BitVec 512) (p stream : Bool) (by' : Option Nat := none) : Pkg :=
  let s := s.dirRoom line
  match s.findL2 t line with
  | some k => (s.putL2 k { s.getL2 k with st := st, data := d, poison := p, age := 0 }).dirSync line
  | none =>
    let ks := ((List.range 16).filter (fun w => !s.ret2 t w)).map (l2Key t line)
    let cand := ks.map (fun k => (k, s.getL2 k))
    match victim cand with
    | none => s
    | some (k, a) =>
      let v := s.getL2 k
      let s := { s with l2 := ageAll s.l2 cand a }
      let s : Pkg := if v.st = .I then s else s.evictL2 t v.line by'
      (s.putL2 k ⟨line, st, d, if stream && s.rb (l2Base t) 1 then 2 else 0, p⟩).dirSync line

/-- Install a line in an L1 while the L2 holds it (R167); nothing new where the tile does not allocate (R175, R177). -/
def Pkg.fillL1d (s : Pkg) (c line : Nat) (d : BitVec 512) (p stream : Bool) : Pkg :=
  if s.stL2 (c / 2) line = .I then s
  else
    let cand := ((List.range 8).map (l1dKey c line)).map (fun k => (k, Map.get line0 s.l1d k))
    match s.findL1d c line with
    | some k => { s with l1d := Map.set line0 s.l1d k ⟨line, .S, d, 0, p⟩ }
    | none =>
      if !s.alloc2 (c / 2) then s else
      match victim cand with
      | none => s
      | some (k, a) =>
        { s with l1d := Map.set line0 (ageAll s.l1d cand a) k ⟨line, .S, d, if stream && s.rb (l2Base (c / 2)) 1 then 2 else 0, p⟩ }
def Pkg.fillL1i (s : Pkg) (c line : Nat) (d : BitVec 512) (p stream : Bool) : Pkg :=
  if s.stL2 (c / 2) line = .I then s
  else
    let cand := ((List.range 4).map (l1iKey c line)).map (fun k => (k, Map.get line0 s.l1i k))
    match s.findL1i c line with
    | some k => { s with l1i := Map.set line0 s.l1i k ⟨line, .S, d, 0, p⟩ }
    | none =>
      if !s.alloc2 (c / 2) then s else
      match victim cand with
      | none => s
      | some (k, a) =>
        { s with l1i := Map.set line0 (ageAll s.l1i cand a) k ⟨line, .S, d, if stream && s.rb (l2Base (c / 2)) 1 then 2 else 0, p⟩ }

/-- The stride detector (R171) sees a miss: its new entries and whether the fill is streaming. -/
def Core.stridden (k : Core) (line : Nat) : Core × Bool :=
  match k.stride.findIdx? (fun e => e.last + 1 == line || line + 1 == e.last) with
  | some i =>
    let n := (k.stride.getD i ⟨0, 0⟩).count + 1
    ({ k with stride := k.stride.set i ⟨line, n⟩ }, decide (n ≥ 3))
  | none =>
    if k.stride.length < 8 then ({ k with stride := k.stride ++ [⟨line, 0⟩] }, false)
    else ({ k with stride := k.stride.set k.strideRr ⟨line, 0⟩, strideRr := (k.strideRr + 1) % 8 }, false)

/-! ### Write permission and coherent accesses in one step -/

/-- Every copy of a line outside tile t is removed, its dirty data having been taken (RdUnique and Upgrade, R188). -/
def Pkg.purgeOthers (s : Pkg) (t : Option Nat) (line : Nat) : Pkg :=
  let ts := (s.holders line).filter (fun u => some u != t)
  let ts2 := (s.cores.filter (fun p => p.2.merge.any (fun m => m.line == line && m.perm))).map (·.1 / 2)
  let s : Pkg := (ts ++ ts2.filter (fun u => some u != t)).foldl (fun s u => s.purgeTile u line) s
  s.dirSync line

/-- Room for one more merge buffer line: with fifteen held, the oldest with permission is released, one whose store has still to drain
only if there is no other (R51, 07 R191). -/
def Pkg.mergeRoom (s : Pkg) (c : Nat) : Pkg :=
  if (s.core c).merge.length < 15 then s
  else
    match (s.core c).merge.find? (fun m => m.perm && m.owe.isNone) with
    | some m => s.releaseMerge c m.line
    | none =>
      if (s.core c).merge.length < 16 then s
      else match (s.core c).merge.find? (·.perm) with
        | some m => s.releaseMerge c m.line
        | none => s

/-- The home gives tile t the only copy of a line, whose data is d (R167, R188): every other copy is removed; dirty data moves to the
tile's L2 with the slice's copy invalidated, or, where the L2 may not hold it dirty, goes on to the slice or the backing store. -/
def Pkg.giveUnique (s : Pkg) (t line ai : Nat) (d : BitVec 512) (p stream : Bool) (c : Nat) : Pkg :=
  let dirty2 := (s.holders line).any (fun u => s.stL2 u line == Moesi.M || s.stL2 u line == Moesi.O) || (s.mergeAny line).any (·.dirty)
  let slice := (s.findL3 line).filter (fun k => (s.getL3 k).st == Moesi.M)
  let dirty := dirty2 || slice.isSome
  let keep := s.alloc2 t || s.stL2 t line != Moesi.I
  let s := (s.purgeOthers (some t) line).dirtyPage line
  if dirty && (ai == 1 || s.noalloc) then
    let s := s.writeThrough line d p
    if keep then s.fillL2 t line .E d p stream (some c) else s
  else if keep then
    let s : Pkg := match slice with | some k => s.putL3 k {} | none => s
    s.fillL2 t line (if dirty then .M else .E) d p stream (some c)
  else if dirty2 then s.writeHome line d p
  else s

/-- A line enters core c's merge buffer with permission, in the place that waits for it or in a new one (R49). -/
def Pkg.mergeIn (s : Pkg) (c line ai : Nat) (d : BitVec 512) (p : Bool) (owe : Option Nat) : Pkg :=
  let s : Pkg := match s.mergeOf c line with
    | some _ => s
    | none => s.mergeRoom c
  s.updCore c (fun k : Core =>
    let m : MergeLine := { line := line, perm := true, ai := ai, data := d, poison := p, last := s.now, owe := owe }
    { k with
      merge := if k.merge.any (·.line == line) then k.merge.map (fun e => if e.line = line then { m with owe := e.owe } else e) else k.merge ++ [m]
      miss := k.miss.filter (fun e => !(e.line == line && e.kind == .perm)) })

def sibling (c : Nat) : Nat := if c % 2 = 0 then c + 1 else c - 1

/-- Line data from DRAM is installed in its home slice on the way to an L2 (R167). -/
def Pkg.sliceTake (s : Pkg) (line : Nat) (stream : Bool) : Pkg :=
  if s.uncopied line then
    let (d, p) := s.dramLine line
    let s := s.seen line
    if s.alloc3 (homeOf line) then s.fillL3 line d p false stream else s
  else
    match s.findL3 line with
    | some k => s.putL3 k { s.getL3 k with age := 0 }
    | none => s

/-- Core c holds a line with write permission in its merge buffer, the whole transaction done at once (R49, R188, R191). -/
def Pkg.acquire (s : Pkg) (c line ai : Nat) (stream : Bool := false) : Pkg :=
  if (s.core c).merge.any (fun m => m.line == line && m.perm) then s
  else
    let (d, p) := s.curLine line
    let st := s.stL2 (c / 2) line
    let s := if st == .M || st == .E || (s.mergeOf (sibling c) line).any (·.perm) then s
      else (s.stReq (stCore c) 0).stRd (stCore c) (if st == .I then 64 else 0) 0
    let s := s.sliceTake line stream
    let s := (s.releaseMerge (sibling c) line).dropL1 (sibling c) line false
    (s.giveUnique (c / 2) line ai d p stream c).mergeIn c line ai d p none

/-- A store's bytes enter the merge buffer line and the L1D copy in the same cycle: its single point of visibility
(R49); the first makes the L2's E line M, but for AI 1 and under NOALLOC (R166, R175, 07 R187). A store of a whole line clears
poison (R180). Armed monitors see it (03 R93). -/
def Pkg.mergeWrite (s : Pkg) (c line o n x : Nat) : Pkg :=
  let ai := match s.mergeOf c line with | some m => m.ai | none => 0
  let s := s.updCore c (fun k : Core => { k with merge := k.merge.map (fun m =>
    if m.line = line then { m with data := linePut m.data o n x, poison := m.poison && !decide (n = 64), last := s.now, dirty := true, owe := none }
    else m) })
  let s : Pkg := match s.findL2 (c / 2) line with
    | some k => if ai = 1 || s.noalloc then s else s.putL2 k { s.getL2 k with st := .M }
    | none => s
  let s : Pkg := match s.findL1d c line with
    | some k =>
      let l := Map.get line0 s.l1d k
      { s with l1d := Map.set line0 s.l1d k { l with data := linePut l.data o n x, poison := l.poison && !decide (n = 64), age := 0 } }
    | none => s
  s.monHit line

/-- A write by core c performed at once: permission, then the bytes. -/
def Pkg.coreWrite (s : Pkg) (c ai pa n x : Nat) (stream : Bool := false) : Pkg :=
  (s.acquire c (pa / 64) ai stream).mergeWrite c (pa / 64) (pa % 64) n x

/-- What core c's loads find of a line without leaving the tile: L1D, its merge buffer, the sibling's merge buffer, which gives it up,
the L2 (R50, R191). L1D takes a copy. -/
def Pkg.lookTile (s : Pkg) (c line : Nat) (stream : Bool) : Pkg × Option (BitVec 512 × Bool) :=
  match s.findL1d c line with
  | some k =>
    let l := Map.get line0 s.l1d k
    ({ s with l1d := Map.set line0 s.l1d k { l with age := 0 } }, some (l.data, l.poison))
  | none =>
    match (s.core c).merge.find? (fun m => m.line == line && m.perm) with
    | some m => (s.fillL1d c line m.data m.poison stream, some (m.data, m.poison))
    | none =>
      let s := s.releaseMerge (sibling c) line
      match s.findL2 (c / 2) line with
      | some k =>
        let l := s.getL2 k
        ((s.putL2 k { l with age := 0 }).fillL1d c line l.data l.poison stream, some (l.data, l.poison))
      | none => (s, none)

/-- The home gives tile t a copy of a line to read, whose data is d (R167, R188): E where no other tile has one, with the slice's dirty
data if that moves; else S. Nothing is left where the tile does not allocate. -/
def Pkg.giveShared (s : Pkg) (t line ai : Nat) (d : BitVec 512) (p stream : Bool) (c : Nat) : Pkg :=
  if !s.alloc2 t then s
  else
    let others := (s.holders line).any (· != t) || (s.mergeAny line).isSome
    let slice := (s.findL3 line).filter (fun k => (s.getL3 k).st == Moesi.M)
    if others then s.fillL2 t line .S d p stream (some c)
    else
      let s := s.dirtyPage line
      match slice with
      | some k =>
        if ai = 1 then (s.writeThrough line d p).fillL2 t line .E d p stream (some c)
        else (s.putL3 k {}).fillL2 t line .M d p stream (some c)
      | none => s.fillL2 t line .E d p stream (some c)

/-- The holders of a line that may supply it answer a read: their merge buffers release it, M becomes O and E becomes S (R187). -/
def Pkg.shareDown (s : Pkg) (line t : Nat) : Pkg :=
  let s := s.releaseTile t line
  match s.findL2 t line with
  | some k =>
    let c := s.getL2 k
    (s.putL2 k { c with st := if c.st = .M then .O else if c.st = .E then .S else c.st }).dirSync line
  | none => s

/-- A load of n bytes within a line by core c, the whole transaction done at once (R50, R188). -/
def Pkg.coreRead (s : Pkg) (c ai pa n : Nat) (stream : Bool) : Pkg × Nat × Bool :=
  let line := pa / 64
  match s.lookTile c line stream with
  | (s, some (d, p)) => (s, lineGet d (pa % 64) n, p)
  | (s, none) =>
    let (d, p) := s.curLine line
    let hs := (s.holders line) ++ (s.cores.filter (fun q => q.2.merge.any (fun m => m.line == line && m.perm))).map (·.1 / 2)
    let s := (hs.filter (· != c / 2)).foldl (fun s t => s.shareDown line t) s
    let s := ((s.stReq (stCore c) 0).stRd (stCore c) 64 0).sliceTake line stream
    let s := s.giveShared (c / 2) line ai d p stream c
    (s.fillL1d c line d p stream, lineGet d (pa % 64) n, p)

/-- A read at the home that leaves the copies as they are (R192): bytes of the current data, with the line's poison. -/
def Pkg.homeRead (s : Pkg) (pa n : Nat) : Nat × Bool :=
  let (d, p) := s.curLine (pa / 64)
  (lineGet d (pa % 64) n, p)
/-- The same as a step of the home: a hit in the slice, or a read of DRAM. -/
def Pkg.homeTake (s : Pkg) (pa n : Nat) : Pkg × Nat × Bool :=
  let (x, p) := s.homeRead pa n
  let s := s.seen (pa / 64)
  (match s.findL3 (pa / 64) with | some k => s.putL3 k { s.getL3 k with age := 0 } | none => s, x, p)

def trk0 : Nat → List Tracker := fun _ => []
def Pkg.trk (s : Pkg) (n : Nat) : List Tracker := Map.get trk0 s.trackers n
def Pkg.setTrk (s : Pkg) (n : Nat) (l : List Tracker) : Pkg := { s with trackers := Map.set trk0 s.trackers n l }

/-- A write at the home by an agent that caches nothing (R192): a dirty copy is merged first, every L2 copy is invalidated, the home's
copy, or DRAM if the slice holds none, takes the bytes that `be` enables; nothing is allocated. Data that a transaction for the line
has in hand takes them too. -/
def Pkg.homeWriteMasked (s : Pkg) (line : Nat) (be : BitVec 64) (x : BitVec 512) : Pkg :=
  let m := byteMask be
  let put (d : BitVec 512) : BitVec 512 := (d &&& ~~~m) ||| (x &&& m)
  let whole := decide (be = BitVec.allOnes 64)
  let (d, p) := s.curLine line
  let s : Pkg := if whole then s else s.seen line
  let nd := put d
  let np := p && !whole
  let s := s.purgeOthers none line
  let s : Pkg := match s.findL3 line with
    | some k =>
      if s.noalloc then (s.putL3 k { s.getL3 k with data := nd, poison := np, st := .E }).toStore line nd np
      else s.putL3 k { s.getL3 k with data := nd, poison := np, st := .M }
    | none => s.toStore line nd np
  let n := homeOf line
  let s : Pkg := if (s.trk n).any (·.line == line) then
      s.setTrk n ((s.trk n).map (fun r => if r.line = line then { r with data := r.data.map (fun q => (put q.1, q.2 && !whole)) } else r))
    else s
  (s.dirtyPage line).monHit line

/-- The same for n bytes at pa within one line. -/
def Pkg.homeWrite (s : Pkg) (pa n x : Nat) : Pkg :=
  s.homeWriteMasked (pa / 64) (BitVec.ofNat 64 ((2 ^ n - 1) * 2 ^ (pa % 64))) (BitVec.ofNat 512 (x % 2 ^ (8 * n) * 2 ^ (8 * (pa % 64))))

/-- A line's data becomes poisoned at its home. -/
def Pkg.homePoison (s : Pkg) (line : Nat) : Pkg :=
  let (d, _) := s.curLine line
  let s := s.purgeOthers none line
  match s.findL3 line with
  | some k => if s.noalloc then (s.putL3 k { s.getL3 k with data := d, poison := true, st := .E }).toStore line d true
    else s.putL3 k { s.getL3 k with data := d, poison := true, st := .M }
  | none => s.toStore line d true

/-- The lines of n bytes at pa are read from DRAM where no cache holds them. -/
def Pkg.seenBytes (s : Pkg) (pa n : Nat) : Pkg :=
  (List.range ((pa + n + 63) / 64 - pa / 64)).foldl (fun s i => s.seen (pa / 64 + i)) s

/-- Bytes at pa, across lines, with whether any line was poisoned (DMA reads, images). -/
def Pkg.readBytes (s : Pkg) (pa : Nat) : Nat → List (BitVec 8) × Bool
  | 0 => ([], false)
  | n + 1 =>
    let (x, p) := s.homeRead pa 1
    let (r, q) := s.readBytes (pa + 1) n
    (BitVec.ofNat 8 x :: r, p || q)

/-- Write bytes at pa, one line at a time. -/
def Pkg.writeBytes (s : Pkg) (pa : Nat) (bs : List (BitVec 8)) : Pkg :=
  let lo := pa / 64
  let hi := (pa + bs.length + 63) / 64
  (List.range (hi - lo)).foldl (fun s i =>
    let line := lo + i
    let be : BitVec 64 := (List.range 64).foldl (fun a k =>
      if pa ≤ 64 * line + k ∧ 64 * line + k < pa + bs.length then a ||| BitVec.ofNat 64 (2 ^ k) else a) 0#64
    let x : BitVec 512 := (List.range 64).foldl (fun a k =>
      if pa ≤ 64 * line + k then a ||| BitVec.ofNat 512 ((bs.getD (64 * line + k - pa) 0#8).toNat * 2 ^ (8 * k)) else a) 0#512
    s.homeWriteMasked line be x) s

/-! ### Write-combining buffers (07 R201) -/

/-- Bytes that leave a write-combining buffer as one write; `h` the thread it is charged to for FENCE.IO. -/
def Pkg.wcSend (s : Pkg) (c : Nat) (b : WcBuf) : Pkg :=
  let hs := (List.range 8).filter (fun t => b.owners.getLsbD t)
  let s := if region (64 * b.line) = 0 then s else s.stReq (stCore c) ((List.range 64).filter (fun k => b.mask.getLsbD k)).length
  { s with devq := s.devq ++ [{ h := 8 * c + hs.getD 0 0, pa := 64 * b.line, n := 64, data := b.data.toNat, be := b.mask.toNat, wr := true, wait := false, wc := b.owners }] }
/-- Flush the buffers of core c that satisfy `q`. -/
def Pkg.wcFlush (s : Pkg) (c : Nat) (q : WcBuf → Bool) : Pkg :=
  let bs := (s.core c).wc
  if bs.any q then
    ((bs.filter q).foldl (fun s b => s.wcSend c b) s).updCore c (fun k : Core => { k with wc := bs.filter (fun b => !q b) })
  else s
/-- A store of n bytes enters the buffer of its line: a fifth line flushes the first, a full buffer flushes (R201). -/
def Pkg.wcStore (s : Pkg) (h pa n x : Nat) : Pkg :=
  let c := h / 8
  let line := pa / 64
  let s : Pkg := match (s.core c).wc.find? (·.line == line) with
    | some _ => s
    | none =>
      let s : Pkg := if (s.core c).wc.length < 4 then s
        else match (s.core c).wc.head? with
          | some b => s.wcFlush c (·.line == b.line)
          | none => s
      s.updCore c (fun k : Core => { k with wc := k.wc ++ [⟨line, 0#64, 0#512, 0#8, s.now⟩] })
  let s := s.updCore c (fun k : Core => { k with wc := k.wc.map (fun b =>
    if b.line = line then
      { b with mask := b.mask ||| BitVec.ofNat 64 ((2 ^ n - 1) * 2 ^ (pa % 64)), data := linePut b.data (pa % 64) n x
               owners := b.owners ||| BitVec.ofNat 8 (2 ^ (h % 8)), last := s.now }
    else b) })
  s.wcFlush c (fun b => b.line == line && b.mask == BitVec.allOnes 64)

end Sys2Proof.Machine
end

