-- ==== Sys2Proof/Machine/Home.lean ====
section
/-!
DEFINITION. Machine/Home.lean: the home slice's transactions (07 R188 to R192), errors and retirement of cache ways (06
R179 to R183), whole-cache commands and modes (R175 to R178), slice evacuation (R184 to R186), L2 gating (08 R225).
-/
namespace Sys2Proof.Machine

/-! ### Way errors and retirement (06 R179 to R183) -/

/-- The window of an L2 or of a slice. -/
def cacheWin (l3 : Bool) (n : Nat) : Win := if l3 then .l3s n else .l2 n
/-- STAT, ERRCFG and WAYCE[w] of an L2 or slice. -/
def cacheStat (l3 : Bool) (n : Nat) : Nat := (cacheWin l3 n).base + 0x10
def cacheCfg (l3 : Bool) (n : Nat) : Nat := (cacheWin l3 n).base + 0x18
def cacheWay (l3 : Bool) (n w : Nat) : Nat := (cacheWin l3 n).base + 0x100 + 8 * w

/-- Whether an operation is in progress in an L2 or slice (STAT.BUSY, R178). -/
def Pkg.cacheBusy (s : Pkg) (l3 : Bool) (n : Nat) : Bool :=
  s.cops.any (fun o => match o with
    | .retire k m _ => k == l3 && m == n
    | .clean k m _ => k == l3 && m == n
    | .reserve m | .evac m => l3 && m == n)

/-- The number of ways with RET = 1. -/
def Pkg.nret (s : Pkg) (l3 : Bool) (n : Nat) : Nat :=
  ((List.range 16).filter (fun w => s.rb (cacheWay l3 n w) 8)).length

/-- The start of a retirement (R182 step 1): RET, its mirror in STAT, and BUSY. -/
def Pkg.retireWay (s : Pkg) (l3 : Bool) (n w : Nat) : Pkg :=
  let s := s.wb (cacheWay l3 n w) 8 true
  let s := s.wf (cacheStat l3 n) 34 32 (s.nret l3 n)
  let s := s.wb (cacheStat l3 n) (16 + w) true
  { s with cops := s.cops ++ [.retire l3 n w] }

/-- Whether a corrected error of way w now makes its COUNT equal to THRESH while four ways are retired (R183). -/
def Pkg.atLimit (s : Pkg) (l3 : Bool) (n w : Nat) : Bool :=
  let old := s.rd (cacheWay l3 n w)
  !old.getLsbD 8 && decide (s.nret l3 n ≥ 4) && winHit old (s.rf (cacheCfg l3 n) 63 32) s.cadSec (s.rf (cacheCfg l3 n) 7 0)

/-- A corrected error charged to way w (R181), which may retire it (R182) or report the limit of four (R183). -/
def Pkg.chargeWay (s : Pkg) (l3 : Bool) (n w : Nat) : Pkg :=
  let r := cacheWay l3 n w
  let th := s.rf (cacheCfg l3 n) 7 0
  let old := s.rd r
  let v := winCount old (s.rf (cacheCfg l3 n) 63 32) s.cadSec
  let lim := s.atLimit l3 n w
  let s := s.wr r v
  if th ≠ 0 ∧ bits v 7 0 ≥ th ∧ ¬ old.getLsbD 8 then
    if s.nret l3 n < 4 then s.retireWay l3 n w
    else if lim then s.ueError (cacheWin l3 n) { cls := 2, code := 0x0B, info := w * 2 ^ 12 }
    else s
  else s

/-- ERR_INFO of an L2 or slice (17 R432). -/
def cacheInfo (set way what nbits : Nat) : Nat := set + way * 2 ^ 12 + what * 2 ^ 16 + nbits * 2 ^ 18

/-- An error in the array of an L2 or slice found while it looks a line up (R179); `key` is the line's entry, if any: the array that
holds it, which is the buddy's for a line in spare ways, is charged. A tag error names the way that was read. The CE that meets the
limit of four ways is counted, and the record takes the UE alone, as in the example of R435. -/
def Pkg.arrayErr (s : Pkg) (l3 : Bool) (n line : Nat) (key : Option Nat) (e : ArrErr) : Pkg :=
  let n := match key with | some k => k / (if l3 then 32768 else 16384) | none => n
  let w := match e with | .tagCe w | .tagUe w => w.val | _ => (key.getD 0) % 16
  let set := if l3 then line % 2048 else line % 1024
  let win := cacheWin l3 n
  match e with
  | .none => s
  | .dataCe nb => if key.isNone then s else (s.record win { cls := 0, code := 1, addr := some (64 * line), info := cacheInfo set w 0 (nb % 4), held := !s.atLimit l3 n w }).chargeWay l3 n w
  | .dataUe =>
    match key with
    | some k =>
      let s := s.record win { cls := 1, code := 4, addr := some (64 * line), info := cacheInfo set w 0 0 }
      if l3 then s.putL3 k { s.getL3 k with poison := true } else s.putL2 k { s.getL2 k with poison := true }
    | none => s
  | .tagCe _ => (s.record win { cls := 0, code := 2, addr := some (64 * line), info := cacheInfo set w 1 1, held := !s.atLimit l3 n w }).chargeWay l3 n w
  | .tagUe _ => s.fatal win { cls := 3, code := 7, addr := some (64 * line), info := cacheInfo set w 1 0 }
  | .dirCe => if l3 then s.ce win 2 (some (64 * line)) (cacheInfo set w 2 1) else s
  | .dirUe => if l3 then s.fatal win { cls := 3, code := 7, addr := some (64 * line), info := cacheInfo set w 2 0 } else s

/-- Remove one L3 entry: dirty data goes to its backing store (R182, R185). -/
def Pkg.flushL3 (s : Pkg) (k : Nat) : Pkg :=
  let c := s.getL3 k
  let s : Pkg := if c.st = .M then s.toStore c.line c.data c.poison else s
  s.putL3 k {}
/-- Write one L3 entry's dirty data to its backing store; the line stays, clean (R174). -/
def Pkg.cleanL3 (s : Pkg) (k : Nat) : Pkg :=
  let c := s.getL3 k
  if c.st = .M then (s.putL3 k { c with st := .E }).toStore c.line c.data c.poison else s

/-- An error found while the entries of an array are read to be cleaned or removed (R178, R182): entry q.1 = 16·set + way. -/
def Pkg.scanErrs (s : Pkg) (l3 : Bool) (n : Nat) (errs : List (Nat × ArrErr)) : Pkg :=
  errs.foldl (fun s q =>
    let k := if l3 then n * 32768 + q.1 % 32768 else n * 16384 + q.1 % 16384
    let c := if l3 then s.getL3 k else s.getL2 k
    if c.st == .I then s else s.arrayErr l3 n c.line (some k) q.2) s

/-- CSW of an L2 entry (R174): a merge buffer copy first, then the dirty line to its home slice, which then holds the dirty copy: the L2
keeps the line S, without permission (R167, R187). `by'`: the core that executes it (08 R233). -/
def Pkg.cleanL2 (s : Pkg) (t k : Nat) (by' : Option Nat := none) : Pkg :=
  if (s.getL2 k).st = .I then s
  else
    let line := (s.getL2 k).line
    let s := s.releaseTile t line
    let c := s.getL2 k
    if c.line = line ∧ (c.st = .M ∨ c.st = .O) then
      let s := s.writeHome line c.data c.poison
      let held := match s.findL3 line with | some q => (s.getL3 q).st == Moesi.M | none => false
      let s := (s.putL2 k { c with st := if c.st = .M && !held then .E else .S }).dirSync line
      match by' with | some u => s.stReq (stCore u) 64 | none => s
    else s

/-- The keys of the valid L2 entries of tile t, and of the L3 entries of slice n (of the spare ways that host its lines,
once it is evacuated, R186). -/
def Pkg.keysL2 (s : Pkg) (t : Nat) : List Nat :=
  (s.l2.filter (fun p => p.1 / 16384 == t && p.2.st != Moesi.I)).map (·.1)
def Pkg.keysL3 (s : Pkg) (n : Nat) : List Nat :=
  (s.l3.filter (fun p =>
    p.2.st != Moesi.I && homeOf p.2.line == n && (p.1 / 32768 == n || (s.evacd n && p.1 / 32768 == Nat.xor n 1)))).map (·.1)

/-- A retirement is complete: its record and its Odometer event (17 R431, R441). -/
def Pkg.retireNote (s : Pkg) (l3 : Bool) (n w : Nat) : Pkg :=
  let win := cacheWin l3 n
  let s := s.ce win 0x0A none (cacheInfo 0 w 0 0)
  s.odoEvent 0x07 win.errUnit win.stop (drsPa win.err) (cacheInfo 0 w 0 0)
/-- A reset empties every cache: the retirements in progress are complete at the reboot (R182). -/
def Pkg.retireAll (s : Pkg) : Pkg :=
  let s := s.cops.foldl (fun s o => match o with | .retire l3 n w => s.retireNote l3 n w | _ => s) s
  { s with cops := s.cops.filter (fun o => match o with | .retire _ _ _ => false | _ => true) }

/-- The end of a retirement (R182): the way's lines have been removed; the event is recorded (17 R431, R441). -/
def Pkg.wayRetired (s : Pkg) (l3 : Bool) (n w : Nat) (errs : List (Nat × ArrErr)) : Pkg :=
  if !s.cops.contains (.retire l3 n w) then s
  else
    let s := s.scanErrs l3 n (errs.filter (·.1 % 16 == w))
    let s : Pkg := if l3 then
        ((s.l3.filter (fun p => p.1 / 32768 == n && p.1 % 16 == w && p.2.st != Moesi.I)).map (·.1)).foldl (fun s k => s.flushL3 k) s
      else ((s.keysL2 n).filter (· % 16 == w)).foldl (fun s k => s.evictL2 n (s.getL2 k).line) s
    let s := { s with cops := s.cops.filter (· != .retire l3 n w) }
    let s : Pkg := if l3 then { s with spare := Map.upd mask0 s.spare n (fun m => m &&& ~~~(BitVec.ofNat 16 (2 ^ w))) } else s
    s.retireNote l3 n w

/-- A write of WAYCE[w] (R183): COUNT is software's; a 1 to RET retires the way; beyond four the write has
no effect and sets CMD_ERR. -/
def Pkg.wayWrite (s : Pkg) (l3 : Bool) (n w : Nat) (v : Word) : Pkg :=
  let r := cacheWay l3 n w
  let old := s.rd r
  if v.getLsbD 8 && !old.getLsbD 8 then
    if s.nret l3 n < 4 then (s.wf r 7 0 (bits v 7 0)).retireWay l3 n w else s.wb (cacheStat l3 n) 5 true
  else s.wf r 7 0 (bits v 7 0)

/-! ### Whole-cache commands and modes (R175 to R178) -/

/-- L2_CMD or L3S_CMD (R178). -/
def Pkg.cacheCmd (s : Pkg) (l3 : Bool) (n op : Nat) : Pkg :=
  if op = 3 ∨ s.cacheBusy l3 n then s.wb (cacheStat l3 n) 5 true
  else if op = 0 then s
  else { s with cops := s.cops ++ [.clean l3 n (op == 2)] }

/-- The command has passed every set: CSW, or CISW, of every set and way (R174, R178). -/
def Pkg.cacheDone (s : Pkg) (l3 : Bool) (n : Nat) (errs : List (Nat × ArrErr)) : Pkg :=
  match s.cops.find? (fun o => o == .clean l3 n true || o == .clean l3 n false) with
  | some (.clean _ _ inv) =>
    let s := s.scanErrs l3 n errs
    let s : Pkg := if l3 then
        (s.keysL3 n).foldl (fun s k => if inv then s.flushL3 k else s.cleanL3 k) s
      else
        (s.keysL2 n).foldl (fun s k => if inv then (s.cleanL2 n k).evictL2 n (s.getL2 k).line else s.cleanL2 n k) s
    { s with cops := s.cops.filter (· != .clean l3 n inv) }
  | _ => s

/-- A write of SC_CACHE_MODE (R176). -/
def Pkg.cacheModeWrite (s : Pkg) (v : Word) : Pkg :=
  let r := scBase + 0x100
  if s.rb r 1 then s.wb r 2 true
  else
    let s := if v.getLsbD 2 then s.wb r 2 false else s
    if s.rb r 0 = v.getLsbD 0 then s else (s.wb r 0 (v.getLsbD 0)).wb r 1 true

/-! ### Evacuation (R184 to R186) -/

/-- SPARE := 1: the four highest-numbered unretired ways are reserved and begin to be emptied. -/
def Pkg.spareReserve (s : Pkg) (n : Nat) : Pkg :=
  if s.rb (l3sBase n) 4 then s
  else
    let live := (List.range 16).filter (fun w => !s.ret3 n w)
    if live.length < 8 ∨ s.rb (l3sBase n + 0x10) 4 then s.wb (l3sBase n + 0x10) 5 true
    else
      let m : BitVec 16 := (live.reverse.take 4).foldl (fun a w => a ||| BitVec.ofNat 16 (2 ^ w)) 0#16
      let s := s.wb (l3sBase n) 4 true
      { s with spare := Map.set mask0 s.spare n m, cops := s.cops ++ [.reserve n] }

/-- SPARE := 0. -/
def Pkg.spareClear (s : Pkg) (n : Nat) : Pkg :=
  if !s.rb (l3sBase n) 4 then s
  else if s.rb (l3sBase n + 0x10) 3 then s.wb (l3sBase n + 0x10) 5 true
  else
    let s := (s.wb (l3sBase n) 4 false).wb (l3sBase n + 0x10) 2 false
    { s with spare := Map.set mask0 s.spare n 0#16, cops := s.cops.filter (· != CacheOp.reserve n) }

/-- The spare way set is empty: GATE_OK. -/
def Pkg.spareReady (s : Pkg) (n : Nat) (errs : List (Nat × ArrErr)) : Pkg :=
  if !s.cops.contains (.reserve n) then s
  else
    let m := s.spareOf n
    let s := s.scanErrs true n (errs.filter (fun q => m.getLsbD (q.1 % 16)))
    let s : Pkg := ((s.l3.filter (fun p => p.1 / 32768 == n && m.getLsbD (p.1 % 16) && p.2.st != Moesi.I)).map (·.1)).foldl
      (fun s k => s.flushL3 k) s
    ({ s with cops := s.cops.filter (· != CacheOp.reserve n) }).wb (l3sBase n + 0x10) 2 true

/-- EVAC := 1 (R185). -/
def Pkg.evacStart (s : Pkg) (n : Nat) : Pkg :=
  let b := Nat.xor n 1
  if s.rb (l3sBase b + 0x10) 2 && !s.rb (l3sBase b + 0x10) 3 && !s.rb (l3sBase n + 0x10) 4 && !s.cacheBusy true n then
    { s with evac := n :: s.evac, cops := s.cops ++ [.evac n] }
  else s.wb (l3sBase n + 0x10) 5 true

/-- The slice's own lines are gone (R185 step 5). -/
def Pkg.evacDone (s : Pkg) (n : Nat) (errs : List (Nat × ArrErr)) : Pkg :=
  if !s.cops.contains (.evac n) then s
  else
    let s := s.scanErrs true n errs
    let s : Pkg := ((s.l3.filter (fun p => p.1 / 32768 == n && homeOf p.2.line == n && p.2.st != Moesi.I)).map (·.1)).foldl
      (fun s k => s.flushL3 k) s
    let s := { s with cops := s.cops.filter (· != CacheOp.evac n), evac := s.evac.filter (· != n) }
    let s := (s.wb (l3sBase n + 0x10) 4 true).wb (l3sBase (Nat.xor n 1) + 0x10) 3 true
    s.odoEvent 0x08 2 (n + 16) n 0

/-! ### L2 gating (R178, 08 R225) -/

/-- Whether an L2, and a slice, hold a dirty line (STAT.DIRTY). -/
def Pkg.dirtyL2 (s : Pkg) (t : Nat) : Bool :=
  s.l2.any (fun p => p.1 / 16384 == t && (p.2.st == Moesi.M || p.2.st == Moesi.O))
def Pkg.dirtyL3 (s : Pkg) (n : Nat) : Bool := s.l3.any (fun p => p.1 / 32768 == n && p.2.st == Moesi.M)
/-- All eight threads of a core are OFF. -/
def Pkg.coreOff (s : Pkg) (c : Nat) : Bool := (List.range 8).all (fun t => (s.thr (8 * c + t)).st == ThrSt.off)
/-- L2_STAT.GATE_OK. -/
def Pkg.gateOk (s : Pkg) (t : Nat) : Bool :=
  s.coreOff (2 * t) && s.coreOff (2 * t + 1) && s.coreP (2 * t) == 2 && s.coreP (2 * t + 1) == 2 && !s.dirtyL2 t

/-- The L2 drops its lines and powers down. -/
def Pkg.l2Gate (s : Pkg) (t : Nat) : Pkg :=
  if s.rb (meshL2pwr t) 0 && s.gateOk t && s.l2P t == 0 then
    let s : Pkg := (s.keysL2 t).foldl (fun s k => s.evictL2 t (s.getL2 k).line) s
    s.wf (meshL2pwr t) 2 1 2
  else s

/-! ### Transactions at the home (07 R188 to R191) -/

/-- The active transaction for a line. -/
def Pkg.trkOf (s : Pkg) (line : Nat) : Option Tracker := (s.trk (homeOf line)).find? (·.line == line)
def Pkg.putTrk (s : Pkg) (t : Tracker) : Pkg :=
  let n := homeOf t.line
  s.setTrk n ((s.trk n).filter (·.line != t.line) ++ [t])
def Pkg.dropTrk (s : Pkg) (line : Nat) : Pkg :=
  let n := homeOf line
  s.setTrk n ((s.trk n).filter (·.line != line))

/-- The tiles that hold a line in their L2 or, with permission, in a merge buffer. -/
def Pkg.owners (s : Pkg) (line : Nat) : List Nat :=
  (List.range 128).filter (fun t =>
    s.stL2 t line != Moesi.I || (s.mergeOf (2 * t) line).any (·.perm) || (s.mergeOf (2 * t + 1) line).any (·.perm))
/-- Whether tile t must answer a snoop with data: it holds the line M, E or O, or in a merge buffer. -/
def Pkg.supplies (s : Pkg) (t line : Nat) : Bool :=
  s.stL2 t line == Moesi.M || s.stL2 t line == Moesi.E || s.stL2 t line == Moesi.O
    || (s.mergeOf (2 * t) line).any (·.perm) || (s.mergeOf (2 * t + 1) line).any (·.perm)

/-- Whether a miss entry of a tile still asks the home for the line. -/
def Pkg.tileMiss (s : Pkg) (t line : Nat) (perm : Bool) : Bool :=
  [2 * t, 2 * t + 1].any (fun c => (s.core c).miss.any (fun m => m.line == line && (m.kind == MissKind.perm) == perm && m.data.isNone && m.err.isNone))

/-- Line data reaches miss entries directly, when the tile keeps no copy (R175, R177). -/
def Pkg.giveMiss (s : Pkg) (t line : Nat) (d : BitVec 512) (p : Bool) : Pkg :=
  [2 * t, 2 * t + 1].foldl (fun s c => s.updCore c (fun k : Core => { k with miss := k.miss.map (fun m =>
    if m.line = line ∧ m.kind ≠ .perm then { m with data := some (d, p) } else m) })) s

/-- The core of a tile whose request for a line the home answers: the first that has one of the kind. -/
def Pkg.asker (s : Pkg) (t line : Nat) (perm : Bool) : Nat :=
  if (s.core (2 * t)).miss.any (fun m => m.line == line && (m.kind == MissKind.perm) == perm) then 2 * t else 2 * t + 1

/-- The home grants a transaction whose data is known (R167, R188); data that has become newer in the package since it was taken wins. A
grant of permission to a tile that keeps no copy goes straight into the asking core's merge buffer, where it stays until its store has
drained (R175, R177, R191). -/
def Pkg.grant (s : Pkg) (r : Tracker) (d : BitVec 512) (p : Bool) : Pkg :=
  let t := r.tile
  let line := r.line
  let s := s.dropTrk line
  let perm := r.req != .rdShared
  let c := s.asker t line perm
  let m := (s.core c).miss.find? (fun m => m.line == line && (m.kind == MissKind.perm) == perm)
  let stream := m.any (·.stream)
  let ai := match m with | some e => e.ai | none => 0
  let (d, p) := if s.uncopied line then (d, p) else s.curLine line
  if !perm then
    let s := s.giveShared t line ai d p stream c
    if s.stL2 t line = .I then s.giveMiss t line d p else s
  else
    let s := s.giveUnique t line ai d p stream c
    match m with
    | some e => if s.stL2 t line = .I then s.mergeIn c line e.ai d p (some e.thr) else s
    | none => s

/-- A transaction's next phase: the data of the slice, else a read of DRAM or of the remote home (R167, R188); whether it has ended. -/
def Pkg.advance (s : Pkg) (r : Tracker) : Pkg × Bool :=
  if r.snoops != 0#128 || r.dram then (s.putTrk r, false)
  else
    match r.data with
    | some (d, p) => (s.grant r d p, true)
    | none =>
      if (s.owners r.line).any (fun t => s.supplies t r.line) || (r.req == .upgrade && s.stL2 r.tile r.line != Moesi.I) then
        let (d, p) := s.curLine r.line
        (s.grant r d p, true)
      else
        match s.findL3 r.line with
        | some k =>
          let c := s.getL3 k
          let s := s.putL3 k { c with age := 0 }
          (s.grant r c.data c.poison, true)
        | none =>
          let s := s.putTrk { r with dram := true, remote := isGlobal r.line }
          if isGlobal r.line then
            ({ s with fab := { s.fab with gq := s.fab.gq ++ [{ kind := .rd, pa := 64 * r.line, n := 64, data := 0, op := 0, who := .fill (homeOf r.line) r.line, gsn := 0 }] } }, false)
          else (s.updMc (mcOf r.line) (fun m => { m with rq := m.rq ++ [⟨r.line, .home (homeOf r.line), false, false⟩] }), false)

/-- The home takes up a request; `wait` are those for the line that arrived after it. An upgrade whose copy has been removed is served as
a RdUnique; a request that no miss entry of the tile has any more needs nothing. -/
def Pkg.openReq (s : Pkg) (t line : Nat) (req : HomeReq) (e : ArrErr) (wait : List (Nat × HomeReq × ArrErr)) : Pkg × Bool :=
  let perm := req != .rdShared
  let st := s.stL2 t line
  if !s.tileMiss t line perm || (if perm then st == .M || st == .E else st != .I) then (s, true)
  else
    let s := s.arrayErr true (homeOf line) line (s.findL3 line) e
    let s : Pkg := if perm then s else s.releaseTile t line
    let req := if req == .upgrade && st == Moesi.I then .rdUnique else req
    let tgt := (s.owners line).filter (fun u => u != t && (perm || s.supplies u line))
    let sn : BitVec 128 := tgt.foldl (fun a u => a ||| BitVec.ofNat 128 (2 ^ u)) 0#128
    s.advance { line := line, req := req, tile := t, snoops := sn, dram := false, remote := false, wait := wait }

/-- The requests for a line that wait at its home are taken up in their order (R189). -/
def Pkg.serve (s : Pkg) (line : Nat) : List (Nat × HomeReq × ArrErr) → Pkg
  | [] => s
  | (t, req, e) :: rest =>
    match s.openReq t line req e rest with
    | (s, true) => s.serve line rest
    | (s, false) => s

/-- A transaction goes on; when it ends the next for the line is taken up. -/
def Pkg.resume (s : Pkg) (r : Tracker) : Pkg :=
  match s.advance r with
  | (s, true) => s.serve r.line r.wait
  | (s, false) => s

/-- The trackers of a slice in use: an active transaction, and each that waits. -/
def Pkg.trkUsed (s : Pkg) (n : Nat) : Nat := ((s.trk n).map (fun r => r.wait.length + 1)).sum

/-- The core's request counts in its statistics (08 R233), and its miss entry knows that the home will answer it. -/
def Pkg.asked (s : Pkg) (t line : Nat) (perm : Bool) (req : HomeReq) : Pkg :=
  let c := s.asker t line perm
  (s.stReq (stCore c) 0).updCore c (fun k : Core => { k with miss := k.miss.map (fun m =>
    if m.line = line ∧ (m.kind == MissKind.perm) = perm then { m with asked := some (if req == .upgrade then 0 else 64) } else m) })

/-- A request reaches the home (R188, R189): it waits while another transaction for the line is active; it is held back while all 256
trackers of the slice are busy. A tile that holds the permission in a merge buffer does not ask for it. -/
def Pkg.request (s : Pkg) (t line : Nat) (req : HomeReq) (e : ArrErr) : Pkg :=
  let n := homeOf line
  let perm := req != .rdShared
  let mine := (s.mergeOf (2 * t) line).any (·.perm) || (s.mergeOf (2 * t + 1) line).any (·.perm)
  if !s.tileMiss t line perm || s.l2P t != 0 || (perm && mine) || decide (s.trkUsed n ≥ 256) then s
  else
    match s.trkOf line with
    | some r =>
      if (r.tile == t && (r.req != .rdShared) == perm) || r.wait.any (fun q => q.1 == t && (q.2.1 != .rdShared) == perm) then s
      else (s.asked t line perm req).putTrk { r with wait := r.wait ++ [(t, req, e)] }
    | none => (s.asked t line perm req).serve line [(t, req, e)]

/-- A read-shared request: the tile's L2 does not hold the line (R188). -/
def Pkg.rdShared (s : Pkg) (t line : Nat) (e : ArrErr) : Pkg :=
  if s.stL2 t line = .I then s.request t line .rdShared e else s
/-- A read-unique request: L2 state I. -/
def Pkg.rdUnique (s : Pkg) (t line : Nat) (e : ArrErr) : Pkg :=
  if s.stL2 t line = .I then s.request t line .rdUnique e else s
/-- An upgrade: L2 state S or O, or the copy has been lost since. -/
def Pkg.upgrade (s : Pkg) (t line : Nat) (e : ArrErr) : Pkg :=
  if s.stL2 t line = .M ∨ s.stL2 t line = .E then s else s.request t line .upgrade e

/-- Tile t answers the snoop that a transaction sent it (R187, R188, R190): the merge buffers release the line, then a shared read leaves
M as O and E as S; a unique one removes every copy. An L2 whose WrBack crossed the snoop answers "no copy". -/
def Pkg.snoop (s : Pkg) (t line : Nat) (e : ArrErr) : Pkg :=
  match s.trkOf line with
  | none => s
  | some r =>
    if !r.snoops.getLsbD t then s
    else
      let s := s.arrayErr false t line (s.findL2 t line) e
      let s := s.releaseTile t line
      let has := s.supplies t line
      let ans := if has && r.data.isNone then some (s.curLine line) else r.data
      let s : Pkg := match r.req with
        | .rdShared => s.shareDown line t
        | _ =>
          let dirty := s.stL2 t line == Moesi.M || s.stL2 t line == Moesi.O
          let s := s.purgeTile t line
          let s : Pkg := match dirty, s.findL3 line, ans with
            | true, some k, some (d, p) => s.putL3 k ⟨line, .M, d, (s.getL3 k).age, p⟩
            | true, none, some (d, p) => s.writeHome line d p
            | _, _, _ => s
          s.dirSync line
      s.resume { r with snoops := r.snoops &&& ~~~(BitVec.ofNat 128 (2 ^ t)), data := ans }

/-- Line data arrives from DRAM or the remote home (R167): installed in the home slice when that allocates, and granted. -/
def Pkg.homeData (s : Pkg) (line : Nat) (d : BitVec 512) (p : Bool) : Pkg :=
  match s.trkOf line with
  | none => s
  | some r =>
    if !r.dram then s
    else
      let stream := (s.core (s.asker r.tile line (r.req != .rdShared))).miss.any (fun m => m.line == line && m.stream)
      let s : Pkg := if s.uncopied line && s.alloc3 (homeOf line) then s.fillL3 line d p false stream else s
      (s.grant { r with dram := false } d p).serve line r.wait

/-- A dirty L2 line is written to its home (WrBack), a clean one reported dropped (Drop). During a transaction for the line the home uses
the WrBack's data as the snoop's (R190). -/
def Pkg.giveUp (s : Pkg) (t line : Nat) (dirty : Bool) (e : ArrErr) : Pkg :=
  let st := s.stL2 t line
  if st == Moesi.I || ((st == Moesi.M || st == Moesi.O) != dirty) || ((s.mergeOf (2 * t) line).any (·.perm))
      || ((s.mergeOf (2 * t + 1) line).any (·.perm)) then s
  else
    let s := s.arrayErr false t line (s.findL2 t line) e
    let dp := s.curLine line
    let s := s.evictL2 t line
    match s.trkOf line with
    | some r => if dirty && r.data.isNone then s.putTrk { r with data := some dp } else s
    | none => s

/-! ### Commands -/

/-- RDUNIQUE (R188). -/
def execRdunique (t : TileN) (line : Nat) (e : ArrErr) (s : State) : Out :=
  s.run (·.rdUnique t line e)
/-- UPGRADE (R188). -/
def execUpgrade (t : TileN) (line : Nat) (e : ArrErr) (s : State) : Out :=
  s.run (·.upgrade t line e)
/-- WRBACK (R188). -/
def execWrback (t : TileN) (l : LineErr) (s : State) : Out :=
  s.run (·.giveUp t l.line true l.e)
/-- DROP (R188). -/
def execDrop (t : TileN) (l : LineErr) (s : State) : Out :=
  s.run (·.giveUp t l.line false l.e)
/-- WAY_RETIRE_COMPLETE (R182). -/
def execWayRetireComplete (l3 : Bool) (n : TileN) (w : WayScan) (s : State) : Out :=
  s.run (·.wayRetired l3 n w.w w.errs)
/-- WAY_RETIRE_WRITE (R183). -/
def execWayRetireWrite (l3 : Bool) (n : TileN) (w : Fin 16) (v : Word) (s : State) : Out :=
  s.run (·.wayWrite l3 n w v)
/-- L2_CLEAN_ALL (R178). -/
def execL2CleanAll (n : TileN) (s : State) : Out :=
  s.run (·.cacheCmd false n 1)
/-- L2_CLEAN_INVALIDATE_ALL (R178). -/
def execL2CleanInvalidateAll (n : TileN) (s : State) : Out :=
  s.run (·.cacheCmd false n 2)
/-- L3S_CLEAN_ALL (R178). -/
def execL3sCleanAll (n : TileN) (s : State) : Out :=
  s.run (·.cacheCmd true n 1)
/-- L3S_CLEAN_INVALIDATE_ALL (R178). -/
def execL3sCleanInvalidateAll (n : TileN) (s : State) : Out :=
  s.run (·.cacheCmd true n 2)
/-- CACHE_CMD_COMPLETE (R178). -/
def execCacheCmdComplete (l3 : Bool) (n : UnitScan) (s : State) : Out :=
  s.run (·.cacheDone l3 n.n n.errs)
/-- CACHE_MODE_WRITE (R176). -/
def execCacheModeWrite (v : Word) (s : State) : Out :=
  s.run (·.cacheModeWrite v)
/-- CACHE_MODE_SETTLED (R176). -/
def execCacheModeSettled (s : State) : Out :=
  s.run (·.wb (scBase + 0x100) 1 false)
/-- SPARE_RESERVE (R184). -/
def execSpareReserve (n : TileN) (s : State) : Out :=
  s.run (·.spareReserve n)
/-- SPARE_CLEAR (R184). -/
def execSpareClear (n : TileN) (s : State) : Out :=
  s.run (·.spareClear n)
/-- SPARE_READY (R184). -/
def execSpareReady (n : UnitScan) (s : State) : Out :=
  s.run (·.spareReady n.n n.errs)
/-- SLICE_EVACUATE (R185). -/
def execSliceEvacuate (n : TileN) (s : State) : Out :=
  s.run (·.evacStart n)
/-- EVACUATION_COMPLETE (R185). -/
def execEvacuationComplete (n : UnitScan) (s : State) : Out :=
  s.run (·.evacDone n.n n.errs)
/-- L2_GATE (R225). -/
def execL2Gate (n : TileN) (s : State) : Out :=
  s.run (·.l2Gate n)

end Sys2Proof.Machine
end

