-- ==== Sys2Proof/Machine/Dram.lean ====
section
/-!
DEFINITION. Machine/Dram.lean: the memory controllers (spec/09): reads and writes of their queues (R243 to R248), soft
post-package repair (R253 to R255, R482) and Trowel (R256 to R262).
-/
namespace Sys2Proof.Machine

/-! ### Requests (R243 to R248) -/

/-- Whether a line's rank is out of service for a repair (R255). -/
def Pkg.rankBusy (s : Pkg) (i line : Nat) : Bool :=
  match (s.mc i).rep with
  | none => false
  | some e => rankOfKey (s.rf (mcCe i e) 37 10) == rankOfKey (s.rowKey i line)

/-- Note when the controller's queues became empty. -/
def Pkg.mcIdle (s : Pkg) (i : Nat) : Pkg :=
  s.updMc i (fun m => if m.rq.isEmpty && m.wq.isEmpty then { m with idleSince := s.now } else m)

/-- A read request is scheduled on its channel. -/
def Pkg.dramRead (s : Pkg) (i line : Nat) : Pkg :=
  if s.rankBusy i line then s
  else s.updMc i (fun m => { m with rq := m.rq.map (fun r => if r.line = line then { r with sched := true } else r) })

/-- A queued line write is performed. -/
def Pkg.dramWrite (s : Pkg) (i line : Nat) : Pkg :=
  if s.rankBusy i line then s
  else
    match (s.mc i).wq.find? (·.line == line) with
    | none => s
    | some w =>
      let s := s.updMc i (fun m => { m with wq := m.wq.eraseIdx (m.wq.findIdx (·.line == line)) })
      (s.dramPut line w.data w.poison).mcIdle i

/-- A read of the devices finds the symbols `err` in error: they stay so until the line is written (log entry 8). What it decodes to;
a write still queued is ahead of it. -/
def Pkg.dramDecode (s : Pkg) (i line : Nat) (err : List SymErr) : Pkg × DecOut :=
  match (s.mc i).wq.reverse.find? (·.line == line) with
  | some w => (s, decodeLine w.data w.poison err)
  | none =>
    ({ s with dsym := Map.set sym0 s.dsym line err },
      decodeLine (BitVec.ofNat 512 (s.memRead (64 * line) 64)) (Map.get flag0 s.dpoison line) err)

/-- Read data returns for a home's transaction. -/
def Pkg.dramReturn (s : Pkg) (i line : Nat) (err : List SymErr) : Pkg :=
  match (s.mc i).rq.find? (fun r => r.line == line && r.sched && r.purpose != .trowel) with
  | none => s
  | some r =>
    let (s, o) := s.dramDecode i line err
    let s := s.updMc i (fun m => { m with rq := m.rq.filter (· != r) })
    let s : Pkg := match o.fix with
      | some (k, dev) =>
        let s := s.rowCharge i line k dev
        if s.rb (mcBase i) 0 && !r.newer then s.dramQueue line o.data o.poison else s
      | none => s
    let s : Pkg := if o.cls = 5 then s.mcUe i line false else s
    (s.mcIdle i).homeData line o.data o.poison

/-- The response leaves the controller, later where MEMDELAY puts it off (19 R461). -/
def Pkg.memReturn (s : Pkg) (i : McN) (line : Nat) (err : List SymErr) : Pkg :=
  if !(s.mc i).rq.any (fun r => r.line == line && r.sched && r.purpose != .trowel) || s.shmHas 2 line then s
  else
    let (s, r) := s.shmAsk 2 (·.testBit i.val)
    if shmSum r = 0 then s.dramReturn i line err else s.shmPut 2 line (shmSum r) 0 (some (.dramReadReturn i line err))

/-! ### Repair (R253 to R255, R482) -/

/-- MC_PPR is written (R254). -/
def Pkg.pprWrite (s : Pkg) (i : Nat) (v : Word) : Pkg :=
  let r := mcBase i + 0x28
  let s : Pkg := if v.getLsbD 6 then s.wb r 6 false else s
  if !v.getLsbD 4 then s
  else if s.rb r 5 || !s.rb (mcCe i (bits v 3 0)) 0 then s.wb r 6 true
  else s.pprDue i (bits v 3 0)

/-- The first due repair starts (R255): the queues have been empty for 2 µs, or 1 s has passed. -/
def Pkg.spprStart (s : Pkg) (i : Nat) : Pkg :=
  let m := s.mc i
  match m.rep, m.due with
  | none, (e, t) :: rest =>
    if (m.rq.isEmpty && m.wq.isEmpty && decide (s.now ≥ m.idleSince + 2000000)) || decide (s.now ≥ t + 1000000000000) then
      (s.updMc i (fun m => { m with rep := some e, due := rest })).wb (mcBase i + 0x28) 5 true
    else s
  | _, _ => s

/-- The repair ends; `ues` are the row's lines that decoded as UE. -/
def Pkg.spprDone (s : Pkg) (i : Nat) (ok : Bool) (ues : List (Fin 128)) : Pkg :=
  match (s.mc i).rep with
  | none => s
  | some e =>
    let key := s.rf (mcCe i e) 37 10
    let s : Pkg := ues.foldl (fun s j =>
      let line := s.rowLine i key j.val
      let (d, _) := s.dramLine line
      (s.mcUe i line false).dramPut line d true) s
    let s := s.wb (mcCe i e) (if ok then 2 else 3) true
    let s := (s.updMc i (fun m => { m with rep := none })).wb (mcBase i + 0x28) 5 false
    let info := mcInfo 0 (s.rf (mcCe i e) 9 6) (key % 2) e ok (!ok)
    let s := s.ce (.mc i) 0x11 (some (s.rd (mcCe i e + 8)).toNat) info
    s.odoEvent 0x0A 4 (Win.mc i).stop (drsPa (Win.mc i).err) info

/-! ### Trowel (R256 to R262) -/

def trwBase (i : Nat) : Nat := mcBase i + 0x20000

/-- The first line at or above `line` whose channel is i. -/
def nextLine (i line : Nat) : Nat :=
  match (List.range 128).find? (fun k => mcOf (line + k) == i) with
  | some k => line + k
  | none => line

/-- The words of the summary (R262). -/
def TrwPass.summary (t : TrwPass) (seq : Nat) (tEnd : Word) : List Word :=
  [BitVec.ofNat 64 (seq % 2 ^ 32 + (if t.wb then 2 ^ 32 else 0) + (if t.abort then 2 ^ 33 else 0) + (if t.ue > 8 then 2 ^ 34 else 0)),
   BitVec.ofNat 64 (64 * t.start), BitVec.ofNat 64 (64 * (if t.abort then t.pos else max t.start t.stop)), t.t0, tEnd, BitVec.ofNat 64 t.lines,
   BitVec.ofNat 64 (t.ce + t.rew * 2 ^ 32), BitVec.ofNat 64 (t.ue + t.poison * 2 ^ 32)]
    ++ (List.range 8).map (fun k => BitVec.ofNat 64 (64 * t.ueAddr.getD k 0))

/-- The end of a pass (R262). -/
def Pkg.trwFinish (s : Pkg) (i : Nat) (t : TrwPass) : Pkg :=
  let b := trwBase i
  let seq := (s.mc i).trwSeq + 1
  let ws := t.summary seq s.rdtime
  let s := s.updMc i (fun m => { m with trw := none, trwSeq := seq })
  let s : Pkg := (List.range 16).foldl (fun s k => s.wr (b + 0x100 + 8 * k) (ws.getD k 0#64)) s
  let a := bits t.sumaddr 51 7 * 128
  let s : Pkg :=
    if t.sumaddr.getLsbD 0 then
      if a + 128 ≤ s.memLimit then
        s.writeBytes a (ws.flatMap (fun w => (List.range 8).map (fun k => BitVec.ofNat 8 (w.toNat / 2 ^ (8 * k)))))
      else s.wb (b + 0x20) 4 true
    else s
  let s := (s.wb (b + 0x20) 1 true).wb (b + 0x20) 0 false
  let s : Pkg := if t.abort then s.wb (b + 0x20) 2 true else s
  if t.irqDone then s.irqOf (b + 0x30) else s

/-- A start, by TRW_CMD or by the schedule (R256, R257). -/
def Pkg.trwStart (s : Pkg) (i : Nat) (sched : Bool) : Pkg :=
  let b := trwBase i
  if (s.mc i).trw.isSome then (if sched then s.sat (b + 0x20) 15 8 else s.wb (b + 0x20) 3 true)
  else
    let cfg := s.rd (b + 8)
    let st := s.rf (b + 0x10) 51 6
    let en := min (s.rf (b + 0x18) 51 6) (s.memLimit / 64)
    let t : TrwPass := { wb := cfg.getLsbD 0, irqUe := cfg.getLsbD 1, irqDone := cfg.getLsbD 2, rate := bits cfg 31 16, start := st, stop := en, sumaddr := s.rd (b + 0x38), pos := nextLine i st, t0 := s.rdtime, ms := s.cadNs / 1000000 }
    if st ≥ en then s.trwFinish i t
    else ((s.updMc i (fun m => { m with trw := some t })).wb (b + 0x20) 0 true).wf (b + 0x28) 51 6 t.pos

/-- TRW_CMD (R256). -/
def Pkg.trwCmd (s : Pkg) (i op : Nat) : Pkg :=
  match op with
  | 0 => s
  | 1 => s.trwStart i false
  | 2 => s.updMc i (fun m => { m with trw := m.trw.map (fun t => { t with abort := true }) })
  | _ => s.wb (trwBase i + 0x20) 3 true

/-- Whether Trowel has a read outstanding. -/
def Mc.trowelOut (m : Mc) : Bool := m.rq.any (·.purpose == .trowel)

/-- Trowel issues its next read (R258, R261). -/
def Pkg.trwRead (s : Pkg) (i : Nat) : Pkg :=
  match (s.mc i).trw with
  | none => s
  | some t =>
    let ms := s.cadNs / 1000000
    let n := if ms = t.ms then t.inMs else 0
    if t.abort || decide (t.pos ≥ t.stop) || (s.mc i).trowelOut || decide ((s.mc i).rq.length ≥ 4) || s.rankBusy i t.pos
        || (decide (t.rate ≠ 0) && decide ((n + 1) * 64000 > t.rate * 1048576)) then s
    else s.updMc i (fun m => { m with
      rq := m.rq ++ [⟨t.pos, .trowel, true, false⟩], trw := some { t with ms := ms, inMs := n + 1 } })

/-- A Trowel read returns (R259, R260). -/
def Pkg.trwResult (s : Pkg) (i : Nat) (err : List SymErr) : Pkg :=
  match (s.mc i).trw, (s.mc i).rq.find? (·.purpose == .trowel) with
  | some t, some r =>
    let (s, o) := s.dramDecode i r.line err
    let s := s.updMc i (fun m => { m with rq := m.rq.filter (· != r) })
    let wb := t.wb && !r.newer
    let t := { t with lines := t.lines + 1, pos := nextLine i (r.line + 1) }
    let (s, t) : Pkg × TrwPass := match o.fix with
      | some (k, dev) =>
        let s := s.rowCharge i r.line k dev
        if o.cls = 4 then (s, t)
        else (if wb then s.dramQueue r.line o.data o.poison else s,
          { t with ce := min (t.ce + 1) (2 ^ 32 - 1), rew := if wb then min (t.rew + 1) (2 ^ 32 - 1) else t.rew })
      | none => (s, t)
    let (s, t) : Pkg × TrwPass :=
      if o.cls = 5 then
        let s := s.mcUe i r.line true
        let s : Pkg := if wb then s.dramQueue r.line o.data true else s
        let s : Pkg := if t.irqUe then s.irqOf (trwBase i + 0x30) else s
        (s, { t with ue := t.ue + 1, ueAddr := if t.ueAddr.length < 8 then t.ueAddr ++ [r.line] else t.ueAddr })
      else if o.cls = 4 then (s, { t with poison := t.poison + 1 })
      else (s, t)
    let s := s.updMc i (fun m => { m with trw := some t })
    (s.wf (trwBase i + 0x28) 51 6 t.pos).mcIdle i
  | _, _ => s

/-- The pass ends: its range is done, or it was aborted and its last read has returned. -/
def Pkg.trwEnd (s : Pkg) (i : Nat) : Pkg :=
  match (s.mc i).trw with
  | none => s
  | some t => if (t.abort || decide (t.pos ≥ t.stop)) && !(s.mc i).trowelOut then s.trwFinish i t else s

/-! ### Commands -/

/-- DRAM_READ (R243). -/
def execDramRead (i : McN) (line : Nat) (s : State) : Out :=
  s.run (·.dramRead i line)
/-- DRAM_READ_RETURN (R245). -/
def execDramReadReturn (i : McN) (line : Nat) (err : List SymErr) (s : State) : Out :=
  s.run (·.memReturn i line err)
/-- DRAM_WRITE (R246). -/
def execDramWrite (i : McN) (line : Nat) (s : State) : Out :=
  s.run (·.dramWrite i line)
/-- PPR_GO (R254). -/
def execPprGo (i : McN) (v : Word) (s : State) : Out :=
  s.run (·.pprWrite i v)
/-- SPPR_START (R255). -/
def execSpprStart (i : McN) (dt : Nat) (s : State) : Out :=
  s.runAt dt (·.spprStart i)
/-- SPPR_COMPLETE (R255). -/
def execSpprComplete (i : McN) (ok : Bool) (ues : List (Fin 128)) (s : State) : Out :=
  s.runSc 0 (·.spprDone i ok ues)
/-- TRW_START (R256). -/
def execTrwStart (i : McN) (s : State) : Out :=
  s.run (·.trwCmd i 1)
/-- TRW_ABORT (R256). -/
def execTrwAbort (i : McN) (s : State) : Out :=
  s.run (·.trwCmd i 2)
/-- TROWEL_READ (R258). -/
def execTrowelRead (i : McN) (dt : Nat) (s : State) : Out :=
  s.runAt dt (·.trwRead i)
/-- TROWEL_LINE_RESULT (R259). -/
def execTrowelLineResult (i : McN) (err : List SymErr) (s : State) : Out :=
  s.run (·.trwResult i err)
/-- TROWEL_PASS_END (R262). -/
def execTrowelPassEnd (i : McN) (s : State) : Out :=
  s.run (·.trwEnd i)

end Sys2Proof.Machine
end

