-- ==== Sys2Proof/Machine/Operands.lean ====
section
/-!
DEFINITION. Machine/Operands.lean: the Skevy instructions with their operand forms, their encoding (03 R71 to R74) and the
checks that depend on the encoding alone (R73). The fields keep the numbers of the encoding tables of R75 to R99.
-/
namespace Sys2Proof.Machine

/-- A register number. -/
abbrev Reg := BitVec 5

/-- An instruction, by format group (R74): `fn`, `sys`, `rm` and `p` are the fields of that name. -/
inductive Ins where
  | op (fn : BitVec 5) (rd ra rb rc : Reg)
  | opi (fn : BitVec 3) (rd ra : Reg) (imm : BitVec 12)
  | ldih (rd : Reg) (imm : BitVec 20)
  | addpch (rd : Reg) (imm : BitVec 20)
  | bal (rd : Reg) (imm : BitVec 20)
  | balr (rd ra : Reg) (imm : BitVec 12)
  | branch (fn : BitVec 3) (ra rb : Reg) (off : BitVec 12)
  | load (fn : BitVec 3) (rd ra : Reg) (imm : BitVec 12)
  | loadf (fn : BitVec 3) (rd ra : Reg) (imm : BitVec 12)
  | loadv (rd ra : Reg) (imm : BitVec 12)
  | store (fn : BitVec 3) (ra rb : Reg) (imm : BitVec 12)
  | storef (fn : BitVec 3) (ra rb : Reg) (imm : BitVec 12)
  | storev (ra rb : Reg) (imm : BitVec 12)
  | amo (fn : BitVec 5) (w32 : Bool) (rd ra rb : Reg)
  | fp (fn : BitVec 5) (rm : BitVec 3) (p : Bool) (rd ra rb : Reg)
  | fma (fn : BitVec 2) (p : Bool) (rd ra rb rc : Reg)
  | dec (fn : BitVec 5) (rm : BitVec 3) (p : Bool) (rd ra rb : Reg)
  | vec (fn : BitVec 5) (rd ra rb rc : Reg)
  | mfsr (rd : Reg) (n : BitVec 12)
  | mtsr (ra : Reg) (n : BitVec 12)
  | sys (sub : BitVec 12) (rd ra : Reg)
  | trap (n : BitVec 7)
  | cma (cs : BitVec 5) (ra : Reg)
  | csw (what : BitVec 2) (ra : Reg)
  | tlbi (ty : BitVec 3) (ra : Reg)
  | block (fn : BitVec 5) (rd ra rb rc : Reg)
deriving DecidableEq, Repr

/-! ### Formats (R71) -/

def encR (op : BitVec 7) (rd ra rb rc fn : BitVec 5) : Word32 := fn ++ rc ++ rb ++ ra ++ rd ++ op
def encI (op : BitVec 7) (rd ra : Reg) (fn : BitVec 3) (imm : BitVec 12) : Word32 := imm ++ fn ++ ra ++ rd ++ op
def encS (op : BitVec 7) (ra rb : Reg) (fn : BitVec 3) (imm : BitVec 12) : Word32 :=
  imm.extractLsb' 5 7 ++ fn ++ rb ++ ra ++ imm.extractLsb' 0 5 ++ op
def encB (op : BitVec 7) (fn : BitVec 3) (ra rb : Reg) (off : BitVec 12) : Word32 := off ++ rb ++ ra ++ fn ++ op
def encL (op : BitVec 7) (rd : Reg) (imm : BitVec 20) : Word32 := imm ++ rd ++ op
def encY (rd ra : Reg) (fn : BitVec 3) (sys : BitVec 12) : Word32 := encI 0x31#7 rd ra fn sys

/-- A Bool as one bit. -/
def bit1 (b : Bool) : BitVec 1 := BitVec.ofBool b

/-- The word of an instruction (R71, R74 to R99); unused fields are 0. -/
def Ins.encode : Ins → Word32
  | .op fn rd ra rb rc => encR 0x11#7 rd ra rb rc fn
  | .opi fn rd ra imm => encI 0x09#7 rd ra fn imm
  | .ldih rd imm => encL 0x0A#7 rd imm
  | .addpch rd imm => encL 0x0B#7 rd imm
  | .bal rd imm => encL 0x23#7 rd imm
  | .balr rd ra imm => encI 0x22#7 rd ra 0#3 imm
  | .branch fn ra rb off => encB 0x21#7 fn ra rb off
  | .load fn rd ra imm => encI 0x01#7 rd ra fn imm
  | .loadf fn rd ra imm => encI 0x02#7 rd ra fn imm
  | .loadv rd ra imm => encI 0x03#7 rd ra 0#3 imm
  | .store fn ra rb imm => encS 0x05#7 ra rb fn imm
  | .storef fn ra rb imm => encS 0x06#7 ra rb fn imm
  | .storev ra rb imm => encS 0x07#7 ra rb 0#3 imm
  | .amo fn w32 rd ra rb => encR 0x12#7 rd ra rb (0#4 ++ bit1 w32) fn
  | .fp fn rm p rd ra rb => encR 0x15#7 rd ra rb (0#1 ++ rm ++ bit1 p) fn
  | .fma fn p rd ra rb rc => encR 0x16#7 rd ra rb rc (0#2 ++ bit1 p ++ fn)
  | .dec fn rm p rd ra rb => encR 0x19#7 rd ra rb (0#1 ++ rm ++ bit1 p) fn
  | .vec fn rd ra rb rc => encR 0x1A#7 rd ra rb rc fn
  | .mfsr rd n => encY rd 0#5 0#3 n
  | .mtsr ra n => encY 0#5 ra 1#3 n
  | .sys sub rd ra => encY rd ra 2#3 sub
  | .trap n => encY 0#5 0#5 3#3 (0#5 ++ n)
  | .cma cs ra => encY 0#5 ra 4#3 (0#7 ++ cs)
  | .csw what ra => encY 0#5 ra 5#3 (0#10 ++ what)
  | .tlbi ty ra => encY 0#5 ra 6#3 (0#9 ++ ty)
  | .block fn rd ra rb rc => encR 0x32#7 rd ra rb rc fn

/-- The fields of a word by its major opcode, before the checks of R73. -/
def rawDecode (w : Word32) : Option Ins :=
  let rd : Reg := w.extractLsb' 7 5
  let ra : Reg := w.extractLsb' 12 5
  let rb : Reg := w.extractLsb' 17 5
  let rc : Reg := w.extractLsb' 22 5
  let fn : BitVec 5 := w.extractLsb' 27 5
  let fi : BitVec 3 := w.extractLsb' 17 3
  let imm : BitVec 12 := w.extractLsb' 20 12
  let fs : BitVec 3 := w.extractLsb' 22 3
  let imms : BitVec 12 := w.extractLsb' 25 7 ++ w.extractLsb' 7 5
  let imm20 : BitVec 20 := w.extractLsb' 12 20
  let p := w.getLsbD 22
  let rm : BitVec 3 := w.extractLsb' 23 3
  match (w.extractLsb' 0 7).toNat with
  | 0x01 => some (.load fi rd ra imm)
  | 0x02 => some (.loadf fi rd ra imm)
  | 0x03 => some (.loadv rd ra imm)
  | 0x05 => some (.store fs ra rb imms)
  | 0x06 => some (.storef fs ra rb imms)
  | 0x07 => some (.storev ra rb imms)
  | 0x09 => some (.opi fi rd ra imm)
  | 0x0A => some (.ldih rd imm20)
  | 0x0B => some (.addpch rd imm20)
  | 0x11 => some (.op fn rd ra rb rc)
  | 0x12 => some (.amo fn p rd ra rb)
  | 0x15 => some (.fp fn rm p rd ra rb)
  | 0x16 => some (.fma (w.extractLsb' 27 2) (w.getLsbD 29) rd ra rb rc)
  | 0x19 => some (.dec fn rm p rd ra rb)
  | 0x1A => some (.vec fn rd ra rb rc)
  | 0x21 => some (.branch (w.extractLsb' 7 3) (w.extractLsb' 10 5) (w.extractLsb' 15 5) imm)
  | 0x22 => some (.balr rd ra imm)
  | 0x23 => some (.bal rd imm20)
  | 0x31 =>
    match fi.toNat with
    | 0 => some (.mfsr rd imm)
    | 1 => some (.mtsr ra imm)
    | 2 => some (.sys imm rd ra)
    | 3 => some (.trap (w.extractLsb' 20 7))
    | 4 => some (.cma (w.extractLsb' 20 5) ra)
    | 5 => some (.csw (w.extractLsb' 20 2) ra)
    | 6 => some (.tlbi (w.extractLsb' 20 3) ra)
    | _ => none
  | 0x32 => some (.block fn rd ra rb rc)
  | _ => none

/-- An even register. -/
def Reg.even (r : Reg) : Bool := !r.getLsbD 0

/-- The FP instructions that round by RM, and those of DEC (R78, R83). -/
def fpRounds (fn : Nat) : Bool := decide (fn ≤ 4) || (decide (10 ≤ fn) && decide (fn ≤ 14))
def decRounds (fn : Nat) : Bool := decide (fn ≤ 5) || (decide (12 ≤ fn) && decide (fn ≤ 14))

/-- The encoding checks of R73 for an instruction whose unused fields are 0 but for those named here. -/
def Ins.legal : Ins → Bool
  | .op fn _ _ rb rc =>
    decide (fn.toNat ≤ 24) && (if fn.toNat = 24 then decide (rc.toNat < 4) else rc == 0#5)
      && (if 21 ≤ fn.toNat ∧ fn.toNat ≤ 23 then rb == 0#5 else true)
  | .opi fn _ _ imm =>
    if fn.toNat = 7 then false
    else if fn.toNat = 6 then decide (imm.toNat / 64 < 3) else true
  | .ldih _ _ | .addpch _ _ | .bal _ _ | .balr _ _ _ => true
  | .branch fn _ _ _ => decide (fn.toNat ≤ 5)
  | .load fn _ _ _ => decide (fn.toNat ≤ 6)
  | .loadf fn _ _ _ => fn == 2#3 || fn == 3#3
  | .loadv _ _ _ => true
  | .store fn _ _ _ => decide (fn.toNat ≤ 3)
  | .storef fn _ _ _ => fn == 2#3 || fn == 3#3
  | .storev _ _ _ => true
  | .amo fn w32 rd _ rb =>
    decide (fn.toNat ≤ 10) && (if fn.toNat ≤ 1 ∨ fn.toNat = 10 then !w32 else true)
      && (if fn.toNat = 1 then rd.even && rb.even else true)
  | .fp fn rm p _ _ rb =>
    decide (fn.toNat ≤ 20) && decide (rm.toNat ≤ 5) && (fpRounds fn.toNat || rm == 0#3)
      && (if fn.toNat = 15 ∨ fn.toNat = 16 then !p else true)
      && (if fn.toNat = 4 ∨ (10 ≤ fn.toNat ∧ fn.toNat ≤ 17) then rb == 0#5 else true)
  | .fma _ _ _ _ _ _ => true
  | .dec fn rm p rd ra rb =>
    decide (fn.toNat ≤ 17) && decide (rm.toNat ≤ 5) && (decRounds fn.toNat || rm == 0#3)
      && (if fn.toNat ≥ 16 then !p else true)
      && (if [5, 7, 12, 13, 14, 15, 16, 17].contains fn.toNat then rb == 0#5 else true)
      && (if p then
            match fn.toNat with
            | 0 | 1 | 2 | 3 | 4 => rd.even && ra.even && rb.even
            | 5 => rd.even && ra.even
            | 6 | 9 | 10 | 11 => ra.even && rb.even
            | 7 | 13 | 15 => ra.even
            | 8 => rd.even && rb.even
            | 12 | 14 => rd.even
            | _ => true
          else if fn.toNat = 14 then ra.even else true)
  | .vec fn rd ra rb rc =>
    match fn.toNat with
    | 0 | 1 | 2 => decide (rc.toNat < 4)
    | 3 | 4 | 5 => rc == 0#5
    | 6 | 7 => decide (rc.toNat < 2)
    | 8 | 9 => true
    | 10 | 11 => decide (rc.toNat < 2)
    | 12 => rb == 0#5 && decide (rc.toNat % 16 ≤ 10)
    | 13 => rb == 0#5 && decide (rc.toNat < 2)
    | 16 | 17 => rc == 0#5
    | 18 => rc == 0#5 && rd.even && ra.even
    | 19 => rc == 0#5 && ra.even && rb.even
    | 20 => decide (rc.toNat < 4)
    | 21 => rc == 0#5
    | 22 | 23 | 24 => rb == 0#5 && (if fn.toNat = 24 then rc == 0#5 else decide (rc.toNat < 4))
    | 25 => decide (rc.toNat ≤ 8)
    | _ => false
  | .mfsr _ _ | .mtsr _ _ => true
  | .sys sub rd ra =>
    match sub.toNat with
    | 0 | 1 | 2 | 3 | 4 | 5 | 8 | 0x10 | 0x11 | 0x12 => rd == 0#5 && ra == 0#5
    | 9 => rd == 0#5
    | 0xA => true
    | 0xB | 0xC => ra == 0#5
    | _ => false
  | .trap _ => true
  | .cma cs _ => decide (cs.toNat % 4 < 3) && decide (cs.toNat / 4 % 4 < 3)
  | .csw what _ => decide (what.toNat < 3)
  | .tlbi ty _ => decide (ty.toNat ≤ 5)
  | .block fn rd ra rb rc =>
    let z := 0#5
    match fn.toNat with
    | 0 | 1 => rd == z && ra != z && rb != z && rc != z && ra != rb && ra != rc && rb != rc
    | 2 => rd != z && ra != z && rb != z && rc != z && ra != rb && ra != rc && rb != rc && rd != ra && rd != rb && rd != rc
    | 3 => rb == z && rd != z && ra != z && rc != z && ra != rc && rd != ra && rd != rc
    | _ => false

/-- The instruction of a word; none is ILLEGAL (R73). A word with a non-zero unused field differs from the encoding of its
fields. -/
def insDecode (w : Word32) : Option Ins :=
  match rawDecode w with
  | some i => if i.legal && i.encode == w then some i else none
  | none => none

/-- The command that executes an instruction: one row of the table per group. -/
inductive Grp where
  | intOp | branch | bal | balr | load | store | fp | fma | dec | vec | cas | cas128 | amo | damoadd | mfsr | mtsr | scall
  | hcall | mcall | sret | eret | brk | trap | park | monitor | waitt | rdtime | htid | fence | fenceIo | fenceG | cva
  | iva | civa | csw | isw | cisw | tlbi | movb | fillb | cmpb | crcb
deriving DecidableEq, Repr

/-- The group of an instruction; an ILLEGAL encoding is executed by INTEGER_OP (log entry 4). -/
def Ins.grp : Ins → Grp
  | .op _ _ _ _ _ | .opi _ _ _ _ | .ldih _ _ | .addpch _ _ => .intOp
  | .bal _ _ => .bal
  | .balr _ _ _ => .balr
  | .branch _ _ _ _ => .branch
  | .load _ _ _ _ | .loadf _ _ _ _ | .loadv _ _ _ => .load
  | .store _ _ _ _ | .storef _ _ _ _ | .storev _ _ _ => .store
  | .amo fn _ _ _ _ => if fn = 0#5 then .cas else if fn = 1#5 then .cas128 else if fn = 10#5 then .damoadd else .amo
  | .fp _ _ _ _ _ _ => .fp
  | .fma _ _ _ _ _ _ => .fma
  | .dec _ _ _ _ _ _ => .dec
  | .vec _ _ _ _ _ => .vec
  | .mfsr _ _ => .mfsr
  | .mtsr _ _ => .mtsr
  | .sys sub _ _ =>
    match sub.toNat with
    | 0 => .scall | 1 => .hcall | 2 => .mcall | 3 => .sret | 4 => .eret | 5 => .brk | 8 => .park | 9 => .monitor
    | 0xA => .waitt | 0xB => .rdtime | 0xC => .htid | 0x10 => .fence | 0x11 => .fenceIo | 0x12 => .fenceG | _ => .intOp
  | .trap _ => .trap
  | .cma cs _ => if cs.toNat % 4 = 0 then .cva else if cs.toNat % 4 = 1 then .iva else .civa
  | .csw what _ => if what = 0#2 then .csw else if what = 1#2 then .isw else .cisw
  | .tlbi _ _ => .tlbi
  | .block fn _ _ _ _ => if fn = 0#5 then .movb else if fn = 1#5 then .fillb else if fn = 2#5 then .cmpb else .crcb

/-- A word's group. -/
def wordGrp (w : Word32) : Grp :=
  match insDecode w with
  | some i => i.grp
  | none => .intOp

/-! ### Integer operations (R75, R40) -/

/-- CRC-32C (reflected, 0x82F63B78) over the low `n` bytes of `x`, byte 0 first, with no inversion (R75). -/
def crcStep (c : BitVec 32) : BitVec 32 := if c.getLsbD 0 then (c >>> 1) ^^^ 0x82F63B78#32 else c >>> 1
def crcByte (c : BitVec 32) (b : BitVec 8) : BitVec 32 :=
  (List.range 8).foldl (fun c _ => crcStep c) (c ^^^ b.setWidth 32)
def crcBytes (c : BitVec 32) (n : Nat) (x : Nat) : BitVec 32 :=
  (List.range n).foldl (fun c i => crcByte c (BitVec.ofNat 8 (x / 2 ^ (8 * i)))) c

/-- Leading zeros of 64 bits. -/
def clz64 (x : Word) : Nat := if x = 0#64 then 64 else 63 - Nat.log2 x.toNat
def ctz64 (x : Word) : Nat := ((List.range 64).find? (fun i => x.getLsbD i)).getD 64
def popc (x : Word) : Nat := ((List.range 64).filter (fun i => x.getLsbD i)).length

/-- An integer register instruction (R75): `s` is rc[1:0] of CRC32C. Overflow of the signed quotient wraps (R40). -/
def intOp (fn : Nat) (a b : Word) (s : Nat) : Word :=
  let sh := b.toNat % 64
  let flag (c : Bool) : Word := if c then 1#64 else 0#64
  match fn with
  | 0 => a + b
  | 1 => a - b
  | 2 => a &&& b
  | 3 => a ||| b
  | 4 => a ^^^ b
  | 5 => a <<< sh
  | 6 => a >>> sh
  | 7 => a.sshiftRight sh
  | 8 => flag (a.slt b)
  | 9 => flag (a.ult b)
  | 10 => a * b
  | 11 => BitVec.ofInt 64 (a.toInt * b.toInt / 2 ^ 64)
  | 12 => BitVec.ofNat 64 (a.toNat * b.toNat / 2 ^ 64)
  | 13 => if b = 0#64 then BitVec.allOnes 64 else BitVec.ofInt 64 (a.toInt.tdiv b.toInt)
  | 14 => if b = 0#64 then BitVec.allOnes 64 else a / b
  | 15 => if b = 0#64 then a else BitVec.ofInt 64 (a.toInt.tmod b.toInt)
  | 16 => if b = 0#64 then a else a % b
  | 17 => if a.slt b then a else b
  | 18 => if a.slt b then b else a
  | 19 => if a.ult b then a else b
  | 20 => if a.ult b then b else a
  | 21 => BitVec.ofNat 64 (clz64 a)
  | 22 => BitVec.ofNat 64 (ctz64 a)
  | 23 => BitVec.ofNat 64 (popc a)
  | _ => (crcBytes (a.setWidth 32) (2 ^ s) b.toNat).setWidth 64

/-- An integer immediate instruction (R75): the immediate is sign-extended. -/
def intOpi (fn : Nat) (a : Word) (imm : BitVec 12) : Word :=
  let x := imm.signExtend 64
  match fn with
  | 0 => a + x
  | 1 => if a.slt x then 1#64 else 0#64
  | 2 => if a.ult x then 1#64 else 0#64
  | 3 => a &&& x
  | 4 => a ||| x
  | 5 => a ^^^ x
  | _ =>
    let n := imm.toNat % 64
    match imm.toNat / 64 % 4 with
    | 0 => a <<< n
    | 1 => a >>> n
    | _ => a.sshiftRight n

/-- Whether a branch is taken (R75). -/
def branchTaken (fn : Nat) (a b : Word) : Bool :=
  match fn with
  | 0 => a == b
  | 1 => a != b
  | 2 => a.slt b
  | 3 => !a.slt b
  | 4 => a.ult b
  | _ => !a.ult b

/-! ### Atomic operations (R88) -/

/-- The new value of an integer AMO on n bytes (fn 2 to 9). -/
def amoOp (fn n : Nat) (old x : Nat) : Nat :=
  let m := 2 ^ (8 * n)
  let so := (BitVec.ofNat (8 * n) old).toInt
  let sx := (BitVec.ofNat (8 * n) x).toInt
  let x := x % m
  match fn with
  | 2 => (old + x) % m
  | 3 => x
  | 4 => old &&& x
  | 5 => old ||| x
  | 6 => if so ≤ sx then old else x
  | 7 => if so ≤ sx then x else old
  | 8 => min old x
  | _ => max old x

end Sys2Proof.Machine
end

