-- ==== Sys2Proof/Machine/Flags.lean ====
section
/-!
DEFINITION. Machine/Flags.lean: binary and decimal floating point with their flags (03 R78 to R85). Results are computed
exactly on integers and rounded once. A flag set is a number: 1 NV, 2 DZ, 4 OF, 8 UF, 16 NX (the order of FPCR).
-/
namespace Sys2Proof.Machine

/-! ### Rounding -/

/-- Whether to round away from zero: mode as FPCR.BRM (R79), sign, whether the kept part is odd, and the discarded part:
twice it compared with one unit (`lt`, `eq`, `gt`), and whether it is non-zero. -/
def roundAway (rm : Nat) (neg odd : Bool) (half : Ordering) (inexact : Bool) : Bool :=
  match rm with
  | 0 => half == .gt || (half == .eq && odd)
  | 1 => false
  | 2 => inexact && !neg
  | 3 => inexact && neg
  | _ => half != .lt

/-- Compare the discarded part `r` of `u` plus a sticky remainder with one half. -/
def halfCmp (r u : Nat) (sticky : Bool) : Ordering :=
  if 2 * r < u then .lt else if 2 * r = u then (if sticky then .gt else .eq) else .gt

/-- The square root of n, rounded down. -/
def isqrt (n : Nat) : Nat :=
  ((List.range (n.log2 / 2 + 1)).reverse).foldl (fun r i => if (r + 2 ^ i) * (r + 2 ^ i) ≤ n then r + 2 ^ i else r) 0

/-! ### Binary formats -/

/-- Significand bits, fraction bits and exponent limits of binary64 (p = false) and binary32. -/
def bp (p : Bool) : Nat := if p then 24 else 53
def bmax (p : Bool) : Int := if p then 127 else 1023
def bmin (p : Bool) : Int := 1 - bmax p
def bexp (p : Bool) : Nat := if p then 8 else 11
/-- The width of the format. -/
def bw (p : Bool) : Nat := if p then 32 else 64

/-- An unpacked binary operand. A finite value is (−1)^neg · m · 2^e. -/
inductive Bin where
  | nan (neg sig : Bool) (payload : Nat)
  | inf (neg : Bool)
  | fin (neg : Bool) (m : Nat) (e : Int)
deriving DecidableEq, Repr

/-- Unpack the low bits of a register. -/
def unpackB (p : Bool) (x : Word) : Bin :=
  let n := x.toNat % 2 ^ bw p
  let f := bp p - 1
  let frac := n % 2 ^ f
  let ex := n / 2 ^ f % 2 ^ bexp p
  let neg := n / 2 ^ (bw p - 1) = 1
  if ex = 2 ^ bexp p - 1 then
    if frac = 0 then .inf neg else .nan neg (frac < 2 ^ (f - 1)) (frac % 2 ^ (f - 1))
  else if ex = 0 then .fin neg frac (bmin p - f)
  else .fin neg (frac + 2 ^ f) (bmin p - f + (ex - 1 : Nat))

def signBit (p neg : Bool) : Nat := if neg then 2 ^ (bw p - 1) else 0
/-- A quiet NaN with sign and payload. -/
def qnan (p neg : Bool) (payload : Nat) : Word :=
  BitVec.ofNat 64 (signBit p neg + (2 ^ bexp p - 1) * 2 ^ (bp p - 1) + 2 ^ (bp p - 2) + payload % 2 ^ (bp p - 2))
/-- The default quiet NaN (R81). -/
def defNan (p : Bool) : Word := qnan p false 0
def infW (p neg : Bool) : Word := BitVec.ofNat 64 (signBit p neg + (2 ^ bexp p - 1) * 2 ^ (bp p - 1))
def zeroW (p neg : Bool) : Word := BitVec.ofNat 64 (signBit p neg)
/-- The largest finite magnitude. -/
def maxW (p neg : Bool) : Word := BitVec.ofNat 64 (signBit p neg + (2 ^ bexp p - 1) * 2 ^ (bp p - 1) - 1)

/-- Round (−1)^neg · (m + sticky) · 2^e to a format: the result and its flags (R80: tininess after rounding; with the UF
trap enabled a tiny exact result raises UF too). -/
def roundB (p : Bool) (rm : Nat) (trapUf neg : Bool) (m : Nat) (e : Int) (sticky : Bool) : Word × Nat :=
  if m = 0 ∧ ¬ sticky then (zeroW p neg, 0)
  else
    let pr : Int := (bp p : Nat)
    let top : Int := e + (m.log2 : Nat)
    let cut (q : Int) : Nat × Bool :=      -- the significand at quantum 2^q, and whether bits were lost
      if q ≤ e then (m * 2 ^ (e - q).toNat, sticky)
      else
        let u := 2 ^ (q - e).toNat
        let r := m % u
        let inx := r != 0 || sticky
        let k := m / u
        (if roundAway rm neg (k % 2 == 1) (halfCmp r u sticky) inx then k + 1 else k, inx)
    let qn := top - (pr - 1)
    let (mu, _) := cut qn
    let tiny := decide ((if mu = 2 ^ bp p then top + 1 else top) < bmin p)
    let q := max qn (bmin p - (pr - 1))
    let (k, inx) := cut q
    let (k, q) := if k = 2 ^ bp p then (2 ^ (bp p - 1), q + 1) else (k, q)
    let nx := if inx then 16 else 0
    if q + (pr - 1) > bmax p ∧ k ≥ 2 ^ (bp p - 1) then
      let toInf := rm == 0 || rm == 4 || (rm == 2 && !neg) || (rm == 3 && neg)
      (if toInf then infW p neg else maxW p neg, 4 + 16)
    else
      let uf := if tiny && (inx || trapUf) then 8 else 0
      let ex : Nat := if k < 2 ^ (bp p - 1) then 0 else (q + (pr - 1) - bmin p).toNat + 1
      (BitVec.ofNat 64 (signBit p neg + ex * 2 ^ (bp p - 1) + (if ex = 0 then k else k - 2 ^ (bp p - 1))), nx + uf)

def Bin.isNan : Bin → Bool | .nan _ _ _ => true | _ => false
def Bin.isSig : Bin → Bool | .nan _ s _ => s | _ => false
def Bin.neg : Bin → Bool | .nan n _ _ => n | .inf n => n | .fin n _ _ => n
def Bin.isZero : Bin → Bool | .fin _ 0 _ => true | _ => false
def Bin.flip : Bin → Bin | .nan n s k => .nan n s k | .inf n => .inf (!n) | .fin n m e => .fin (!n) m e

/-- NV if an operand is a signalling NaN (R81). -/
def nvOf (l : List Bin) : Nat := if l.any (·.isSig) then 1 else 0
/-- The NaN result of operands, if any is a NaN: the first, quiet. -/
def nanOf (p : Bool) (l : List Bin) : Option (Word × Nat) :=
  match l.find? (·.isNan) with
  | some (.nan n _ k) => some (qnan p n k, nvOf l)
  | _ => none

/-- The sum of two finite values as sign, magnitude and exponent; an exact zero of unlike signs is negative only when
rounding toward −∞. -/
def sumB (rm : Nat) (n1 : Bool) (m1 : Nat) (e1 : Int) (n2 : Bool) (m2 : Nat) (e2 : Int) : Bool × Nat × Int :=
  let e := min e1 e2
  let a : Int := (if n1 then -1 else 1) * ((m1 * 2 ^ (e1 - e).toNat : Nat) : Int)
  let b : Int := (if n2 then -1 else 1) * ((m2 * 2 ^ (e2 - e).toNat : Nat) : Int)
  let s := a + b
  if s = 0 then (if n1 == n2 then n1 else rm == 3, 0, e) else (decide (s < 0), s.natAbs, e)

def addB (p : Bool) (rm : Nat) (tu : Bool) (a b : Bin) : Word × Nat :=
  match nanOf p [a, b] with
  | some r => r
  | none =>
    match a, b with
    | .inf x, .inf y => if x == y then (infW p x, 0) else (defNan p, 1)
    | .inf x, _ => (infW p x, 0)
    | _, .inf y => (infW p y, 0)
    | .fin n1 m1 e1, .fin n2 m2 e2 =>
      let (n, m, e) := sumB rm n1 m1 e1 n2 m2 e2
      roundB p rm tu n m e false
    | _, _ => (defNan p, 0)

def mulB (p : Bool) (rm : Nat) (tu : Bool) (a b : Bin) : Word × Nat :=
  match nanOf p [a, b] with
  | some r => r
  | none =>
    let n := a.neg != b.neg
    match a, b with
    | .fin _ m1 e1, .fin _ m2 e2 => roundB p rm tu n (m1 * m2) (e1 + e2) false
    | _, _ => if a.isZero || b.isZero then (defNan p, 1) else (infW p n, 0)

def divB (p : Bool) (rm : Nat) (tu : Bool) (a b : Bin) : Word × Nat :=
  match nanOf p [a, b] with
  | some r => r
  | none =>
    let n := a.neg != b.neg
    match a, b with
    | .inf _, .inf _ => (defNan p, 1)
    | .inf _, _ => (infW p n, 0)
    | _, .inf _ => (zeroW p n, 0)
    | .fin _ m1 e1, .fin _ m2 e2 =>
      if m2 = 0 then (if m1 = 0 then (defNan p, 1) else (infW p n, 2))
      else if m1 = 0 then (zeroW p n, 0)
      else
        let k := 120 + m2.log2
        roundB p rm tu n (m1 * 2 ^ k / m2) (e1 - e2 - k) (m1 * 2 ^ k % m2 != 0)
    | _, _ => (defNan p, 0)

def sqrtB (p : Bool) (rm : Nat) (tu : Bool) (a : Bin) : Word × Nat :=
  match nanOf p [a] with
  | some r => r
  | none =>
    match a with
    | .inf false => (infW p false, 0)
    | .fin n m e =>
      if m = 0 then (zeroW p n, 0)
      else if n then (defNan p, 1)
      else
        let k : Nat := if e.emod 2 = 0 then 120 else 121
        let x := m * 2 ^ k
        let r := isqrt x
        roundB p rm tu false r ((e - k) / 2) (r * r != x)
    | _ => (defNan p, 1)

/-- ±(a × b ± c) with one rounding of the exact value (R78, log entry 22): the signs have been applied to a and c. An
invalid product raises NV only when no operand is a NaN (R81). -/
def fmaB (p : Bool) (rm : Nat) (tu : Bool) (a b c : Bin) (na nc : Bool) : Word × Nat :=
  match nanOf p [a, b, c] with
  | some r => r
  | none =>
    let n := (a.neg != b.neg) != na
    let c := if nc then c.flip else c
    match a, b with
    | .fin _ m1 e1, .fin _ m2 e2 =>
      match c with
      | .inf y => (infW p y, 0)
      | .fin n3 m3 e3 =>
        let (s, m, e) := sumB rm n (m1 * m2) (e1 + e2) n3 m3 e3
        roundB p rm tu s m e false
      | _ => (defNan p, 0)
    | _, _ =>
      if a.isZero || b.isZero then (defNan p, 1)
      else
        match c with
        | .inf y => if y == n then (infW p n, 0) else (defNan p, 1)
        | _ => (infW p n, 0)

/-- Order of two operands that are no NaN. -/
def cmpB (a b : Bin) : Ordering :=
  match a, b with
  | .inf x, .inf y => if x == y then .eq else if x then .lt else .gt
  | .inf x, _ => if x then .lt else .gt
  | _, .inf y => if y then .gt else .lt
  | .fin n1 m1 e1, .fin n2 m2 e2 =>
    let e := min e1 e2
    let u : Int := (if n1 then -1 else 1) * ((m1 * 2 ^ (e1 - e).toNat : Nat) : Int)
    let v : Int := (if n2 then -1 else 1) * ((m2 * 2 ^ (e2 - e).toNat : Nat) : Int)
    compare u v
  | _, _ => .eq

/-- The operand as a value of the format, NaN quieted. -/
def packSame (p : Bool) (x : Word) : Word := BitVec.ofNat 64 (x.toNat % 2 ^ bw p)

/-- FMIN (`mx` false) and FMAX: −0 < +0; the other operand of exactly one quiet NaN (R78, R81). A signalling NaN beside a number gives
the quieted NaN (DESIGN CHOICE, log entry 18). -/
def minmaxB (p mx : Bool) (x y : Word) : Word × Nat :=
  let a := unpackB p x
  let b := unpackB p y
  match a, b with
  | .nan _ false _, .nan _ _ _ => (nanOf p [a, b]).getD (defNan p, 0)
  | .nan _ false _, _ => (packSame p y, 0)
  | .nan _ true _, _ => (nanOf p [a, b]).getD (defNan p, 0)
  | _, .nan _ false _ => (packSame p x, 0)
  | _, .nan _ true _ => (nanOf p [a, b]).getD (defNan p, 0)
  | _, _ =>
    let less := match cmpB a b with
      | .lt => true
      | .gt => false
      | .eq => a.neg && !b.neg
    (packSame p (if less != mx then x else y), 0)

/-- A finite value as an integer: rounded, and whether that changed it (R82). -/
def roundInt (rm : Nat) (neg : Bool) (m : Nat) (e : Int) : Int × Bool :=
  let sg : Int := if neg then -1 else 1
  if e ≥ 0 then (sg * ((m * 2 ^ e.toNat : Nat) : Int), false)
  else
    let u := 2 ^ (-e).toNat
    let k := m / u
    let r := m % u
    let k := if roundAway rm neg (k % 2 == 1) (halfCmp r u false) (r != 0) then k + 1 else k
    (sg * (k : Int), r != 0)

/-- A rounded value narrowed to a 64-bit integer, signed or not: out of range gives the nearest limit and NV (R82). -/
def narrowInt (sgn : Bool) (v : Int) (inx : Bool) : Word × Nat :=
  let lo : Int := if sgn then -(2 ^ 63 : Int) else 0
  let hi : Int := if sgn then (2 ^ 63 : Int) - 1 else (2 ^ 64 : Int) - 1
  if v < lo then (BitVec.ofInt 64 lo, 1)
  else if v > hi then (BitVec.ofInt 64 hi, 1)
  else (BitVec.ofInt 64 v, if inx then 16 else 0)
/-- What a NaN converts to. -/
def nanInt (sgn : Bool) : Word × Nat := (if sgn then 0x8000000000000000#64 else 0#64, 1)
/-- What an infinity converts to. -/
def infInt (sgn neg : Bool) : Word × Nat := narrowInt sgn (if neg then -(2 ^ 70 : Int) else (2 ^ 70 : Int)) false

def toIntB (p sgn : Bool) (rm : Nat) (x : Word) : Word × Nat :=
  match unpackB p x with
  | .nan _ _ _ => nanInt sgn
  | .inf n => infInt sgn n
  | .fin n m e => let (v, i) := roundInt rm n m e; narrowInt sgn v i

/-- The type mask of FTYPE. -/
def ftype (p : Bool) (x : Word) : Word :=
  BitVec.ofNat 64 (2 ^ (match unpackB p x with
    | .nan _ s _ => if s then 9 else 8
    | .inf n => if n then 7 else 6
    | .fin n m _ => (if m = 0 then 0 else if m < 2 ^ (bp p - 1) then 2 else 4) + (if n then 1 else 0)))

/-- Where an FP result goes. -/
inductive FpDst where
  | f | g
deriving DecidableEq, Repr

/-- An FP instruction (R78): where the result goes, the result and its flags. `a`, `b` are F[ra], F[rb]; `ga` is G[ra];
`rm` the mode in force; `tu` TRAPEN.UF. FCVTP of a NaN keeps the top bits of its payload (DESIGN CHOICE, log entry 17). -/
def fpOp (fn : Nat) (p : Bool) (rm : Nat) (tu : Bool) (a b ga : Word) : FpDst × Word × Nat :=
  let x := unpackB p a
  let y := unpackB p b
  let cmpR (quiet : Bool) (t : Ordering → Bool) : FpDst × Word × Nat :=
    if x.isNan || y.isNan then (.g, 0#64, if quiet then nvOf [x, y] else 1)
    else (.g, if t (cmpB x y) then 1#64 else 0#64, 0)
  let sgn (n : Bool) : FpDst × Word × Nat :=
    (.f, BitVec.ofNat 64 (a.toNat % 2 ^ (bw p - 1) + signBit p n), 0)
  let sb (w : Word) : Bool := w.getLsbD (bw p - 1)
  match fn with
  | 0 => (.f, addB p rm tu x y)
  | 1 => (.f, addB p rm tu x y.flip)
  | 2 => (.f, mulB p rm tu x y)
  | 3 => (.f, divB p rm tu x y)
  | 4 => (.f, sqrtB p rm tu x)
  | 5 => (.f, minmaxB p false a b)
  | 6 => (.f, minmaxB p true a b)
  | 7 => cmpR true (· == .eq)
  | 8 => cmpR false (· == .lt)
  | 9 => cmpR false (· != .gt)
  | 10 => (.f, roundB p rm tu (decide (ga.toInt < 0)) ga.toInt.natAbs 0 false)
  | 11 => (.f, roundB p rm tu false ga.toNat 0 false)
  | 12 => (.g, toIntB p true rm a)
  | 13 => (.g, toIntB p false rm a)
  | 14 =>
    match unpackB (!p) a with
    | .nan n s k => (.f, qnan p n (if p then k / 2 ^ 29 else k * 2 ^ 29), if s then 1 else 0)
    | .inf n => (.f, infW p n, 0)
    | .fin n m e => (.f, roundB p rm tu n m e false)
  | 15 => (.g, a, 0)
  | 16 => (.f, ga, 0)
  | 17 => (.g, ftype p a, 0)
  | 18 => sgn (sb b)
  | 19 => sgn (!sb b)
  | _ => sgn (sb a != sb b)

/-! ### Decimal formats (R83 to R85) -/

/-- Precision and exponent limits of decimal64 (p = false) and decimal128. -/
def dp (p : Bool) : Nat := if p then 34 else 16
def dqmin (p : Bool) : Int := if p then -6176 else -398
def dqmax (p : Bool) : Int := if p then 6111 else 369
def dwid (p : Bool) : Nat := if p then 128 else 64
/-- Declets of the trailing significand. -/
def decls (p : Bool) : Nat := if p then 11 else 5

/-- A declet's three digits, as a number 0 to 999: every 10-bit value reads as the value IEEE 754 gives it. -/
def declet (x : Nat) : Nat :=
  let b (i : Nat) : Nat := x / 2 ^ i % 2
  let lo3 (h m l : Nat) : Nat := 4 * b h + 2 * b m + b l
  if b 3 = 0 then 100 * lo3 9 8 7 + 10 * lo3 6 5 4 + lo3 2 1 0
  else
    match 2 * b 2 + b 1 with
    | 0 => 100 * lo3 9 8 7 + 10 * lo3 6 5 4 + (8 + b 0)
    | 1 => 100 * lo3 9 8 7 + 10 * (8 + b 4) + (4 * b 6 + 2 * b 5 + b 0)
    | 2 => 100 * (8 + b 7) + 10 * lo3 6 5 4 + (4 * b 9 + 2 * b 8 + b 0)
    | _ =>
      match 2 * b 6 + b 5 with
      | 0 => 100 * (8 + b 7) + 10 * (8 + b 4) + (4 * b 9 + 2 * b 8 + b 0)
      | 1 => 100 * (8 + b 7) + 10 * (4 * b 9 + 2 * b 8 + b 4) + (8 + b 0)
      | 2 => 100 * lo3 9 8 7 + 10 * (8 + b 4) + (8 + b 0)
      | _ => 100 * (8 + b 7) + 10 * (8 + b 4) + (8 + b 0)

/-- The canonical declet of a number 0 to 999. -/
def toDeclet (n : Nat) : Nat :=
  let d2 := n / 100
  let d1 := n / 10 % 10
  let d0 := n % 10
  let s (x k : Nat) : Nat := x / 2 ^ k % 2
  let mk (b9 b8 b7 b6 b5 b4 b3 b2 b1 b0 : Nat) : Nat :=
    512 * b9 + 256 * b8 + 128 * b7 + 64 * b6 + 32 * b5 + 16 * b4 + 8 * b3 + 4 * b2 + 2 * b1 + b0
  match decide (d2 ≥ 8), decide (d1 ≥ 8), decide (d0 ≥ 8) with
  | false, false, false => mk (s d2 2) (s d2 1) (s d2 0) (s d1 2) (s d1 1) (s d1 0) 0 (s d0 2) (s d0 1) (s d0 0)
  | false, false, true => mk (s d2 2) (s d2 1) (s d2 0) (s d1 2) (s d1 1) (s d1 0) 1 0 0 (s d0 0)
  | false, true, false => mk (s d2 2) (s d2 1) (s d2 0) (s d0 2) (s d0 1) (s d1 0) 1 0 1 (s d0 0)
  | true, false, false => mk (s d0 2) (s d0 1) (s d2 0) (s d1 2) (s d1 1) (s d1 0) 1 1 0 (s d0 0)
  | true, true, false => mk (s d0 2) (s d0 1) (s d2 0) 0 0 (s d1 0) 1 1 1 (s d0 0)
  | true, false, true => mk (s d1 2) (s d1 1) (s d2 0) 0 1 (s d1 0) 1 1 1 (s d0 0)
  | false, true, true => mk (s d2 2) (s d2 1) (s d2 0) 1 0 (s d1 0) 1 1 1 (s d0 0)
  | true, true, true => mk 0 0 (s d2 0) 1 1 (s d1 0) 1 1 1 (s d0 0)

/-- An unpacked decimal operand: (−1)^neg · c · 10^q. -/
inductive Dec where
  | nan (neg sig : Bool) (payload : Nat)
  | inf (neg : Bool)
  | fin (neg : Bool) (c : Nat) (q : Int)
deriving DecidableEq, Repr

/-- The digits of the trailing declets. -/
def trailing (p : Bool) (x : Nat) : Nat :=
  (List.range (decls p)).foldl (fun a k => a + declet (x / 2 ^ (10 * k) % 1024) * 1000 ^ k) 0
def toTrailing (p : Bool) (c : Nat) : Nat :=
  (List.range (decls p)).foldl (fun a k => a + toDeclet (c / 1000 ^ k % 1000) * 2 ^ (10 * k)) 0

/-- Unpack a decimal encoding. -/
def unpackD (p : Bool) (x : Nat) : Dec :=
  let t := 10 * decls p
  let ec := dwid p - 6 - t
  let neg := x / 2 ^ (dwid p - 1) % 2 = 1
  let g := x / 2 ^ (dwid p - 6) % 32
  let ecv := x / 2 ^ t % 2 ^ ec
  let tr := trailing p x
  if g = 31 then .nan neg (ecv / 2 ^ (ec - 1) = 1) tr
  else if g = 30 then .inf neg
  else
    let (eh, d) := if g ≥ 24 then (g / 2 % 4, 8 + g % 2) else (g / 8, g % 8)
    .fin neg (d * 1000 ^ decls p + tr) ((eh * 2 ^ ec + ecv : Nat) + dqmin p)

/-- Pack a decimal in canonical encoding; c has at most the format's digits and q is in range. -/
def packD (p : Bool) (v : Dec) : Nat :=
  let t := 10 * decls p
  let ec := dwid p - 6 - t
  let sg (n : Bool) : Nat := if n then 2 ^ (dwid p - 1) else 0
  match v with
  | .nan n s k => sg n + 31 * 2 ^ (dwid p - 6) + (if s then 2 ^ (t + ec - 1) else 0) + toTrailing p k
  | .inf n => sg n + 30 * 2 ^ (dwid p - 6)
  | .fin n c q =>
    let b := (q - dqmin p).toNat
    let eh := b / 2 ^ ec
    let d := c / 1000 ^ decls p
    let g := if d ≥ 8 then 24 + eh * 2 + d % 2 else eh * 8 + d
    sg n + g * 2 ^ (dwid p - 6) + b % 2 ^ ec * 2 ^ t + toTrailing p c

/-- Decimal digits of n; 0 has none. -/
def digits (n : Nat) : Nat := if n = 0 then 0 else
  let k := n.log2 * 30103 / 100000
  if 10 ^ (k + 1) ≤ n then k + 2 else if 10 ^ k ≤ n then k + 1 else k

/-- Move the exponent of an exact value toward `pref` (R85), at most `fuel` digits. -/
def prefer (p : Bool) (pref : Int) : Nat → Nat → Int → Nat × Int
  | 0, c, q => (c, q)
  | f + 1, c, q =>
    if q > pref ∧ q > dqmin p ∧ c * 10 < 10 ^ dp p then prefer p pref f (c * 10) (q - 1)
    else if q < pref ∧ q < dqmax p ∧ c % 10 = 0 then prefer p pref f (c / 10) (q + 1)
    else (c, q)

/-- Round (−1)^neg · (c + sticky) · 10^q to a format with preferred exponent `pref` (R80, R85: tininess before
rounding). -/
def roundD (p : Bool) (rm : Nat) (trapUf neg : Bool) (c : Nat) (q : Int) (sticky : Bool) (pref : Int) : Nat × Nat :=
  if c = 0 ∧ ¬ sticky then (packD p (.fin neg 0 (max (dqmin p) (min (dqmax p) pref))), 0)
  else
    let dg : Int := (digits c : Nat)
    let tiny := decide (dg + q - 1 < dqmin p + (dp p : Nat) - 1)
    let drop := max (max (dg - (dp p : Nat)) (dqmin p - q)) 0
    let u := 10 ^ drop.toNat
    let r := c % u
    let inx := r != 0 || sticky
    let k := c / u
    let k := if roundAway rm neg (k % 2 == 1) (halfCmp r u sticky) inx then k + 1 else k
    let q := q + drop
    let (k, q) := if k = 10 ^ dp p then (10 ^ (dp p - 1), q + 1) else (k, q)
    let (k, q) := if inx then (k, q) else prefer p pref (2 * dp p) k q
    let nx := if inx then 16 else 0
    let uf := if tiny && (inx || trapUf) then 8 else 0
    if q > dqmax p then
      let pad := 10 ^ (q - dqmax p).toNat
      if k * pad < 10 ^ dp p then (packD p (.fin neg (k * pad) (dqmax p)), nx + uf)
      else
        let toInf := rm == 0 || rm == 4 || (rm == 2 && !neg) || (rm == 3 && neg)
        (packD p (if toInf then .inf neg else .fin neg (10 ^ dp p - 1) (dqmax p)), 4 + 16)
    else (packD p (.fin neg k q), nx + uf)

def Dec.isNan : Dec → Bool | .nan _ _ _ => true | _ => false
def Dec.isSig : Dec → Bool | .nan _ s _ => s | _ => false
def Dec.neg : Dec → Bool | .nan n _ _ => n | .inf n => n | .fin n _ _ => n
def Dec.flip : Dec → Dec | .nan n s k => .nan n s k | .inf n => .inf (!n) | .fin n c q => .fin (!n) c q
def dnvOf (l : List Dec) : Nat := if l.any (·.isSig) then 1 else 0
/-- The NaN result of operands (R81). -/
def dnanOf (p : Bool) (l : List Dec) : Option (Nat × Nat) :=
  match l.find? (·.isNan) with
  | some (.nan n _ k) => some (packD p (.nan n false k), dnvOf l)
  | _ => none
/-- The default quiet NaN. -/
def ddef (p : Bool) : Nat := packD p (.nan false false 0)

def addD (p : Bool) (rm : Nat) (tu : Bool) (a b : Dec) : Nat × Nat :=
  match dnanOf p [a, b] with
  | some r => r
  | none =>
    match a, b with
    | .inf x, .inf y => if x == y then (packD p (.inf x), 0) else (ddef p, 1)
    | .inf x, _ => (packD p (.inf x), 0)
    | _, .inf y => (packD p (.inf y), 0)
    | .fin n1 c1 q1, .fin n2 c2 q2 =>
      let q := min q1 q2
      let u : Int := (if n1 then -1 else 1) * ((c1 * 10 ^ (q1 - q).toNat : Nat) : Int)
      let v : Int := (if n2 then -1 else 1) * ((c2 * 10 ^ (q2 - q).toNat : Nat) : Int)
      let s := u + v
      let neg := if s = 0 then (if n1 == n2 then n1 else rm == 3) else decide (s < 0)
      roundD p rm tu neg s.natAbs q false q
    | _, _ => (ddef p, 0)

def mulD (p : Bool) (rm : Nat) (tu : Bool) (a b : Dec) : Nat × Nat :=
  match dnanOf p [a, b] with
  | some r => r
  | none =>
    let n := a.neg != b.neg
    match a, b with
    | .fin _ c1 q1, .fin _ c2 q2 => roundD p rm tu n (c1 * c2) (q1 + q2) false (q1 + q2)
    | .fin _ 0 _, _ => (ddef p, 1)
    | _, .fin _ 0 _ => (ddef p, 1)
    | _, _ => (packD p (.inf n), 0)

def divD (p : Bool) (rm : Nat) (tu : Bool) (a b : Dec) : Nat × Nat :=
  match dnanOf p [a, b] with
  | some r => r
  | none =>
    let n := a.neg != b.neg
    match a, b with
    | .inf _, .inf _ => (ddef p, 1)
    | .inf _, _ => (packD p (.inf n), 0)
    | .fin _ _ _, .inf _ => (packD p (.fin n 0 (dqmin p)), 0)
    | .fin _ c1 q1, .fin _ c2 q2 =>
      if c2 = 0 then (if c1 = 0 then (ddef p, 1) else (packD p (.inf n), 2))
      else
        let k := 2 * dp p + 4
        roundD p rm tu n (c1 * 10 ^ k / c2) (q1 - q2 - k) (c1 * 10 ^ k % c2 != 0) (q1 - q2)
    | _, _ => (ddef p, 0)

/-- c · 10^q at the exponent t: rounded, and whether that changed it. -/
def quantize (rm : Nat) (neg : Bool) (c : Nat) (q t : Int) : Nat × Bool :=
  if t ≤ q then (c * 10 ^ (q - t).toNat, false)
  else
    let drop := (t - q).toNat
    if drop > digits c + 1 then
      (if roundAway rm neg false .lt (c != 0) then 1 else 0, c != 0)
    else
      let u := 10 ^ drop
      let r := c % u
      let k := c / u
      (if roundAway rm neg (k % 2 == 1) (halfCmp r u false) (r != 0) then k + 1 else k, r != 0)

def cmpD (a b : Dec) : Ordering :=
  match a, b with
  | .inf x, .inf y => if x == y then .eq else if x then .lt else .gt
  | .inf x, _ => if x then .lt else .gt
  | _, .inf y => if y then .gt else .lt
  | .fin n1 c1 q1, .fin n2 c2 q2 =>
    let q := min q1 q2
    let u : Int := (if n1 then -1 else 1) * ((c1 * 10 ^ (q1 - q).toNat : Nat) : Int)
    let v : Int := (if n2 then -1 else 1) * ((c2 * 10 ^ (q2 - q).toNat : Nat) : Int)
    compare u v
  | _, _ => .eq

/-- A decimal as a rounded integer. -/
def toIntD (rm : Nat) (a : Dec) : Word × Nat :=
  match a with
  | .nan _ _ _ => nanInt true
  | .inf n => infInt true n
  | .fin n c q =>
    let (k, inx) := if q > 40 then ((if c = 0 then 0 else 10 ^ 40), false) else quantize rm n c q 0
    narrowInt true (if n then -(k : Int) else k) inx

/-- The type mask of DCLASS. -/
def dclass (p : Bool) (a : Dec) : Word :=
  BitVec.ofNat 64 (2 ^ (match a with
    | .nan _ s _ => if s then 9 else 8
    | .inf n => if n then 7 else 6
    | .fin n c q =>
      (if c = 0 then 0 else if (digits c : Nat) + q - 1 < dqmin p + (dp p : Nat) - 1 then 2 else 4) + (if n then 1 else 0)))

/-- Where a DEC result goes: F registers (a pair for decimal128) or G; `free`: spec/ states of the value only its sign, and whether it is a
quiet NaN (log entry 23). -/
inductive DecDst where
  | f | g
  | free (nan neg : Bool)
deriving DecidableEq, Repr

/-- A canonical value with a sign, or a quiet NaN with one, that a free number names (R84). -/
def freeD (p nan neg : Bool) (x : Nat) : Nat :=
  let y := x / 4
  if nan ∨ x % 4 = 1 then packD p (.nan neg false (y % 10 ^ (dp p - 1)))
  else if x % 4 = 0 then packD p (.inf neg)
  else packD p (.fin neg (y % 10 ^ dp p) (dqmin p + ((y / 10 ^ dp p % ((dqmax p - dqmin p).toNat + 1) : Nat) : Int)))

/-- Packed BCD of a 16-digit coefficient, and back. -/
def toBcd (c : Nat) : Nat := (List.range 16).foldl (fun a k => a + c / 10 ^ k % 10 * 16 ^ k) 0
def ofBcd (x : Nat) : Nat := (List.range 16).foldl (fun a k => a + x / 16 ^ k % 16 * 10 ^ k) 0

/-- A DEC instruction (R83). `a`, `b` are the operands as they lie in F registers (128 bits for a pair), `ga` is
G[ra]. Where spec/ leaves it open the model has: no flag of DXEX and DSAMEQ for a signalling NaN (log entry 19); no UF of DIEX and DQUA (log entry
38); the quieted NaN, without NV, of DIEX of a NaN with an exponent out of range (log entry 39), each a DESIGN CHOICE. -/
def decOp (fn : Nat) (p : Bool) (rm : Nat) (tu : Bool) (a b : Nat) (ga : Word) : DecDst × Nat × Nat :=
  let x := unpackD p a
  let y := unpackD p b
  let cmpR (quiet : Bool) (t : Ordering → Bool) : DecDst × Nat × Nat :=
    if x.isNan || y.isNan then (.g, 0, if quiet then dnvOf [x, y] else 1)
    else (.g, if t (cmpD x y) then 1 else 0, 0)
  match fn with
  | 0 => (.f, addD p rm tu x y)
  | 1 => (.f, addD p rm tu x y.flip)
  | 2 => (.f, mulD p rm tu x y)
  | 3 => (.f, divD p rm tu x y)
  | 4 =>
    match dnanOf p [x, y] with
    | some r => (.f, r)
    | none =>
      match x, y with
      | .inf n, .inf _ => (.f, packD p (.inf n), 0)
      | .fin n c q, .fin _ _ t =>
        if t ≤ q ∧ c ≠ 0 ∧ (digits c : Nat) + (q - t) > (dp p : Nat) then (.f, ddef p, 1)
        else if c = 0 then (.f, packD p (.fin n 0 t), 0)
        else
          let (k, inx) := quantize rm n c q t
          if k ≥ 10 ^ dp p then (.f, ddef p, 1) else (.f, packD p (.fin n k t), if inx then 16 else 0)
      | _, _ => (.f, ddef p, 1)
  | 5 =>
    match dnanOf p [x] with
    | some r => (.f, r)
    | none =>
      match x with
      | .fin n c q =>
        if q ≥ 0 then (.f, packD p (.fin n c q), 0)
        else
          let (k, inx) := quantize rm n c q 0
          (.f, packD p (.fin n k 0), if inx then 16 else 0)
      | v => (.f, packD p v, 0)
  | 6 =>
    (.g, (match x, y with
      | .nan _ _ _, .nan _ _ _ => 1
      | .inf _, .inf _ => 1
      | .fin _ _ q, .fin _ _ t => if q = t then 1 else 0
      | _, _ => 0), 0)
  | 7 =>
    match x with
    | .fin _ _ q => (.g, (BitVec.ofInt 64 q).toNat, 0)
    | _ => (.g, 2 ^ 63, 0)
  | 8 =>
    match y with
    | .nan _ _ _ => (.f, (dnanOf p [y]).getD (ddef p, 0))
    | .inf n => if ga.toInt < dqmin p ∨ ga.toInt > dqmax p then (.f, ddef p, 1) else (.free false n, 0, 0)
    | .fin n c _ =>
      let q := ga.toInt
      if q < dqmin p ∨ q > dqmax p then (.f, ddef p, 1) else (.f, packD p (.fin n c q), 0)
  | 9 => cmpR true (· == .eq)
  | 10 => cmpR false (· == .lt)
  | 11 => cmpR false (· != .gt)
  | 12 => (.f, roundD p rm tu (decide (ga.toInt < 0)) ga.toInt.natAbs 0 false 0)
  | 13 => let (v, fl) := toIntD rm x; (.g, v.toNat, fl)
  | 14 =>
    match unpackD (!p) a with
    | .nan n s k => if k < 10 ^ (dp p - 1) then (.f, packD p (.nan n false k), if s then 1 else 0) else (.free true n, 0, if s then 1 else 0)
    | .inf n => (.f, packD p (.inf n), 0)
    | .fin n c q => (.f, roundD p rm tu n c q false q)
  | 15 => (.g, (dclass p x).toNat, 0)
  | 16 =>
    match x with
    | .fin _ c _ => (.g, toBcd c, 0)
    | _ => (.g, 0, 1)
  | _ =>
    if (List.range 16).any (fun k => decide (ga.toNat / 16 ^ k % 16 > 9)) then (.f, ddef p, 1)
    else (.f, packD p (.fin false (ofBcd ga.toNat) 0), 0)

end Sys2Proof.Machine
end

