-- ==== Sys2Proof/Machine/Simd.lean ====
section
/-!
DEFINITION. Machine/Simd.lean: the SIMD instructions (03 R86, R87): lanes, binary floating lanes, the AES steps of FIPS
197, the SHA-2 steps of FIPS 180-4, carry-less multiplication and CRC-32C.
-/
namespace Sys2Proof.Machine

/-- Lane i of `n` bits of a SIMD register, as a number. -/
def lane (v : VWord) (n i : Nat) : Nat := v.toNat / 2 ^ (n * i) % 2 ^ n
/-- A SIMD register from its lanes of `n` bits. -/
def ofLanes (n : Nat) (l : List Nat) : VWord :=
  BitVec.ofNat 256 ((l.zipIdx).foldl (fun a p => a + p.1 % 2 ^ n * 2 ^ (n * p.2)) 0)
/-- A lane-wise operation on numbers. -/
def lanewise (n : Nat) (f : Nat → Nat → Nat) (a b : VWord) : VWord :=
  ofLanes n ((List.range (256 / n)).map (fun i => f (lane a n i) (lane b n i)))

/-! ### AES -/

/-- Multiplication by x in GF(2^8) modulo x^8 + x^4 + x^3 + x + 1. -/
def xtime (a : BitVec 8) : BitVec 8 := if a.getLsbD 7 then (a <<< 1) ^^^ 0x1B#8 else a <<< 1
/-- Multiplication in GF(2^8). -/
def gmul (a b : BitVec 8) : BitVec 8 :=
  ((List.range 8).foldl (fun (p : BitVec 8 × BitVec 8) i => (if b.getLsbD i then p.1 ^^^ p.2 else p.1, xtime p.2)) (0#8, a)).1
/-- The inverse in GF(2^8), a^254; 0 for 0. -/
def ginv (a : BitVec 8) : BitVec 8 :=
  let a2 := gmul a a
  let a3 := gmul a2 a
  let a12 := gmul (gmul a3 a3) (gmul a3 a3)
  let a15 := gmul a12 a3
  let a240 := (List.range 4).foldl (fun x _ => gmul x x) a15
  gmul (gmul a240 a12) a2
/-- SubBytes on one byte. -/
def sbox (a : BitVec 8) : BitVec 8 :=
  let b := ginv a
  b ^^^ b.rotateLeft 1 ^^^ b.rotateLeft 2 ^^^ b.rotateLeft 3 ^^^ b.rotateLeft 4 ^^^ 0x63#8
/-- InvSubBytes on one byte. -/
def invSbox (a : BitVec 8) : BitVec 8 :=
  ginv (a.rotateLeft 1 ^^^ a.rotateLeft 3 ^^^ a.rotateLeft 6 ^^^ 0x05#8)

/-- A half as 16 state bytes, byte 4c + r being row r of column c (R87). -/
abbrev AesState := List (BitVec 8)
def aesAt (s : AesState) (c r : Nat) : BitVec 8 := s.getD (4 * (c % 4) + r % 4) 0#8
/-- A state from its bytes by column and row. -/
def aesMk (f : Nat → Nat → BitVec 8) : AesState := (List.range 16).map (fun k => f (k / 4) (k % 4))
def shiftRows (s : AesState) : AesState := aesMk (fun c r => aesAt s (c + r) r)
def invShiftRows (s : AesState) : AesState := aesMk (fun c r => aesAt s (c + 4 - r) r)
/-- A column transform with the circulant matrix of first row m0 m1 m2 m3. -/
def mixWith (m0 m1 m2 m3 : BitVec 8) (s : AesState) : AesState :=
  aesMk (fun c r => gmul m0 (aesAt s c r) ^^^ gmul m1 (aesAt s c (r + 1)) ^^^ gmul m2 (aesAt s c (r + 2)) ^^^ gmul m3 (aesAt s c (r + 3)))
def mixColumns (s : AesState) : AesState := mixWith 2#8 3#8 1#8 1#8 s
def invMixColumns (s : AesState) : AesState := mixWith 14#8 11#8 13#8 9#8 s
def addKey (s k : AesState) : AesState := aesMk (fun c r => aesAt s c r ^^^ aesAt k c r)

/-- The state of half h, and a register from two halves. -/
def half (v : VWord) (h : Nat) : AesState := (List.range 16).map (fun k => BitVec.ofNat 8 (lane v 8 (16 * h + k)))
def ofHalves (f : Nat → AesState) : VWord := ofLanes 8 ((f 0 ++ f 1).map (·.toNat))

def rcon (i : Nat) : BitVec 8 := (List.range (i - 1)).foldl (fun x _ => xtime x) 1#8

/-- VAESKW on one lane (R86): byte 0 is the lane's lowest. -/
def aesKw (rot : Bool) (rc : Nat) (x : Nat) : Nat :=
  let b (i : Nat) : BitVec 8 := BitVec.ofNat 8 (x / 2 ^ (8 * ((if rot then i + 1 else i) % 4)))
  let w (i : Nat) : Nat := (sbox (b i)).toNat
  let w0 := if rc = 0 then w 0 else Nat.xor (w 0) (rcon rc).toNat
  w0 + w 1 * 2 ^ 8 + w 2 * 2 ^ 16 + w 3 * 2 ^ 24

/-! ### SHA-2 -/

/-- One round on a list of eight working variables a … h with W + K (FIPS 180-4); `big` selects SHA-512. -/
def shaRound32 (v : List (BitVec 32)) (wk : BitVec 32) : List (BitVec 32) :=
  match v with
  | [a, b, c, d, e, f, g, h] =>
    let s1 := e.rotateRight 6 ^^^ e.rotateRight 11 ^^^ e.rotateRight 25
    let ch := (e &&& f) ^^^ (~~~e &&& g)
    let t1 := h + s1 + ch + wk
    let s0 := a.rotateRight 2 ^^^ a.rotateRight 13 ^^^ a.rotateRight 22
    let mj := (a &&& b) ^^^ (a &&& c) ^^^ (b &&& c)
    [t1 + s0 + mj, a, b, c, d + t1, e, f, g]
  | v => v
def shaRound64 (v : List (BitVec 64)) (wk : BitVec 64) : List (BitVec 64) :=
  match v with
  | [a, b, c, d, e, f, g, h] =>
    let s1 := e.rotateRight 14 ^^^ e.rotateRight 18 ^^^ e.rotateRight 41
    let ch := (e &&& f) ^^^ (~~~e &&& g)
    let t1 := h + s1 + ch + wk
    let s0 := a.rotateRight 28 ^^^ a.rotateRight 34 ^^^ a.rotateRight 39
    let mj := (a &&& b) ^^^ (a &&& c) ^^^ (b &&& c)
    [t1 + s0 + mj, a, b, c, d + t1, e, f, g]
  | v => v
/-- The next message word from the sixteen before it, oldest first. -/
def shaWord32 (w : List (BitVec 32)) : BitVec 32 :=
  let x := w.getD 1 0#32
  let y := w.getD 14 0#32
  w.getD 0 0#32 + (x.rotateRight 7 ^^^ x.rotateRight 18 ^^^ (x >>> 3)) + w.getD 9 0#32
    + (y.rotateRight 17 ^^^ y.rotateRight 19 ^^^ (y >>> 10))
def shaWord64 (w : List (BitVec 64)) : BitVec 64 :=
  let x := w.getD 1 0#64
  let y := w.getD 14 0#64
  w.getD 0 0#64 + (x.rotateRight 1 ^^^ x.rotateRight 8 ^^^ (x >>> 7)) + w.getD 9 0#64
    + (y.rotateRight 19 ^^^ y.rotateRight 61 ^^^ (y >>> 6))
/-- `k` further words. -/
def shaExtend32 : Nat → List (BitVec 32) → List (BitVec 32)
  | 0, w => w
  | k + 1, w => shaExtend32 k (w.drop 1 ++ [shaWord32 w])
def shaExtend64 : Nat → List (BitVec 64) → List (BitVec 64)
  | 0, w => w
  | k + 1, w => shaExtend64 k (w.drop 1 ++ [shaWord64 w])

def lanes32 (v : VWord) : List (BitVec 32) := (List.range 8).map (fun i => BitVec.ofNat 32 (lane v 32 i))
def lanes64 (v : VWord) : List (BitVec 64) := (List.range 4).map (fun i => BitVec.ofNat 64 (lane v 64 i))

/-- The carry-less product of two 64-bit numbers. -/
def clmul (a b : Nat) : Nat := (List.range 64).foldl (fun r i => if b.testBit i then Nat.xor r (a * 2 ^ i) else r) 0

/-! ### Instructions -/

/-- The operands of a VEC instruction as they are read: V[ra], V[ra+1], V[rb], V[rb+1], V[rc], V[rd], G[ra], the field
rc, FPCR.BRM and TRAPEN.UF. -/
structure VecIn where
  a : VWord
  a1 : VWord
  b : VWord
  b1 : VWord
  c : VWord
  d : VWord
  g : Word
  rc : Nat
  rm : Nat
  tu : Bool
deriving DecidableEq, Repr

/-- The results of a VEC instruction: V[rd], V[rd+1], G[rd]; and the OR of the flags of its lanes (R80). -/
structure VecOut where
  v : Option VWord := none
  v1 : Option VWord := none
  g : Option Word := none
  fl : Nat := 0
deriving DecidableEq, Repr

/-- A floating lane operation. -/
def fpLanes (p : Bool) (f : Nat → Word × Nat) : VecOut :=
  let n := bw p
  let rs := (List.range (256 / n)).map f
  { v := some (ofLanes n (rs.map (fun r => r.1.toNat))), fl := rs.foldl (fun a r => a ||| r.2) 0 }

/-- A VEC instruction (R86). -/
def vecOp (fn : Nat) (x : VecIn) : VecOut :=
  let p1 := x.rc % 2 = 1
  let n := 8 * 2 ^ (x.rc % 4)
  let lb (p : Bool) (v : VWord) (i : Nat) : Bin := unpackB p (BitVec.ofNat 64 (lane v (bw p) i))
  let one (v : VWord) : VecOut := { v := some v }
  match fn with
  | 0 => one (lanewise n (fun a b => a + b) x.a x.b)
  | 1 => one (lanewise n (fun a b => a + (2 ^ n - b)) x.a x.b)
  | 2 => one (lanewise n (fun a b => a * b) x.a x.b)
  | 3 => one (x.a &&& x.b)
  | 4 => one (x.a ||| x.b)
  | 5 => one (x.a ^^^ x.b)
  | 6 => fpLanes p1 (fun i => addB p1 x.rm x.tu (lb p1 x.a i) (lb p1 x.b i))
  | 7 => fpLanes p1 (fun i => mulB p1 x.rm x.tu (lb p1 x.a i) (lb p1 x.b i))
  | 8 => fpLanes false (fun i => fmaB false x.rm x.tu (lb false x.a i) (lb false x.b i) (lb false x.c i) false false)
  | 9 => fpLanes true (fun i => fmaB true x.rm x.tu (lb true x.a i) (lb true x.b i) (lb true x.c i) false false)
  | 10 =>
    one (ofHalves (fun h =>
      let s := shiftRows ((half x.a h).map sbox)
      addKey (if p1 then s else mixColumns s) (half x.b h)))
  | 11 =>
    one (ofHalves (fun h =>
      let s := addKey ((invShiftRows (half x.a h)).map invSbox) (half x.b h)
      if p1 then s else invMixColumns s))
  | 12 => one (ofLanes 32 ((List.range 8).map (fun i => aesKw (decide (x.rc ≥ 16)) (x.rc % 16) (lane x.a 32 i))))
  | 13 => one (ofHalves (fun h => if p1 then invMixColumns (half x.a h) else mixColumns (half x.a h)))
  | 16 => one (ofLanes 32 (((((lanes32 x.b).take 4).foldl shaRound32 (lanes32 x.a))).map (·.toNat)))
  | 17 =>
    let w := shaExtend32 4 (lanes32 x.a ++ lanes32 x.b)
    one (ofLanes 32 ((w.drop 12).map (·.toNat)))
  | 18 =>
    let r := ((lanes64 x.b).take 2).foldl shaRound64 (lanes64 x.a ++ lanes64 x.a1)
    { v := some (ofLanes 64 ((r.take 4).map (·.toNat))), v1 := some (ofLanes 64 ((r.drop 4).map (·.toNat))) }
  | 19 =>
    let w := shaExtend64 2 (lanes64 x.a ++ lanes64 x.a1 ++ lanes64 x.b ++ lanes64 x.b1)
    one (ofLanes 64 ((w.drop 14).map (·.toNat)))
  | 20 =>
    one (ofLanes 128 ((List.range 2).map (fun h =>
      clmul (lane x.a 64 (2 * h + x.rc % 2)) (lane x.b 64 (2 * h + x.rc / 2 % 2)))))
  | 21 => one (BitVec.ofNat 256 (crcBytes (BitVec.ofNat 32 (lane x.a 32 0)) 32 x.b.toNat).toNat)
  | 22 => one (ofLanes 64 ((List.range 4).map (fun i => if i = x.rc % 4 then x.g.toNat else lane x.d 64 i)))
  | 23 => { g := some (BitVec.ofNat 64 (lane x.a 64 (x.rc % 4))) }
  | 24 => one (ofLanes 64 [x.g.toNat, x.g.toNat, x.g.toNat, x.g.toNat])
  | 25 => one (BitVec.ofNat 256 ((x.a.toNat + x.b.toNat * 2 ^ 256) / 2 ^ (32 * x.rc)))
  | _ => {}

end Sys2Proof.Machine
end

