-- ==== Sys2Proof/Machine/Crypto.lean ====
section
/-!
DEFINITION. Machine/Crypto.lean: SHA-384 and ECDSA over P-384 (16 R410, R412, R426), as FIPS 180-4 and FIPS 186-5 define
them: the system controller's checks of a boot image and of a debugger's response.
-/
namespace Sys2Proof.Machine

/-! ### SHA-384 -/

/-- The cube root of n, rounded down. -/
def icbrt (n : Nat) : Nat :=
  ((List.range (n.log2 / 3 + 1)).reverse).foldl (fun r i => if (r + 2 ^ i) ^ 3 ≤ n then r + 2 ^ i else r) 0
/-- The primes up to 409, the first 80. -/
def primes80 : List Nat := (List.range 410).filter (fun n => decide (n ≥ 2) && (List.range n).all (fun d => decide (d < 2) || n % d != 0))
/-- The round constants: the fractions of the cube roots of the first 80 primes. -/
def sha512K : List (BitVec 64) := primes80.map (fun p => BitVec.ofNat 64 (icbrt (p * 2 ^ 192)))
/-- The initial value of SHA-384: the fractions of the square roots of the ninth to sixteenth primes. -/
def sha384Iv : List (BitVec 64) := ((primes80.drop 8).take 8).map (fun p => BitVec.ofNat 64 (isqrt (p * 2 ^ 128)))

/-- Big-endian bytes as a number, and back. -/
def beNat (l : List (BitVec 8)) : Nat := l.foldl (fun a b => a * 256 + b.toNat) 0
def natBe (n x : Nat) : List (BitVec 8) := (List.range n).map (fun k => BitVec.ofNat 8 (x / 256 ^ (n - 1 - k)))
/-- Little-endian bytes as a number, and back. -/
def leNat : List (BitVec 8) → Nat
  | [] => 0
  | b :: t => b.toNat + 256 * leNat t
def natLe (n x : Nat) : List (BitVec 8) := (List.range n).map (fun k => BitVec.ofNat 8 (x / 256 ^ k))

/-- Eighty message words from sixteen. -/
def sha512Schedule (w : List (BitVec 64)) : List (BitVec 64) :=
  ((List.range 64).foldl (fun (p : List (BitVec 64) × List (BitVec 64)) _ =>
    let x := shaWord64 p.2
    (x :: p.1, p.2.drop 1 ++ [x])) (w.reverse, w)).1.reverse

/-- One block of 128 bytes. -/
def sha512Block (h : List (BitVec 64)) (blk : List (BitVec 8)) : List (BitVec 64) :=
  let w := (List.range 16).map (fun k => BitVec.ofNat 64 (beNat ((blk.drop (8 * k)).take 8)))
  let v := ((sha512Schedule w).zip sha512K).foldl (fun v p => shaRound64 v (p.1 + p.2)) h
  List.zipWith (· + ·) h v

/-- Every block of a padded message of `n` blocks. -/
def sha512Blocks : Nat → List (BitVec 64) → List (BitVec 8) → List (BitVec 64)
  | 0, h, _ => h
  | n + 1, h, m => sha512Blocks n (sha512Block h (m.take 128)) (m.drop 128)

/-- SHA-384 of bytes, as 48 bytes. -/
def sha384 (m : List (BitVec 8)) : List (BitVec 8) :=
  let z := (240 - (m.length + 1) % 128) % 128
  let pad := m ++ [0x80#8] ++ List.replicate z 0#8 ++ natBe 16 (8 * m.length)
  ((sha512Blocks (pad.length / 128) sha384Iv pad).take 6).flatMap (fun x => natBe 8 x.toNat)

/-! ### P-384 -/

def p384 : Nat := 2 ^ 384 - 2 ^ 128 - 2 ^ 96 + 2 ^ 32 - 1
def n384 : Nat := 0xFFFFFFFFFFFFFFFFFFFFFFFFFFFFFFFFFFFFFFFFFFFFFFFFC7634D81F4372DDF581A0DB248B0A77AECEC196ACCC52973
def b384 : Nat := 0xB3312FA7E23EE7E4988E056BE3F82D19181D9C6EFE8141120314088F5013875AC656398D8A2ED19D2A85C8EDD3EC2AEF
def gx384 : Nat := 0xAA87CA22BE8B05378EB1C71EF320AD746E1D3B628BA79B9859F741E082542A385502F25DBF55296C3A545E3872760AB7
def gy384 : Nat := 0x3617DE4A96262C6F5D9E98BF9292DC29F8F41DBD289A147CE9DA3113B5F0B8C00A60B1CE1D7E819D7A431D7C90EA0E5F

/-- x^e modulo m, over the bits of e. -/
def powMod (m x e : Nat) : Nat :=
  ((List.range (e.log2 + 1)).reverse).foldl (fun r i => let r := r * r % m; if e.testBit i then r * x % m else r) 1
/-- The inverse modulo a prime. -/
def invMod (m x : Nat) : Nat := powMod m x (m - 2)

/-- A point of the curve; none is the point at infinity. -/
abbrev Pt := Option (Nat × Nat)
def ptDouble (a : Pt) : Pt :=
  match a with
  | none => none
  | some (x, y) =>
    if y = 0 then none
    else
      let l := (3 * x * x + (p384 - 3)) * invMod p384 (2 * y % p384) % p384
      let x3 := (l * l + 2 * (p384 - x)) % p384
      some (x3, (l * (x + (p384 - x3)) + (p384 - y)) % p384)
def ptAdd (a b : Pt) : Pt :=
  match a, b with
  | none, b => b
  | a, none => a
  | some (x1, y1), some (x2, y2) =>
    if x1 = x2 then (if y1 = y2 then ptDouble a else none)
    else
      let l := (y2 + (p384 - y1)) * invMod p384 ((x2 + (p384 - x1)) % p384) % p384
      let x3 := (l * l + (p384 - x1) + (p384 - x2)) % p384
      some (x3, (l * (x1 + (p384 - x3)) + (p384 - y1)) % p384)
def ptMul (k : Nat) (a : Pt) : Pt :=
  ((List.range (k.log2 + 1)).reverse).foldl (fun r i => let r := ptDouble r; if k.testBit i then ptAdd r a else r) none

def onCurve (x y : Nat) : Bool :=
  decide (x < p384) && decide (y < p384) && (y * y % p384 == (x * x * x + (p384 - 3) * x + b384) % p384)

/-- ECDSA P-384 verification of a SHA-384 digest: key and signature as big-endian halves (R410). -/
def ecdsaOk (key sig digest : List (BitVec 8)) : Bool :=
  let x := beNat (key.take 48)
  let y := beNat (key.drop 48)
  let r := beNat (sig.take 48)
  let s := beNat (sig.drop 48)
  if key.length ≠ 96 ∨ sig.length ≠ 96 ∨ r = 0 ∨ s = 0 ∨ r ≥ n384 ∨ s ≥ n384 ∨ ¬ onCurve x y then false
  else
    let w := invMod n384 s
    match ptAdd (ptMul (beNat digest * w % n384) (some (gx384, gy384))) (ptMul (r * w % n384) (some (x, y))) with
    | none => false
    | some (x1, _) => x1 % n384 == r

end Sys2Proof.Machine
end

