-- ==== Sys2Proof/Machine/Xlate.lean ====
section
/-!
DEFINITION. Machine/Xlate.lean: translation of virtual addresses (05 R134 to R158): table reads, the walk at both stages
with A and D updates, the TLBs and walk caches, TLBI, and the checks of 01 R20 to R22 on the physical address.
-/
namespace Sys2Proof.Machine

/-! ### Checks on the physical address (01 R20 to R22) -/

/-- The BUS_ERR SRC of an access before it is made (04 R112; 01 R21, R22; 05 R135), none if the combination is permitted. -/
def Pkg.regionErr (s : Pkg) (pa ai : Nat) : Option Nat :=
  match region pa with
  | 0 =>
    if ai = 5 ∨ ai = 6 then some 0
    else if pa ≥ s.memLimit then some 1 else none
  | 1 => if ai = 2 ∨ ai = 3 ∨ ai = 4 then none else some 0
  | 2 => if ai = 2 then none else some 0
  | 3 => if ai = 2 then none else some 0
  | 5 => if ai = 5 ∨ ai = 6 then none else some 0
  | _ => some 1

/-! ### Poison (06 R180) -/

/-- Poison is consumed by a thread: the consumer's record; under NATIVE the package fail-stops (R180, 17 R431, R432). -/
def Pkg.poisonUsed (s : Pkg) (w : Win) (pa : Nat) (h : Option Nat) : Pkg :=
  let e : Err := { cls := 2, code := 0x05, addr := some pa, htid := h }
  if s.boot.compat then s.record w e else (s.record w e).failStop w 2

/-! ### Table entries (R139 to R143) -/

/-- Why a translation fails: kind 0 TRANSLATION, 1 PERMISSION, 2 WALK_ABORT/BUS, 3 WALK_ABORT/DEVICE (04 R112); stage;
level; NC; the guest PA being translated. -/
structure XFault where
  kind : Nat
  stage : Nat := 0
  level : Nat := 0
  nc : Bool := false
  gpa : Option Nat := none
deriving DecidableEq, Repr

/-- A table entry's fields (R139). -/
structure Pte where
  v : Bool
  r : Bool
  w : Bool
  x : Bool
  u : Bool
  g : Bool
  a : Bool
  d : Bool
  ai : Nat
  sz : Nat
  pa : Nat
  low : Nat
deriving DecidableEq, Repr

def pteOf (e : Nat) : Pte :=
  { v := e.testBit 0, r := e.testBit 1, w := e.testBit 2, x := e.testBit 3, u := e.testBit 4, g := e.testBit 5
    a := e.testBit 6, d := e.testBit 7, ai := e / 2 ^ 8 % 8, sz := e / 2 ^ 11 % 64, pa := e / 2 ^ 18 % 2 ^ 46 * 4096
    low := e / 16 % 2 ^ 13 }

/-- What an entry is at level L (R140, R141, R143): a pointer to a table, a leaf, or a TRANSLATION fault. -/
inductive PteKind where
  | ptr (table : Nat)
  | leaf
  | bad
deriving DecidableEq, Repr

def Pte.kindAt (e : Pte) (L : Nat) : PteKind :=
  if !e.v then .bad
  else if !e.r && !e.w && !e.x then (if L = 4 ∨ e.low ≠ 0 then .bad else .ptr e.pa)
  else if e.w && !e.r then .bad
  else if e.sz < 9 * (4 - L) ∨ e.sz ≥ 9 * (5 - L) then .bad
  else if e.pa % 2 ^ (12 + e.sz) ≠ 0 ∨ e.ai = 7 then .bad
  else if e.pa ≥ 2 ^ 57 ∧ 12 + e.sz > 42 then .bad
  else .leaf

/-- The permission of an entry for an access kind, before U and A and D (R144). -/
def permits (k : AccKind) (r w x : Bool) (ai : Nat) : Bool :=
  match k with
  | .fetch => x && decide (ai ≤ 1)
  | .load => r
  | .store => w
  | .atomic => r && w

/-- The U column of R144: at U the entry needs U = 1; at S an entry with U = 1 is for data under SUM only. -/
def userOk (reg : Regime) (lvl : Nat) (sum : Bool) (k : AccKind) (u : Bool) : Bool :=
  match reg with
  | .us => if lvl = 0 then u else if u then (k != .fetch && sum) else true
  | _ => true

def AccKind.code : AccKind → Nat | .fetch => 0 | .load => 1 | .store => 2 | .atomic => 3
/-- Accesses that set D. -/
def AccKind.writes (k : AccKind) : Bool := k == .store || k == .atomic

/-- The combination of attribute indexes (R151). -/
def combineAi (s1 s2 : Nat) : Nat :=
  if s2 = 2 ∨ s2 = 3 ∨ s2 = 5 ∨ s2 = 6 then (if s1 = 2 ∧ s2 = 3 then 2 else s2)
  else if s1 = 0 ∧ s2 = 1 then 1
  else if s1 ≤ 1 ∧ s2 = 4 then 4
  else s1

/-! ### The walk (R145 to R151) -/

/-- The coherent 8-byte read of a table entry (R145, R149): the value, or the kind of abort. -/
def Pkg.readPte (s : Pkg) (w : Win) (h : Option Nat) (a : Nat) : Pkg × Except Nat Nat :=
  if a ≥ 2 ^ 51 then (s, .error 3)
  else if a ≥ s.memLimit then (s, .error 2)
  else
    let (s, x, p) := s.homeTake a 8
    if p then (s.poisonUsed w a h, .error 2) else (s, .ok x)

/-- The tags and controls of one translation: the regime's roots, what is on, and who asks; `ad`: A and D may be written
now (the update orders as an atomic of the thread, so its store buffer must be empty: R147, 03 R89). A walk that would
have to write them answers kind 9, no fault of the machine, and is made again. `noad`: an ATS translation request, which never
updates A or D (R160). -/
structure XCtx where
  win : Win
  h : Option Nat
  core : Option Nat
  reg : Regime
  vmid : Nat
  asid : Nat
  s1 : Bool
  s2 : Bool
  root : Nat
  s2root : Nat
  hwad : Bool
  s2hwad : Bool
  lvl : Nat
  sum : Bool
  ad : Bool := true
  noad : Bool := false
deriving DecidableEq, Repr

/-- A leaf that a walk found: the entry, its level, its address (for the A and D update). -/
structure Leaf where
  e : Pte
  level : Nat
deriving DecidableEq, Repr

/-- A and D of a leaf (R146, R147): the entry's new value, if hardware must set a bit. -/
def adUpdate (raw : Nat) (k : AccKind) : Option Nat :=
  let n := raw ||| 64 ||| (if k.writes then 128 else 0)
  if n = raw then none else some n

/-- The update is written at the home; that of an IOTU commits as an INB record on a captain (12 R320). -/
def Pkg.adWrite (s : Pkg) (x : XCtx) (a n : Nat) : Pkg :=
  (if x.h.isSome then s else
    s.inb { inbBlank with nbytes := 7, addr := a, be := 0xFF, data := (List.range 8).map (fun k => BitVec.ofNat 8 (n / 256 ^ k)) } [a / 64]).homeWrite a 8 n

/-- The walk cache entry for a pointer at `level` over the address bits above it. -/
def walkPre (va level : Nat) : Nat := va / 2 ^ (48 - 9 * level)

/-- The stage-2 walk of a guest PA from level L on (R150), with the pointers it passed; `fuel` counts the levels left. -/
def Pkg.s2Levels (s : Pkg) (x : XCtx) (gpa : Nat) (k : AccKind) : Nat → Nat → Nat → List (Nat × Nat) → Pkg × Except XFault (Leaf × List (Nat × Nat))
  | 0, L, _, _ => (s, .error { kind := 0, stage := 1, level := L, gpa := some gpa })
  | fuel + 1, L, table, ps =>
    let i := if L = 0 then gpa / 2 ^ 48 % 1024 else gpa / 2 ^ (48 - 9 * L) % 512
    let a := table + 8 * i
    match s.readPte x.win x.h a with
    | (s, .error ab) => (s, .error { kind := ab, stage := 1, level := L, gpa := some gpa })
    | (s, .ok raw) =>
      let e := pteOf raw
      match e.kindAt L with
      | .bad => (s, .error { kind := 0, stage := 1, level := L, gpa := some gpa })
      | .ptr t => s.s2Levels x gpa k fuel (L + 1) t (ps ++ [(L, t)])
      | .leaf =>
        if !permits k e.r e.w e.x e.ai || (!x.s2hwad && (!e.a || (k.writes && !e.d))) then
          (s, .error { kind := 1, stage := 1, level := L, gpa := some gpa })
        else
          match (if x.noad then none else adUpdate raw k) with
          | some n =>
            if x.ad then (s.adWrite x a n, .ok ({ e := pteOf n, level := L }, ps)) else (s, .error { kind := 9 })
          | none => (s, .ok ({ e := e, level := L }, ps))

/-- Install an entry (R154): it replaces those with the same tags, base and size, whatever ASID a global one was made under; the oldest
of a full structure goes. -/
def TlbE.same (o e : TlbE) : Bool :=
  o.reg == e.reg && o.vmid == e.vmid && (o.asid == e.asid || o.glob || e.glob) && o.part == e.part && o.va == e.va && o.sz == e.sz
def tlbPut (cap : Nat) (l : List TlbE) (e : TlbE) : List TlbE :=
  let l := l.filter (fun o => !o.same e)
  (if l.length < cap then l else l.drop 1) ++ [e]

/-- Pointers passed by a walk enter the walk cache of core c (R153). -/
def Pkg.ptrPut (s : Pkg) (c : Nat) (ws : List WalkC) : Pkg :=
  s.updCore c (fun q =>
    let wc := q.walkc.filter (fun w => !ws.any (fun n => n.reg == w.reg && n.stage2 == w.stage2 && n.vmid == w.vmid && n.asid == w.asid && n.level == w.level && n.pre == w.pre)) ++ ws
    { q with walkc := wc.drop (wc.length - 64) })

/-- The leaf that an entry of one stage alone holds. -/
def TlbE.leaf (e : TlbE) : Leaf :=
  { e := { v := true, r := e.r, w := e.w, x := e.x, u := e.u, g := e.glob, a := e.a, d := e.d, ai := e.ai, sz := e.sz - 12, pa := e.pa, low := 0 }
    level := e.level }

/-- The stage-2 translation of a guest PA: from a leaf that the core's L2 TLB holds, unless D must be set (R148), else by a walk from the
deepest pointer held (R150, R153). -/
def Pkg.s2Walk (s : Pkg) (x : XCtx) (gpa : Nat) (k : AccKind) : Pkg × Except XFault Leaf :=
  match x.core with
  | none =>
    match s.s2Levels x gpa k 5 0 x.s2root [] with
    | (s, .ok (l, _)) => (s, .ok l)
    | (s, .error f) => (s, .error f)
  | some c =>
    let held := (s.core c).tlb2.find? (fun e => e.part == 2 && e.vmid == x.vmid && gpa / 2 ^ e.sz == e.va / 2 ^ e.sz && !(k.writes && e.w && !e.d && x.s2hwad))
    match held with
    | some e =>
      if !permits k e.r e.w e.x e.ai || (!x.s2hwad && k.writes && !e.d) then (s, .error { kind := 1, stage := 1, level := e.level, gpa := some gpa })
      else (s, .ok e.leaf)
    | none =>
      let start := ((s.core c).walkc.filter (fun w => w.stage2 && w.vmid == x.vmid && w.pre == walkPre gpa w.level)).foldl
        (fun a w => if w.level + 1 > a.1 then (w.level + 1, w.table) else a) (0, x.s2root)
      match s.s2Levels x gpa k (5 - start.1) start.1 start.2 [] with
      | (s, .error f) => (s, .error f)
      | (s, .ok (l, ps)) =>
        let z := 12 + l.e.sz
        let b := gpa / 2 ^ z * 2 ^ z
        let e : TlbE := { reg := x.reg, vmid := x.vmid, asid := 0, glob := true, va := b, sz := z, pa := l.e.pa, r := l.e.r, w := l.e.w, x := l.e.x
                          u := true, a := l.e.a, d := l.e.d, ai := l.e.ai, level := l.level, s1 := false, part := 2
                          s2 := some { gpa := b, sz := z, r := l.e.r, w := l.e.w, x := l.e.x, d := l.e.d, ai := l.e.ai, level := l.level } }
        let s := s.ptrPut c (ps.map (fun p => { reg := x.reg, stage2 := true, vmid := x.vmid, asid := 0, level := p.1, pre := walkPre gpa p.1, table := p.2 }))
        (s.updCore c (fun q => { q with tlb2 := tlbPut 4096 q.tlb2 e }), .ok l)

/-- Where a leaf sends an address. -/
def Leaf.out (l : Leaf) (a : Nat) : Nat := l.e.pa + a % 2 ^ (12 + l.e.sz)

/-- The physical address of a table entry: through stage 2 where it applies, read as a load (R150); a table whose
stage-2 leaf is not AI 0 or 1 is treated as a device region (R151). -/
def Pkg.tableAddr (s : Pkg) (x : XCtx) (a : Nat) (k : AccKind) (L : Nat) : Pkg × Except XFault Nat :=
  if x.s2 then
    match s.s2Walk x a k with
    | (s, .error f) => (s, .error f)
    | (s, .ok l) => if l.e.ai ≤ 1 then (s, .ok (l.out a)) else (s, .error { kind := 3, level := L })
  else (s, .ok a)

/-- What a stage-1 walk found and the pointers it passed (level, prefix, table). -/
structure Walked where
  leaf : Leaf
  ptrs : List (Nat × Nat)
deriving DecidableEq, Repr

/-- The stage-1 walk from level L on (R146). The compare-and-swap of A and D cannot fail within one step. -/
def Pkg.s1Levels (s : Pkg) (x : XCtx) (va : Nat) (k : AccKind) :
    Nat → Nat → Nat → List (Nat × Nat) → Pkg × Except XFault Walked
  | 0, L, _, _ => (s, .error { kind := 0, level := L })
  | fuel + 1, L, table, ps =>
    let a0 := table + 8 * (va / 2 ^ (48 - 9 * L) % 512)
    match s.tableAddr x a0 .load L with
    | (s, .error f) => (s, .error f)
    | (s, .ok a) =>
      match s.readPte x.win x.h a with
      | (s, .error ab) => (s, .error { kind := ab, level := L })
      | (s, .ok raw) =>
        let e := pteOf raw
        match e.kindAt L with
        | .bad => (s, .error { kind := 0, level := L })
        | .ptr t => s.s1Levels x va k fuel (L + 1) t (ps ++ [(L, t)])
        | .leaf =>
          if !permits k e.r e.w e.x e.ai || !userOk x.reg x.lvl x.sum k e.u
              || (!x.hwad && (!e.a || (k.writes && !e.d))) then
            (s, .error { kind := 1, level := L })
          else
            match (if x.noad then none else adUpdate raw k) with
            | none => (s, .ok ⟨⟨e, L⟩, ps⟩)
            | some n =>
              if !x.ad then (s, .error { kind := 9 }) else
              match s.tableAddr x a0 .store L with
              | (s, .error f) => (s, .error f)
              | (s, .ok a) => (s.adWrite x a n, .ok ⟨⟨pteOf n, L⟩, ps⟩)

/-! ### Combined translation -/

/-- The TLB entry for what the two stages found (R150, R151, R153): the smaller page of the two. -/
def mkTlb (x : XCtx) (va : Nat) (l1 : Option Leaf) (gpa : Nat) (l2 : Option Leaf) : TlbE :=
  let z1 := match l1 with | some l => 12 + l.e.sz | none => 56
  let z := match l2 with | some l => min z1 (12 + l.e.sz) | none => z1
  let pa := match l2 with | some l => l.out gpa | none => gpa
  let b {α} (f : Pte → α) (d : α) : α := match l1 with | some l => f l.e | none => d
  { reg := x.reg, vmid := x.vmid, asid := x.asid, glob := b (·.g) false && x.reg == .us
    va := va / 2 ^ z * 2 ^ z, sz := z, pa := pa / 2 ^ z * 2 ^ z
    r := b (·.r) true, w := b (·.w) true, x := b (·.x) true, u := b (·.u) true, a := b (·.a) true, d := b (·.d) true
    ai := b (·.ai) 0, level := (match l1 with | some l => l.level | none => 0), s1 := l1.isSome
    s2 := match l2 with
      | some l => some { gpa := gpa / 2 ^ (12 + l.e.sz) * 2 ^ (12 + l.e.sz), sz := 12 + l.e.sz, r := l.e.r, w := l.e.w
                         x := l.e.x, d := l.e.d, ai := l.e.ai, level := l.level }
      | none => none }

/-- A stage-1 leaf alone that the core's L2 TLB holds for an address (R153), unless A or D must be set; a permission fault found from
it is taken (R148). -/
def Pkg.leaf1 (s : Pkg) (x : XCtx) (va : Nat) (k : AccKind) : Option (Except XFault Leaf) :=
  match x.core with
  | none => none
  | some c =>
    match (s.core c).tlb2.find? (fun e => e.part == 1 && e.reg == x.reg && e.vmid == x.vmid && (e.glob || e.asid == x.asid) && va / 2 ^ e.sz == e.va / 2 ^ e.sz) with
    | none => none
    | some e =>
      if !permits k e.r e.w e.x e.ai || !userOk x.reg x.lvl x.sum k e.u || (!x.hwad && (!e.a || (k.writes && !e.d))) then
        some (.error { kind := 1, level := e.level })
      else if !e.a || (k.writes && !e.d) then none
      else some (.ok e.leaf)

/-- Stage 1 of a translation: a leaf held alone, else a walk from the level and table given, whose leaf the L2 TLB then holds while
stage 2 is on. -/
def Pkg.s1Walk (s : Pkg) (x : XCtx) (va : Nat) (k : AccKind) (L table : Nat) : Pkg × Except XFault Walked :=
  match (if x.s2 then s.leaf1 x va k else none) with
  | some (.error f) => (s, .error f)
  | some (.ok l) => (s, .ok ⟨l, []⟩)
  | none =>
    match s.s1Levels x va k (5 - L) L table [], x.core with
    | (s, .ok w), some c =>
      if x.s2 then (s.updCore c (fun q => { q with tlb2 := tlbPut 4096 q.tlb2 { (mkTlb x va (some w.leaf) (w.leaf.out va) none) with part := 1 } }), .ok w)
      else (s, .ok w)
    | r, _ => r

/-- Translate an address (R146, R150): the entry made, and the stage-1 pointers passed. `L`, `table`: where a stage-1 walk starts. -/
def Pkg.walkFrom (s : Pkg) (x : XCtx) (va : Nat) (k : AccKind) (L table : Nat) : Pkg × Except XFault (TlbE × List (Nat × Nat)) :=
  if x.s1 then
    match s.s1Walk x va k L table with
    | (s, .error f) => (s, .error f)
    | (s, .ok w) =>
      let gpa := w.leaf.out va
      if x.s2 then
        match s.s2Walk x gpa k with
        | (s, .error f) => (s, .error f)
        | (s, .ok l2) => (s, .ok (mkTlb x va (some w.leaf) gpa (some l2), w.ptrs))
      else (s, .ok (mkTlb x va (some w.leaf) gpa none, w.ptrs))
  else
    match s.s2Walk x va k with
    | (s, .error f) => (s, .error f)
    | (s, .ok l2) => (s, .ok (mkTlb x va none va (some l2), []))

/-- The physical address and attribute index of an address in an entry. -/
def TlbE.outPa (e : TlbE) (va : Nat) : Nat := e.pa + va % 2 ^ e.sz
def TlbE.outAi (e : TlbE) : Nat := match e.s2 with | some l => combineAi e.ai l.ai | none => e.ai

/-- Permission from an entry that is held (R144, R148, R150): none permitted; some none: a new walk is needed. -/
def TlbE.check (e : TlbE) (x : XCtx) (va : Nat) (k : AccKind) : Option (Option XFault) :=
  if e.s1 && (!permits k e.r e.w e.x e.ai || !userOk x.reg x.lvl x.sum k e.u || (!x.hwad && !e.a)) then
    some (some { kind := 1, level := e.level })
  else if e.s1 && k.writes && !e.d then
    if x.hwad then some none else some (some { kind := 1, level := e.level })
  else
    match e.s2 with
    | none => none
    | some l =>
      let f : XFault := { kind := 1, stage := 1, level := l.level, gpa := some (l.gpa + (e.pa + va % 2 ^ e.sz) % 2 ^ l.sz) }
      if !permits k l.r l.w l.x l.ai then some (some f)
      else if k.writes && !l.d then (if x.s2hwad then some none else some (some f))
      else none

/-! ### A thread's translation -/

/-- Canonical addresses (03 R77). -/
def canonical (va : Word) : Bool := va == (va.setWidth 57).signExtend 64
def va57 (va : Word) : Nat := va.toNat % 2 ^ 57

/-- The regime of a level (R136). -/
def regimeOf (lvl : Nat) : Regime := if lvl ≤ 1 then .us else if lvl = 2 then .h else .m
def Regime.idx : Regime → Nat | .us => 0 | .h => 1 | .m => 2

/-- The translation context of thread h for accesses at a level (R136, R137). -/
def Pkg.xctx (s : Pkg) (h lvl : Nat) : XCtx :=
  let t := s.thr h
  let g := regimeOf lvl
  let ctl := t.rs (0x208 + g.idx)
  let vm := t.rs 0x210
  { win := .core (h / 8), h := some h, core := some (h / 8), reg := g
    vmid := if g = .us then bits vm 31 16 else 0, asid := if g = .us then bits (t.rs 0x204) 15 0 else 0
    s1 := ctl.getLsbD 0, s2 := g == .us && vm.getLsbD 0
    root := bits (t.rs (0x200 + g.idx)) 57 12 * 4096, s2root := bits (t.rs 0x211) 57 13 * 8192
    hwad := ctl.getLsbD 1, s2hwad := vm.getLsbD 1, lvl := lvl, sum := ctl.getLsbD 2 }

/-- Whether an entry matches (R136, R153): tags and page. An entry keeps matching whatever is written to the controls (R138). -/
def TlbE.hits (e : TlbE) (x : XCtx) (va : Nat) : Bool :=
  e.part == 0 && e.reg == x.reg && e.vmid == x.vmid && (e.glob || e.asid == x.asid) && va / 2 ^ e.sz == e.va / 2 ^ e.sz

/-- The outcome of a translation. -/
inductive XRes where
  | ok (pa ai : Nat)
  | fault (f : XFault)
  | miss
deriving DecidableEq, Repr

/-- Translation with no table: off, or not canonical (R77, R137); none when the tables decide. -/
def xlateFlat (x : XCtx) (va : Word) (k : AccKind) : Option XRes :=
  let a := va57 va
  if !canonical va then some (.fault { kind := 0, nc := true })
  else if !x.s1 && !x.s2 then
    if va.toNat ≥ 2 ^ 52 then some (.fault { kind := 0 })
    else if a < 2 ^ 51 then some (.ok a 0)
    else if k = .fetch then some (.fault { kind := 1 })
    else some (.ok a 2)
  else if !x.s1 && decide (va.toNat ≥ 2 ^ 56) then some (.fault { kind := 0 })
  else none

/-- One entry among those that match (R155): which one is free when there is more than one. -/
def Pkg.pickTlb (s : Pkg) (l : List TlbE) : Pkg × Option TlbE :=
  match l with
  | [] => (s, none)
  | [e] => (s, some e)
  | _ => let (w, s) := s.draw; (s, l[w.toNat % l.length]?)

/-- Translate through the TLBs of thread h's core at a level (R146, R148, R153). -/
def Pkg.xlate (s : Pkg) (h lvl : Nat) (va : Word) (k : AccKind) : Pkg × XRes :=
  let x := s.xctx h lvl
  let a := va57 va
  match xlateFlat x va k with
  | some r => (s, r)
  | none =>
    let c := h / 8
    let l1 := if k = .fetch then (s.core c).itlb else (s.core c).dtlb
    let (s, e) := s.pickTlb (l1.filter (·.hits x a))
    let (s, e) : Pkg × Option TlbE := match e with
      | some e => (s, some e)
      | none =>
        let (s, e) := s.pickTlb ((s.core c).tlb2.filter (·.hits x a))
        match e with
        | none => (s, none)
        | some e => (s.updCore c (fun q => if k = .fetch then { q with itlb := tlbPut 48 q.itlb e } else { q with dtlb := tlbPut 64 q.dtlb e }), some e)
    match e with
    | none => (s, .miss)
    | some e =>
      match e.check x a k with
      | none => (s, .ok (e.outPa a) e.outAi)
      | some (some f) => (s, .fault f)
      | some none => (s, .miss)

/-- The deepest cached pointer for an address (R146, R153): the level to go on from and its table. -/
def Pkg.walkStart (s : Pkg) (x : XCtx) (va : Nat) : Nat × Nat :=
  match x.core with
  | none => (0, x.root)
  | some c =>
    let l := (s.core c).walkc.filter (fun w => w.reg == x.reg && w.vmid == x.vmid && w.asid == x.asid && !w.stage2
      && w.pre == walkPre va w.level)
    l.foldl (fun a w => if w.level + 1 > a.1 then (w.level + 1, w.table) else a) (0, x.root)

/-- A walk for a thread (R146): it starts at a cached pointer, installs the entry it makes and the pointers it passed. What another L1
TLB held of the same page under these tags is replaced, so that no later access uses it (R156). -/
def Pkg.walk (s : Pkg) (h lvl : Nat) (va : Word) (k : AccKind) : Pkg × Except XFault TlbE :=
  let x := { s.xctx h lvl with ad := (s.thr h).sb.isEmpty && (s.thr h).await.isNone }
  let a := va57 va
  let (L, t) := if x.s1 then s.walkStart x a else (0, 0)
  match s.walkFrom x a k L t with
  | (s, .error f) => (s, .error f)
  | (s, .ok (e, ps)) =>
    let ws : List WalkC := ps.map (fun p => { reg := x.reg, stage2 := false, vmid := x.vmid, asid := x.asid, level := p.1, pre := walkPre a p.1, table := p.2 })
    let s := (s.ptrPut (h / 8) ws).updCore (h / 8) (fun q =>
      { q with tlb2 := tlbPut 4096 q.tlb2 e
               itlb := if k = .fetch then tlbPut 48 q.itlb e else q.itlb.filter (fun o => !o.same e)
               dtlb := if k = .fetch then q.dtlb.filter (fun o => !o.same e) else tlbPut 64 q.dtlb e })
    (s, .ok e)

/-- Translate, walking within the step when the TLBs do not hold the address. -/
def Pkg.xlateNow (s : Pkg) (h lvl : Nat) (va : Word) (k : AccKind) : Pkg × Except XFault (Nat × Nat) :=
  match s.xlate h lvl va k with
  | (s, .ok pa ai) => (s, .ok (pa, ai))
  | (s, .fault f) => (s, .error f)
  | (s, .miss) =>
    match s.walk h lvl va k with
    | (s, .ok e) => (s, .ok (e.outPa (va57 va), e.outAi))
    | (s, .error f) => (s, .error f)

/-! ### The vector and FINFO of a translation fault (R152, 04 R112) -/

def XFault.vector (f : XFault) (k : AccKind) : Nat :=
  let n := match k with | .fetch => 0 | .load => 1 | _ => 2
  if f.kind ≥ 2 then 9 else if f.stage = 1 then 10 else if f.kind = 0 then 3 + n else 6 + n
def XFault.finfo (f : XFault) (k : AccKind) (half : Bool) : Nat :=
  f.kind + f.stage * 4 + (if f.nc then 8 else 0) + f.level * 16 + (if half then 256 else 0) + k.code * 1024

/-! ### TLBI (03 R98, R157) -/

/-- Whether TLBI TYPE with operand `op` under VMID `vm`, executed at level `lvl`, removes an entry. -/
def tlbiHits (ty : Nat) (op : Word) (vm lvl : Nat) (e : TlbE) : Bool :=
  let us := e.reg == .us && e.vmid == vm
  let page := op.toNat % 2 ^ 45 * 4096
  let here := e.part != 2 && page / 2 ^ (max e.sz 12) == e.va / 2 ^ (max e.sz 12)
  let other := e.reg != .us && decide (lvl ≥ 2)
  match ty with
  | 0 => here && ((us && (e.glob || e.asid == op.toNat / 2 ^ 48)) || other)
  | 1 => us && !e.glob && e.asid == op.toNat
  | 2 => here && (us || other)
  | 3 => e.reg == .us && e.vmid == op.toNat
  | 4 => if lvl ≥ 2 then true else us
  | _ => us && (match e.s2 with | some l => op.toNat % 2 ^ 46 * 4096 / 2 ^ l.sz == l.gpa / 2 ^ l.sz | none => false)

/-- Whether it removes a cached pointer. -/
def tlbiHitsWalk (ty : Nat) (op : Word) (vm lvl : Nat) (w : WalkC) : Bool :=
  let us := w.reg == .us && w.vmid == vm
  let here := !w.stage2 && walkPre (op.toNat % 2 ^ 45 * 4096) w.level == w.pre
  let other := w.reg != .us && decide (lvl ≥ 2)
  match ty with
  | 0 => here && ((us && w.asid == op.toNat / 2 ^ 48) || other)
  | 1 => us && !w.stage2 && w.asid == op.toNat
  | 2 => here && (us || other)
  | 3 => w.reg == .us && w.vmid == op.toNat
  | 4 => if lvl ≥ 2 then true else us
  | _ => us && w.stage2 && walkPre (op.toNat % 2 ^ 46 * 4096) w.level == w.pre

/-- Operand bits that R98 requires to be 0. -/
def tlbiOperandOk (ty : Nat) (op : Word) : Bool :=
  match ty with
  | 0 => bits op 47 45 == 0
  | 1 | 3 => decide (op.toNat < 2 ^ 16)
  | 2 => decide (op.toNat < 2 ^ 45)
  | 4 => true
  | _ => decide (op.toNat < 2 ^ 46)

/-- A parity error in core c's translation structures (R153): the entries that hold an address are dropped, and the next access to it
walks anew. -/
def Pkg.tlbParity (s : Pkg) (c va : Nat) : Pkg :=
  s.updCore c (fun q =>
    let keep := fun (e : TlbE) => va / 2 ^ e.sz != e.va / 2 ^ e.sz
    { q with itlb := q.itlb.filter keep, dtlb := q.dtlb.filter keep, tlb2 := q.tlb2.filter keep
             walkc := q.walkc.filter (fun w => walkPre va w.level != w.pre) })

/-- TLBI on every core (R98). -/
def Pkg.tlbi (s : Pkg) (ty : Nat) (op : Word) (vm lvl : Nat) : Pkg :=
  s.cores.foldl (fun s p => s.updCore p.1 (fun q =>
    let keep := fun e => !tlbiHits ty op vm lvl e
    { q with itlb := q.itlb.filter keep, dtlb := q.dtlb.filter keep, tlb2 := q.tlb2.filter keep
             walkc := q.walkc.filter (fun w => !tlbiHitsWalk ty op vm lvl w) })) s

end Sys2Proof.Machine
end

