-- ==== Sys2Proof/Machine/Chunk.lean ====
section
/-!
DEFINITION. Machine/Chunk.lean: PMU counts (02 R66, R67); the Tandem unit's part in every access: chunks, signatures, commits and INB records of a
paired captain, outputs and their digests, vector 33 (12 R312 to R328, R344, R345).
-/
namespace Sys2Proof.Machine

/-! ### PMU (02 R66, R67) -/

/-- TIC_SYSPEND bits 2 and 5 follow their sources (R130). -/
def Pkg.setLevel (s : Pkg) (h v : Nat) (on : Bool) : Pkg :=
  if s.pendv h v = on then s else (s.putPend h v on).ticChanged h (s.ripe h)

/-- PMU's source: an overflow bit whose counter has OVI, the thread's own or of a shared counter over the thread. -/
def Pkg.pmuOn (s : Pkg) (h : Nat) : Bool :=
  let t := s.thr h
  let k := s.core (h / 8)
  (List.range 8).any (fun i => (t.rs 0x510).getLsbD i && (t.rs (0x508 + i)).getLsbD 12)
    || (List.range 8).any (fun i =>
      let sel := Map.get w0 k.csr (0x528 + i)
      (Map.get w0 k.csr 0x510).getLsbD (8 + i) && sel.getLsbD 12 && sel.getLsbD (16 + h % 8))
def Pkg.pmuLevel (s : Pkg) (h : Nat) : Pkg := s.setLevel h 37 (s.pmuOn h)
/-- The same for every thread of a core. -/
def Pkg.pmuCore (s : Pkg) (c : Nat) : Pkg := (List.range 8).foldl (fun s t => s.pmuLevel (8 * c + t)) s

/-- FREEZE stops the thread's counters once one has wrapped, until software clears its overflow bit (DESIGN CHOICE, log entry 34: R66
does not say how counting resumes). -/
def Thread.frozen (t : Thread) : Bool := (t.rs 0x511).getLsbD 1 && decide (bits (t.rs 0x510) 7 0 ≠ 0)

/-- Counter i of thread h wraps: PMC0 to 7, CPMC0 to 7 as 8 to 15 (R66). -/
def Pkg.pmcWrap (s : Pkg) (h i : Nat) : Pkg :=
  if i < 8 then
    (s.updThr h (fun t => (t.ws (0x500 + i) 0#64).ws 0x510 (t.rs 0x510 ||| BitVec.ofNat 64 (2 ^ i)))).pmuLevel h
  else
    (s.updCore (h / 8) (fun k => { k with
      csr := Map.set w0 (Map.set w0 k.csr (0x520 + i - 8) 0#64) 0x510 (Map.get w0 k.csr 0x510 ||| BitVec.ofNat 64 (2 ^ i)) })).pmuCore (h / 8)

/-- Whether a PMSEL or CPSEL counts event `ev` at a level. -/
def selects (sel : Word) (ev lvl : Nat) : Bool := sel.getLsbD 13 && bits sel 7 0 == ev && sel.getLsbD (8 + lvl)

/-- Event `ev` of thread h, `n` times: counted while the thread is in RUN (R66). -/
def Pkg.pmu (s : Pkg) (h ev : Nat) (n : Nat := 1) : Pkg :=
  let t := s.thr h
  if t.st != .run || n == 0 then s else
  let s : Pkg := (List.range 8).foldl (fun s i =>
    if selects (t.rs (0x508 + i)) ev t.lvl && !t.frozen then
      let x := (t.rs (0x500 + i)).toNat + n
      if x ≥ 2 ^ 48 then (s.pmcWrap h i).updThr h (·.ws (0x500 + i) (BitVec.ofNat 64 (x % 2 ^ 48)))
      else s.updThr h (·.ws (0x500 + i) (BitVec.ofNat 64 x))
    else s) s
  (List.range 8).foldl (fun s i =>
    let sel := Map.get w0 (s.core (h / 8)).csr (0x528 + i)
    if selects sel ev t.lvl && sel.getLsbD (16 + h % 8) then
      let x := (Map.get w0 (s.core (h / 8)).csr (0x520 + i)).toNat + n
      let put (s : Pkg) := s.updCore (h / 8) (fun k => { k with csr := Map.set w0 k.csr (0x520 + i) (BitVec.ofNat 64 (x % 2 ^ 48)) })
      if x ≥ 2 ^ 48 then put (s.pmcWrap h (8 + i)) else put s
    else s) s

/-- Whether a thread in this state, at this level, lets a counter of a cycle event run (R67): cycles in RUN, in PARKED, in TIMEWAIT, and
for a shared counter cycles in any state. The other events are counted as they happen. -/
def Thread.cycles (t : Thread) (sel : Word) (shared : Bool) : Bool :=
  let ev := bits sel 7 0
  sel.getLsbD 13 && sel.getLsbD (8 + t.lvl)
    && (match t.st with
      | .run => [0x00, 0x03, 0x04, 0x05, 0x06, 0x07, 0x11, 0x13, 0x14, 0x19].contains ev
      | .parked => ev == 0x21
      | .timewait => ev == 0x22
      | _ => false)
    || (sel.getLsbD 13 && shared && ev == 0x01)

/-- PMC_WRAP: an enabled counter of cycles, which the model does not count, wraps. -/
def Pkg.pmcWraps (s : Pkg) (h i : Nat) : Pkg :=
  let c := h / 8
  let run :=
    if i < 8 then (s.thr h).cycles ((s.thr h).rs (0x508 + i)) false && !(s.thr h).frozen
    else
      let sel := Map.get w0 (s.core c).csr (0x528 + i - 8)
      (List.range 8).any (fun u => sel.getLsbD (16 + u) && (s.thr (8 * c + u)).cycles sel true)
  if run && s.coreP c == 0 then s.pmcWrap h i else s

/-- What the program still has out: a thread's unacknowledged writes and atomics (03 R91). -/
def GFor.writesOf (w : GFor) (h : Nat) : Bool := w == .store h || w == .atomic h || w == .wb (some h) || w == .msg h
def Fab.unacked (f : Fab) (h : Nat) : Bool :=
  f.gq.any (fun g => g.who.writesOf h) || f.src.any (fun q => q.2.out.any (fun o => o.who.writesOf h))

/-! ### States (R312) -/

/-- The members whose lines and outputs follow the pair's rules (R324): both, from the cut-over on. -/
def Pkg.inPair (s : Pkg) : Bool := s.tdmState == 5 || s.tdmState == 8 || s.tdmState == 9 || s.tdmState == 10
/-- Whether this member's threads run of their own accord. -/
def Pkg.threadsRun (s : Pkg) : Bool :=
  match s.tdmState with
  | 0 | 3 | 4 | 5 => !s.tdm.pause
  | 9 => s.tdm.live
  | _ => false

/-- Vector 33 with a TDMCODE (R344), in TDM_STAT.LASTCODE and the Odometer. -/
def Pkg.tdmCode (s : Pkg) (code : Nat) : Pkg :=
  let s := s.wf tdmBase 23 16 code
  let s := s.liveAdd (0x320 + 4 * (code - 1)) 4 1
  let s := s.odoEvent 0x0B 9 159 code (s.rd tdmBase).toNat
  s.raiseVec (s.rf (tdmBase + 8) 42 32) 33 (BitVec.ofNat 64 code)

/-! ### Signatures (R315, R317) -/

/-- Whether an access of another agent conflicts with an open chunk (R315). -/
def Chunk.conflicts (k : Chunk) (line : Nat) (write : Bool) : Bool :=
  sigHits k.wsig line || (write && sigHits k.rsig line)

/-- Whether an access by thread h (none: another agent) meets a conflict, and so waits for the holder's commit. -/
def Pkg.sigWait (s : Pkg) (h : Option Nat) (line : Nat) (write : Bool) : Bool :=
  s.paired && s.threads.any (fun p => some p.1 != h && match p.2.chunk with | some k => k.conflicts line write | none => false)

/-- The lag of R329 in ns, from the record that the latest PROGRESS names (before any, from the first). -/
def Pkg.lag (s : Pkg) : Nat :=
  if s.tdm.gsn ≤ s.tdm.progress then 0
  else
    match s.tdm.commits.head? with
    | none => 0
    | some (_, t) => s.cadNs - t

/-- TDM_LAG (R329). -/
def Pkg.showLag (s : Pkg) : Pkg :=
  let l := min s.lag (2 ^ 32 - 1)
  (s.wf (tdmBase + 0x20) 31 0 l).wf (tdmBase + 0x20) 63 32 (max l (s.rf (tdmBase + 0x20) 63 32))

/-- The lag exceeds TDM_CFG.LAG_LIMIT. -/
def Pkg.lagging (s : Pkg) : Bool := decide (s.lag > 1000 * s.rf (tdmBase + 8) 6 0)

/-- The thread goes on from another address: what it had fetched is discarded. -/
def Pkg.redirect (s : Pkg) (h : Nat) (pc : Word) : Pkg :=
  s.updThr h (fun t => { t with
    pc := pc, queue := [], fpc := pc, redirect := true, fstall := false, held := false, hparts := [], walk := none, long := false, sel := false, ebuf := [] })

/-- A load that has passed its hold time and awaits its value is undone with what its thread has done since: it made no access that any
other agent could see (02 R42, R62; R314; log entry 13). `keep`: it stays awaited. -/
def Pkg.undoLoad (s : Pkg) (h : Nat) (keep : Option Await) : Pkg :=
  match (s.thr h).await with
  | some a =>
    match a.snap with
    | some n =>
      (s.updThr h (fun t => { t with g := n.g, f := n.f, v := n.v, sr := n.sr, chunk := n.chunk, sb := t.sb.take a.nsb, await := keep })).redirect h a.pc
    | none => s
  | none => s

/-- Thread h's chunk ends and commits, and its next one opens (R313, R314, R319); `value` is the input consumed, in
`vlen` bytes. -/
def Pkg.commit (s : Pkg) (h cause : Nat) (arg fault dfl : Nat := 0) (value : Nat := 0) (vlen : Nat := 0) : Pkg :=
  if !s.paired then s
  else
    let k := ((s.thr h).chunk).getD {}
    let r : ChunkRec := {
      gsn := s.tdm.gsn + 1, htid := Fin.ofNat 2048 h, steps := k.steps, cause := cause, arg := arg, fault := fault, dfl := dfl
      pred := s.pred k.rsig k.wsig, drn := k.drn, tCommit := s.cadNs
      value := (List.range (16 * ((vlen + 15) / 16))).map (fun i => BitVec.ofNat 8 (value % 256 ^ vlen / 256 ^ i)) }
    let s := s.sendRec (.chunk r) k.rsig k.wsig
    let s := s.updThr h (fun t => (t.ws 0x600 (BitVec.ofNat 64 (((t.rs 0x600).toNat + 1) % 2 ^ 48)))
      |> fun t => { t with chunk := some { t0 := s.cadNs } })
    let s := s.showLag.pmu h 0x25
    if s.lagging then s.updThr h (fun t => { t with lagged := true }) else s

/-- Thread h's chunk ends at its boundary for a reason that the thread does not make itself: a load that has been selected and has not
been performed is the first step of the next chunk (R314). -/
def Pkg.endChunk (s : Pkg) (h cause : Nat) (arg : Nat := 0) (value : Nat := 0) (vlen : Nat := 0) : Pkg :=
  (s.undoLoad h none).commit h cause arg 0 0 value vlen

/-- Change thread h's open chunk. -/
def Pkg.updChunk (s : Pkg) (h : Nat) (f : Chunk → Chunk) : Pkg :=
  if s.paired then s.updThr h (fun t => { t with chunk := some (f (t.chunk.getD { t0 := s.cadNs })) }) else s

/-- A step of the chunk (R313): a retired instruction or a granule. The first step starts the TIME limit. A replayed
chunk's steps are counted (R322). -/
def Pkg.chunkStep (s : Pkg) (h : Nat) : Pkg :=
  if s.replaying then { s with tdm := { s.tdm with steps := s.tdm.steps + 1 } }
  else s.updChunk h (fun k => { k with steps := k.steps + 1, t0 := if k.steps = 0 then s.cadNs else k.t0 })
/-- A chunk has all its 16,384 steps. -/
def Thread.full (t : Thread) : Bool := match t.chunk with | some k => decide (k.steps ≥ 16384) | none => false
/-- A line of the chunk's signatures has left the tile: no further step belongs to it (R315). -/
def Thread.due (t : Thread) : Bool := match t.chunk with | some k => k.due | none => false
/-- The end of a step: a chunk that must end ends with cause CONFLICT, one of 16,384 steps with cause LIMIT unless it has just ended, once
its loads have been performed. -/
def Pkg.chunkLimit (s : Pkg) (h : Nat) : Pkg :=
  if (s.thr h).await.isSome then s
  else if (s.thr h).due then s.commit h 12
  else if (s.thr h).full then s.commit h 17 else s
def Pkg.chunkRead (s : Pkg) (h line : Nat) : Pkg :=
  s.updChunk h (fun k => { k with rsig := if k.rsig.contains line then k.rsig else line :: k.rsig })
def Pkg.chunkWrite (s : Pkg) (h line : Nat) : Pkg :=
  s.updChunk h (fun k => { k with wsig := if k.wsig.contains line then k.wsig else line :: k.wsig })
/-- A drain of the store buffer counts in DRN (R316). -/
def Pkg.chunkDrain (s : Pkg) (h : Nat) : Pkg := s.updChunk h (fun k => { k with drn := k.drn + 1 })

/-! ### Outputs (R325 to R328) -/

/-- CRC-64 with polynomial 0x42F0E1EBA9EA3693, initial value and final XOR all ones, no reflection (R325). -/
def crc64Byte (c : Word) (b : BitVec 8) : Word :=
  (List.range 8).foldl (fun c _ => if c.getLsbD 63 then (c <<< 1) ^^^ 0x42F0E1EBA9EA3693#64 else c <<< 1)
    (c ^^^ (b.setWidth 64 <<< 56))
def crc64 (l : List (BitVec 8)) : Word := (l.foldl crc64Byte (BitVec.allOnes 64)) ^^^ BitVec.allOnes 64

def leBytes (n x : Nat) : List (BitVec 8) := (List.range n).map (fun k => BitVec.ofNat 8 (x / 256 ^ k))

/-- The canonical form of an output (R325; the widths of class, size and address are the model's: log entry 24). -/
def OutWhat.canon (cls : Nat) : OutWhat → List (BitVec 8)
  | .dev r => leBytes 1 cls ++ leBytes 1 r.n ++ leBytes 8 r.pa ++ leBytes r.n r.data
  | .fab p _ => p.zipIdx.flatMap (fun q =>
      let x := if q.2 = 0 then q.1 &&& ~~~0xFFFFFFFFFFFFFFFFFFF803E000000000#128 else q.1
      leBytes 16 x.toNat)
  | .mgt off n data => leBytes 1 cls ++ leBytes 1 n ++ leBytes 8 off ++ leBytes n data

/-- Whether output class c is held for comparison. -/
def Pkg.compares (s : Pkg) (c : Nat) : Bool := !s.rb (tdmBase + 8) (12 + c)

/-- The hold buffer has room (R326): 4,096 outputs, 1 MiB. -/
def OutWhat.size : OutWhat → Nat
  | .dev r => r.n
  | .fab p _ => 16 * p.length
  | .mgt _ n _ => n
def Pkg.holdRoom (s : Pkg) : Bool :=
  decide (s.tdm.hold.length < 4096) && decide ((s.tdm.hold.map (·.what.size)).sum < 2 ^ 20) && !s.rb tdmBase 9

/-- New outputs wait: the hold buffer is full, or a divergence withholds outputs (R326, R338). -/
def Pkg.holdFull (s : Pkg) : Bool := (s.paired && !s.holdRoom) || s.rb tdmBase 9

/-- Form an output on a paired captain (R326, R327): it is numbered, held, and described by an OUTMAP. -/
def Pkg.formOut (s : Pkg) (cls : Nat) (h : Option Nat) (gsn : Nat) (w : OutWhat) (dst epoch seq : Nat) (go : Bool := false) : Pkg :=
  let osn := s.tdm.osn + 1
  let e : Held := { osn := osn, cls := cls, h := h, what := w, digest := crc64 (w.canon cls), go := go || !s.compares cls }
  { s with tdm := { s.tdm with
      osn := osn % 2 ^ 32, hold := s.tdm.hold ++ [e]
      log := s.tdm.log ++ [.outmap { gsn := gsn, osn := osn, cls := cls, inb := h.isNone, dst := dst, epoch := epoch, seq := seq }] } }

/-- The register digest of a checkpoint (R323). -/
def Thread.digest (t : Thread) : Word :=
  crc64 (((List.range 31).flatMap (fun i => leBytes 8 (t.rg (i + 1)).toNat))
    ++ ((List.range 32).flatMap (fun i => leBytes 8 (t.rF i).toNat))
    ++ ((List.range 32).flatMap (fun i => leBytes 32 (t.rV i).toNat))
    ++ leBytes 8 t.pc.toNat ++ leBytes 8 t.ps.toNat ++ leBytes 8 (t.rs 0x018).toNat)

end Sys2Proof.Machine
end

