-- ==== Sys2Proof/Machine/Deflate.lean ====
section
/-!
DEFINITION. Machine/Deflate.lean: the checks and the Deflate method of the compression pipelines (15 R382 to R388): CRC-32 and
Adler-32, a decoder of RFC 1951 with the failures of R396, blocks as COMPRESS emits them, framing.
-/
namespace Sys2Proof.Machine

/-! ### Check values (R384) -/

def crc32Bit (c : BitVec 32) : BitVec 32 := if c.getLsbD 0 then (c >>> 1) ^^^ 0xEDB88320#32 else c >>> 1
def crc32Byte (c : BitVec 32) (b : Byte) : BitVec 32 := (List.range 8).foldl (fun c _ => crc32Bit c) (c ^^^ b.setWidth 32)
def crc32 (l : List Byte) : Nat := ((l.foldl crc32Byte (BitVec.allOnes 32)) ^^^ BitVec.allOnes 32).toNat
def adler32 (l : List Byte) : Nat :=
  let r := l.foldl (fun (p : Nat × Nat) b => let a := (p.1 + b.toNat) % 65521; (a, (p.2 + a) % 65521)) (1, 0)
  r.2 * 65536 + r.1

/-! ### The decoder -/

/-- n bits at bit position p, the first the least significant. -/
def bitsAt (src : Array Byte) (p n : Nat) : Option Nat :=
  if p + n ≤ 8 * src.size then
    some ((List.range n).foldl (fun a i => a + (if (src.getD ((p + i) / 8) 0#8).getLsbD ((p + i) % 8) then 2 ^ i else 0)) 0)
  else none

/-- A decoder: bit position, output (newest first), bytes produced, bytes before them that a distance may reach, the status
and source offset of a failure, whether the final block has ended, the type of the last block. -/
structure Inf where
  pos : Nat := 0
  out : List Byte := []
  n : Nat := 0
  hist : Nat := 0
  err : Option (Nat × Nat) := none
  fin : Bool := false
  typ : Nat := 0
deriving DecidableEq, Repr

def Inf.fail (x : Inf) (st off : Nat) : Inf := { x with err := some (st, off) }
/-- The source ends before the stream does. -/
def Inf.short (x : Inf) : Inf := x.fail 2 0
/-- Produce a byte; a byte beyond the destination is DST_OVERFLOW. -/
def Inf.put (lim : Nat) (x : Inf) (b : Byte) : Inf :=
  if x.err.isSome then x else if x.n ≥ lim then x.fail 1 0 else { x with out := b :: x.out, n := x.n + 1 }
/-- Copy from a distance. -/
def Inf.copy (lim d : Nat) : Nat → Inf → Inf
  | 0, x => x
  | k + 1, x => Inf.copy lim d k (x.put lim (x.out.getD (d - 1) 0#8))

/-- Decode one symbol of a canonical code (lengths by symbol) at a position: none where the source ends (`.error true`) or no
code fits. `L` counts the lengths from 1. -/
def huffGo (lens : List Nat) (src : Array Byte) (p : Nat) : Nat → Nat → Nat → Nat → Except Bool (Nat × Nat)
  | 0, _, _, _ => .error false
  | f + 1, L, code, first =>
    match bitsAt src (p + L - 1) 1 with
    | none => .error true
    | some b =>
      let code := code * 2 + b
      let syms := (lens.zipIdx.filter (·.1 == L)).map (·.2)
      let first := first * 2
      if first ≤ code ∧ code - first < syms.length then .ok (syms.getD (code - first) 0, p + L)
      else huffGo lens src p f (L + 1) code (first + syms.length)
def huff (lens : List Nat) (src : Array Byte) (p : Nat) : Except Bool (Nat × Nat) := huffGo lens src p 15 1 0 0

/-- Whether code lengths are neither oversubscribed nor incomplete; one code of one bit, or none, is accepted where `one`. -/
def huffOk (lens : List Nat) (one : Bool) : Bool :=
  let u := lens.filter (· != 0)
  let k := (u.map (fun l => 2 ^ (15 - l))).sum
  k == 2 ^ 15 || (one && (u.isEmpty || u == [1]))

/-- Bases and extra bits of length codes 257 on and of distance codes. -/
def lenBase : List Nat := [3, 4, 5, 6, 7, 8, 9, 10, 11, 13, 15, 17, 19, 23, 27, 31, 35, 43, 51, 59, 67, 83, 99, 115, 131, 163, 195, 227, 258]
def lenExtra : List Nat := [0, 0, 0, 0, 0, 0, 0, 0, 1, 1, 1, 1, 2, 2, 2, 2, 3, 3, 3, 3, 4, 4, 4, 4, 5, 5, 5, 5, 0]
def distExtra (c : Nat) : Nat := if c < 2 then 0 else c / 2 - 1
def distBase (c : Nat) : Nat := if c < 2 then c + 1 else (2 + c % 2) * 2 ^ (c / 2 - 1) + 1

/-- The symbols of a block up to its end-of-block code. -/
def infSyms (src : Array Byte) (lim : Nat) (ll dl : List Nat) : Nat → Inf → Inf
  | 0, x => x.short
  | f + 1, x =>
    if x.err.isSome then x
    else
      match huff ll src x.pos with
      | .error true => x.short
      | .error false => x.fail 0x14 (x.pos / 8)
      | .ok (c, p) =>
        if c < 256 then infSyms src lim ll dl f ({ x with pos := p }.put lim (BitVec.ofNat 8 c))
        else if c = 256 then { x with pos := p }
        else if c ≥ 286 then x.fail 0x14 (x.pos / 8)
        else
          match bitsAt src p (lenExtra.getD (c - 257) 0) with
          | none => x.short
          | some e =>
            let len := lenBase.getD (c - 257) 0 + e
            let p := p + lenExtra.getD (c - 257) 0
            match huff dl src p with
            | .error true => x.short
            | .error false => x.fail 0x14 (p / 8)
            | .ok (dc, p2) =>
              if dc ≥ 30 then x.fail 0x14 (p / 8)
              else
                match bitsAt src p2 (distExtra dc) with
                | none => x.short
                | some e =>
                  let d := distBase dc + e
                  if d > x.hist + x.n then x.fail 0x15 (p / 8)
                  else infSyms src lim ll dl f ({ x with pos := p2 + distExtra dc }.copy lim d len)

/-- The order of the code length code's lengths. -/
def clOrder : List Nat := [16, 17, 18, 0, 8, 7, 9, 6, 10, 5, 11, 4, 12, 3, 13, 2, 14, 1, 15]
/-- The lengths that a dynamic header gives: `m` of them, newest first in `acc`; `.error true` where the source ends. -/
def infLens (src : Array Byte) (cl : List Nat) (m : Nat) : Nat → Nat → List Nat → Except Bool (List Nat × Nat)
  | 0, _, _ => .error false
  | f + 1, p, acc =>
    if acc.length = m then .ok (acc.reverse, p)
    else if acc.length > m then .error false
    else
      match huff cl src p with
      | .error e => .error e
      | .ok (c, p) =>
        if c < 16 then infLens src cl m f p (c :: acc)
        else
          let k := if c = 16 then 2 else if c = 17 then 3 else 7
          match bitsAt src p k with
          | none => .error true
          | some e =>
            if c = 16 ∧ acc.isEmpty then .error false
            else
              let v := if c = 16 then acc.headD 0 else 0
              infLens src cl m f (p + k) (List.replicate (e + if c = 18 then 11 else 3) v ++ acc)

def fixedLL : List Nat := List.replicate 144 8 ++ List.replicate 112 9 ++ List.replicate 24 7 ++ List.replicate 8 8
def fixedD : List Nat := List.replicate 32 5

/-- Bytes of a stored block. -/
def infStored (src : Array Byte) (lim : Nat) : Nat → Inf → Inf
  | 0, x => x
  | k + 1, x =>
    if x.err.isSome then x
    else
      match bitsAt src x.pos 8 with
      | none => x.short
      | some b => infStored src lim k ({ x with pos := x.pos + 8 }.put lim (BitVec.ofNat 8 b))

/-- The tables of a dynamic block and where its symbols begin; `.error true` where the source ends, `.error false` for bad code lengths. -/
def infTables (src : Array Byte) (p : Nat) : Except Bool (List Nat × List Nat × Nat) :=
  match bitsAt src p 14 with
  | none => .error true
  | some v =>
    let nl := v % 32 + 257
    let nd := v / 32 % 32 + 1
    let nc := v / 1024 + 4
    match bitsAt src (p + 14) (3 * nc) with
    | none => .error true
    | some w =>
      let cl := (List.range 19).map (fun s => match clOrder.findIdx? (· == s) with | some i => if i < nc then w / 8 ^ i % 8 else 0 | none => 0)
      if !huffOk cl false then .error false
      else
        match infLens src cl (nl + nd) (nl + nd + 1) (p + 14 + 3 * nc) [] with
        | .error e => .error e
        | .ok (l, q) => if huffOk (l.take nl) true && huffOk (l.drop nl) true then .ok (l.take nl, l.drop nl, q) else .error false

/-- One block. -/
def infBlock (src : Array Byte) (lim : Nat) (x : Inf) : Inf :=
  match bitsAt src x.pos 3 with
  | none => x.short
  | some h =>
    let p := x.pos + 3
    let fuel := 8 * src.size + 1
    let y : Inf :=
      match h / 2 with
      | 0 =>
        let q := (p + 7) / 8 * 8
        match bitsAt src q 32 with
        | none => x.short
        | some v =>
          if v % 65536 + v / 65536 ≠ 65535 then x.fail 0x12 (q / 8) else infStored src lim (v % 65536) { x with pos := q + 32 }
      | 1 => infSyms src lim fixedLL fixedD fuel { x with pos := p }
      | 2 =>
        match infTables src p with
        | .error true => x.short
        | .error false => x.fail 0x13 (p / 8)
        | .ok (ll, dl, q) => infSyms src lim ll dl fuel { x with pos := q }
      | _ => x.fail 0x11 (x.pos / 8)
    if y.err.isSome then y else { y with fin := h % 2 == 1, typ := h / 2 }

/-- Blocks up to the final one. -/
def infBlocks (src : Array Byte) (lim : Nat) : Nat → Inf → Inf
  | 0, x => x.short
  | f + 1, x => if x.err.isSome || x.fin then x else infBlocks src lim f (infBlock src lim x)
def inflate (src : Array Byte) (lim start : Nat) : Inf := infBlocks src lim (8 * src.size + 2) { pos := 8 * start }

/-! ### The encoder (R382, R383) -/

/-- The bits of a byte string, the first k of them. -/
def bitsOf (l : List Byte) (k : Nat) : List Bool := (l.flatMap (fun b => (List.range 8).map (fun i => b.getLsbD i))).take k
def natBits (n x : Nat) : List Bool := (List.range n).map (fun i => x.testBit i)
/-- Bits as bytes, the last one filled with zeros. -/
def packBits (l : List Bool) : List Byte :=
  (List.range ((l.length + 7) / 8)).map (fun i =>
    BitVec.ofNat 8 (((l.drop (8 * i)).take 8).zipIdx.foldl (fun a b => a + if b.1 then 2 ^ b.2 else 0) 0))

/-- A stored block at a bit position. -/
def storedBits (pos : Nat) (last : Bool) (b : List Byte) : List Bool :=
  let pad := (8 - (pos + 3) % 8) % 8
  natBits 3 (if last then 1 else 0) ++ List.replicate pad false ++ natBits 16 b.length ++ natBits 16 (65535 - b.length) ++ bitsOf b (8 * b.length)

/-- The hash of the three bytes at i; the function is free (log entry 7). -/
def hash3 (src : Array Byte) (i : Nat) : Nat := Config.deflateHash (src.getD i 0#8 ++ src.getD (i + 1) 0#8 ++ src.getD (i + 2) 0#8)
/-- How far position j agrees with position i, `n` further bytes at most. -/
def matchLen (src : Array Byte) (j i : Nat) : Nat → Nat → Nat
  | 0, a => a
  | n + 1, a => if src.getD (j + a) 0#8 = src.getD (i + a) 0#8 then matchLen src j i n (a + 1) else a
/-- The hash chain at i, the nearest position first, to the depth of the level. -/
def hashChain (src : Array Byte) (level i : Nat) : List Nat :=
  (((List.range (min i 32768)).map (fun k => i - 1 - k)).filter (fun j => hash3 src j == hash3 src i)).take (4 * 2 ^ (level - 1))
/-- The first longest match at i that ends by `stop`: its length, 0 for none, and distance. -/
def bestMatch (src : Array Byte) (level stop i : Nat) : Nat × Nat :=
  if i + 3 > stop then (0, 0)
  else (hashChain src level i).foldl (fun b j =>
    let n := matchLen src j i (min 258 (stop - i)) 0
    if n ≥ 3 ∧ n > b.1 then (n, i - j) else b) (0, 0)
/-- What a block is encoded from: bytes, and matches with length and distance. -/
inductive Tok where
  | lit (b : Byte) | copy (len dist : Nat)
deriving DecidableEq, Repr
/-- The parse of a block from i on: greedy at levels 1 to 3; at 4 to 9 a match is deferred by one position when the next position yields a
longer one. -/
def lzParse (src : Array Byte) (level stop : Nat) : Nat → Nat → List Tok
  | 0, _ => []
  | f + 1, i =>
    if i ≥ stop then []
    else
      let m := bestMatch src level stop i
      if m.1 = 0 ∨ (level ≥ 4 ∧ (bestMatch src level stop (i + 1)).1 > m.1) then .lit (src.getD i 0#8) :: lzParse src level stop f (i + 1)
      else .copy m.1 m.2 :: lzParse src level stop f (i + m.1)

/-- The symbols of a length and of a distance, from 257 and from 0. -/
def lenSym (n : Nat) : Nat := (List.range 29).foldl (fun a k => if lenBase.getD k 0 ≤ n then k else a) 0
def distSym (d : Nat) : Nat := (List.range 30).foldl (fun a k => if distBase k ≤ d then k else a) 0
/-- The literal/length and distance symbols that a block uses, its end-of-block code included. -/
def llSyms (l : List Tok) : List Nat := l.map (fun t => match t with | .lit b => b.toNat | .copy n _ => 257 + lenSym n) ++ [256]
def dSyms (l : List Tok) : List Nat := l.filterMap (fun t => match t with | .lit _ => none | .copy _ d => some (distSym d))
/-- The code of a symbol, its first bit first (RFC 1951). -/
def codeBits (lens : List Nat) (s : Nat) : List Bool :=
  let n := lens.getD s 0
  let first := (List.range n).foldl (fun a l => (a + (if l = 0 then 0 else (lens.filter (· == l)).length)) * 2) 0
  let code := first + ((lens.take s).filter (· == n)).length
  (List.range n).map (fun i => code.testBit (n - 1 - i))
def tokBits (ll dl : List Nat) : Tok → List Bool
  | .lit b => codeBits ll b.toNat
  | .copy n d =>
    codeBits ll (257 + lenSym n) ++ natBits (lenExtra.getD (lenSym n) 0) (n - lenBase.getD (lenSym n) 0)
      ++ codeBits dl (distSym d) ++ natBits (distExtra (distSym d)) (d - distBase (distSym d))
/-- A block with the tables `ll` and `dl`, after its header. -/
def symBits (ll dl : List Nat) (l : List Tok) : List Bool := l.flatMap (tokBits ll dl) ++ codeBits ll 256

/-- A block encoded with the fixed tables, or with dynamic ones: their header is free (log entry 7), as long as it says how every symbol
of the block is coded. -/
def codedBits (static last : Bool) (l : List Tok) : Option (List Bool) :=
  let fin := if last then 1 else 0
  if static then some (natBits 3 (fin + 2) ++ symBits fixedLL fixedD l)
  else
    let count (n : Nat) (u : List Nat) : List Nat := (List.range n).map (fun s => (u.filter (· == s)).length)
    let t := Config.deflateTables (count 286 (llSyms l)) (count 30 (dSyms l))
    match infTables (packBits t).toArray 0 with
    | .error _ => none
    | .ok (ll, dl, q) =>
      if q = t.length ∧ (llSyms l).all (fun s => ll.getD s 0 != 0) ∧ (dSyms l).all (fun s => dl.getD s 0 != 0) then
        some (natBits 3 (fin + 4) ++ t ++ symBits ll dl l)
      else none
/-- The encoding of the block from `start` to `stop`: stored at level 0, and where its coded form is not shorter in bits. -/
def blockBits (level : Nat) (static : Bool) (src : Array Byte) (start stop pos : Nat) (last : Bool) : List Bool × Bool :=
  let st := storedBits pos last ((src.toList.drop start).take (stop - start))
  if level = 0 then (st, true)
  else
    match codedBits static last (lzParse src level stop (stop - start) start) with
    | some w => if w.length < st.length then (w, false) else (st, true)
    | none => (st, true)

/-- The blocks of 32,768 bytes of an input, `k` of them from index i on: bits, and whether any is stored. -/
def bodyBits (level : Nat) (static : Bool) (src : List Byte) : Nat → Nat → List Bool → Bool → List Bool × Bool
  | 0, _, acc, st => (acc, st)
  | k + 1, i, acc, st =>
    let stop := min src.length (32768 * (i + 1))
    let (w, z) := blockBits level static src.toArray (32768 * i) stop acc.length (decide (stop = src.length))
    bodyBits level static src k (i + 1) (acc ++ w) (st || z)

/-- The Deflate stream of an input: its bytes, whether a block is stored. `blocks` limits it to the first blocks (R386), of
which whole bytes are written. -/
def deflate (level : Nat) (static : Bool) (src : List Byte) (blocks : Option Nat) : List Byte × Bool :=
  if src.isEmpty then ((if blocks.isSome then [] else [3#8, 0#8]), false)
  else
    let n := (src.length + 32767) / 32768
    match blocks with
    | none => let (w, z) := bodyBits level static src n 0 [] false; (packBits w, z)
    | some m => let (w, z) := bodyBits level static src (min m n) 0 [] false; ((packBits w).take (w.length / 8), z)

/-! ### Framing (R384, R387) -/

def leB (n x : Nat) : List Byte := (List.range n).map (fun k => BitVec.ofNat 8 (x / 256 ^ k))

/-- The check of FRAME and ADLER. -/
def checkOf (frame : Nat) (adler : Bool) (l : List Byte) : Nat :=
  if frame = 1 ∨ (frame = 0 ∧ adler = true) then adler32 l else crc32 l

def frameHead (frame level : Nat) : List Byte :=
  match frame with
  | 1 => [0x78#8, if level ≤ 1 then 0x01#8 else if level ≤ 5 then 0x5E#8 else if level = 6 then 0x9C#8 else 0xDA#8]
  | 2 => [0x1F#8, 0x8B#8, 8#8, 0#8, 0#8, 0#8, 0#8, 0#8, if level = 1 then 4#8 else if level = 9 then 2#8 else 0#8, 0xFF#8]
  | _ => []
def frameTail (frame check len : Nat) : List Byte :=
  match frame with
  | 1 => (leB 4 check).reverse
  | 2 => leB 4 check ++ leB 4 len
  | _ => []

/-- The position after a zero-terminated string, none where the source ends. -/
def skipZ (src : Array Byte) : Nat → Nat → Option Nat
  | 0, _ => none
  | f + 1, i => if i ≥ src.size then none else if src.getD i 0#8 = 0#8 then some (i + 1) else skipZ src f (i + 1)

/-- The length of a zlib or gzip header: `.error none` where the source ends, `.error (some off)` for BAD_HEADER at an offset. -/
def headLen (frame : Nat) (src : Array Byte) : Except (Option Nat) Nat :=
  let b (i : Nat) : Nat := (src.getD i 0#8).toNat
  match frame with
  | 1 =>
    if src.size < 2 then .error none
    else if b 0 % 16 ≠ 8 ∨ b 0 / 16 > 7 ∨ (b 1).testBit 5 ∨ (256 * b 0 + b 1) % 31 ≠ 0 then .error (some 0)
    else .ok 2
  | 2 =>
    if src.size < 10 then .error none
    else if b 0 ≠ 0x1F ∨ b 1 ≠ 0x8B ∨ b 2 ≠ 8 ∨ b 3 / 32 ≠ 0 then .error (some 0)
    else
      let flg := b 3
      let p1 : Option Nat := if flg.testBit 2 then (if src.size < 12 then none else some (12 + b 10 + 256 * b 11)) else some 10
      let p2 := p1.bind (fun p => if flg.testBit 3 then skipZ src src.size p else some p)
      let p3 := p2.bind (fun p => if flg.testBit 4 then skipZ src src.size p else some p)
      match p3 with
      | none => .error none
      | some p =>
        if flg.testBit 1 then
          if src.size < p + 2 then .error none
          else if crc32 (src.toList.take p) % 65536 ≠ b p + 256 * b (p + 1) then .error (some 0)
          else .ok (p + 2)
        else if src.size < p then .error none
        else .ok p
  | _ => .ok 0

/-- The outcome of decoding a stream: status, output, bytes consumed, check, offset of the failure; `more`: the source given has been
used up. -/
structure Unz where
  status : Nat
  out : List Byte := []
  consumed : Nat := 0
  check : Nat := 0
  erroff : Nat := 0
  more : Bool := false
deriving DecidableEq, Repr

/-- DECOMPRESS of a source (R387). -/
def unframe (frame : Nat) (adler : Bool) (l : List Byte) (lim : Nat) : Unz :=
  let src := l.toArray
  match headLen frame src with
  | .error none => { status := 2, consumed := l.length, more := true }
  | .error (some o) => { status := 0x10, consumed := l.length, erroff := o }
  | .ok h =>
    let x := inflate src lim h
    let out := x.out.reverse
    match x.err with
    | some (st, off) => { status := st, out := out, consumed := (x.pos + 7) / 8, erroff := off, more := st == 2 }
    | none =>
      let e := (x.pos + 7) / 8
      let c := checkOf frame adler out
      let t := frameTail frame c (out.length % 2 ^ 32)
      if l.length < e + t.length then { status := 2, out := out, consumed := l.length, more := true }
      else
        let got := (l.drop e).take t.length
        let u : Unz := { status := 0, out := out, consumed := e + t.length, check := c }
        if got.take 4 ≠ t.take 4 then { u with status := 0x16, erroff := e, check := 0 }
        else if got ≠ t then { u with status := 0x17, erroff := e, check := 0 }
        else u

end Sys2Proof.Machine
end

