-- ==== Sys2Proof/Machine/Link.lean ====
section
/-!
DEFINITION. Machine/Link.lean: the Lerlora links (10 R264 to R277) and the routing of fabric packets (10 R278 to R288).
-/
namespace Sys2Proof.Machine

/-! ### Packets (10 R281, 11 R299) -/

/-- Bits [hi:lo] of slot k of a packet. -/
def pk (p : FPkt) (k hi lo : Nat) : Nat := (p.getD k 0#128).toNat / 2 ^ lo % 2 ^ (hi - lo + 1)
/-- A packet with bits [hi:lo] of its header replaced. -/
def pkSet (p : FPkt) (hi lo x : Nat) : FPkt :=
  let h := p.getD 0 0#128
  let m : BitVec 128 := BitVec.ofNat 128 ((2 ^ (hi - lo + 1) - 1) * 2 ^ lo)
  ((h &&& ~~~m) ||| BitVec.ofNat 128 (x % 2 ^ (hi - lo + 1) * 2 ^ lo)) :: p.drop 1
def pkDst (p : FPkt) : Nat := pk p 0 14 0
def pkSrc (p : FPkt) : Nat := pk p 0 29 15
def pkClass (p : FPkt) : Nat := pk p 0 31 30
def pkGen (p : FPkt) : Nat := pk p 0 41 38
def pkLen (p : FPkt) : Nat := pk p 0 46 42
def pkType (p : FPkt) : Nat := pk p 0 50 47
def pkTag (p : FPkt) : Nat := pk p 0 62 51
/-- FAB_SELF: the package's fabric device ID, and MODE: 0 SOLO, 1 CAPTAIN, 2 STOKER. -/
def Pkg.selfId (s : Pkg) : Nat := s.rf fabBase 14 0
def Pkg.fabMode (s : Pkg) : Nat := s.rf fabBase 17 16
/-- The node's ID: a pair has the ID of its position with rail bit 0 (12 R308). -/
def Pkg.nodeId (s : Pkg) : Nat := if s.fabMode = 0 then s.selfId else s.selfId / 2 * 2
/-- Whether a device ID names this node (R291). -/
def Pkg.isSelf (s : Pkg) (d : Nat) : Bool := if s.fabMode = 0 then d == s.selfId else d / 2 == s.selfId / 2
/-- A packet as injected here (R281, R299): DIR, DL and XR are set by routing. -/
def Pkg.mkPkt (s : Pkg) (dst cls typ tag : Nat) (rty : Bool) (gen : Nat) (body : List (BitVec 128)) : FPkt :=
  BitVec.ofNat 128 (dst + s.nodeId * 2 ^ 15 + cls * 2 ^ 30 + gen * 2 ^ 38 + (body.length + 1) * 2 ^ 42
    + typ * 2 ^ 47 + tag * 2 ^ 51 + (if rty then 2 ^ 63 else 0) + s.rdtime.toNat * 2 ^ 64) :: body

/-! ### Link registers -/

def link0 : Nat → Link := fun _ => {}
def Pkg.link (s : Pkg) (i : Nat) : Link := Map.get link0 s.links i
def Pkg.updLink (s : Pkg) (i : Nat) (f : Link → Link) : Pkg := { s with links := Map.upd link0 s.links i f }
/-- LK_STAT.STATE (R271). -/
def Pkg.lkState (s : Pkg) (i : Nat) : Nat := s.rf (lkBase i) 3 0
def Pkg.setLk (s : Pkg) (i x : Nat) : Pkg := s.wf (lkBase i) 3 0 x
/-- ROLE, STBY_FOR and the role whose traffic a link carries. -/
def Pkg.lkRole (s : Pkg) (i : Nat) : Nat := s.rf (lkBase i) 7 4
def Pkg.lkStby (s : Pkg) (i : Nat) : Nat := s.rf (lkBase i) 11 8
def Pkg.lkAct (s : Pkg) (i : Nat) : Bool := s.rb (lkBase i) 12
def Pkg.lkCarries (s : Pkg) (i : Nat) : Nat := if s.lkAct i then s.lkStby i else s.lkRole i
/-- Whether a link carries traffic: ACTIVE, in lane repair, or taking over. -/
def Pkg.lkUp (s : Pkg) (i : Nat) : Bool := s.lkState i == 5 || s.lkState i == 6 || (s.link i).take.isSome
/-- The link that carries a role. -/
def Pkg.roleLink (s : Pkg) (r : Nat) : Option Nat :=
  (List.range 12).find? (fun i => s.lkUp i && (s.lkCarries i == r || ((s.link i).take.isSome && s.lkStby i == r)))

/-! ### Positions (R278, R279) -/

/-- Dimension sizes, and a coordinate of an ID, by dimension. -/
def Pkg.dimK (s : Pkg) (d : Nat) : Nat :=
  (match d with | 0 => s.rf fabBase 26 24 | 1 => s.rf fabBase 30 28 | 2 => s.rf fabBase 35 32 | _ => s.rf fabBase 39 36) + 1
def coord (id d : Nat) : Nat :=
  match d with | 0 => id / 2 % 8 | 1 => id / 16 % 8 | 2 => id / 128 % 16 | _ => id / 2048 % 16
def setCoord (id d c : Nat) : Nat :=
  let w := match d with | 0 => 2 | 1 => 16 | 2 => 128 | _ => 2048
  id + c * w - coord id d * w
/-- The ID and role that the far end of a link with a role must have (R275, R276). -/
def Pkg.expect (s : Pkg) (role : Nat) : Nat × Nat :=
  if role = 9 then (s.selfId ^^^ 1, 9)
  else
    let d := (role - 1) / 2
    let k := s.dimK d
    let c := coord s.selfId d
    if role % 2 = 1 then (setCoord s.selfId d ((c + 1) % k), role + 1)
    else (setCoord s.selfId d ((c + k - 1) % k), role - 1)
/-- A role that exists: CROSS, or one in a dimension of size above 1 (R276). -/
def Pkg.roleLive (s : Pkg) (role : Nat) : Bool :=
  role == 9 || (decide (1 ≤ role ∧ role ≤ 8) && decide (s.dimK ((role - 1) / 2) > 1))

/-! ### Flits on the lanes (R264 to R268) -/

/-- The stream of the PRBS31 scrambler x^31 + x^28 + 1 from a state, its first n bits, the first lowest (R264). -/
def prbs31 : Nat → BitVec 31 → Nat
  | 0, _ => 0
  | n + 1, x =>
    let b := x.getLsbD 30 ^^ x.getLsbD 27
    (if b then 1 else 0) + 2 * prbs31 n ((x <<< 1) ||| (if b then 1#31 else 0#31))
/-- The bits of the logical lanes in a CHECK flit: 0, scrambled from the seed of each lane (R264, R266). -/
def checkLane (j : Nat) : BitVec 256 := BitVec.ofNat 256 (prbs31 256 (Config.scramSeed j))

/-- What logical lane j receives: its physical lane, its polarity corrected (R265). -/
def Link.lane (l : Link) (w : LaneBits) (j : Nat) : BitVec 256 :=
  let n := l.rmap.getD j j
  w.getD n 0#256 ^^^ (if l.rinv.getLsbD n then BitVec.allOnes 256 else 0#256)
/-- A flit from its logical lanes: byte i on lane i mod 8, the least significant bit first (R265). -/
def Link.flit (l : Link) (w : LaneBits) : BitVec 2048 :=
  BitVec.ofNat 2048 ((List.range 8).foldr (fun j a =>
    let x := (l.lane w j).toNat
    a + (List.range 32).foldr (fun k y => x / 256 ^ k % 256 * 256 ^ (8 * k + j) + y) 0) 0)

/-- Bits [hi:lo] of a flit, and its bytes. -/
def flitF (f : BitVec 2048) (hi lo : Nat) : Nat := f.toNat / 2 ^ lo % 2 ^ (hi - lo + 1)
def flitBytes (n x : Nat) : List Byte := (List.range n).map (fun i => BitVec.ofNat 8 (x / 256 ^ i))
/-- Whether its CRC, over bytes 0 to 251, passes (R268). -/
def flitOk (f : BitVec 2048) : Bool := flitF f 2047 2016 == crc32 (flitBytes 252 f.toNat)
/-- The header of a flit (R268); FTYPE 6 to 15 is discarded as a failed CRC is (R269). -/
def flitHdr (f : BitVec 2048) : FlitHdr :=
  { ok := flitOk f && decide (flitF f 3 0 < 6)
    ack := if f.getLsbD 28 then some (BitVec.ofNat 12 (flitF f 27 16)) else none
    cvc0 := Fin.ofNat 8 (flitF f 61 59), ccnt0 := BitVec.ofNat 8 (flitF f 69 62)
    cvc1 := Fin.ofNat 8 (flitF f 72 70), ccnt1 := BitVec.ofNat 8 (flitF f 80 73) }
/-- A DATA flit. -/
def flitData (f : BitVec 2048) : DataFlit :=
  { hdr := flitHdr f, seq := BitVec.ofNat 12 (flitF f 15 4), sop := BitVec.ofNat 15 (flitF f 43 29), fill := BitVec.ofNat 15 (flitF f 58 44)
    slots := (List.range 15).map (fun s => BitVec.ofNat 128 (flitF f (96 + 128 * s + 127) (96 + 128 * s))) }
/-- Whether what arrives can be a flit of a type: one whose CRC passes says its type itself. -/
def flitIs (ty : Nat) (f : BitVec 2048) : Bool := !(flitHdr f).ok || flitF f 3 0 == ty

/-! ### Sending (R269, R270) -/

/-- The VC of a packet on an output link (R282). -/
def vcOf (p : FPkt) : Nat := 2 * pkClass p + pk p 0 32 32

/-- The flits of a packet: at most two, since a packet has at most 20 slots. -/
def pktFlits (p : FPkt) (seq : Nat) : List LFlit :=
  if p.length ≤ 15 then [⟨seq, p, true, 0⟩] else [⟨seq, p.take 15, true, 0⟩, ⟨(seq + 1) % 4096, p.drop 15, false, 0⟩]

/-- A flit with its header and CRC (R268): FTYPE and SEQ, its payload, the ACK of the last flit received in order, and credits for up to
two VCs. -/
def Link.form (l : Link) (ty seq sop fill : Nat) (c0 c1 : Nat × Nat) (slots : List (BitVec 128)) : BitVec 2048 :=
  let h := ty + seq * 2 ^ 4 + (l.rx + 4095) % 4096 * 2 ^ 16 + (if l.got then 2 ^ 28 else 0) + sop * 2 ^ 29 + fill * 2 ^ 44
    + c0.1 * 2 ^ 59 + c0.2 * 2 ^ 62 + c1.1 * 2 ^ 70 + c1.2 * 2 ^ 73
  let x := h + (slots.foldr (fun b a => b.toNat + a * 2 ^ 128) 0) * 2 ^ 96
  BitVec.ofNat 2048 (x + crc32 (flitBytes 252 x) * 2 ^ 2016)
/-- A VC with slots to return, not v, and how many a flit returns. -/
def Link.owed (l : Link) (v : Nat) : Nat × Nat :=
  match (List.range 6).find? (fun i => i != v && decide (l.ret.getD i 0 > 0)) with
  | some i => (i, min 255 (l.ret.getD i 0))
  | none => (0, 0)
/-- Send a flit; a report of this end DOWN goes with an IDLE or SWITCH one (R273). -/
def Link.send (l : Link) (ty seq sop fill : Nat) (slots : List (BitVec 128)) (down : Bool := false) : Link :=
  let c0 := l.owed 6
  let c1 := if c0.2 = 0 then (0, 0) else l.owed c0.1
  let less (r : List Nat) (c : Nat × Nat) : List Nat := r.set c.1 (r.getD c.1 0 - c.2)
  { l with ret := less (less l.ret c0) c1, wire := l.wire ++ [.flit (l.form ty seq sop fill c0 c1 slots) down] }
/-- Send a flit without payload. -/
def Link.ctl (l : Link) (ty : Nat) (down : Bool := false) : Link := l.send ty 0 0 0x7FFF [] down
/-- Send, or resend, a DATA flit. -/
def Link.data (l : Link) (f : LFlit) : Link := l.send 1 f.seq (if f.sop then 1 else 0) (0x7FFF - (2 ^ f.slots.length - 1)) f.slots

/-- Slots of a link's receive buffer have emptied, and are to be returned (R270). -/
def Pkg.freed (s : Pkg) (src : Option (Nat × Nat)) (n : Nat) : Pkg :=
  match src with
  | some (i, v) => s.updLink i (fun l => { l with occ := l.occ.set v (l.occ.getD v 0 - n), ret := l.ret.set v (l.ret.getD v 0 + n) })
  | none => s

/-- Send a queued packet for which credit and replay room exist, round-robin over the VCs; a draining link sends none. -/
def Pkg.pump1 (s : Pkg) (i : Nat) : Pkg :=
  let l := s.link i
  if s.lkState i ≠ 5 ∨ l.drain.isSome then s
  else
    let head (v : Nat) : Option VcEnt := (Map.get (fun _ => []) l.vcq v).head?
    match ((List.range 6).map (fun k => (l.rr + 1 + k) % 6)).find? (fun v => match head v with
        | some e => decide (e.p.length ≤ l.credit.getD v 0) && decide (l.replay.length + 2 ≤ 256)
        | none => false) with
    | none => s
    | some v =>
      match head v with
      | none => s
      | some e =>
        let fl := pktFlits e.p l.tx
        (s.updLink i (fun l => fl.foldl Link.data { l with
          vcq := Map.upd (fun _ => []) l.vcq v (·.drop 1), rr := v
          credit := l.credit.set v (l.credit.getD v 0 - e.p.length)
          replay := l.replay ++ fl, tx := (l.tx + fl.length) % 4096, ackAt := if l.replay.isEmpty then s.now else l.ackAt })).freed e.src e.p.length
/-- Send while anything can be sent. -/
def Pkg.pump (s : Pkg) (i : Nat) : Pkg := (List.range 256).foldl (fun s _ => s.pump1 i) s
/-- Queue a packet that comes from a receive buffer of footing f, or from Mortar, on a link's VC: none where the link accepts none now. One
that crosses Mortar, or enters from it, needs space reserved for it in the VC (R284); 256 slots (DESIGN CHOICE, log entry 44). A request
or message that crosses does so on IOP and is a request of the sending stop (08 R232, R233), a response on IOC. -/
def Pkg.linkSend (s : Pkg) (o vc f : Nat) (inp : Option (Nat × Nat)) (p : FPkt) : Option Pkg :=
  let l := s.link o
  let stay := inp.isSome && o / 6 == f
  let used := ((Map.get (fun _ => []) l.vcq vc).filter (·.src.isNone)).foldl (fun a e => a + e.p.length) 0
  if l.drain.isSome ∨ (¬ stay ∧ used + p.length > 256) then none
  else
    let s := if stay then s else s.freed inp p.length
    let s := match inp with
      | some (i, _) => if !stay && pkClass p != 1 then s.stReq (2 * (Win.lk i).stop) (16 * p.length) else s
      | none => s
    some ((s.updLink o (fun l => { l with vcq := Map.upd (fun _ => []) l.vcq vc (· ++ [⟨p, if stay then inp else none⟩]) })).pump o)

/-! ### Going DOWN and taking over (R273, R277, 11 R306) -/

/-- The packets a link holds for sending. -/
def Link.held (l : Link) : Nat :=
  (l.replay.filter (·.sop)).length + l.vcq.foldl (fun a q => a + q.2.length) 0
/-- Discard them (DOWN_DISC). -/
def Pkg.linkDiscard (s : Pkg) (i : Nat) : Pkg :=
  let l := s.link i
  let s := (s.sat (fabBase + 0x10) 31 16 l.held).updLink i (fun l => { l with
    replay := [], vcq := [], tx := 0, rx := 0, got := false, nak := false, part := [], credit := [256, 256, 256, 256, 256, 256] })
  (l.vcq.flatMap (·.2)).foldl (fun s e => s.freed e.src e.p.length) s

/-- The link stop at which what a tile, or a unit at x of a footing, sends enters its switch (R280): the nearest by x, the lower on a
tie. -/
def nearLink (foot x : Nat) : Nat :=
  6 * foot + ((List.range 6).foldl (fun b i => if (if lkX i ≥ x then lkX i - x else x - lkX i) < (if lkX b ≥ x then lkX b - x else x - lkX b) then i else b) 0)
/-- Tile t lies at x = t mod 16, y = t / 16 + 1. -/
def tileLink (t : Nat) : Nat := nearLink (if t / 16 + 1 ≤ 4 then 0 else 1) (t % 16)
/-- The link stop at which a request enters (R280): by the tile of its thread, by the home slice of a line, by its root complex or
compression complex. -/
def GFor.entry (w : GFor) (pa : Nat) : Nat :=
  match w with
  | .load h _ | .store h | .atomic h | .msg h | .fence h | .wb (some h) => tileLink (h / 16)
  | .wb none => tileLink (homeOf (pa / 64))
  | .fill n _ => tileLink n
  | .dev port _ => nearLink (port / 16) (if port / 8 % 2 = 0 then 7 else 15)
  | .io k _ => nearLink k 7

/-- A packet of this package enters its switch from Mortar at a link stop (R283). -/
def Pkg.inject (s : Pkg) (e : Nat) (p : FPkt) : Pkg := { s with fab := { s.fab with inj := s.fab.inj ++ [(e, p)] } }
/-- The active route bank and its generation (R286, R287). -/
def Pkg.rtActive (s : Pkg) : Nat := s.rf (fabBase + 8) 0 0
def Pkg.rtGen (s : Pkg) (b : Nat) : Nat := if b = 0 then s.rf (fabBase + 8) 7 4 else s.rf (fabBase + 8) 11 8
/-- A packet reaches the home agents: its input (24: the package itself) and the time are kept (11 R293). -/
def Pkg.toHome (s : Pkg) (inp : Nat) (p : FPkt) : Pkg := { s with fab := { s.fab with ejq := s.fab.ejq ++ [p], via := s.fab.via ++ [(inp, s.now)] } }
/-- A packet of this package leaves: to its own home agents, or into the fabric at link stop e; the unit of the membership messages and of
RELEASE is at F0 stop 15 (17 R434), so LK5 is nearest. -/
def Pkg.emitPkt (s : Pkg) (p : FPkt) (e : Nat := 5) : Pkg := if s.isSelf (pkDst p) then s.toHome 24 p else s.inject e p
/-- A membership message to a device (11 R304): MID, then its fields in slot 1. -/
def Pkg.memMsg (s : Pkg) (dst typ mid fields : Nat) (more : List (BitVec 128)) : Pkg :=
  s.emitPkt (s.mkPkt dst 2 typ 0 false (s.rtGen s.rtActive) (BitVec.ofNat 128 (mid + fields * 2 ^ 32) :: more))
/-- The next MID. -/
def Pkg.newMid (s : Pkg) : Nat × Pkg := (s.fab.mid, { s with fab := { s.fab with mid := (s.fab.mid + 1) % 2 ^ 32 } })

/-- No link carries a role any more: a member tells the lead (R306). -/
def Pkg.roleLost (s : Pkg) (role : Nat) : Pkg :=
  if 1 ≤ role ∧ role ≤ 8 ∧ s.rf (fabBase + 0x128) 2 0 = 2 then
    let (mid, s) := s.newMid
    s.memMsg (s.rf (fabBase + 0x120) 14 0) 9 mid ((s.expect role).1 + role * 2 ^ 15) []
  else s
/-- A link goes DOWN with a cause (R273): a CE; a spare in reserve for its role takes over with its packets, sending SWITCH with the ACK
last delivered (R277), or they are discarded and the lead is told. This end reports itself DOWN, unless the far end is lost or DOWN. -/
def Pkg.linkDown (s : Pkg) (i cause : Nat) : Pkg :=
  let role := s.lkCarries i
  let s := (s.setLk i 8).wf (lkBase i) 34 32 cause
  let s := s.wb (lkBase i) 12 false
  let s := s.updLink i (fun l =>
    let l := { l with drain := none, repair := none, farRep := false, take := none, retryAt := none }
    if cause = 3 ∨ cause = 5 then l else l.ctl 0 true)
  let s := s.ce (.lk i) 0x0E none (cause * 16 + ((s.link i).bad.getD 0))
  match (List.range 12).find? (fun j => j != i && s.lkState j == 7 && (s.lkStby j == role || s.lkRole j == role) && role != 0) with
  | some j =>
    let l := s.link i
    let s := s.updLink j (fun k =>
      { k with tx := l.tx, rx := l.rx, got := l.got, replay := l.replay, vcq := l.vcq, rr := l.rr, credit := l.credit, part := l.part, nak := false, take := some (i, s.now) }.ctl 5)
    s.updLink i (fun l => { l with replay := [], vcq := [], tx := 0, rx := 0, got := false, part := [] })
  | none => (s.linkDiscard i).roleLost role

/-! ### Commands and training (R271, R276) -/

def lkCtl (i : Nat) : Nat := lkBase i + 8
/-- A command refused. -/
def Pkg.lkErr (s : Pkg) (i : Nat) : Pkg := s.wb (lkCtl i) 2 true
/-- The role a link trains for: its own, or the one it holds in reserve. -/
def Pkg.lkTrains (s : Pkg) (i : Nat) : Nat := if s.lkRole i ≠ 0 then s.lkRole i else s.lkStby i

/-- CMD = ENABLE. -/
def Pkg.lkEnable (s : Pkg) (i : Nat) : Pkg :=
  let st := s.lkState i
  if (st = 0 ∨ st = 8 ∨ st = 9) ∧ s.roleLive (s.lkTrains i) then
    (s.setLk i 1).updLink i (fun _ => {})
  else s.lkErr i
/-- CMD = DRAIN. -/
def Pkg.lkDrain (s : Pkg) (i : Nat) : Pkg :=
  if s.lkState i = 5 then s.updLink i (fun l => { l with drain := some (4, s.now) }) else s.lkErr i
/-- CMD = DISABLE. -/
def Pkg.lkDisable (s : Pkg) (i : Nat) : Pkg :=
  ((s.linkDiscard i).setLk i 0).updLink i (fun _ => {})
/-- LK_CTL is written. -/
def Pkg.lkCtlWrite (s : Pkg) (i : Nat) (v : Word) : Pkg :=
  let s : Pkg := if v.getLsbD 2 then s.wb (lkCtl i) 2 false else s
  match bits v 1 0 with
  | 0 => s | 1 => s.lkEnable i | 2 => s.lkDrain i | _ => s.lkDisable i

/-- A training phase ends (R271): DETECT and CONFIG need the far end, EQUALISE and ALIGN may fail; ALIGN finds the lane map. CONFIG sends
this end's ID and role, and there the neighbour's have arrived (R276). -/
def Pkg.lkTrain (s : Pkg) (i : Nat) (ok : Bool) (m : LaneMap) (id role : Nat) : Pkg :=
  let mine := s.lkTrains i
  match s.lkState i with
  | 1 => if ok && (s.link i).retryAt.isNone then s.setLk i 2 else s
  | 2 | 3 =>
    if !ok then (s.setLk i 1).updLink i (fun l => { l with retryAt := some (s.now + 100000000000) })
    else if s.lkState i = 2 then s.setLk i 3
    else (s.setLk i 4).updLink i (fun l => { l with rmap := m.phys.map (·.val), rinv := m.inv, wire := l.wire ++ [.train s.selfId mine] })
  | 4 =>
    if s.expect mine = (id, role) then
      let reserve := s.lkRole i = 0 ∨ (List.range 12).any (fun j => j != i && s.lkAct j && s.lkStby j == mine)
      (s.setLk i (if reserve then 7 else 5)).updLink i (fun l => { rmap := l.rmap, rinv := l.rinv, wire := l.wire, chk := s.now / 4096000 })
    else
      let s := (s.setLk i 9).wr (lkBase i + 0x10) (BitVec.ofNat 64 (id + role * 2 ^ 15 + 2 ^ 19))
      s.ce (.lk i) 0x0F none 0
  | _ => s

/-- The next attempt after a failure. -/
def Pkg.lkRetry (s : Pkg) (i : Nat) : Pkg :=
  match (s.link i).retryAt with
  | some t => if s.lkState i = 1 ∧ s.now ≥ t then (s.setLk i 2).updLink i (fun l => { l with retryAt := none }) else s
  | none => s

/-! ### Receiving (R266, R268 to R270, R272, R277) -/

/-- The acknowledgement and credits of a flit header. A flit that stays unacknowledged keeps its count of resends. -/
def Link.header (l : Link) (h : FlitHdr) (now : Nat) : Link :=
  let l : Link := match h.ack with
    | some a =>
      match l.replay.findIdx? (fun f => f.seq == a.toNat) with
      | some k => { l with replay := l.replay.drop (k + 1), ackAt := now }
      | none => l
    | none => l
  let give (c : List Nat) (v : Fin 8) (n : BitVec 8) : List Nat := if v.val < 6 then c.set v.val (min 256 (c.getD v.val 0 + n.toNat)) else c
  { l with credit := give (give l.credit h.cvc0 h.ccnt0) h.cvc1 h.ccnt1 }
def Pkg.lkHeader (s : Pkg) (i : Nat) (h : FlitHdr) : Pkg := s.updLink i (fun l => l.header h s.now)

/-- Send every unacknowledged flit again, oldest first; each resend counts (R269). -/
def Pkg.sendAgain (s : Pkg) (i : Nat) : Pkg :=
  let l := s.link i
  (s.inc (lkBase i + 0x20) 63 32 l.replay.length).updLink i (fun l =>
    l.replay.foldl Link.data { l with replay := l.replay.map (fun f => { f with tries := f.tries + 1 }), ackAt := s.now })
/-- Go back: new flits follow the resent ones; one that has been resent eight times takes the link DOWN. -/
def Pkg.resend (s : Pkg) (i : Nat) : Pkg :=
  if (s.link i).replay.any (fun f => decide (f.tries ≥ 8)) then s.linkDown i 1 else (s.sendAgain i).pump i

/-- The VC on which a packet has come (R282): by its class and DL; on CROSS, by whether it crosses at its source or its destination. -/
def Pkg.vcIn (s : Pkg) (i : Nat) (p : FPkt) : Nat :=
  (if s.lkCarries i = 9 then 2 * pkClass p + (if pkDst p / 2 = s.selfId / 2 then 1 else 0) else vcOf p) % 6

/-- Reassemble packets from the slots of a delivered flit: a completed one joins the receive buffer of its VC. -/
def Pkg.slotIn (s : Pkg) (i : Nat) (sop : Bool) (x : BitVec 128) : Pkg :=
  let cur := if sop then [x] else (s.link i).part ++ [x]
  if cur.length ≥ max 1 (pkLen cur) then
    let v := s.vcIn i cur
    let s := s.updLink i (fun l => { l with part := [], occ := l.occ.set v (l.occ.getD v 0 + cur.length) })
    { s with fab := { s.fab with inq := Map.upd (fun _ => []) s.fab.inq (6 * i + v) (· ++ [cur]) } }
  else s.updLink i (fun l => { l with part := cur })

/-- A discarded DATA flit makes the receiver send one NAK. -/
def Pkg.sendNak (s : Pkg) (i : Nat) : Pkg := if (s.link i).nak then s else s.updLink i (fun l => { l.ctl 2 with nak := true })
/-- Whether a link receives flits: ACTIVE, or in a retrain, when those on the wire still arrive (R272). -/
def Pkg.lkHears (s : Pkg) (i : Nat) : Bool := s.lkState i == 5 || s.lkState i == 6

/-- A DATA flit. The far end sends no more than the receive buffers hold (R270): one that would overfill them cannot arrive. -/
def Pkg.dataFlit (s : Pkg) (i : Nat) (f : DataFlit) : Pkg :=
  if !s.lkHears i then s
  else if !f.hdr.ok then (s.inc (lkBase i + 0x20) 31 0).sendNak i
  else
    let q := s.lkHeader i f.hdr
    if f.seq.toNat ≠ (q.link i).rx then (q.sendNak i).pump i
    else
      let q := q.updLink i (fun l => { l with rx := (l.rx + 1) % 4096, got := true, nak := false })
      let q := (List.range 15).foldl (fun s k =>
        if f.fill.getLsbD k then s else s.slotIn i (f.sop.getLsbD k) (f.slots.getD k 0#128)) q
      if (q.link i).occ.any (fun n => decide (n > 256)) then s else q.pump i
/-- The lanes bring a DATA flit: RETRY may discard it as if its CRC failed, LINKDELAY may deliver it later, in order (19 R461, R462). -/
def Pkg.flitIn (s : Pkg) (i : LkN) (w : LaneBits) : Pkg :=
  let x := (s.link i).flit w
  let f := flitData x
  if !s.lkHears i || !flitIs 1 x then s
  else
    let (s, drop) := s.shmRetry (4096 * i.val + f.seq.toNat) (fun t => t % 4 == 0 && t / 4 % 16 == i.val)
    if drop then s.dataFlit i { f with hdr := { f.hdr with ok := false } }
    else
      let (s, r) := s.shmAsk 3 (fun t => t % 16 == i.val)
      let amt := (r.map (fun q => min q.2 800)).sum
      if amt = 0 && !s.shmHas 3 i then s.dataFlit i f else s.shmPut 3 i amt 0 (some (.dataFlitReceive i w))

/-- An IDLE flit, which may report the far end DOWN. -/
def Pkg.idleFlit (s : Pkg) (i : Nat) (f : FlitHdr) (down : Bool) : Pkg :=
  if !s.lkHears i && s.lkState i != 7 then s
  else if !f.ok then s.inc (lkBase i + 0x20) 31 0
  else
    let s := (s.lkHeader i f).pump i
    if down then s.linkDown i 5 else s
def Pkg.idleIn (s : Pkg) (i : Nat) (w : LaneBits) (down : Bool) : Pkg :=
  let x := (s.link i).flit w
  if flitIs 0 x then s.idleFlit i (flitHdr x) down else s

/-- A NAK: its ACK, then go back; in a retrain the resend follows it (R272). -/
def Pkg.nakFlit (s : Pkg) (i : Nat) (f : FlitHdr) : Pkg :=
  if !s.lkHears i then s
  else if !f.ok then s.inc (lkBase i + 0x20) 31 0
  else
    let s := s.lkHeader i f
    if s.lkState i = 5 then s.resend i else s
def Pkg.nakIn (s : Pkg) (i : Nat) (w : LaneBits) : Pkg :=
  let x := (s.link i).flit w
  if flitIs 2 x then s.nakFlit i (flitHdr x) else s

/-- 1 µs without an advance of ACK. -/
def Pkg.replayTimeout (s : Pkg) (i : Nat) : Pkg :=
  let l := s.link i
  if s.lkState i = 5 ∧ ¬ l.replay.isEmpty ∧ s.now ≥ l.ackAt + 1000000 then s.resend i else s

/-- n errors of a lane, counted as R181 counts. -/
def winCountN (v : Word) (window nowSec n : Nat) : Word :=
  if n = 0 then v
  else
    let w := winCount v window nowSec
    setBits w 7 0 (min (bits w 7 0 + n - 1) 255)

/-- Errors of a physical lane (R272): one that reaches its threshold begins a repair, or drains the link where the spare is in use. -/
def Pkg.laneErrs (s : Pkg) (i lane n : Nat) : Pkg :=
  let cfg := lkBase i + 0x18
  let v := winCountN (Map.get (fun _ => 0#64) (s.link i).lanes lane) (s.rf cfg 63 32) s.cadSec n
  let s := s.updLink i (fun l => { l with lanes := Map.set (fun _ => 0#64) l.lanes lane v })
  let th := s.rf cfg 7 0
  let l := s.link i
  if n = 0 ∨ th = 0 ∨ bits v 7 0 < th ∨ l.repair = some lane then s
  else if !s.rb (lkBase i) 14 && l.repair.isNone then
    let s : Pkg := if s.lkState i = 5 then s.setLk i 6 else s
    (s.updLink i (fun l => { l with repair := some lane })).sat (lkBase i) 31 16
  else
    (s.wb (lkBase i) 15 true).updLink i (fun l => { l with drain := l.drain.or (some (2, s.now)) })
/-- The number of bits that are set. -/
def lanePop (x : BitVec 256) : Nat := ((List.range 256).filter x.getLsbD).length
/-- A CHECK flit (R266): the mismatching bits of each logical lane, descrambled, are errors of its physical lane. -/
def Pkg.checkFlit (s : Pkg) (i : Nat) (w : LaneBits) : Pkg :=
  if !s.lkHears i && s.lkState i != 7 then s
  else
    let l := s.link i
    (List.range 8).foldl (fun s j => s.laneErrs i (l.rmap.getD j j) (lanePop (l.lane w j ^^^ checkLane j))) s

/-- A repair that is over: its record, and ACTIVE again with the resends and new flits once neither direction retrains (R272). -/
def Pkg.repairDone (s : Pkg) (i lane : Nat) : Pkg :=
  let s := s.ce (.lk i) 0x0C none lane
  let s := s.odoEvent 0x09 5 (Win.lk i).stop (drsPa (Win.lk i).err) lane
  if s.lkState i = 6 ∧ (s.link i).repair.isNone ∧ ¬ (s.link i).farRep then ((s.setLk i 5).sendAgain i).pump i else s
/-- A step of a lane repair (R272): the new receive map puts the logical lane of the failed physical lane on the one that was spare. -/
def Pkg.laneRepaired (s : Pkg) (i : Nat) (r : LaneStep) : Pkg :=
  match r with
  | .rx =>
    match (s.link i).repair with
    | some n =>
      let free := ((List.range 9).find? (fun k => !(s.link i).rmap.contains k)).getD 8
      ((s.wb (lkBase i) 14 true).updLink i (fun l =>
        { l with repair := none, bad := some n, rmap := l.rmap.map (fun k => if k = n then free else k) })).repairDone i n
    | none => s
  | .txBegin =>
    if (s.lkHears i || s.lkState i == 7) && !s.rb (lkBase i) 13 && !(s.link i).farRep then
      ((if s.lkState i = 5 then s.setLk i 6 else s).updLink i (fun l => { l with farRep := true })).sat (lkBase i) 31 16
    else s
  | .tx =>
    if (s.link i).farRep then ((s.wb (lkBase i) 13 true).updLink i (fun l => { l with farRep := false })).repairDone i 8 else s

/-- Lane lock or the far end is lost. -/
def Pkg.lossOfLock (s : Pkg) (i : Nat) : Pkg :=
  let st := s.lkState i
  if st = 5 ∨ st = 6 ∨ st = 7 then s.linkDown i 3
  else if 2 ≤ st ∧ st ≤ 4 then s.setLk i 1 else s

/-- A drain ends: every sent flit acknowledged, or 2 µs. -/
def Pkg.drainDone (s : Pkg) (i : Nat) : Pkg :=
  match (s.link i).drain with
  | some (cause, t) => if (s.link i).replay.isEmpty ∨ s.now ≥ t + 2000000 then s.linkDown i cause else s
  | none => s

/-- A SWITCH flit on a spare that is taking over (R277): the resend point, then ACTIVE. -/
def Pkg.switchFlit (s : Pkg) (i : Nat) (f : FlitHdr) (down : Bool) : Pkg :=
  if !f.ok then s.inc (lkBase i + 0x20) 31 0
  else
    match (s.link i).take with
    | none => s
    | some (p, _) =>
      let s := s.updLink i (fun l => { l with take := none })
      if down then s.linkDown i 5
      else
        let reserve := s.lkStby i == s.lkRole p || s.lkStby i == s.lkStby p
        let s := s.setLk i 5
        let s : Pkg := if reserve && s.lkRole i == 0 then s.wb (lkBase i) 12 true else s
        ((s.lkHeader i f).sendAgain i).pump i
def Pkg.switchIn (s : Pkg) (i : Nat) (w : LaneBits) (down : Bool) : Pkg :=
  let x := (s.link i).flit w
  if s.lkState i = 7 ∧ flitIs 5 x then s.switchFlit i (flitHdr x) down else s

/-- No SWITCH within 100 µs: the failed link is treated as if no spare existed. -/
def Pkg.takeTimeout (s : Pkg) (i : Nat) : Pkg :=
  match (s.link i).take with
  | some (p, t) =>
    if s.now ≥ t + 100000000 then
      (((s.linkDiscard i).updLink i (fun l => { l with take := none })).setLk i 7).roleLost (if s.lkRole p ≠ 0 then s.lkRole p else s.lkStby p)
    else s
  | none => s

/-- A REFCLK edge for the links (log entry 45): a CHECK flit once in every 1,024 flit times of 4 ns (R266), and an IDLE flit that carries ACK
and credits (R268). -/
def Pkg.linkEdge (s : Pkg) : Pkg :=
  (List.range 12).foldl (fun s i =>
    if s.lkHears i || s.lkState i == 7 then
      s.updLink i (fun l =>
        let l := { l with wire := if l.chk = s.now / 4096000 then [] else [.check ((List.range 8).map checkLane)], chk := s.now / 4096000 }
        l.ctl 0)
    else if (s.link i).wire.isEmpty then s
    else s.updLink i (fun l => { l with wire := [] })) s
/-- What an empty queue does: time passes to the next REFCLK edge (log entry 11). -/
def Pkg.idle (s : Pkg) : Pkg :=
  let s := ((s.elapse (10000 - s.now % 10000)).shmCycles).linkEdge
  if s.tdm.tell.isEmpty then s else { s with tdm := { s.tdm with tell := [] } }

/-! ### Routing (R283, R286, R287) -/

/-- The route entry of a position in bank b. -/
def Pkg.rtEntry (s : Pkg) (b pos : Nat) : Nat :=
  s.rf (fabBase + 0x10000 + 0x10000 * b + pos / 4 * 8) (16 * (pos % 4) + 15) (16 * (pos % 4))

/-- Send on CROSS: the CROSS link of the same footing first (DESIGN CHOICE, log entry 44). -/
def Pkg.sendCross (s : Pkg) (f : Nat) (inp : Option (Nat × Nat)) (p : FPkt) (vc : Nat) : Option Pkg :=
  match (if f = 0 then [5, 11] else [11, 5]).find? s.lkUp with
  | some i => s.linkSend i vc f inp p
  | none => some ((s.freed inp p.length).sat (fabBase + 0x10) 31 16)

/-- Whether a packet's TYPE exists in its CLASS (11 R299, R304). -/
def pkKnown (p : FPkt) : Bool :=
  match pkClass p with | 0 => decide (pkType p ≤ 4) | 1 => pkType p == 0 | _ => decide (pkType p ≤ 11)
/-- A packet for this package reaches its home agents; one without a meaning is discarded (11 R304). -/
def Pkg.eject (s : Pkg) (inp : Nat) (p : FPkt) : Pkg := if pkKnown p then s.toHome inp p else s.sat (fabBase + 0x10) 63 48

/-- route(p, input) (R283): input 0 to 11 a link, with the receive buffer that holds the packet; 12 to 23 MORTAR at a link stop; none where the
packet cannot go on yet. A packet that enters from MORTAR with XR set is a resend, which takes the other rail than its entry says (11 R301). -/
def Pkg.route (s : Pkg) (p : FPkt) (inp : Nat) (buf : Option (Nat × Nat)) : Option Pkg :=
  let cnt := fabBase + 0x10
  let dst := pkDst p
  let foot := inp % 12 / 6
  let gone : Pkg := s.freed buf p.length
  if pkClass p = 3 ∨ pkLen p = 0 ∨ pkLen p > 20 ∨ (List.range 4).any (fun d => decide (coord dst d ≥ s.dimK d)) then some (gone.sat cnt 63 48)
  else
    let act := s.rtActive
    let hit := if s.rtGen act = pkGen p then some act else if s.rtGen (1 - act) = pkGen p then some (1 - act) else none
    let miss (q : Pkg) : Pkg := if hit.isNone then q.sat cnt 47 32 else q
    let e := s.rtEntry (hit.getD act) (dst / 2)
    if dst / 2 = s.selfId / 2 then
      if s.fabMode = 1 ∨ (s.fabMode = 0 ∧ dst % 2 = s.selfId % 2) ∨ s.rf tdmBase 3 0 = 9 then some ((miss gone).eject inp p)
      else (s.sendCross foot buf p (2 * pkClass p + 1)).map miss
    else if e / 32 % 2 = 1 then some ((miss gone).sat cnt 15 0)
    else if inp ≥ 12 ∧ e / 16 % 2 ≠ pk p 0 37 37 then (s.sendCross foot buf (pkSet p 37 37 1) (2 * pkClass p)).map miss
    else
      let p := if inp ≥ 12 then pkSet p 37 37 0 else p
      let d := ((List.range 4).find? (fun d => coord dst d != coord s.selfId d)).getD 0
      let din := if inp < 12 ∧ 1 ≤ s.lkCarries inp ∧ s.lkCarries inp ≤ 8 then some ((s.lkCarries inp - 1) / 2) else none
      let cont := din == some d
      let dir := if cont then pk p 0 (33 + d) (33 + d) else e / 2 ^ d % 2
      let p := if cont then p else pkSet (pkSet p (33 + d) (33 + d) dir) 32 32 0
      let k := s.dimK d
      let c := coord s.selfId d
      let wrap := (dir = 0 ∧ c + 1 = k) ∨ (dir = 1 ∧ c = 0)
      let p := if wrap then pkSet p 32 32 1 else p
      match s.roleLink (1 + 2 * d + dir) with
      | some o => (s.linkSend o (vcOf p) foot buf p).map miss
      | none => some ((miss gone).sat cnt 31 16)

/-- FABRIC_ROUTE: the first packet of a VC's receive buffer, or the first that has entered from Mortar at a link stop and is not behind one
of its class for its destination (R285), is routed; a promoting stoker holds at most 4,096 for its position (12 R333). -/
def Pkg.fabricRoute (s : Pkg) (inp vc : Nat) : Pkg :=
  let full (p : FPkt) : Bool := s.rf tdmBase 3 0 == 9 && pkDst p / 2 == s.selfId / 2 && decide (s.fab.ejq.length ≥ 4096)
  if inp < 12 then
    match Map.get (fun _ => []) s.fab.inq (6 * inp + vc) with
    | p :: rest =>
      if full p then s
      else (({ s with fab := { s.fab with inq := Map.set (fun _ => []) s.fab.inq (6 * inp + vc) rest } } : Pkg).route p inp (some (inp, vc))).getD s
    | [] => s
  else
    match s.fab.inj.findIdx? (fun q => q.1 == inp - 12 && 2 * pkClass q.2 == vc) with
    | none => s
    | some k =>
      let p := (s.fab.inj.getD k (0, [])).2
      if full p || (s.fab.inj.take k).any (fun q => pkDst q.2 == pkDst p && pkClass q.2 == pkClass p) then s
      else (({ s with fab := { s.fab with inj := s.fab.inj.eraseIdx k } } : Pkg).route p inp none).getD s

/-- FLIP (R287). -/
def Pkg.rtFlip (s : Pkg) : Pkg :=
  if s.rtGen 0 = s.rtGen 1 then s.wb (fabBase + 8) 2 true else s.wf (fabBase + 8) 0 0 (1 - s.rtActive)
/-- A write of FAB_RTCTL: the GEN of the standby bank only. -/
def Pkg.rtctlWrite (s : Pkg) (v : Word) : Pkg :=
  let r := fabBase + 8
  let s : Pkg := if v.getLsbD 2 then s.wb r 2 false else s
  let act := s.rtActive
  let (ah, al) := if act = 0 then (7, 4) else (11, 8)
  let (sh, sl) := if act = 0 then (11, 8) else (7, 4)
  let s : Pkg := if bits v ah al ≠ s.rf r ah al then s.wb r 2 true else s
  let s := s.wf r sh sl (bits v sh sl)
  if v.getLsbD 1 then s.rtFlip else s
/-- A write of FAB_RT[b][j]: bits [15:6] of each entry are reserved (R286). -/
def Pkg.rtWrite (s : Pkg) (b j : Nat) (v : Word) : Pkg :=
  if b = s.rtActive then s.wb (fabBase + 8) 2 true else s.wr (fabBase + 0x10000 + 0x10000 * b + 8 * j) (v &&& 0x003F003F003F003F#64)

/-! ### Commands -/

/-- LINK_ENABLE (R271). -/
def execLinkEnable (i : LkN) (s : State) : Out :=
  s.run (·.lkEnable i)
/-- LINK_DRAIN (R273). -/
def execLinkDrain (i : LkN) (s : State) : Out :=
  s.run (·.lkDrain i)
/-- LINK_DISABLE (R273). -/
def execLinkDisable (i : LkN) (s : State) : Out :=
  s.run (·.lkDisable i)
/-- LINK_TRAINING_STEP (R271). -/
def execLinkTrainingStep (i : LkN) (ok : Bool) (m : LaneMap) (n : TrainMsg) (s : State) : Out :=
  s.run (·.lkTrain i ok m n.id.toNat n.role.toNat)
/-- LINK_TRAIN_RETRY (R271). -/
def execLinkTrainRetry (i : LkN) (dt : Nat) (s : State) : Out :=
  s.runAt dt (·.lkRetry i)
/-- DATA_FLIT_RECEIVE (R269). -/
def execDataFlitReceive (i : LkN) (w : LaneBits) (s : State) : Out :=
  s.run (·.flitIn i w)
/-- IDLE_FLIT_RECEIVE (R268). -/
def execIdleFlitReceive (i : LkN) (w : LaneBits) (down : Bool) (s : State) : Out :=
  s.run (·.idleIn i w down)
/-- NAK_RECEIVE (R269). -/
def execNakReceive (i : LkN) (w : LaneBits) (s : State) : Out :=
  s.run (·.nakIn i w)
/-- REPLAY_TIMEOUT (R269). -/
def execReplayTimeout (i : LkN) (dt : Nat) (s : State) : Out :=
  s.runAt dt (·.replayTimeout i)
/-- CHECK_FLIT_RECEIVE (R266). -/
def execCheckFlitReceive (i : LkN) (w : LaneBits) (s : State) : Out :=
  s.run (·.checkFlit i w)
/-- LANE_REPAIR_COMPLETE (R272). -/
def execLaneRepairComplete (i : LkN) (r : LaneStep) (s : State) : Out :=
  s.run (·.laneRepaired i r)
/-- LOSS_OF_LOCK (R273). -/
def execLossOfLock (i : LkN) (s : State) : Out :=
  s.run (·.lossOfLock i)
/-- LINK_DRAIN_COMPLETE (R273). -/
def execLinkDrainComplete (i : LkN) (dt : Nat) (s : State) : Out :=
  s.runAt dt (·.drainDone i)
/-- SWITCH_FLIT_RECEIVE (R277). -/
def execSwitchFlitReceive (i : LkN) (w : LaneBits) (down : Bool) (s : State) : Out :=
  s.run (·.switchIn i w down)
/-- TAKEOVER_TIMEOUT (R277). -/
def execTakeoverTimeout (i : LkN) (dt : Nat) (s : State) : Out :=
  s.runAt dt (·.takeTimeout i)
/-- FABRIC_ROUTE (R283). -/
def execFabricRoute (q : SwitchQ) (s : State) : Out :=
  s.run (·.fabricRoute q.inp q.vc)
/-- ROUTE_FLIP (R287). -/
def execRouteFlip (s : State) : Out :=
  s.run (·.rtFlip)

end Sys2Proof.Machine
end

