-- ==== Sys2Proof/Machine/Forward.lean ====
section
/-!
DEFINITION. Machine/Forward.lean: forwarded mailbox commands as firmware answers them (18 R451), and the release of held
outputs (12 R326, R327).
-/
namespace Sys2Proof.Machine

/-! ### Forwarded commands (18 R449, R451) -/

/-- The base of a mailbox: the port's, or firmware's. -/
def mbxBase (port : Bool) : Nat := if port then mgtBase + 0x300 else mgtBase + 0x10000
def mbxData (port : Bool) : Nat := if port then mgtBase + 0x1000 else mgtBase + 0x11000
/-- Write bytes at a DRS offset of a data buffer. -/
def Pkg.bufPut (s : Pkg) (off : Nat) : List (BitVec 8) → Pkg
  | [] => s
  | b :: t => (s.wf (off / 8 * 8) (8 * (off % 8) + 7) (8 * (off % 8)) b.toNat).bufPut (off + 1) t
/-- Bytes of a data buffer. -/
def Pkg.bufGet (s : Pkg) (off n : Nat) : List (BitVec 8) :=
  (List.range n).map (fun k => BitVec.ofNat 8 (s.rf ((off + k) / 8 * 8) (8 * ((off + k) % 8) + 7) (8 * ((off + k) % 8))))
/-- The command of a mailbox: OP, LEN, ARG, its data. -/
def Pkg.mbxOp (s : Pkg) (port : Bool) : Nat := s.rf (mbxBase port) 7 0
def Pkg.mbxLen (s : Pkg) (port : Bool) : Nat := min 4096 (s.rf (mbxBase port) 20 8)
def Pkg.mbxArg (s : Pkg) (port : Bool) : Nat := (s.rd (mbxBase port + 8)).toNat
/-- A mailbox command completes: its response, RESULT and DONE; the port's sets MGT_ALERT.MBX. -/
def Pkg.mbxEnd (s : Pkg) (port : Bool) (result : Nat) (resp : List (BitVec 8)) : Pkg :=
  let s := s.bufPut (mbxData port) resp
  let r := mbxBase port + 0x10
  let s := (((s.wb r 0 false).wb r 1 true).wf r 15 8 result).wf r 28 16 resp.length
  let s := { s with mgt := { s.mgt with q := s.mgt.q.drop 1, fwdAt := none } }
  if port then s.wb (mgtBase + 0x210) 0 true else s
/-- The RESULT of a command that is refused by its opcode alone (R450): BAD_OPCODE where it is undefined; the firmware mailbox answers
any but 0x01 and 0x04 to 0x07 with DENIED. -/
def mbxRefusal (port : Bool) (op : Nat) : Option Nat :=
  if port then (if op = 0 ∨ (0xD ≤ op ∧ op < 0x80) then some 1 else none)
  else if op = 1 ∨ (4 ≤ op ∧ op ≤ 7) then none else some 3
/-- The command at the head, and the one behind it, complete at once if their opcodes are refused. -/
def Pkg.mbxNext (s : Pkg) : Nat → Pkg
  | 0 => s
  | n + 1 =>
    match s.mgt.q with
    | [] => s
    | port :: _ =>
      match mbxRefusal port (s.mbxOp port) with
      | some r => (s.mbxEnd port r []).mbxNext n
      | none => s
def Pkg.mbxDone (s : Pkg) (port : Bool) (result : Nat) (resp : List (BitVec 8)) : Pkg := (s.mbxEnd port result resp).mbxNext 2
/-- MGT_MBX_CMD is written (R449). -/
def Pkg.mbxCmd (s : Pkg) (port : Bool) (v : Word) : Pkg :=
  let b := mbxBase port
  if s.rb (b + 0x10) 0 then (if v.getLsbD 31 then s.wb (b + 0x10) 2 true else s)
  else
    let s := s.wr b (v &&& 0x1FFFFF#64)
    if v.getLsbD 31 then (({ s with mgt := { s.mgt with q := s.mgt.q ++ [port] } }).wb (b + 0x10) 0 true).mbxNext 2 else s
/-- MGT_FWDONE is written. -/
def Pkg.fwDone (s : Pkg) (v : Word) : Pkg :=
  let req := mgtBase + 0x20000
  if !v.getLsbD 31 then s
  else if !s.rb req 31 || decide (bits v 20 8 > 4096) then s.wb (mgtBase + 0x20020) 0 true
  else (s.wb req 31 false).mbxDone true (bits v 7 0) (s.bufGet (mgtBase + 0x22000) (bits v 20 8))
/-- An output of class MGT takes effect: a write of the response buffer or of MGT_FWDONE. -/
def Pkg.mgtOut (s : Pkg) (off n data : Nat) : Pkg :=
  if off = mgtBase + 0x20010 then s.fwDone (BitVec.ofNat 64 data) else s.bufPut off (leBytes n data)

/-! ### Outputs leave (12 R325 to R328) -/

/-- An unlisted stream: nothing sent, its EPOCH the one set when the node joined (11 R306). -/
def src0 (b : Nat) : Nat → SrcStream := fun _ => { epoch := b }
def Pkg.srcS (s : Pkg) (d : Nat) : SrcStream := Map.get (src0 s.fab.base) s.fab.src d
def Pkg.setSrc (s : Pkg) (d : Nat) (st : SrcStream) : Pkg := { s with fab := { s.fab with src := Map.set (src0 s.fab.base) s.fab.src d st } }

/-- A held output leaves: the request's timeouts begin (11 R301). -/
def Pkg.letGo (s : Pkg) (w : OutWhat) : Pkg :=
  match w with
  | .dev r => { s with devq := s.devq ++ [r] }
  | .mgt off n data => s.mgtOut off n data
  | .fab p _ =>
    let st := s.srcS (pkDst p)
    let s := if pkClass p = 1 then s else s.setSrc (pkDst p) { st with
      out := st.out.map (fun o => if o.seq = pk p 1 15 0 ∧ o.t.isNone then { o with t := some s.now } else o) }
    let e := if pkClass p = 1 then (Map.get (fun _ => {}) s.fab.home (pkDst p)).port
      else match st.out.find? (fun o => o.seq == pk p 1 15 0) with | some o => o.who.entry o.pa | none => 5
    s.emitPkt (((p.getD 0 0#128) &&& BitVec.ofNat 128 (2 ^ 64 - 1) ||| BitVec.ofNat 128 (s.rdtime.toNat * 2 ^ 64)) :: p.drop 1) e

/-- An output that leaves before its digest is compared even under COMPARE: a fabric RD or ATOM (log entry 30). -/
def OutWhat.early : OutWhat → Bool
  | .fab p _ => pkClass p == 0 && (pkType p == 0 || pkType p == 2)
  | _ => false
/-- One pass over the hold buffer in OSN order: `kept` are the earlier outputs that stay. A COMPARE output leaves once its
digests agree and nothing before it stays; a RELEASE output once no earlier output of its thread stays. MMIO and CFG
outputs stay while IO is closed (R334), COMPARE outputs while a divergence withholds them (R338). -/
def Pkg.holdPass (s : Pkg) (kept : List Held) : List Held → Pkg
  | [] => { s with tdm := { s.tdm with hold := kept } }
  | e :: rest =>
    let cmp := s.compares e.cls
    let ok := e.go && !(s.rb tdmBase 10 && decide (e.cls ≤ 1)) && !(cmp && s.rb tdmBase 9)
      && (if cmp then kept.isEmpty else !kept.any (fun k => k.h == e.h))
    if ok then
      let s : Pkg := if cmp && s.logging then { s with tdm := { s.tdm with log := s.tdm.log ++ [.released e.osn], released := e.osn } } else s
      let s : Pkg := if (!cmp || e.what.early) && s.logging then { s with tdm := { s.tdm with left := s.tdm.left ++ [(e.osn, e.digest)] } } else s
      (s.letGo e.what).holdPass kept rest
    else s.holdPass (kept ++ [e]) rest
/-- Every output that may leave does. -/
def Pkg.holdRun (s : Pkg) : Pkg := s.holdPass [] s.tdm.hold

/-- A stoker forms an output that an OUTMAP describes: its digest goes back, and the output is kept until the captain has
released it (R326, R335); a CFG output that the captain has released goes to the stoker's own hierarchy (R330). -/
def Pkg.stokerOut (s : Pkg) (cls : Nat) (h : Option Nat) (gsn : Nat) (w : OutWhat) (keep : Bool) : Pkg :=
  let dg := crc64 (w.canon cls)
  match s.tdm.outmaps.find? (fun o => o.cls == cls && o.inb == h.isNone && o.gsn == gsn) with
  | none => { s with tdm := { s.tdm with hold := s.tdm.hold ++ [⟨0, cls, h, w, dg, false⟩] } }
  | some om =>
    let out : Bool := cls == 1 && (decide (om.osn ≤ s.tdm.released) || !s.compares 1)
    let s := if out then s.letGo w else s
    let keep := keep && !out
    { (s.tell (.digest om.osn dg)) with tdm := { (s.tell (.digest om.osn dg)).tdm with
      outmaps := s.tdm.outmaps.erase om, formed := s.tdm.formed ++ [(om.osn, dg)]
      hold := if keep && decide (om.osn > s.tdm.released) then s.tdm.hold ++ [⟨om.osn, cls, h, w, dg, false⟩] else s.tdm.hold } }
/-- A thread's output of a class that is not a fabric request leaves, or is held (R325). -/
def Pkg.output (s : Pkg) (cls : Nat) (h : Option Nat) (w : OutWhat) : Pkg :=
  if s.paired then (s.formOut cls h (s.tdm.gsn + 1) w 0 0 0).holdRun
  else if s.replaying then s.stokerOut cls h (s.tdm.gsn + 1) w true
  else if s.rb tdmBase 10 && decide (cls ≤ 1) then { s with tdm := { s.tdm with hold := s.tdm.hold ++ [⟨0, cls, h, w, 0#64, true⟩] } }
  else s.letGo w

end Sys2Proof.Machine
end

