-- ==== Sys2Proof/Machine/View.lean ====
section
/-!
DEFINITION. Machine/View.lean: reads of device register space (00 R8 to R13, 01 R22 to R29): which widths a register takes, and what a
read returns; one access within a line (04 R125).
-/
namespace Sys2Proof.Machine

/-! ### Widths (R13) -/

/-- The data buffers that take 1, 2, 4 and 8 bytes (18 R449): the firmware mailbox's, and those of forwarded commands. -/
def mgtBuf (off : Nat) : Bool := off / 4096 == (mgtBase + 0x11000) / 4096 || off / 4096 == (mgtBase + 0x21000) / 4096 || off / 4096 == (mgtBase + 0x22000) / 4096
/-- FAB_SEND's payload (11 R307): the thread and the doubleword. -/
def fabPay (off : Nat) : Option (Nat × Nat) :=
  let o := off - (fabBase + 0x100000)
  if fabBase + 0x100000 ≤ off ∧ o < 0x40000 ∧ o % 0x80 < 0x40 then some (o / 0x80, o % 0x80 / 8) else none
/-- The BUS_ERR SRC of a DRS access of n bytes at an offset (R13, R22). -/
def drsErr (off n : Nat) (wr : Bool) : Option Nat :=
  match regAt (off / 8 * 8) with
  | none => some 1
  | some (w, o, _) =>
    let ok : Bool := match w with
      | .tic _ => if o = 0 then n == 4 && off % 8 == 0 else n == 8 && off % 8 == 0
      | _ =>
        (n == 8 && off % 8 == 0)
          || (mgtBuf off && (n == 1 || n == 2 || n == 4) && off % n == 0)
          || (n == 32 && wr && (fabPay off).isSome && off % 32 == 0)
    if ok then none else some 4

/-- Whether the proxy answers for a window: its power domain is gated (R29); error records stay. -/
def Pkg.proxied (s : Pkg) (w : Win) (o : Nat) : Bool :=
  if 0xC00 ≤ o ∧ o < 0xC40 then false
  else match w with
    | .core c => decide (s.coreP c ≥ 2)
    | .l2 n => decide (s.l2P n ≥ 2)
    | _ => false

/-! ### Views of other state -/

/-- HOLDSEC as it reads. -/
def Pkg.holdSec (s : Pkg) : Nat :=
  match s.cad.holdAt with
  | some t => min ((s.now - t) / 1000000000000) (2 ^ 32 - 1)
  | none => s.rf (cadBase + 8) 63 32

/-- CAD_TIME_NS is read: FRAC and NS, and the seconds are latched. -/
def Pkg.cadTimeRead (s : Pkg) : Pkg × Word :=
  let v := BitVec.ofNat 64 (s.cad.t / 65536 % 65536 + s.cadNs % 1000000000 * 65536)
  ((s.wr (cadBase + 0x18) v).wf (cadBase + 0x20) 47 0 s.cadSec, v)

/-- SC_DBGSTAT.SHIMMY. -/
def Pkg.shmOpen (s : Pkg) : Bool := s.rb (scBase + 0x300) 2
/-- The level of TDM_ALIVE. -/
def Pkg.aliveHigh (s : Pkg) : Bool := s.pins.alive && s.pins.partner

/-! ### Reads -/

def bit01 (b : Bool) : Nat := if b then 1 else 0
/-- What a register's fields that are views of other state hold now. -/
def Pkg.drsView (s : Pkg) (w : Win) (o : Nat) (v : Word) : Word :=
  match w with
  | .core c =>
    if 0x100 ≤ o ∧ o < 0x140 then
      let t := s.thr (8 * c + (o - 0x100) / 8)
      setBits (setBits v 10 8 t.st.code) 13 11 t.prior.code
    else v
  | .l2 n =>
    if o = 0x10 then
      setBits (setBits (setBits v 0 0 (bit01 (s.cacheBusy false n))) 1 1 (bit01 (s.dirtyL2 n))) 2 2 (bit01 (s.gateOk n))
    else v
  | .l3s n => if o = 0x10 then setBits (setBits v 0 0 (bit01 (s.cacheBusy true n))) 1 1 (bit01 (s.dirtyL3 n)) else v
  | .tdm =>
    if o = 0 then
      setBits (setBits (setBits (setBits v 4 4 (bit01 (s.lkState 5 == 5))) 5 5 (bit01 (s.lkState 11 == 5))) 6 6 (bit01 s.pins.fsIn)) 7 7 (bit01 s.aliveHigh)
    else if o = 0x20 then setBits v 31 0 (if s.logging then min s.lag (2 ^ 32 - 1) else 0)
    else v
  | .sc => if 0x230 ≤ o ∧ o < 0x248 then s.errPend ((o - 0x230) / 8) else v
  | .cad => if o = 8 then setBits v 63 32 s.holdSec else v
  | .odo => if o = 0x1008 then 0#64 else if o = 0x1FF8 then v &&& 0xFFFFFFFF#64 else v
  | .shm => if s.shmOpen then v else 0#64
  | _ => v

/-- A read of the register at a DRS offset: its value, and the state after it. -/
def Pkg.drsRead (s : Pkg) (off : Nat) : Pkg × Word :=
  match regAt off with
  | none => (s, 0#64)
  | some (w, o, r) =>
    if s.proxied w o then (s, 0#64)
    else if off = cadBase + 0x18 then s.cadTimeRead
    else (s, regReadBits r.flds (s.drsView w o (s.rd off)))
/-- A load of n bytes. -/
def Pkg.drsLoad (s : Pkg) (off n : Nat) : Pkg × Nat :=
  let (s, v) := s.drsRead (off / 8 * 8)
  (s, v.toNat / 2 ^ (8 * (off % 8)) % 2 ^ (8 * n))

/-! ### One access (R125) -/

/-- One access within a line. -/
structure Piece where
  va : Word
  n : Nat
  pa : Nat := 0
  ai : Nat := 0
deriving DecidableEq, Repr

/-- An access as one piece, or as its halves (R125). -/
def split (va : Word) (n : Nat) : List Piece :=
  let k := 64 - va.toNat % 64
  if n ≤ k then [{ va := va, n := n }] else [{ va := va, n := k }, { va := va + BitVec.ofNat 64 k, n := n - k }]


/-- The BUS_ERR SRC of one piece (R112); an atomic to AI 2, 3 or 4 memory gives 7; ECAM
takes 1, 2 and 4 aligned bytes (14 R366); Shimmy's registers are closed below M (19 R458). -/
def Pkg.pieceErr (s : Pkg) (h : Nat) (k : AccKind) (p : Piece) : Option Nat :=
  match s.regionErr p.pa p.ai with
  | some e => some e
  | none =>
    if k = .atomic ∧ 2 ≤ p.ai ∧ p.ai ≤ 4 then some 7
    else if region p.pa = 3 ∧ shmBase ≤ p.pa - drsLo ∧ p.pa - drsLo < shmBase + 0x1000000 ∧ (s.thr h).lvl < 3 then some 1
    else if region p.pa = 3 then drsErr (p.pa - drsLo) p.n (decide (k ≠ .load))
    else if region p.pa = 2 ∧ ¬ ((p.n = 1 ∨ p.n = 2 ∨ p.n = 4) ∧ p.pa % p.n = 0) then some 4
    else none


end Sys2Proof.Machine
end

