-- ==== Sys2Proof/Machine/Exc.lean ====
section
/-!
DEFINITION. Machine/Exc.lean: level-sensitive vectors (04 R130), retiring an instruction, taking
an exception and the emergency path (04 R108 to R118), returning from one (R113, R121), and the completion of loads.
-/
namespace Sys2Proof.Machine

/-! ### The timer (03 R92) -/

/-- TIMER is pending while TIME.NS ≥ TCMP.NS. -/
def Pkg.timerLevel (s : Pkg) (h : Nat) : Pkg :=
  let on := decide (s.timeNs % 2 ^ 64 ≥ ((s.thr h).rs 0x401).toNat)
  if on && !s.pendv h 34 then
    if s.shmHas 7 (skewTimer h) then s else s.shmSkew 2 (skewTimer h) 0 (·.setLevel h 34 true)
  else s.setLevel h 34 on

/-! ### Retiring (04 R126, R127) -/

/-- The head instruction has completed and the next one follows: WS and RI clear. -/
def Pkg.retireQ (s : Pkg) (h : Nat) : Pkg :=
  (s.updThr h (fun t => { (t.setPs (setBits t.ps 4 3 0)) with
    pc := t.pc + 4#64, queue := t.queue.drop 1, held := false, hparts := [], long := false, sel := false, ebuf := [] })).pmu h 0x02
/-- The same, as a step of the chunk. -/
def Pkg.retire (s : Pkg) (h : Nat) : Pkg := (s.retireQ h).chunkStep h

/-- Instructions of the branch's own block lie beyond it: they are discarded (02 R67, event 0x0A). -/
def Thread.partial (t : Thread) : Bool :=
  match t.queue with
  | _ :: (pc, _) :: _ => pc == t.pc + 4#64 && decide (t.pc.toNat % 32 < 28)
  | _ => false

/-- The head instruction is a branch taken to `pc`. -/
def Pkg.jump (s : Pkg) (h : Nat) (pc : Word) : Pkg :=
  let part := (s.thr h).partial
  let s := ((s.retire h).redirect h pc).pmu h 0x09
  if part then s.pmu h 0x0A else s

/-- The end of a step's chunk accounting: cause 0 for none but LIMIT (12 R314). -/
def Pkg.stepEnd (s : Pkg) (h cause : Nat) (arg fault dfl value vlen : Nat := 0) : Pkg :=
  let (s, forced) := s.shmChunk h
  if cause ≠ 0 then s.commit h cause arg fault dfl value vlen else if forced then s.endChunk h 15 else s.chunkLimit h

/-! ### Accesses of exception entry and return (04 R110, R113) -/

/-- In a pair AI 6 is performed as AI 5 (12 R324). -/
def Pkg.effAi (s : Pkg) (ai : Nat) : Nat := if ai = 6 ∧ s.inPair then 5 else ai

/-- Open chunks of other threads that an access of exception entry conflicts with commit first (12 R315). -/
def Pkg.yieldChunks (s : Pkg) (h line : Nat) (write : Bool) : Pkg :=
  if s.paired then
    s.threads.foldl (fun s p =>
      if p.1 != h && (match p.2.chunk with | some k => k.conflicts line write | none => false) then s.endChunk p.1 12 else s) s
  else s

/-- What an access of an entry, a return or a granule meets: its value, an exception (vector, FADDR, FINFO), or a wait for bytes from
outside the package's DRAM. -/
inductive SysRes where
  | ok (x : Nat)
  | err (v fa fin : Nat)
  | wait
deriving DecidableEq, Repr

/-- Bytes that the thread has had read into its buffer. -/
def Thread.bufGet (t : Thread) (pa n : Nat) : Option Nat := (t.ebuf.find? (fun p => p.pa == pa && p.n == n)).bind (·.got)
/-- Several of them in order, the first lowest. -/
def Thread.bufAll (t : Thread) : List Part → Option Nat
  | [] => some 0
  | p :: l =>
    match t.bufGet p.pa p.n, t.bufAll l with
    | some x, some y => some (x + y * 2 ^ (8 * p.n))
    | _, _ => none

/-- Thread h asks for bytes that it does not have: requests to the remote home, or to a device, whose answers enter its buffer. -/
def Pkg.askBuf (s : Pkg) (h : Nat) (k : AccKind) (va : Word) (l : List Part) : Pkg :=
  let t := s.thr h
  let l := l.filter (fun p => (t.bufGet p.pa p.n).isNone)
  if t.await.isSome || l.isEmpty then s
  else
    let s := s.updThr h (fun t => { t with await := some { dest := .buf, parts := l, va := va, pc := t.pc, blk := true, acc := k.code, t0 := s.now } })
    (l.zipIdx).foldl (fun s q =>
      let s := s.stReq (stCore (h / 8)) 0
      if region q.1.pa = 5 then
        { s with fab := { s.fab with gq := s.fab.gq ++ [{ kind := .rd, pa := q.1.pa, n := q.1.n, data := 0, op := 0, who := .load h q.2, gsn := s.tdm.gsn + 1 }] } }
      else { s with devq := s.devq ++ [{ h := h, pa := q.1.pa, n := q.1.n, data := 0, be := 2 ^ q.1.n - 1, wr := false, wait := decide (q.1.ai = 2), part := q.2 }] }) s

/-- Bytes from outside the package's DRAM that thread h has had read, in order; else it asks for them. A replaying member, whose log holds
no input for them, takes free bytes (log entry 25). -/
def Pkg.bufAsk (s : Pkg) (h : Nat) (k : AccKind) (va : Word) (l : List Part) : Pkg × Option Nat :=
  match (s.thr h).bufAll l with
  | some x => (s, some x)
  | none =>
    if s.replaying then
      ({ s with fresh := s.fresh + 1 }, some (leNat (l.flatMap (fun p => (List.range p.n).map (fun i => Config.remoteByte s.fresh (p.pa + i))))))
    else (s.askBuf h k va l, none)

/-- Bytes of a cached global line (AI 6): from the package's copies, else the line is read from its remote home and installed as the
allocation rules say (06 R167, 07 R204). -/
def Pkg.takeGlobal (s : Pkg) (h : Nat) (k : AccKind) (va : Word) (pa n : Nat) (stream : Bool) : Pkg × Option (Nat × Bool) :=
  let c := h / 8
  let line := pa / 64
  if !s.uncopied line || (s.findL1d c line).isSome then
    let (s, x, p) := s.coreRead c 6 pa n stream
    (s, some (x, p))
  else
    match s.bufAsk h k va [⟨64 * line, 6, 64, none⟩] with
    | (s, some x) =>
      let d := BitVec.ofNat 512 x
      let s : Pkg := if s.alloc3 (homeOf line) then s.fillL3 line d false false stream else s
      (s.giveShared (c / 2) line 6 d false stream c, some (lineGet d (pa % 64) n, false))
    | (s, none) => (s, none)

/-- The translation fault of a level's access, with FGPA for a stage-2 one (05 R152). -/
def Pkg.fgpa (s : Pkg) (h : Nat) (f : XFault) : Pkg :=
  match f.gpa with
  | some g => s.updThr h (·.ws 0x104 (BitVec.ofNat 64 (g / 4096 * 4096 % 2 ^ 58)))
  | none => s

/-- An aligned load within one line at a level, of one doubleword or of a frame, under every check of an ordinary load (R110, R113,
R124). -/
def Pkg.sysLoad (s : Pkg) (h lvl : Nat) (va : Word) (n : Nat) : Pkg × SysRes :=
  match s.xlateNow h lvl va .load with
  | (s, .error f) => (s.fgpa h f, .err (f.vector .load) va.toNat (f.finfo .load false))
  | (s, .ok (pa, ai)) =>
    let bus (src fa : Nat) : SysRes := .err 11 fa (src + 1024)
    let done (s : Pkg) (x : Nat) (p : Bool) : Pkg × SysRes :=
      if p then (s.poisonUsed (.core (h / 8)) pa (some h), bus 3 (pa / 64 * 64)) else (s, .ok x)
    match s.regionErr pa ai with
    | some src => (s, bus src va.toNat)
    | none =>
      let ai := s.effAi ai
      match region pa with
      | 0 =>
        let s := (s.yieldChunks h (pa / 64) false).chunkRead h (pa / 64)
        if ai ≤ 1 then
          let (s, x, p) := s.coreRead (h / 8) ai pa n false
          done s x p
        else
          let (s, x, p) := s.homeTake pa n
          done s x p
      | 3 =>
        let off := pa - drsLo
        match (List.range (n / 8)).findSome? (fun i =>
            (s.pieceErr h .load { va := va, n := 8, pa := pa + 8 * i, ai := ai }).map (fun e => (e, va.toNat + 8 * i))) with
        | some (e, fa) => (s, bus e fa)
        | none =>
          let (s, x) := (List.range (n / 8)).foldl (fun (a : Pkg × Nat) i => let (s, w) := a.1.drsLoad (off + 8 * i) 8; (s, a.2 + w * 2 ^ (64 * i))) (s, 0)
          (s, .ok x)
      | 2 => (s, bus 4 va.toNat)
      | 5 =>
        if ai = 6 then
          match s.takeGlobal h .load va pa n false with
          | (s, some (x, p)) => done s x p
          | (s, none) => (s, .wait)
        else
          match s.bufAsk h .load va [⟨pa, ai, n, none⟩] with
          | (s, some x) => (s, .ok x)
          | (s, none) => (s, .wait)
      | _ =>
        match s.bufAsk h .load va ((List.range (n / 8)).map (fun i => ⟨pa + 8 * i, ai, 8, none⟩)) with
        | (s, some x) => (s, .ok x)
        | (s, none) => (s, .wait)

/-- The 64-byte store of a frame at a level: none if it faults; whether every thread can see it already. -/
def Pkg.frameStore (s : Pkg) (h lvl : Nat) (va : Word) (x : Nat) : Pkg × Option Bool :=
  match s.xlateNow h lvl va .store with
  | (s, .error f) => (s.fgpa h f, none)
  | (s, .ok (pa, ai)) =>
    match s.regionErr pa ai with
    | some _ => (s, none)
    | none =>
      let ai := s.effAi ai
      match region pa with
      | 0 =>
        let s := (s.yieldChunks h (pa / 64) true).chunkWrite h (pa / 64)
        if ai ≤ 1 then (s.coreWrite (h / 8) ai pa 64 x, some true) else (s.homeWrite pa 64 x, some true)
      | 2 | 3 => (s, none)
      | 5 =>
        if ai = 6 then (s.coreWrite (h / 8) ai pa 64 x, some true)
        else
          let s := s.stReq (stCore (h / 8)) 64
          ({ s with fab := { s.fab with gq := s.fab.gq ++ [{ kind := .wr, pa := pa, n := 64, data := x, op := 0, who := .store h, gsn := s.tdm.gsn + 1 }] } }, some s.replaying)
      | _ =>
        ((s.stReq (stCore (h / 8)) 64).output 0 (some h) (.dev { h := h, pa := pa, n := 64, data := x, be := 2 ^ 64 - 1, wr := true, wait := decide (ai = 2), ack := true, t0 := s.now }), some s.replaying)

/-- Whether a frame that has left the core is not visible yet (R111). -/
def Pkg.frameOut (s : Pkg) (h : Nat) : Bool :=
  s.fab.unacked h || s.devq.any (fun r => r.h == h && r.ack)
    || s.tdm.hold.any (fun o => o.h == some h && match o.what with | .dev r => r.ack | _ => false)

/-! ### Taking an exception (R108 to R118) -/

/-- The level at which a vector raised at level `cur` is taken (R108). -/
def Thread.takenAt (t : Thread) (v : Nat) (async : Bool) : Nat := if async then t.target v else max (t.target v) t.lvl

/-- PS at entry: LVL := T, IE, RI and WS := 0 (R110, R127). -/
def entryPs (ps : Word) (lvl : Nat) : Word := setBits (setBits ps 4 2 0) 1 0 lvl

/-- The frame as a little-endian number (R112). -/
def frameOf (pc ps cause faddr finfo sp : Word) : Nat :=
  pc.toNat + ps.toNat * 2 ^ 64 + cause.toNat * 2 ^ 128 + faddr.toNat * 2 ^ 192 + finfo.toNat * 2 ^ 256 + sp.toNat * 2 ^ 320

/-- STACK_EXHAUSTED (R115, R118): the thread is FAULTED, CORE_MC_TARGET gets vector 32. -/
def Pkg.stackExhausted (s : Pkg) (h : Nat) : Pkg :=
  let s := s.updThr h (fun t => { t with st := .faulted, queue := [], walk := none, mon := none, monWake := false, sel := false, ent := none })
  let s := s.record (.core (h / 8)) { cls := 2, code := 0x13, htid := some h, mcreq := true }
  s.raiseVec (s.rf (coreBase (h / 8) + 8) 10 0) 32 (BitVec.ofNat 64 (2 + h * 256))

/-- The load of a handler's address from the vector table of level T: the address, none if the load faults or it is misaligned, or a
wait. -/
inductive Handler where
  | pc (x : Word)
  | none
  | wait
deriving DecidableEq, Repr
def Pkg.handler (s : Pkg) (h lvl v : Nat) : Pkg × Handler :=
  match s.sysLoad h lvl ((s.thr h).rs (lvlBase lvl) + BitVec.ofNat 64 (8 * v)) 8 with
  | (s, .ok x) => (s, if x % 4 = 0 then .pc (BitVec.ofNat 64 x) else .none)
  | (s, .err _ _ _) => (s, .none)
  | (s, .wait) => (s, .wait)
/-- The thread goes on at the handler. -/
def Pkg.entered (s : Pkg) (h : Nat) (pc : Word) : Pkg := (s.redirect h pc).updThr h (fun t => { t with ent := Option.none })

/-- The emergency path (R115); vector 12 is never pushed. -/
def Pkg.emergency (s : Pkg) (h lvl frame : Nat) : Pkg :=
  let b := lvlBase lvl
  if s.boot.stop.isSome then s
  else if ((s.thr h).rs (b + 3)).getLsbD 0 then s.stackExhausted h
  else
    let s := s.updThr h (fun t =>
      let t := (List.range 8).foldl (fun t i =>
        let w := BitVec.ofNat 64 (frame / 2 ^ (64 * i))
        t.ws (b + 8 + i) (if i = 2 then w ||| 0x800#64 else w)) t
      (t.ws (b + 3) 1#64).setPs (entryPs t.ps lvl))
    match s.handler h lvl 12 with
    | (s, .pc pc) => s.entered h pc
    | (s, .none) => if s.boot.stop.isSome then s else s.stackExhausted h
    | (s, .wait) => s.updThr h (fun t => { t with ent := some { lvl := lvl, v := 12, frame := frame, slot := 0#64, stored := true, emerg := true } })

/-- The rest of an entry once its frame is visible: the vector's handler (R110). -/
def Pkg.entVec (s : Pkg) (h lvl v frame : Nat) : Pkg :=
  match s.handler h lvl v with
  | (s, .pc pc) => s.entered h pc
  | (s, .none) => (s.updThr h (fun t => { t with ent := none })).emergency h lvl frame
  | (s, .wait) => s.updThr h (fun t => { t with ent := some { lvl := lvl, v := v, frame := frame, slot := 0#64, stored := true, emerg := false } })
/-- The registers once the frame is stored at a (R110). -/
def Thread.framed (t : Thread) (lvl : Nat) (a : Word) : Thread := ((t.ws (lvlBase lvl + 1) a).wg 31 a).setPs (entryPs t.ps lvl)

/-- An entry in progress goes on: its frame has become visible, or the bytes that it waited for have come (R110, R111). -/
def Pkg.entGo (s : Pkg) (h : Nat) : Pkg :=
  match (s.thr h).ent with
  | none => s
  | some e =>
    if e.emerg then
      match s.handler h e.lvl 12 with
      | (s, .pc pc) => s.entered h pc
      | (s, .none) => (s.updThr h (fun t => { t with ent := none })).stackExhausted h
      | (s, .wait) => s
    else if e.stored then s.entVec h e.lvl e.v e.frame
    else if s.frameOut h then s
    else (s.updThr h (fun t => t.framed e.lvl e.slot)).entVec h e.lvl e.v e.frame

/-- Entry of a vector (R110) after any chunk has committed: `pc` is the frame's PC. Nothing is entered once the package stops. -/
def Pkg.enterAt (s : Pkg) (h v : Nat) (pc faddr finfo : Word) (async : Bool) : Pkg :=
  let t := s.thr h
  let lvl := t.takenAt v async
  let b := lvlBase lvl
  let cause := BitVec.ofNat 64 (v + t.lvl * 256 + (if async then 1024 else 0))
  let frame := frameOf pc t.ps cause faddr finfo (t.rg 31)
  if s.boot.stop.isSome then s
  else
    let s := s.pmu h (if async then 0x1F else 0x1E)
    let s := s.updThr h (fun t => { t with queue := [], walk := none, mon := none, monWake := false, sel := false, ebuf := [] })
    let a := t.rs (b + 1) - 64#64
    if a.ult (t.rs (b + 2)) then s.emergency h lvl frame
    else
      match s.frameStore h lvl a frame with
      | (s, none) => s.emergency h lvl frame
      | (s, some true) => (s.updThr h (fun t => t.framed lvl a)).entVec h lvl v frame
      | (s, some false) => s.updThr h (fun t => { t with ent := some { lvl := lvl, v := v, frame := frame, slot := a, stored := false, emerg := false } })

/-- Entry of a vector; a paired captain's chunk ends first, with cause EXCEPTION or INTERRUPT (12 R314). -/
def Pkg.enter (s : Pkg) (h v : Nat) (pc faddr finfo : Word) (async : Bool) : Pkg :=
  if s.boot.stop.isSome then s else (if async then s.commit h 2 v else s.commit h 1).enterAt h v pc faddr finfo async

/-- An instruction of thread h meets an exception: entry waits until what the thread has selected has completed and its
store buffer has drained (R42, R110); until then nothing happens. -/
def Pkg.fault (s : Pkg) (h v : Nat) (pc faddr : Word) (finfo : Nat) : Pkg :=
  let t := s.thr h
  if t.await.isSome || !t.sb.isEmpty then s else s.enter h v pc faddr (BitVec.ofNat 64 finfo) false

/-- A translation fault, with FGPA for a stage-2 one (R152). -/
def Pkg.xfault (s : Pkg) (h : Nat) (f : XFault) (k : AccKind) (half : Bool) (pc va : Word) : Pkg :=
  let t := s.thr h
  if t.await.isSome || !t.sb.isEmpty then s
  else
    let s := s.fgpa h f
    s.enter h (f.vector k) pc va (BitVec.ofNat 64 (f.finfo k half)) false

/-- BUS_ERR (R112). -/
def Pkg.busErr (s : Pkg) (h src : Nat) (k : AccKind) (half : Bool) (pc va : Word) : Pkg :=
  s.fault h 11 pc va (src + k.code * 1024 + (if half then 256 else 0))

/-- Take a pending vector at the thread's boundary (R126, R128, R130). -/
def Pkg.takeVector (s : Pkg) (h v : Nat) : Pkg :=
  let t := s.thr h
  let fin := if v = 32 then t.fin32 else if v = 33 then t.fin33 else 0#64
  let s := if v = 34 ∨ v = 37 then s else s.putPend h v false
  s.enter h v t.pc 0#64 fin true

/-! ### Returning (R113, R121) -/

/-- PS from a saved PS: the fields that exist, LIVE := 0. -/
def restorePs (w : Word) : Word := w &&& 0x1F#64

/-! ### Completion of loads and atomics that had to wait -/

/-- The value of a load from its parts, the lower first. -/
def partsValue : List Part → Option Nat
  | [] => some 0
  | p :: t =>
    match p.got, partsValue t with
    | some x, some y => some (x % 2 ^ (8 * p.n) + y * 2 ^ (8 * p.n))
    | _, _ => none

/-- Chunk cause of an access that has completed (12 R314): DEVREAD 4, REMOTE 6, LOCAL 9, none 0. -/
def causeOf (pa ai : Nat) : Nat :=
  match region pa with | 0 => (if ai ≤ 1 then 0 else 9) | 5 => (if ai = 6 then 0 else 6) | _ => 4
/-- The cause of an instruction's accesses: the lowest. -/
def causeOfAll (l : List (Nat × Nat)) : Nat :=
  let c := ((l.map (fun p => causeOf p.1 p.2)).filter (· ≠ 0)).foldl min 99
  if c = 99 then 0 else c

/-- A waiting access has all its parts: deliver. One whose instruction waits retires now; bytes for the thread's buffer let what waits
for them go on; a load's step may end its chunk. -/
def Pkg.loadDone (s : Pkg) (h : Nat) (dfl : Nat := 0) : Pkg :=
  match (s.thr h).await with
  | none => s
  | some a =>
    match partsValue a.parts with
    | none => s
    | some x =>
      if a.dest == .buf then (s.updThr h (fun t => { t with await := none, ebuf := t.ebuf ++ a.parts })).entGo h
      else
        let s := s.updThr h (fun t =>
          let t := { t with await := none }.deliver a.dest x
          if a.dflags then t.ws 0x018 (t.rs 0x018 ||| BitVec.ofNat 64 (dfl * 65536)) else t)
        if a.blk then
          let n := (a.parts.map (·.n)).sum
          (s.retire h).stepEnd h (causeOfAll (a.parts.map (fun p => (p.pa, p.ai)))) 0 0 dfl x n
        else s.chunkLimit h

/-- The answer to a request of thread h outside the package's DRAM is back, with n bytes of data (08 R233). -/
def Pkg.stAnswer (s : Pkg) (h n : Nat) : Pkg :=
  match (s.thr h).await with
  | some a => s.stRd (stCore (h / 8)) n ((s.now - a.t0) / 1000)
  | none => s

/-- Part i of the waiting access of thread h has its value. -/
def Pkg.partDone (s : Pkg) (h i x : Nat) (dfl : Nat := 0) : Pkg :=
  (s.updThr h (fun t => match t.await with
    | some a => { t with await := some { a with parts := a.parts.modify i (fun p => { p with got := some x }) } }
    | none => t)).loadDone h dfl

/-- A blocking access completes as BUS_ERR, with its own address or `fa` in FADDR. Bytes that an exception entry waited for fail the
entry (R110, R115). -/
def Pkg.partFault (s : Pkg) (h i src : Nat) (fa : Option Nat := none) : Pkg :=
  match (s.thr h).await with
  | none => s
  | some a =>
    let va := match fa with
      | some x => BitVec.ofNat 64 x
      | none => a.va + BitVec.ofNat 64 ((a.parts.take i).map (·.n)).sum
    let s := s.updThr h (fun t => { t with await := none, ebuf := [] })
    if a.dest == .buf then
      match (s.thr h).ent with
      | some e =>
        let s := s.updThr h (fun t => { t with ent := none })
        if e.emerg then s.stackExhausted h else s.emergency h e.lvl e.frame
      | none => s.enter h 11 a.pc va (BitVec.ofNat 64 (src + 1024 * a.acc)) false
    else
      let s := if s.paired then
          (s.chunkStep h).commit h (match a.parts[i]? with | some p => causeOf p.pa p.ai | none => 4) 0 (src + 1)
        else s
      s.enterAt h 11 a.pc va (BitVec.ofNat 64 (src + (if a.atomic then 3 else 1) * 1024 + (if i > 0 then 256 else 0))) false

end Sys2Proof.Machine
end

