-- ==== Sys2Proof/Machine/Pcfg.lean ====
section
/-!
DEFINITION. Machine/Pcfg.lean: the configuration spaces inside the package (14 R365 to R371): layout, reset values and
writable bits, which functions exist, AER logging, DPC and the root port's MSI (14 R379). What R367 and R368 do not list follows the PCI
Express Base Specification 6.0 (PRESUMED, log entry 20).
-/
namespace Sys2Proof.Machine

/-! ### Functions and their registers (R365 to R371) -/

/-- The configuration functions that are decoded inside the package. -/
inductive Cfn where
  | rp (r p : Nat) | pf (k : Nat) | vf (k n : Nat)
deriving DecidableEq, Repr

/-- The function of a routing ID, existing or not (R365). -/
def cfnOf (rid : Nat) : Option Cfn :=
  if rid < 32 then some (.rp (rid / 8) (rid % 8))
  else if rid = 0x80 then some (.pf 0)
  else if rid = 0x88 then some (.pf 1)
  else if 0x100 ≤ rid ∧ rid < 0x200 then some (.vf 0 (rid - 0xFF))
  else if 0x200 ≤ rid ∧ rid < 0x300 then some (.vf 1 (rid - 0x1FF))
  else none
def Cfn.rid : Cfn → Nat
  | .rp r p => 8 * r + p
  | .pf k => 0x80 + 8 * k
  | .vf k n => 0x100 * (k + 1) + n - 1

/-- A doubleword register: offset, reset value, RW bits, W1C bits. -/
structure CfgReg where
  off : Nat
  rst : Nat
  rw : Nat := 0
  w1c : Nat := 0
deriving DecidableEq, Repr

/-- The AER capability at 0x100; `next` is its Next Capability Offset. -/
def aerRegs (next : Nat) : List CfgReg := [
  { off := 0x100, rst := 0x20001 + next * 2 ^ 20 },
  { off := 0x104, rst := 0, w1c := 0x07FFF030 },
  { off := 0x108, rst := 0x00400000, rw := 0x07FFF030 },
  { off := 0x10C, rst := 0x00462030, rw := 0x07FFF030 },
  { off := 0x110, rst := 0, w1c := 0x0000F1C1 },
  { off := 0x114, rst := 0x0000E000, rw := 0x0000F1C1 },
  { off := 0x118, rst := 0x000000A0, rw := 0x00000140 },
  { off := 0x11C, rst := 0 }, { off := 0x120, rst := 0 }, { off := 0x124, rst := 0 }, { off := 0x128, rst := 0 }]

/-- A root port (R367). -/
def rpRegs : List CfgReg := [
  { off := 0x00, rst := 0x72501F6B },
  { off := 0x04, rst := 0x00100000, rw := 0x00000546, w1c := 0xF9000000 },
  { off := 0x08, rst := 0x06040000 },
  { off := 0x0C, rst := 0x00010000, rw := 0xFF },
  { off := 0x18, rst := 0, rw := 0x00FFFFFF },
  { off := 0x1C, rst := 0, w1c := 0xF9000000 },
  { off := 0x20, rst := 0, rw := 0xFFF0FFF0 },
  { off := 0x24, rst := 0x00010001, rw := 0xFFF0FFF0 },
  { off := 0x28, rst := 0, rw := 0xFFFFFFFF },
  { off := 0x2C, rst := 0, rw := 0xFFFFFFFF },
  { off := 0x34, rst := 0x40 },
  { off := 0x3C, rst := 0, rw := 0x004300FF },
  { off := 0x40, rst := 0x48034801 },
  { off := 0x44, rst := 0x00000008, rw := 0x00000103, w1c := 0x00008000 },
  { off := 0x48, rst := 0x00806005, rw := 0x00710000 },
  { off := 0x4C, rst := 0, rw := 0xFFFFFFFC },
  { off := 0x50, rst := 0, rw := 0xFFFFFFFF },
  { off := 0x54, rst := 0, rw := 0x0000FFFF },
  { off := 0x60, rst := 0x00420010 },
  { off := 0x64, rst := 0x00008022 },
  { off := 0x68, rst := 0x00002810, rw := 0x0000F9FF, w1c := 0x000F0000 },
  { off := 0x6C, rst := 0x00180806 },
  { off := 0x70, rst := 0, rw := 0x00000FDB, w1c := 0xC0000000 },
  { off := 0x74, rst := 0x00040000 },
  { off := 0x78, rst := 0, rw := 0x00003FFF, w1c := 0x011F0000 },
  { off := 0x7C, rst := 0x00010000, rw := 0x0000001F },
  { off := 0x80, rst := 0, w1c := 0x00010000 },
  { off := 0x84, rst := 0x0003038E },
  { off := 0x88, rst := 0, rw := 0x000017EF },
  { off := 0x8C, rst := 0x0000007E },
  { off := 0x90, rst := 0x00000006, rw := 0x0000FFFF },
  { off := 0x12C, rst := 0, rw := 0x00000007 },
  { off := 0x130, rst := 0, w1c := 0x0000007F },
  { off := 0x148, rst := 0x1601000D },
  { off := 0x14C, rst := 0x0000206F, rw := 0x006F0000 },
  { off := 0x150, rst := 0, rw := 0xFFFFFFFF },
  { off := 0x160, rst := 0x1C01001D },
  { off := 0x164, rst := 0x00001420, rw := 0x00BF0000 },
  { off := 0x168, rst := 0x00001F00, w1c := 0x00000009 },
  { off := 0x16C, rst := 0, w1c := 0x00070707 },
  { off := 0x170, rst := 0x00070707, rw := 0x00070707 },
  { off := 0x174, rst := 0, rw := 0x00070707 },
  { off := 0x178, rst := 0, rw := 0x00070707 },
  { off := 0x17C, rst := 0, rw := 0x00070707 },
  { off := 0x1C0, rst := 0x1D01001F },
  { off := 0x1C4, rst := 0x00000A06 },
  { off := 0x1C8, rst := 0, rw := 0x00000003 },
  { off := 0x1D0, rst := 0x22010019 },
  { off := 0x1D4, rst := 0, rw := 0x0000FE03 },
  { off := 0x1D8, rst := 0, w1c := 0xFFFFFFFF },
  { off := 0x220, rst := 0x23010025 },
  { off := 0x224, rst := 0x80000001 },
  { off := 0x230, rst := 0x27010026 },
  { off := 0x270, rst := 0x2C01002A },
  { off := 0x2C0, rst := 0x2F010031 },
  { off := 0x2F0, rst := 0x00010027 }] ++ aerRegs 0x148

/-- The PF of a complex (R368 to R370). -/
def pfRegs (k : Nat) : List CfgReg := [
  { off := 0x00, rst := 0x72561F6B },
  { off := 0x04, rst := 0x00100400, rw := 0x00000146, w1c := 0xF9000000 },
  { off := 0x08, rst := 0x12000000 },
  { off := 0x0C, rst := 0, rw := 0xFF },
  { off := 0x10, rst := 4, rw := 0xFFF00000 },
  { off := 0x14, rst := 0, rw := 0xFFFFFFFF },
  { off := 0x18, rst := 4, rw := 0xFF000000 },
  { off := 0x1C, rst := 0, rw := 0xFFFFFFFF },
  { off := 0x2C, rst := 0x00011F6B },
  { off := 0x34, rst := 0x40 },
  { off := 0x3C, rst := 0, rw := 0xFF },
  { off := 0x40, rst := 0x00035001 },
  { off := 0x44, rst := 0x00000008, rw := 0x00000003 },
  { off := 0x50, rst := 0x03FF7011, rw := 0xC0000000 },
  { off := 0x54, rst := 0x00080000 },
  { off := 0x58, rst := 0x000C0000 },
  { off := 0x70, rst := 0x00920010 },
  { off := 0x74, rst := 0x10008022 },
  { off := 0x78, rst := 0x00002810, rw := 0x000079FF, w1c := 0x000F0000 },
  { off := 0x94, rst := 0x00030000 },
  { off := 0x98, rst := 0, rw := 0x00001000 },
  { off := 0x150, rst := 0x00010010 },
  { off := 0x154, rst := 0x00000004 },
  { off := 0x158, rst := 0, rw := 0x00000029 },
  { off := 0x15C, rst := 0x01000100 },
  { off := 0x160, rst := 0, rw := 0x0000FFFF },
  { off := 0x164, rst := 0x00010000 + (if k = 0 then 0x80 else 0x178) },
  { off := 0x168, rst := 0x72570000 },
  { off := 0x16C, rst := 0x00000011 },
  { off := 0x170, rst := 0x00000001, rw := 0xFFFFFFFF },
  { off := 0x174, rst := 4, rw := 0xFFFF0000 },
  { off := 0x178, rst := 0, rw := 0xFFFFFFFF }] ++ aerRegs 0x150

/-- A VF (R371). -/
def vfRegs : List CfgReg := [
  { off := 0x00, rst := 0xFFFFFFFF },
  { off := 0x04, rst := 0x00100000, rw := 0x00000004 },
  { off := 0x08, rst := 0x12000000 },
  { off := 0x2C, rst := 0x00011F6B },
  { off := 0x34, rst := 0x50 },
  { off := 0x50, rst := 0x003F7011, rw := 0xC0000000 },
  { off := 0x54, rst := 0x00008000 },
  { off := 0x58, rst := 0x0000C000 },
  { off := 0x70, rst := 0x00920010 },
  { off := 0x74, rst := 0x10008022 },
  { off := 0x78, rst := 0 },
  { off := 0x94, rst := 0x00030000 }]

def Cfn.regs : Cfn → List CfgReg
  | .rp _ _ => rpRegs | .pf k => pfRegs k | .vf _ _ => vfRegs
/-- The register of a function at an offset; unlisted ones read 0 and keep nothing. -/
def Cfn.reg (f : Cfn) (off : Nat) : CfgReg := (f.regs.find? (·.off == off)).getD { off := off, rst := 0 }

/-- What an unlisted entry of the configuration table holds: keys are 1,024 times the routing ID plus the doubleword. -/
def cfgReset (key : Nat) : BitVec 32 :=
  match cfnOf (key / 1024) with
  | some f => BitVec.ofNat 32 (f.reg (4 * (key % 1024))).rst
  | none => 0#32
def Pkg.cfg (s : Pkg) (f : Cfn) (off : Nat) : BitVec 32 := Map.get cfgReset s.pcie.cfg (1024 * f.rid + off / 4)
def Pkg.setCfg (s : Pkg) (f : Cfn) (off : Nat) (v : BitVec 32) : Pkg :=
  { s with pcie := { s.pcie with cfg := Map.set cfgReset s.pcie.cfg (1024 * f.rid + off / 4) v } }
/-- Bits [hi:lo] of a configuration register. -/
def Pkg.cfgF (s : Pkg) (f : Cfn) (off hi lo : Nat) : Nat := (s.cfg f off).toNat / 2 ^ lo % 2 ^ (hi - lo + 1)
def Pkg.cfgB (s : Pkg) (f : Cfn) (off i : Nat) : Bool := (s.cfg f off).getLsbD i
def Pkg.cfgSet (s : Pkg) (f : Cfn) (off hi lo x : Nat) : Pkg :=
  let m : BitVec 32 := BitVec.ofNat 32 ((2 ^ (hi - lo + 1) - 1) * 2 ^ lo)
  s.setCfg f off ((s.cfg f off &&& ~~~m) ||| (BitVec.ofNat 32 (x * 2 ^ lo) &&& m))

/-- Root port p of RC r exists (R361). -/
def Pkg.portUp (s : Pkg) (r p : Nat) : Bool := s.rb (rcBase r) (8 + p)
/-- VF Enable and NumVFs. -/
def Pkg.vfOn (s : Pkg) (k : Nat) : Bool := s.cfgB (.pf k) 0x158 0
def Pkg.numVfs (s : Pkg) (k : Nat) : Nat := s.cfgF (.pf k) 0x160 15 0
/-- Whether a function exists (R361, R371). -/
def Pkg.cfnLive (s : Pkg) (f : Cfn) : Bool :=
  match f with
  | .rp r p => s.portUp r p
  | .pf _ => true
  | .vf k n => s.vfOn k && decide (1 ≤ n ∧ n ≤ s.numVfs k)

/-- The pin PCIE_PERST_N[p] of RCr: low for a port that does not exist, and while the package is in reset or stops (20 R469; 16 R418,
R421). -/
def Pkg.perstN (s : Pkg) (r p : Nat) : Bool := s.pcie.perst.contains (8 * r + p) && s.boot.stop.isNone
/-- PCIE_RPSTAT[p] and PCIE_RPCTL[p]. -/
def rpStat (r p : Nat) : Nat := rcBase r + 0x100 + 16 * p
def rpCtl (r p : Nat) : Nat := rcBase r + 0x108 + 16 * p

/-- A stoker, and a promoted member whose IO is closed, hold Bus Master Enable at 0 (12 R330, R334). -/
def Pkg.bmeHeld (s : Pkg) : Bool := s.rf fabBase 17 16 == 2 || s.rb tdmBase 10
/-- Bus Master Enable of a function, as it is applied. -/
def Pkg.bme (s : Pkg) (f : Cfn) : Bool :=
  s.cfgB f 4 2 && !(s.bmeHeld) && !(match f with | .rp _ _ => false | _ => s.cfgF f 0x44 1 0 == 3 && s.cfgF f 0x40 7 0 == 1)
/-- Whether a function is in the 10 µs of an FLR. -/
def Pkg.inFlr (s : Pkg) (f : Cfn) : Bool := s.pcie.flr.any (·.1 == f.rid)
/-- Whether a BME drain runs (Transactions Pending, R380). -/
def Pkg.draining (s : Pkg) (f : Cfn) : Bool := s.pcie.drain.any (·.1 == f.rid)

/-- What a configuration read of a register returns: what the unit shows of other state is put in. -/
def Pkg.cfgRead (s : Pkg) (f : Cfn) (off : Nat) : BitVec 32 :=
  let v := if s.inFlr f then BitVec.ofNat 32 (f.reg off).rst else s.cfg f off
  let step := BitVec.ofNat 32 (s.rf scBase 59 56)
  match f with
  | .rp r p =>
    let st := rpStat r p
    if off = 4 then (if s.bmeHeld then v &&& ~~~4#32 else v)
    else if off = 8 then v ||| step
    else if off = 0x0C then
      (if ((List.range 8).filter (fun q => s.portUp r q)).length > 1 then v ||| 0x800000#32 else v)
    else if off = 0x70 then
      v ||| BitVec.ofNat 32 ((s.rf st 6 4 + s.rf st 12 7 * 16 + (if s.rb st 0 then 8192 else 0)) * 65536)
    else if off = 0x78 then v ||| (if s.rb st 0 then 0x400000#32 else 0#32)
    else v
  | _ =>
    if off = 8 then v ||| step
    else if off = 0x78 && s.draining f then v ||| 0x200000#32
    else v

/-- The register bits that a configuration write leaves: `be` the enabled bits, `x` the data, by RW and W1C. -/
def CfgReg.write (g : CfgReg) (v be x : BitVec 32) : BitVec 32 :=
  let rw : BitVec 32 := BitVec.ofNat 32 g.rw &&& be
  let c : BitVec 32 := BitVec.ofNat 32 g.w1c &&& be
  ((v &&& ~~~rw) ||| (x &&& rw)) &&& ~~~(x &&& c)

/-! ### Errors of a root port (R379) -/

/-- The thread and vector of a 4-byte write to a physical address, if it is a TIC_MSI register (04 R131). -/
def ticMsiAt (pa : Nat) : Option Nat :=
  if region pa = 3 then
    match regAt (pa - drsLo) with
    | some (.tic h, 0, _) => some h
    | _ => none
  else none

/-- The root port's MSI (R367): PME, hot-plug, AER and DPC. -/
def Pkg.rpMsi (s : Pkg) (r p : Nat) : Pkg :=
  let f : Cfn := .rp r p
  if s.cfgB f 0x48 16 && s.bme f then
    match ticMsiAt ((s.cfg f 0x4C).toNat + (s.cfg f 0x50).toNat * 2 ^ 32) with
    | some h => s.msiIn h (s.cfgF f 0x54 7 0)
    | none => s
  else s

/-- Outstanding requests of threads below a root port fail (R364, R379): device reads as BUS_ERR SRC 2; configuration reads as
all ones, configuration writes are discarded. -/
def Pkg.failPort (s : Pkg) (r p : Nat) : Pkg :=
  let l := s.devq.filter (fun q => q.sent && q.port == 8 * r + p)
  let s := { s with devq := s.devq.filter (fun q => !(q.sent && q.port == 8 * r + p)) }
  l.foldl (fun s q =>
    if q.wr then s
    else if region q.pa = 2 then s.partDone q.h q.part (2 ^ (8 * q.n) - 1)
    else s.partFault q.h q.part 2) s

/-- DPC containment begins (R379): the link is disabled. `why` is the Trigger Reason. -/
def Pkg.dpcTrigger (s : Pkg) (r p why rid : Nat) : Pkg :=
  let f : Cfn := .rp r p
  if s.cfgB f 0x168 0 then s
  else
    let s := (((s.cfgSet f 0x168 0 0 1).cfgSet f 0x168 2 1 why).cfgSet f 0x168 31 16 rid).cfgSet f 0x168 3 3 (if s.cfgB f 0x164 19 then 1 else 0)
    let s := (s.wb (rpStat r p) 13 true).wf (rpStat r p) 12 0 0
    let s := if s.cfgB f 0x164 19 then s.rpMsi r p else s
    s.failPort r p

/-- An uncorrectable error message, or the port's own uncorrectable error (`fatal`: its severity), reaches the Root Error
registers, DPC and the MSI. -/
def Pkg.rootError (s : Pkg) (r p rid : Nat) (fatal : Bool) : Pkg :=
  let f : Cfn := .rp r p
  let had := s.cfgB f 0x130 2
  let s := if had then s.cfgSet f 0x130 3 3 1
    else ((s.cfgSet f 0x130 2 2 1).cfgSet f 0x130 4 4 (if fatal then 1 else 0)).cfgSet f 0x134 31 16 rid
  let s := s.cfgSet f 0x130 (if fatal then 6 else 5) (if fatal then 6 else 5) 1
  let s := if s.cfgB f 0x12C (if fatal then 2 else 1) then s.rpMsi r p else s
  let en := s.cfgF f 0x164 17 16
  if (fatal && (en == 1 || en == 2)) || (!fatal && en == 2) then s.dpcTrigger r p (if fatal then 2 else 1) rid else s

/-- An uncorrectable error of status bit `bit` that the root port itself detects, for a requester. -/
def Pkg.aerUncor (s : Pkg) (r p bit rid : Nat) : Pkg :=
  let f : Cfn := .rp r p
  let first := (s.cfg f 0x104) == 0#32
  let s := s.cfgSet f 0x104 bit bit 1
  if s.cfgB f 0x108 bit then s
  else
    let s := if first then (s.cfgSet f 0x118 4 0 bit).cfgSet f 0x120 31 16 rid else s
    s.rootError r p rid (s.cfgB f 0x10C bit)

/-- An uncorrectable error of a complex, in the AER registers of its PF (R371): `rid` stands in the Requester ID's place of the Header Log
(PRESUMED, log entry 20). -/
def Pkg.pfAer (s : Pkg) (k rid bit : Nat) : Pkg :=
  let f : Cfn := .pf k
  let first := (s.cfg f 0x104) == 0#32
  let s := (s.cfgSet f 0x104 bit bit 1).cfgSet f 0x78 19 19 (if bit = 20 then 1 else s.cfgF f 0x78 19 19)
  if first && !s.cfgB f 0x108 bit then (s.cfgSet f 0x118 4 0 bit).cfgSet f 0x120 31 16 rid else s
/-- A correctable error, or an ERR_COR message. -/
def Pkg.rootCor (s : Pkg) (r p rid : Nat) : Pkg :=
  let f : Cfn := .rp r p
  let s := if s.cfgB f 0x130 0 then s.cfgSet f 0x130 1 1 1 else (s.cfgSet f 0x130 0 0 1).cfgSet f 0x134 15 0 rid
  if s.cfgB f 0x12C 0 then s.rpMsi r p else s
def Pkg.aerCor (s : Pkg) (r p bit rid : Nat) : Pkg :=
  let f : Cfn := .rp r p
  let s := s.cfgSet f 0x110 bit bit 1
  if s.cfgB f 0x114 bit then s else s.rootCor r p rid

/-- A failed request of the root port itself enters RP PIO Status (DPC's RP Extensions): `bit` 0 UR, 1 CA, 2 timeout, from 0 for
configuration and 16 for memory requests; unmasked it triggers DPC. -/
def Pkg.rpPio (s : Pkg) (r p bit : Nat) : Pkg :=
  let f : Cfn := .rp r p
  let s := s.cfgSet f 0x16C bit bit 1
  if s.cfgB f 0x170 bit || s.cfgF f 0x164 17 16 == 0 then s else s.dpcTrigger r p 3 0

/-- A device reads a poisoned line (R379, 09 R247): fail-stop under NATIVE, a Completion with CA status under COMPAT. -/
def Pkg.devPoison (s : Pkg) (port pa _n : Nat) : Pkg :=
  let e : Err := { cls := 2, code := 0x05, addr := some pa, info := port % 8 }
  let w : Win := .rc (port / 8)
  if s.boot.compat then { (s.record w e) with reply := .cpl 4 0 0 } else (s.record w e).failStop w 2

/-- An MMIO store, or a posted write, that is discarded (R364, R379): IO_DISCARD in the root complex's record. -/
def Pkg.ioDiscard (s : Pkg) (r : Nat) (port : Option Nat) (pa : Nat) (h : Option Nat) : Pkg :=
  let s := s.record (.rc r) { cls := 0, code := 0x15, addr := some pa, info := port.getD 0, htid := h }
  match port with
  | some p => s.sat (rpStat r p) 47 32
  | none => s

end Sys2Proof.Machine
end

