-- ==== Sys2Proof/Machine/Fabric.lean ====
section
/-!
DEFINITION. Machine/Fabric.lean: global accesses over the fabric (11 R291 to R302): streams, the home agents, the journal,
responses, retry and loss, messages.
-/
namespace Sys2Proof.Machine

/-! ### Atomic operations (03 R88) -/

/-- An atomic operation as the home and the merge buffer perform it: ATOP (11 R299), the width, the operand and, for a
compare-and-swap, what to compare with; `rm` of a DAMOADD. -/
structure AtomOp where
  op : Nat
  n : Nat
  x : Nat
  cmp : Nat
  rm : Nat
deriving DecidableEq, Repr

/-- The new value, none where nothing is written, and the flags of a DAMOADD. -/
def AtomOp.apply (a : AtomOp) (old : Nat) : Option Nat × Nat :=
  match a.op with
  | 0 | 1 => (if old = a.cmp then some a.x else none, 0)
  | 10 =>
    let (r, f) := addD false a.rm false (unpackD false old) (unpackD false a.x)
    (some r, f)
  | _ => (some (amoOp a.op a.n old a.x), 0)

/-! ### Requests as packets (R299) -/

/-- Slot 1 of a request; bit 104, which R299 leaves reserved, says that a written-back line is poisoned (06 R180; DESIGN CHOICE, log
entry 35). -/
def reqSlot (seq epoch low : Nat) (ord : Bool) (ndw fbe lbe off atop rm : Nat) (poison : Bool := false) : BitVec 128 :=
  BitVec.ofNat 128 ((if poison then 2 ^ 104 else 0) + seq + epoch * 2 ^ 16 + low * 2 ^ 20 + (if ord then 2 ^ 36 else 0) + ndw * 2 ^ 37 + fbe * 2 ^ 42
    + lbe * 2 ^ 50 + off / 8 % 2 ^ 39 * 2 ^ 58 + atop * 2 ^ 97 + rm * 2 ^ 101)
/-- Data as 16-byte slots, the least significant first. -/
def slotsOf (n x : Nat) : List (BitVec 128) := (List.range ((n + 15) / 16)).map (fun k => BitVec.ofNat 128 (x / 2 ^ (128 * k)))
/-- The number that slots carry. -/
def slotsNat (l : List (BitVec 128)) : Nat := l.foldr (fun x a => x.toNat + a * 2 ^ 128) 0

/-- The stream that a request belongs to: its destination device (R291, R294). -/
def GReq.dst (r : GReq) : Nat := r.pa / 2 ^ 42 % 2 ^ 15
/-- TYPE and CLASS. -/
def GKind.typ : GKind → Nat | .rd => 0 | .wr => 1 | .atom => 2 | .flush => 3 | .msg => 0
def GKind.cls : GKind → Nat | .msg => 2 | _ => 0
/-- Requests with ORD = 0 are AI 6 line reads and write-backs (R296). -/
def GReq.ord (r : GReq) : Bool :=
  match r.who with
  | .fill _ _ | .wb _ => false
  | _ => true
/-- The doublewords that a transfer of n bytes at an offset covers, minus 1. -/
def ndwOf (off n : Nat) : Nat := (off + n - 1) / 8 - off / 8
/-- The body of a request: slot 1 and its data. -/
def GReq.body (r : GReq) (seq epoch low : Nat) : FPkt :=
  let off := r.pa % 2 ^ 42
  let nd := ndwOf off r.n
  let en := (2 ^ r.n - 1) * 2 ^ (off % 8)
  match r.kind with
  | .rd => [reqSlot seq epoch low r.ord nd (en % 256) (en / 256 ^ nd % 256) off 0 0]
  | .wr => reqSlot seq epoch low r.ord nd (en % 256) (en / 256 ^ nd % 256) off 0 0 r.poison :: slotsOf (8 * (nd + 1)) (r.data * 256 ^ (off % 8))
  | .atom => reqSlot seq epoch low true nd (en % 256) (en / 256 ^ nd % 256) off (r.op % 16) (r.op / 16)
      :: slotsOf (if r.op % 16 ≤ 1 then 2 * r.n else r.n) r.data
  | .flush => [reqSlot seq epoch low true 0 0 0 0 0 0]
  | .msg => reqSlot seq epoch low true (r.op % 64) 0 0 0 0 0 :: slotsOf 64 r.data

/-! ### Outcomes at the source (R300) -/

/-- Whether a device is a member (FAB_MAP). -/
def Pkg.inMap (s : Pkg) (d : Nat) : Bool := s.rb (fabBase + 0x30000 + 8 * (d / 64)) (d % 64)
/-- The BUS_ERR SRC of a status. -/
def statusSrc (st : Nat) : Nat := match st with | 2 => 1 | 3 => 6 | _ => 5
/-- FAB_WERR of thread h. -/
def Pkg.werr (s : Pkg) (h status pa : Nat) : Pkg :=
  let r := fabBase + 0x180000 + 0x10 * h
  if s.rb r 0 then s.sat r 15 8
  else ((s.wb r 0 true).wf r 3 1 status).wr (r + 8) (BitVec.ofNat 64 pa)
/-- A line read from a remote home fails: every miss entry that waits for it is answered with the SRC. -/
def Pkg.fillFail (s : Pkg) (line src : Nat) : Pkg :=
  match s.trkOf line with
  | none => s
  | some r =>
    let s := s.dropTrk line
    let s : Pkg := [2 * r.tile, 2 * r.tile + 1].foldl (fun s c => s.updCore c (fun k : Core => { k with miss := k.miss.map (fun m =>
      if m.line = line ∧ m.data.isNone then { m with err := some src } else m) })) s
    s.serve line r.wait
/-- FAB_SEND STAT of thread h. -/
def sendStat (h : Nat) : Nat := fabBase + 0x100000 + 0x80 * h + 0x48
/-- RESULT of FAB_SEND for a status. -/
def sendResult (st : Nat) : Nat := match st with | 5 => 1 | 6 => 2 | 3 => 3 | 7 => 4 | _ => 0

/-- A remote access of a complex is answered (15 R394); an answer that nothing waits for any more is dropped. -/
def CxAsk.answer (a : CxAsk) (id st data : Nat) : CxAsk := if a.id = id then { a with ans := some (st, data) } else a
def Cx.answer (c : Cx) (id st data : Nat) : Cx :=
  { c with
    jobs := c.jobs.map (fun j : CxJob => { j with ask := j.ask.map (·.answer id st data) })
    fetches := c.fetches.map (fun f : CxFetch => { f with ask := f.ask.answer id st data }) }

/-- A request completes with a status: `data` from the byte that it named on. -/
def Pkg.reqDone (s : Pkg) (who : GFor) (pa n status data dfl : Nat) : Pkg :=
  let s : Pkg := if status = 7 then s.sat (fabBase + 0x138) 31 16 else s
  let s : Pkg := match who with
    | .load h _ | .atomic h => s.stAnswer h (if status ≤ 1 then n else 0)
    | .dev port _ => s.stRd (2 * (Win.rc (port / 8)).stop) (if status ≤ 1 then n else 0) 0
    | _ => s
  match who with
  | .load h part =>
    if status = 0 then s.partDone h part (data % 2 ^ (8 * n))
    else if status = 1 then
      let s := s.poisonUsed (.core (h / 8)) pa (some h)
      if s.boot.compat then s.partFault h part 3 (some (pa / 64 * 64)) else s
    else s.partFault h part (statusSrc status) (some pa)
  | .atomic h =>
    if status = 0 then s.partDone h 0 (data % 2 ^ (8 * n)) dfl
    else if status = 1 then
      let s := s.poisonUsed (.core (h / 8)) pa (some h)
      if s.boot.compat then s.partFault h 0 3 (some (pa / 64 * 64)) else s
    else s.partFault h 0 (statusSrc status) (some pa)
  | .fill _ line =>
    if status ≤ 1 then s.homeData line (BitVec.ofNat 512 data) (status == 1) else s.fillFail line (statusSrc status)
  | .store h => (if status ≥ 2 then s.werr h status pa else s).entGo h
  | .wb (some h) => if status ≥ 2 then s.werr h status pa else s
  | .wb none => if status ≥ 2 then s.record .fab { cls := 2, code := 0x16, addr := some pa, info := status } else s
  | .msg h => (((s.wb (sendStat h) 0 false).wb (sendStat h) 1 true).wf (sendStat h) 5 3 (sendResult status))
  | .dev port np =>
    if status ≥ 2 then
      let s := s.aerUncor (port / 8) (port % 8) 20 0
      if np then { s with reply := .cpl 1 0 0 } else s
    else if status = 1 then s.devPoison port pa n
    else { s with reply := .cpl 0 n (data % 2 ^ (8 * n)) }
  | .fence _ => s
  | .io k id => { s with cxs := s.cxs.map (fun e => if e.1 = k then (e.1, e.2.answer id status data) else e) }

/-! ### Streams at the source (R294, R298) -/

def Pkg.updSrc (s : Pkg) (d : Nat) (f : SrcStream → SrcStream) : Pkg := s.setSrc d (f (s.srcS d))
/-- The trackers in use, and the lowest free one. -/
def Pkg.trackersUsed (s : Pkg) : List Nat := s.fab.src.flatMap (fun q => q.2.out.map (·.tag))
def freeTag (used : List Nat) : Nat := ((List.range 4096).find? (fun k => !used.contains k)).getD 0
/-- Send, or resend, an outstanding request; a resend after a timeout takes the other rail (R301). -/
def Pkg.sendOut (s : Pkg) (d : Nat) (o : FOut) (rty : Bool) : Pkg :=
  let p := s.mkPkt d o.cls o.typ o.tag rty (s.srcS d).gen o.body
  s.emitPkt (if o.again then pkSet p 37 37 1 else p) (o.who.entry o.pa)

/-- Whether a stream takes one more request now: 256 outstanding, 4,096 trackers, one generation and one crossing choice
(R298), an atomic after the write-back of its line (R296), room in a captain's hold buffer, and a node that injects
requests at all (R306). -/
def Pkg.streamRoom (s : Pkg) (d : Nat) (r : GReq) : Bool :=
  let st := s.srcS d
  decide (st.out.length < 256) && decide (s.trackersUsed.length < 4096)
    && (st.out.isEmpty || (st.gen == s.rtGen s.rtActive && !st.out.any (·.again)))
    && !(r.kind == .atom && st.out.any (fun o => (match o.who with | .wb _ => true | _ => false) && o.pa / 64 == r.pa / 64))
    && !s.holdFull && !(s.rf (fabBase + 0x128) 2 0 == 1 || s.rf (fabBase + 0x128) 2 0 == 3)

/-- The oldest global access to a device is turned into a transaction (R291): completed NODE_ABSENT, looped back, sent, or,
in a pair, formed as an output (12 R325, R326; RD and ATOM are not held: log entry 30). -/
def Pkg.globalInject (s : Pkg) (d : Nat) : Pkg :=
  match s.fab.gq.findIdx? (fun r => r.dst == d) with
  | none => s
  | some k =>
    let r := s.fab.gq.getD k { kind := .rd, pa := 0, n := 0, data := 0, op := 0, who := .io 0 0 }
    let drop (s : Pkg) : Pkg := { s with fab := { s.fab with gq := s.fab.gq.eraseIdx k } }
    let st := s.srcS d
    if s.replaying then
      match s.tdm.outmaps.find? (fun o => o.cls == 2 && !o.inb && o.gsn == r.gsn && o.dst == d) with
      | none => s
      | some om =>
        let low := match st.out.head? with | some o => o.seq | none => om.seq
        let b := r.body om.seq om.epoch low
        let p := s.mkPkt d r.kind.cls r.kind.typ 0 false 0 b
        let dg := crc64 ((OutWhat.fab p false).canon 2)
        let keep := r.kind == .wr || r.kind == .msg || r.kind == .flush
        let out := if keep then (st.out ++ [⟨om.seq, r.kind.typ, r.kind.cls, freeTag s.trackersUsed, b, r.who, r.pa, r.n, none, false⟩]) else st.out
        let s := (drop s).setSrc d { st with next := (om.seq + 1) % 65536, epoch := om.epoch, out := out.drop (out.length - 256) }
        ({ s with tdm := { s.tdm with outmaps := s.tdm.outmaps.erase om, formed := s.tdm.formed ++ [(om.osn, dg)] } }).tell (.digest om.osn dg)
    else if !s.inMap d then (drop s).reqDone r.who r.pa r.n 7 0 0
    else if !s.streamRoom d r then s
    else
      let low := match st.out.head? with | some o => o.seq | none => st.next
      let h := match r.who with | .load h _ | .store h | .atomic h | .msg h | .fence h | .wb (some h) => some h | _ => none
      let held := s.paired && h.isSome
      let o : FOut := ⟨st.next, r.kind.typ, r.kind.cls, freeTag s.trackersUsed, r.body st.next st.epoch low, r.who, r.pa, r.n, if held then none else some s.now, false⟩
      let s := (drop s).setSrc d { st with
        next := (st.next + 1) % 65536, out := st.out ++ [o], idle := none
        gen := if st.out.isEmpty then s.rtGen s.rtActive else st.gen }
      if held then
        let p := s.mkPkt d o.cls o.typ o.tag false (s.srcS d).gen o.body
        (s.formOut 2 h r.gsn (.fab p false) d st.epoch o.seq (r.kind == .rd || r.kind == .atom)).holdRun
      else s.sendOut d o false

/-- A FENCE.G that waits makes the source ask for acknowledgements (R299): one FLUSH after the thread's last write of
each stream. -/
def Pkg.askFlush (s : Pkg) (h : Nat) : Pkg :=
  s.fab.src.foldl (fun s q =>
    let l := q.2.out
    let last := (l.reverse.findIdx? (fun o => o.who.writesOf h)).map (fun k => l.length - 1 - k)
    match last with
    | none => s
    | some k =>
      if (l.drop k).any (fun o => o.who == .fence h) || s.fab.gq.any (fun g => g.who == .fence h && g.dst == q.1) then s
      else { s with fab := { s.fab with gq := s.fab.gq ++ [{ kind := .flush, pa := 2 ^ 57 + q.1 * 2 ^ 42, n := 8, data := 0, op := 0, who := .fence h, gsn := s.tdm.gsn + 1 }] } }) s

/-- LEAVE is sent once a LEAVING node has nothing outstanding (R306). -/
def Pkg.leaveCheck (s : Pkg) : Pkg :=
  if s.rf (fabBase + 0x128) 2 0 = 3 ∧ s.fab.asked.isNone ∧ s.fab.src.all (fun q => q.2.out.isEmpty) then
    let (mid, s) := s.newMid
    let s := { s with fab := { s.fab with asked := some (7, mid, s.now, s.now) } }
    s.memMsg (s.rf (fabBase + 0x120) 14 0) 7 mid 0 []
  else s

/-- Outstanding requests of a stream are taken out, and complete in order with a status. -/
def Pkg.finish (s : Pkg) (d : Nat) (q : FOut → Bool) (status : Nat) : Pkg :=
  let l := (s.srcS d).out
  let s := s.updSrc d (fun st => { st with
    out := l.filter (fun o => !q o)
    idle := if l.all q && !l.isEmpty then some s.now else st.idle })
  ((l.filter q).foldl (fun s o => s.reqDone o.who o.pa o.n status 0 0) s).leaveCheck

/-- Whether SEQ x lies below y. -/
def seqBelow (x y : Nat) : Bool := decide (1 ≤ (y + 65536 - x) % 65536 ∧ (y + 65536 - x) % 65536 ≤ 32768)

/-- A response arrives (R295, R297, R300, R301). -/
def Pkg.response (s : Pkg) (p : FPkt) : Pkg :=
  let d := pkSrc p
  let st := s.srcS d
  let seq := pk p 1 15 0
  let status := pk p 1 38 36
  if pk p 1 19 16 ≠ st.epoch then s
  else
    let s := s.finish d (fun o => (o.cls == 0 && (o.typ == 1 || o.typ == 3)) && seqBelow o.seq (pk p 1 35 20)
      && !(o.seq == seq && decide (status ≥ 2))) 0
    match (s.srcS d).out.find? (·.seq == seq) with
    | none => s
    | some o =>
      if status = 4 then
        s.updSrc d (fun st => { st with busy := some (seq, s.now), out := st.out.map (fun o => { o with t := o.t.map (fun _ => s.now) }) })
      else if o.cls = 0 ∧ (o.typ = 1 ∨ o.typ = 3) ∧ status < 2 then s
      else
        let x := slotsNat (p.drop 2)
        let x := if o.cls = 0 ∧ o.typ = 0 then x / 256 ^ (o.pa % 8) else x
        let l := (s.srcS d).out.filter (·.seq != seq)
        let s := s.updSrc d (fun st => { st with out := l, idle := if l.isEmpty then some s.now else st.idle })
        (s.reqDone o.who o.pa o.n status x (pk p 1 43 39)).leaveCheck

/-! ### Retry and loss (R301) -/

/-- 50 µs in ps. -/
def fabWait : Nat := 50000000
/-- Resend every outstanding request of a stream in SEQ order. -/
def Pkg.resendFrom (s : Pkg) (d : Nat) (l : List FOut) : Pkg := l.foldl (fun s o => s.sendOut d o true) s
/-- The first timeout is taken. -/
def Pkg.resendNow (s : Pkg) (d : Nat) : Pkg :=
  let s := (s.sat (fabBase + 0x138) 15 0).updSrc d (fun st => { st with out := st.out.map (fun o => { o with again := true, t := o.t.map (fun _ => s.now) }) })
  s.resendFrom d ((s.srcS d).out.filter (·.t.isSome))
/-- The first timeout. -/
def Pkg.resendTimeout (s : Pkg) (d : Nat) : Pkg :=
  match (s.srcS d).out with
  | o :: _ =>
    match o.t with
    | some t => if !o.again && decide (s.now ≥ t + fabWait) then s.resendNow d else s
    | none => s
  | [] => s
/-- A request is injected; RETRY may take its stream's first timeout at once (19 R461). -/
def Pkg.injectReq (s : Pkg) (d : Nat) : Pkg :=
  let n := (s.srcS d).next
  let s := s.globalInject d
  if s.replaying || (s.srcS d).next = n then s
  else
    let (s, r) := s.shmAsk 6 (fun t => t % 4 == 2)
    if r.isEmpty || (s.srcS d).out.any (fun o => o.t.isNone) then s else s.resendNow d
/-- A stream restarts after loss: everything outstanding completes NODE_ABSENT. -/
def Pkg.streamLost (s : Pkg) (d : Nat) : Pkg :=
  let s := s.updSrc d (fun st => { st with epoch := (st.epoch + 1) % 16, next := 0, busy := none })
  s.finish d (fun _ => true) 7
/-- The second timeout. -/
def Pkg.absentTimeout (s : Pkg) (d : Nat) : Pkg :=
  match (s.srcS d).out with
  | o :: _ =>
    match o.t with
    | some t => if o.again && decide (s.now ≥ t + fabWait) then s.streamLost d else s
    | none => s
  | [] => s
/-- 2 µs after a BUSY. -/
def Pkg.busyResend (s : Pkg) (d : Nat) : Pkg :=
  match (s.srcS d).busy with
  | none => s
  | some (q, t) =>
    if s.now < t + 2000000 then s
    else
      let s := s.updSrc d (fun st => { st with busy := none })
      s.resendFrom d ((s.srcS d).out.filter (fun o => (o.seq == q || seqBelow q o.seq) && o.t.isSome))
/-- RELEASE after 100 µs without an outstanding request (R297). -/
def Pkg.idleRelease (s : Pkg) (d : Nat) : Pkg :=
  match (s.srcS d).idle with
  | none => s
  | some t =>
    if s.now < t + 100000000 ∨ s.replaying then s
    else
      let st := s.srcS d
      let s := s.updSrc d (fun st => { st with idle := none })
      s.emitPkt (s.mkPkt d 0 4 0 false (s.rtGen s.rtActive) [reqSlot st.next st.epoch st.next true 0 0 0 0 0 0])

/-! ### The home (R292, R293, R295 to R297) -/

def home0 (b : Nat) : Nat → HomeStream := fun _ => { epoch := b }
def Pkg.homeS (s : Pkg) (d : Nat) : HomeStream := Map.get (home0 s.fab.base) s.fab.home d
def Pkg.setHome (s : Pkg) (d : Nat) (h : HomeStream) : Pkg := { s with fab := { s.fab with home := Map.set (home0 s.fab.base) s.fab.home d h } }

/-- The EXP that a response may carry: a captain acknowledges only what the stoker has performed (12 R325). -/
def Pkg.ackExp (s : Pkg) (d : Nat) : Nat :=
  let h := s.homeS d
  match h.cov.find? (fun c => s.paired && decide (c.2 > s.tdm.progress)) with
  | some c => c.1
  | none => h.exp
/-- A response's body. -/
def Pkg.respBody (s : Pkg) (d seq status dfl : Nat) (data : FPkt) : FPkt :=
  BitVec.ofNat 128 (seq + (s.homeS d).epoch * 2 ^ 16 + s.ackExp d * 2 ^ 20 + status * 2 ^ 36 + dfl * 2 ^ 39) :: data
/-- Answer a request. An answer to an RD, ATOM or MSG is an output in a pair, formed by record `g` (12 R325). -/
def Pkg.respond (s : Pkg) (d tag seq status dfl : Nat) (data : FPkt) (g : Nat) (out : Bool) : Pkg :=
  let p := s.mkPkt d 1 0 tag false (s.rtGen s.rtActive) (s.respBody d seq status dfl data)
  if s.replaying then
    if out then s.stokerOut 2 none g (.fab p false) true else s
  else if out && s.paired then (s.formOut 2 none g (.fab p false) 0 0 0).holdRun
  else s.emitPkt p (s.homeS d).port

/-- The bytes that a request names: its offset, its length in whole doublewords, the enables as a mask. -/
def reqSpan (b : FPkt) : Nat × Nat × Nat :=
  let nd := pk b 0 41 37
  let n := 8 * (nd + 1)
  let en := if nd = 0 then pk b 0 49 42 else pk b 0 49 42 + (256 ^ (nd - 1) - 1) * 256 + pk b 0 57 50 * 256 ^ nd
  (8 * pk b 0 96 58, n, en)
/-- Whether the exported window takes a request (R292). -/
def Pkg.inWindow (s : Pkg) (o n : Nat) : Bool :=
  let base := s.rf (fabBase + 0x100) 51 12 * 4096
  let size := min (s.rf (fabBase + 0x108) 42 12 * 4096) (2 ^ 42)
  s.rb (fabBase + 0x100) 0 && decide (o + n ≤ size) && decide (base + o + n ≤ s.memLimit) && decide (o / 256 = (o + n - 1) / 256)
def Pkg.winPa (s : Pkg) (o : Nat) : Nat := s.rf (fabBase + 0x100) 51 12 * 4096 + o
/-- Width and byte position of an atomic (R299): 16 for CAS128, else 4 or 8 by its enables. -/
def atomSpan (atop fbe : Nat) : Nat × Nat :=
  if atop = 1 then (16, 0) else if fbe = 0x0F then (4, 0) else if fbe = 0xF0 then (4, 4) else (8, 0)
/-- Bytes of which those without an enable read 0. -/
def maskBytes (en : Nat) (l : List (BitVec 8)) : Nat :=
  l.zipIdx.foldr (fun q a => (if en.testBit q.2 then q.1.toNat else 0) + a * 256) 0

/-- The lines that a request reads and writes at the home. -/
def Pkg.reqLines (s : Pkg) (cls typ : Nat) (b : FPkt) : List Nat :=
  if cls = 2 then
    let r := fabBase + 0x40000 + 0x40 * pk b 0 42 37
    let a := s.rf r 51 12 * 4096 + 128 * s.rf (r + 0x10) 15 0
    [a / 64, a / 64 + 1]
  else if typ ≤ 2 then
    let (o, n, _) := reqSpan b
    let a := s.winPa o
    (List.range ((a + n - 1) / 64 - a / 64 + 1)).map (· + a / 64)
  else []

/-- A message for a receive queue (R302): its status. -/
def Pkg.receive (s : Pkg) (src ts : Nat) (b : FPkt) : Pkg × Nat :=
  let r := fabBase + 0x40000 + 0x40 * pk b 0 42 37
  let m := 2 ^ s.rf r 5 1
  let head := s.rf (r + 8) 15 0
  let tail := s.rf (r + 0x10) 15 0
  if !s.rb r 0 then (s, 6)
  else if (tail + 1) % m = head % m then (s, 5)
  else
    let a := s.rf r 51 12 * 4096 + 128 * tail
    let s := s.writeBytes a (leBytes 8 src ++ leBytes 8 ts ++ leBytes 48 0 ++ leBytes 64 (slotsNat (b.drop 1)))
    let s := s.wf (r + 0x10) 15 0 ((tail + 1) % m)
    (if head = tail then s.irqOf (r + 0x18) else s, 0)

/-- Perform an accepted request: STATUS, DFLAGS and data of its response. -/
def Pkg.perform (s : Pkg) (src typ cls ts : Nat) (b : FPkt) : Pkg × Nat × Nat × FPkt :=
  let (o, n, en) := reqSpan b
  let pa := s.winPa o
  if cls = 2 then
    let (s, st) := s.receive src ts b
    (s, st, 0, [])
  else if typ = 3 then (s, 0, 0, [])
  else if !s.inWindow o n then (s, 2, 0, [])
  else
    match typ with
    | 0 =>
      let (l, p) := s.readBytes pa n
      (s.seenBytes pa n, if p then 1 else 0, 0, slotsOf n (maskBytes en l))
    | 1 =>
      let x := slotsNat (b.drop 1)
      (((s.reqLines cls typ b).foldl (fun s line =>
        let sh := 64 * line
        let be := if sh ≤ pa then en * 2 ^ (pa - sh) else en / 2 ^ (sh - pa)
        let v := if sh ≤ pa then x * 256 ^ (pa - sh) else x / 256 ^ (sh - pa)
        let s := s.homeWriteMasked line (BitVec.ofNat 64 be) (BitVec.ofNat 512 v)
        if (b.getD 0 0#128).getLsbD 104 then s.homePoison line else s) s), 0, 0, [])
    | _ =>
      let (w, k) := atomSpan (pk b 0 100 97) (pk b 0 49 42)
      let (s, old, p) := s.homeTake (pa + k) w
      if p then (s, 1, 0, slotsOf w old)
      else
        let d := slotsNat (b.drop 1)
        let cas := pk b 0 100 97 ≤ 1
        let a : AtomOp := { op := pk b 0 100 97, n := w, x := (if cas then d / 2 ^ (8 * w) else d) % 2 ^ (8 * w), cmp := d % 2 ^ (8 * w), rm := pk b 0 103 101 }
        let (nw, fl) := a.apply old
        let s := match nw with | some x => s.homeWrite (pa + k) w x | none => s
        (s, 0, fl, slotsOf w old)

/-- The INB kind of a request (12 R320). -/
def inbKind (cls typ : Nat) : Nat := if cls = 2 then 5 else if typ = 3 then 6 else typ + 2

/-- A cumulative acknowledgement now (R297). -/
def Pkg.cumAck (s : Pkg) (d : Nat) : Pkg :=
  let left := ((s.homeS d).cov.filter (fun c => s.paired && decide (c.2 > s.tdm.progress)))
  let s := s.setHome d { s.homeS d with acks := left.length, ackAt := s.now, cov := left }
  s.respond d 0 ((s.ackExp d + 65535) % 65536) 0 0 [] 0 false

/-- A request reaches the home agent (R295): TYPE, CLASS, TAG and TS of its packet, its body; `g`: the record that a
stoker replays. -/
def Pkg.homeReq (s : Pkg) (src typ cls tag ts : Nat) (b : FPkt) (g : Option Nat) : Pkg :=
  let h := s.homeS src
  let seq := pk b 0 15 0
  let ep := pk b 0 19 16
  let d := (h.exp + 65536 - seq) % 65536
  let answered := cls = 2 ∨ typ = 0 ∨ typ = 2
  let restart := ep == (h.epoch + 1) % 16
  if ep = h.epoch ∧ 1 ≤ d ∧ d ≤ 4096 then
    if answered then
      match h.jrn.find? (·.seq == seq) with
      | some e => s.respond src e.tag seq e.status e.dfl e.data 0 false
      | none => s
    else s.cumAck src
  else if s.rf (fabBase + 0x128) 2 0 = 3 ∧ g.isNone then s.respond src tag seq 3 0 [] 0 false
  else if !(ep == h.epoch && d == 0) && !restart then s.sat (fabBase + 0x138) 47 32
  else
    let h1 : HomeStream := if restart then { exp := seq, epoch := ep } else { h with jrn := h.jrn.filter (fun e => !seqBelow e.seq (pk b 0 35 20)) }
    let others := ((s.fab.home.filter (·.1 != src)).map (·.2.jrn.length)).sum
    if answered && decide (others + h1.jrn.length ≥ 2 ^ s.rf (fabBase + 0x110) 4 0) then
      (s.sat (fabBase + 0x138) 63 48).respond src tag seq 4 0 [] 0 false
    else
      let lines := s.reqLines cls typ b
      let wr := cls = 2 ∨ typ = 1 ∨ typ = 2
      let (o, n, _) := reqSpan b
      let s := s.inb { inbBlank with
        kind := inbKind cls typ, nbytes := if cls = 2 then 63 else n - 1, addr := o, atop := pk b 0 100 97, rm := pk b 0 103 101
        source := src, slot1 := b.getD 0 0#128, ts := ts, data := leBytes (16 * (b.length - 1)) (slotsNat (b.drop 1)) }
        (if wr then lines else []) (if wr then [] else lines)
      let gsn := g.getD s.tdm.gsn
      let (s, st, fl, data) := s.perform src typ cls ts b
      let h2 : HomeStream := { h1 with exp := (seq + 1) % 65536 }
      if answered then
        let s := s.setHome src { h2 with jrn := h2.jrn ++ [⟨seq, st, fl, data, tag, ts⟩] }
        s.respond src tag seq st fl data gsn true
      else
        let s := s.setHome src { h2 with
          acks := h2.acks + 1, ackAt := if h2.acks = 0 then s.now else h2.ackAt
          cov := if s.paired then h2.cov ++ [(seq, gsn)] else [] }
        if st ≠ 0 then s.respond src tag seq st 0 [] gsn false
        else if typ = 3 then s.cumAck src
        else s

/-- Whether this member's home agents work: not a stoker, not while the pair pauses (12 R331, R339, R342). -/
def Pkg.homeLive (s : Pkg) : Bool := s.fabMode != 2 && !s.tdm.pause && s.tdmState != 10

/-- Packets of a stream that arrived earlier go first. -/
def sameStream (p q : FPkt) : Bool :=
  pkSrc p == pkSrc q && (pkClass p == 0 || (pkClass p == 2 && pkType p == 0)) && (pkClass q == 0 || (pkClass q == 2 && pkType q == 0))
/-- The first ejected packet of a CLASS and TYPE, with its place. -/
def Pkg.ejected (s : Pkg) (cls typ : Nat) : Option (Nat × FPkt) :=
  match s.fab.ejq.findIdx? (fun p => pkClass p == cls && pkType p == typ) with
  | none => none
  | some k =>
    let p := s.fab.ejq.getD k []
    if (s.fab.ejq.take k).any (sameStream p) then none else some (k, p)
def Pkg.unqueue (s : Pkg) (k : Nat) : Pkg := { s with fab := { s.fab with ejq := s.fab.ejq.eraseIdx k, via := s.fab.via.eraseIdx k } }

/-- A request's packet is taken by the home agent; it waits while an open chunk holds one of its lines (12 R315). -/
def Pkg.fabTake (s : Pkg) (cls typ : Nat) : Pkg :=
  match s.ejected cls typ with
  | none => s
  | some (k, p) =>
    let b := p.drop 1
    if !s.homeLive || (s.reqLines cls typ b).any (fun l => s.sigWait none l (cls == 2 || typ != 0)) then s
    else
      let (i, t) := s.fab.via.getD k (24, s.now)
      let exp := (s.homeS (pkSrc p)).exp
      let s := (s.unqueue k).setHome (pkSrc p) { s.homeS (pkSrc p) with port := if i < 24 then i % 12 else 5 }
      let s := s.homeReq (pkSrc p) typ cls (pkTag p) (pk p 0 127 64) b none
      -- the link stop is the initiator at this package (08 R232, R233)
      if i ≥ 12 ∨ (s.homeS (pkSrc p)).exp = exp then s
      else
        let k := 2 * (Win.lk i).stop
        let n := if cls = 2 then 128 else if typ = 3 then 0 else (reqSpan b).2.1
        (s.stReq k (if cls = 2 ∨ typ = 1 ∨ typ = 2 then n else 0)).stRd k (if cls = 0 ∧ (typ = 0 ∨ typ = 2) then n else 0) ((s.now - t) / 1000)
/-- RELEASE: journal entries below LOW are freed (R297); it is outside the stream. -/
def Pkg.fabRelease (s : Pkg) : Pkg :=
  match s.ejected 0 4 with
  | none => s
  | some (k, p) =>
    if !s.homeLive then s
    else
      let h := s.homeS (pkSrc p)
      let s := s.unqueue k
      if pk p 1 19 16 ≠ h.epoch then s
      else s.setHome (pkSrc p) { h with jrn := h.jrn.filter (fun e => !seqBelow e.seq (pk p 1 35 20)) }
/-- A response's packet. -/
def Pkg.fabResponse (s : Pkg) : Pkg :=
  match s.ejected 1 0 with
  | none => s
  | some (k, p) => if s.homeLive then (s.unqueue k).response p else s
/-- After 1 µs or 16 writes. -/
def Pkg.ackDue (s : Pkg) (d : Nat) : Pkg :=
  let h := s.homeS d
  if s.homeLive && decide (h.acks > 0) && (decide (h.acks ≥ 16) || decide (s.now ≥ h.ackAt + 1000000)) then s.cumAck d else s

/-! ### Messages (R302) -/

/-- FAB_SEND CTL of thread h is written. -/
def Pkg.fabSend (s : Pkg) (h : Nat) (v : Word) : Pkg :=
  let b := fabBase + 0x100000 + 0x80 * h
  if s.rb (b + 0x48) 0 then s.wb (b + 0x48) 2 true
  else if !v.getLsbD 21 then s
  else
    let x := (List.range 8).foldr (fun k a => (s.rd (b + 8 * k)).toNat + a * 2 ^ 64) 0
    let s := s.wb (b + 0x48) 0 true
    { s with fab := { s.fab with gq := s.fab.gq ++ [{ kind := .msg, pa := 2 ^ 57 + bits v 14 0 * 2 ^ 42, n := 64, data := x, op := bits v 20 15, who := .msg h, gsn := s.tdm.gsn + 1 }] } }
/-- A store to FAB_SEND PAYLOAD. -/
def Pkg.fabPayload (s : Pkg) (h k : Nat) (v : Word) : Pkg :=
  let b := fabBase + 0x100000 + 0x80 * h
  if s.rb (b + 0x48) 0 then s.wb (b + 0x48) 2 true else s.wr (b + 8 * k) v
/-- FAB_RQ_CFG of queue q is written. -/
def Pkg.rqCfg (s : Pkg) (q : Nat) (v : Word) : Pkg :=
  let r := fabBase + 0x40000 + 0x40 * q
  let old := s.rd r
  let n := bits v 5 1
  let v := if 6 ≤ n ∧ n ≤ 16 then v else setBits v 5 1 (bits old 5 1)
  let nv := setBits (setBits (setBits 0#64 0 0 (bits v 0 0)) 5 1 (bits v 5 1)) 51 12 (bits v 51 12)
  let s := s.wr r nv
  if bits nv 5 1 ≠ bits old 5 1 ∨ bits nv 51 12 ≠ bits old 51 12 then (s.wf (r + 8) 15 0 0).wf (r + 0x10) 15 0 0 else s
/-- FAB_RQ_HEAD. -/
def Pkg.rqHead (s : Pkg) (q : Nat) (v : Word) : Pkg :=
  let r := fabBase + 0x40000 + 0x40 * q
  s.wr (r + 8) (BitVec.ofNat 64 (bits v 15 0 % 2 ^ s.rf r 5 1))

/-! ### Commands -/

/-- GLOBAL_REQUEST_INJECT (R291). -/
def execGlobalRequestInject (d : BitVec 15) (s : State) : Out :=
  s.run (·.injectReq d.toNat)
/-- FAB_RD (R295). -/
def execFabRd (s : State) : Out :=
  s.run (·.fabTake 0 0)
/-- FAB_WR (R295). -/
def execFabWr (s : State) : Out :=
  s.run (·.fabTake 0 1)
/-- FAB_ATOM (R293). -/
def execFabAtom (s : State) : Out :=
  s.run (·.fabTake 0 2)
/-- FAB_FLUSH (R299). -/
def execFabFlush (s : State) : Out :=
  s.run (·.fabTake 0 3)
/-- FAB_RELEASE (R297). -/
def execFabRelease (s : State) : Out :=
  s.run (·.fabRelease)
/-- FAB_MSG (R302). -/
def execFabMsg (s : State) : Out :=
  s.run (·.fabTake 2 0)
/-- FAB_RESPONSE (R300). -/
def execFabResponse (s : State) : Out :=
  s.run (·.fabResponse)
/-- CUMULATIVE_ACK (R297). -/
def execCumulativeAck (d : BitVec 15) (dt : Nat) (s : State) : Out :=
  s.runAt dt (·.ackDue d.toNat)
/-- STREAM_IDLE_RELEASE (R297). -/
def execStreamIdleRelease (d : BitVec 15) (dt : Nat) (s : State) : Out :=
  s.runAt dt (·.idleRelease d.toNat)
/-- STREAM_RESEND_TIMEOUT (R301). -/
def execStreamResendTimeout (d : BitVec 15) (dt : Nat) (s : State) : Out :=
  s.runAt dt (·.resendTimeout d.toNat)
/-- STREAM_ABSENT_TIMEOUT (R301). -/
def execStreamAbsentTimeout (d : BitVec 15) (dt : Nat) (s : State) : Out :=
  s.runAt dt (·.absentTimeout d.toNat)
/-- BUSY_RESEND (R301). -/
def execBusyResend (d : BitVec 15) (dt : Nat) (s : State) : Out :=
  s.runAt dt (·.busyResend d.toNat)
/-- FAB_SEND_GO (R302). -/
def execFabSendGo (h : Htid) (v : Word) (s : State) : Out :=
  s.run (·.fabSend h v)
/-- FAB_RQ_CFG_WRITE (R302). -/
def execFabRqCfgWrite (q : Fin 64) (v : Word) (s : State) : Out :=
  s.run (·.rqCfg q v)

end Sys2Proof.Machine
end

