-- ==== Sys2Proof/Machine/Member.lean ====
section
/-!
DEFINITION. Machine/Member.lean: membership of the fabric (11 R303 to R307): the messages as members and the lead answer
them, the three phases of a change, joining, leaving, crashes and the loss of the lead.
-/
namespace Sys2Proof.Machine

/-! ### Members (R303 to R305) -/

/-- FAB_MSTAT and its STATE: 0 ALONE, 1 JOINING, 2 MEMBER, 3 LEAVING, 4 LEFT. -/
def mstat : Nat := fabBase + 0x128
def Pkg.mState (s : Pkg) : Nat := s.rf mstat 2 0
/-- FAB_LEAD.ID and ISLEAD. -/
def Pkg.leadId (s : Pkg) : Nat := s.rf (fabBase + 0x120) 14 0
def Pkg.isLead (s : Pkg) : Bool := s.rb (fabBase + 0x120) 15
/-- The answer given to a MID of a source, 0 for none (R304): 1 + TYPE + 16 times its fields. -/
def Pkg.answerOf (s : Pkg) (src mid : Nat) : Nat := Map.get (fun _ => 0) s.fab.ans (src * 2 ^ 32 + mid)
def Pkg.setAnswer (s : Pkg) (src mid x : Nat) : Pkg :=
  { s with fab := { s.fab with ans := Map.set (fun _ => 0) s.fab.ans (src * 2 ^ 32 + mid) x } }
/-- Send an answer and keep it. -/
def Pkg.answer (s : Pkg) (src mid typ fields : Nat) : Pkg :=
  (s.setAnswer src mid (1 + typ + 16 * fields)).memMsg src typ mid fields []
def Pkg.repeatAnswer (s : Pkg) (src mid x : Nat) : Pkg := s.memMsg src ((x - 1) % 16) mid ((x - 1) / 16) []

/-- A membership message of a TYPE is taken: TABLE, FLIP and MAPUPD only from the lead (R303); a MID that has been answered
is answered again and changes nothing (R304). -/
def Pkg.memTake (s : Pkg) (typ : Nat) (f : Pkg → Nat → Nat → FPkt → Pkg) : Pkg :=
  match s.ejected 2 typ with
  | none => s
  | some (k, p) =>
    if !s.homeLive then s
    else
      let s := s.unqueue k
      let src := pkSrc p
      let mid := pk p 1 31 0
      let x := s.answerOf src mid
      if typ ≤ 3 ∧ src ≠ s.leadId ∧ ¬ (s.isSelf src = true ∧ s.isLead = true) then s.sat (fabBase + 0x138) 47 32
      else if x ≠ 0 ∧ typ ≠ 4 ∧ typ ≠ 11 then s.repeatAnswer src mid x
      else f s src mid p

/-- DONE for a message. -/
def Pkg.memDone (s : Pkg) (src mid typ : Nat) (err : Bool) : Pkg := s.answer src mid 4 (typ + if err then 16 else 0)

/-- The entries that a TABLE carries. -/
def tableEntries (p : FPkt) : List Nat := (p.drop 2).flatMap (fun x => (List.range 8).map (fun k => x.toNat / 2 ^ (16 * k) % 65536))
/-- TABLE. -/
def Pkg.memTable (s : Pkg) : Pkg :=
  s.memTake 1 (fun s src mid p =>
    let b := 1 - s.rtActive
    let s := s.wf (fabBase + 8) (if b = 0 then 7 else 11) (if b = 0 then 4 else 8) (pk p 1 35 32)
    let s := ((tableEntries p).zipIdx).foldl (fun s e =>
      let pos := pk p 1 49 36 + e.2
      if pos < 16384 then s.wf (fabBase + 0x10000 + 0x10000 * b + pos / 4 * 8) (16 * (pos % 4) + 15) (16 * (pos % 4)) (e.1 % 64) else s) s
    s.memDone src mid 1 false)
/-- FLIP. -/
def Pkg.memFlip (s : Pkg) : Pkg :=
  s.memTake 2 (fun s src mid p =>
    let g := pk p 1 35 32
    if s.rtGen s.rtActive = g then s.memDone src mid 2 false
    else if s.rtGen (1 - s.rtActive) = g then s.rtFlip.memDone src mid 2 false
    else (s.wb (fabBase + 8) 2 true).memDone src mid 2 true)
/-- MAPUPD (R305). -/
def Pkg.memMapupd (s : Pkg) : Pkg :=
  s.memTake 3 (fun s src mid p =>
    let d := pk p 1 46 32
    let joined := pk p 1 47 47 = 1
    let g := pk p 1 63 48
    let s := (s.wb (fabBase + 0x30000 + 8 * (d / 64)) (d % 64) joined).wf mstat 31 16 g
    let s : Pkg := if joined then s else s.finish d (fun _ => true) 7
    let s := (s.updSrc d (fun st => { st with epoch := g % 16, next := 0, busy := none })).setHome d { exp := 0, epoch := g % 16 }
    s.memDone src mid 3 false)
/-- PROBE. -/
def Pkg.memProbe (s : Pkg) : Pkg := s.memTake 10 (fun s src mid _ => s.memMsg src 11 mid 0 [])

/-! ### Joining and leaving as a member (R306, R307) -/

/-- A JOIN or LEAVE is sent to the lead. -/
def Pkg.ask (s : Pkg) (typ : Nat) : Pkg :=
  let (mid, s) := s.newMid
  ({ s with fab := { s.fab with asked := some (typ, mid, s.now, s.now) } }).memMsg s.leadId typ mid 0 []
/-- FAB_MCMD CMD = JOIN. -/
def Pkg.joinCmd (s : Pkg) : Pkg :=
  if s.mState = 0 ∨ s.mState = 4 then (((s.wf mstat 2 0 1).wb mstat 3 false)).ask 5 else s.wb (fabBase + 0x130) 2 true
/-- FAB_MCMD CMD = LEAVE. -/
def Pkg.leaveCmd (s : Pkg) : Pkg :=
  if s.mState = 2 then
    let s := (s.wf mstat 2 0 3).wb mstat 3 false
    ({ s with fab := { s.fab with asked := none } }).leaveCheck
  else s.wb (fabBase + 0x130) 2 true
/-- A write of FAB_MCMD. -/
def Pkg.mcmdWrite (s : Pkg) (v : Word) : Pkg :=
  let s : Pkg := if v.getLsbD 2 then s.wb (fabBase + 0x130) 2 false else s
  match bits v 1 0 with
  | 0 => s | 1 => s.joinCmd | 2 => s.leaveCmd | _ => s.wb (fabBase + 0x130) 2 true
/-- JOIN_OK: every epoch becomes MGEN mod 16. -/
def Pkg.memJoinOk (s : Pkg) : Pkg :=
  s.memTake 6 (fun s _ mid p =>
    match s.fab.asked with
    | some (5, m, _, _) =>
      if s.mState = 1 ∧ m = mid then
        let e := pk p 1 47 32 % 16
        let s := ((s.wf mstat 2 0 2).wb mstat 3 false).wf mstat 31 16 (pk p 1 47 32)
        { s with fab := { s.fab with
          asked := none, base := e
          src := (s.fab.src.map (fun q => (q.1, { q.2 with epoch := e }))).filter (fun q => q.2 != src0 e q.1)
          home := (s.fab.home.map (fun q => (q.1, { q.2 with epoch := e }))).filter (fun q => q.2 != home0 e q.1) } }
      else s
    | _ => s)
/-- LEFT. -/
def Pkg.memLeft (s : Pkg) : Pkg :=
  s.memTake 8 (fun s _ mid p =>
    match s.fab.asked with
    | some (7, m, _, _) =>
      if s.mState = 3 ∧ m = mid then
        let s := ((s.wf mstat 2 0 4).wb mstat 3 false).wf mstat 31 16 (pk p 1 47 32)
        { s with fab := { s.fab with asked := none } }
      else s
    | _ => s)
/-- JOIN again after 100 ms. -/
def Pkg.joinResend (s : Pkg) : Pkg :=
  match s.fab.asked with
  | some (5, m, t0, t) =>
    if s.mState = 1 ∧ s.now ≥ t + 100000000000 then
      ({ s with fab := { s.fab with asked := some (5, m, t0, s.now) } }).memMsg s.leadId 5 m 0 []
    else s
  | _ => s
/-- SILENT after 1 s. -/
def Pkg.leadSilent (s : Pkg) : Pkg :=
  match s.fab.asked with
  | some (_, _, t0, _) => if s.now ≥ t0 + 1000000000000 then s.wb mstat 3 true else s
  | none => s

/-! ### The lead (R303, R305 to R307) -/

/-- 1 ms in ps. -/
def leadWait : Nat := 1000000000
/-- The members, by FAB_MAP. -/
def Pkg.members (s : Pkg) : List Nat := (List.range 32768).filter s.inMap
/-- Whom a change's messages go to: every member, the joiner, and not a node that is gone. -/
def Pkg.audience (s : Pkg) (c : MChange) : List Nat :=
  match c.dev with
  | some (d, true) => s.members.filter (· != d) ++ [d]
  | some (d, false) => if c.mid.isSome then s.members else s.members.filter (· != d)
  | none => s.members
/-- Send a message as lead and await its answer. -/
def Pkg.leadSend (s : Pkg) (dst typ fields : Nat) (more : FPkt) : Pkg :=
  let (mid, s) := s.newMid
  ({ s with fab := { s.fab with sent := s.fab.sent ++ [(⟨dst, typ, mid, fields, more, s.now⟩ : MSent)] } }).memMsg dst typ mid fields more

/-- Pieces of at most 120 route entries, with their first positions. -/
def tablePieces (first : Nat) (l : List (BitVec 16)) : Nat → List (Nat × List (BitVec 16))
  | 0 => []
  | n + 1 => (first, l.take 120) :: tablePieces (first + 120) (l.drop 120) n
/-- Route entries as slots, eight to each. -/
def entrySlots (l : List (BitVec 16)) : FPkt :=
  slotsOf (2 * l.length) (l.foldr (fun x a => x.toNat + a * 65536) 0)

/-- A change begins (R305): its tables are what the lead's firmware has computed for each member (log entry 31). -/
def Pkg.changeStart (s : Pkg) (tabs : List (BitVec 15 × List (BitVec 16))) : Pkg :=
  match s.fab.run, s.fab.todo with
  | none, c :: rest =>
    let own := match c.dev with | some (d, true) => s.isSelf d | _ => false
    let early := match s.fab.flipAt with | some t => decide (s.now < t + leadWait) | none => false
    if !s.isLead || !(s.mState == 2 || own) || early then s
    else
      let g := (s.rtGen s.rtActive + if s.fab.newLead then 2 else 1) % 16
      let s := { s with fab := { s.fab with todo := rest, newLead := false, run := some (⟨c, 1, g⟩ : MRun) } }
      (s.audience c).foldl (fun (s : Pkg) (d : Nat) =>
        let l : List (BitVec 16) := match tabs.find? (fun q => q.1.toNat == d) with | some q => q.2 | none => []
        (tablePieces 0 l (max 1 ((l.length + 119) / 120))).foldl (fun (s : Pkg) q => s.leadSend d 1 (g + q.1 * 16) (entrySlots q.2)) s) s
  | _, _ => s
/-- The end of a change: the node that asked is answered. -/
def Pkg.changeEnd (s : Pkg) (r : MRun) : Pkg :=
  let s := { s with fab := { s.fab with run := none } }
  match r.chg.dev, r.chg.mid with
  | some (d, j), some mid => s.answer d mid (if j then 6 else 8) (s.rf mstat 31 16)
  | _, _ => s
/-- DONE arrives. -/
def Pkg.leadDone (s : Pkg) : Pkg :=
  s.memTake 4 (fun s src mid _ =>
    let left := s.fab.sent.filter (fun m => !(m.dst == src && m.mid == mid))
    let s := { s with fab := { s.fab with sent := left } }
    match s.fab.run with
    | some r =>
      if !left.isEmpty then s
      else if r.phase = 2 then
        let s := { s with fab := { s.fab with flipAt := some s.now } }
        if r.chg.dev.isNone then s.changeEnd r else s
      else if r.phase = 3 then s.changeEnd r
      else s
    | none => s)
/-- Every TABLE is answered: FLIP. -/
def Pkg.flipPhase (s : Pkg) : Pkg :=
  match s.fab.run with
  | some r =>
    if r.phase = 1 ∧ s.fab.sent.isEmpty then
      (s.audience r.chg).foldl (fun s d => s.leadSend d 2 r.gen []) { s with fab := { s.fab with run := some { r with phase := 2 } } }
    else s
  | none => s
/-- 1 ms after the flips: MAPUPD. -/
def Pkg.mapupdPhase (s : Pkg) : Pkg :=
  match s.fab.run, s.fab.flipAt with
  | some r, some t =>
    match r.chg.dev with
    | some (d, j) =>
      if r.phase = 2 ∧ s.fab.sent.isEmpty ∧ s.now ≥ t + leadWait then
        let g := (s.rf mstat 31 16 + 1) % 65536
        (s.audience r.chg).foldl (fun s x => s.leadSend x 3 (d + (if j then 2 ^ 15 else 0) + g * 2 ^ 16) [])
          { s with fab := { s.fab with run := some { r with phase := 3 } } }
      else s
    | none => s
  | _, _ => s
/-- Unanswered messages are sent again every 100 µs. -/
def Pkg.leadResend (s : Pkg) : Pkg :=
  let due (m : MSent) : Bool := decide (s.now ≥ m.t + 100000000)
  let l := s.fab.sent
  let s1 := { s with fab := { s.fab with sent := l.map (fun m => if due m then { m with t := s.now } else m) } }
  (l.filter due).foldl (fun s m => s.memMsg m.dst m.typ m.mid m.fields m.more) s1
/-- JOIN or LEAVE at the lead: the change is queued; the lead answers others only as MEMBER. -/
def Pkg.leadAsk (s : Pkg) (typ : Nat) : Pkg :=
  s.memTake typ (fun s src mid _ =>
    if !s.isLead || !(s.mState == 2 || s.isSelf src) then s
    else if s.fab.todo.any (fun c => c.mid == some mid && c.dev.any (·.1 == src))
        || s.fab.run.any (fun r => r.chg.mid == some mid && r.chg.dev.any (·.1 == src)) then s
    else { s with fab := { s.fab with todo := s.fab.todo ++ [⟨some (src, typ == 5), some mid⟩] } })
/-- LINKEV: PROBE on both rails, and new tables that go round the link (10 R288). -/
def Pkg.leadLinkev (s : Pkg) : Pkg :=
  s.memTake 9 (fun s src mid0 p =>
    if !s.isLead then s
    else
      let d := pk p 1 46 32
      let s := s.setAnswer src mid0 0
      let s : Pkg := if s.fab.todo.any (·.dev.isNone) then s else { s with fab := { s.fab with todo := s.fab.todo ++ [⟨none, none⟩] } }
      if s.fab.probes.any (·.1 == d) then s
      else
        let (mid, s) := s.newMid
        let s := { s with fab := { s.fab with probes := s.fab.probes ++ [(d, mid, s.now)] } }
        let m := s.mkPkt d 2 10 0 false (s.rtGen s.rtActive) [BitVec.ofNat 128 mid]
        (s.emitPkt m).emitPkt (pkSet m 37 37 1))
/-- PROBE_ACK. -/
def Pkg.leadProbeAck (s : Pkg) : Pkg :=
  s.memTake 11 (fun s _ mid _ => { s with fab := { s.fab with probes := s.fab.probes.filter (·.2.1 != mid) } })
/-- No PROBE_ACK within 1 ms: the node is gone. -/
def Pkg.probeTimeout (s : Pkg) : Pkg :=
  let gone := s.fab.probes.filter (fun q => decide (s.now ≥ q.2.2 + leadWait))
  { s with fab := { s.fab with
    probes := s.fab.probes.filter (fun q => decide (s.now < q.2.2 + leadWait))
    todo := s.fab.todo ++ (gone.map (fun q => (⟨some (q.1, false), none⟩ : MChange))) } }
/-- FAB_LEAD is written (R307): a new lead waits 1 ms; a former one stops. -/
def Pkg.leadWrite (s : Pkg) (v : Word) : Pkg :=
  let old := s.leadId
  let d := bits v 14 0
  let s := (s.wf (fabBase + 0x120) 14 0 d).wb (fabBase + 0x120) 15 (s.isSelf d)
  if d = old then s
  else if s.isSelf d then { s with fab := { s.fab with newLead := true, flipAt := some s.now } }
  else { s with fab := { s.fab with run := none, sent := [], todo := [], probes := [], newLead := false } }

/-! ### Commands -/

/-- TABLE (R304). -/
def execMemTable (s : State) : Out :=
  s.run (·.memTable)
/-- FLIP (R304). -/
def execMemFlip (s : State) : Out :=
  s.run (·.memFlip)
/-- MAPUPD (R305). -/
def execMapupd (s : State) : Out :=
  s.run (·.memMapupd)
/-- DONE (R304). -/
def execMemDone (s : State) : Out :=
  s.run (·.leadDone)
/-- JOIN (R306). -/
def execMemJoin (s : State) : Out :=
  s.run (·.leadAsk 5)
/-- JOIN_OK (R306). -/
def execJoinOk (s : State) : Out :=
  s.run (·.memJoinOk)
/-- LEAVE (R306). -/
def execMemLeave (s : State) : Out :=
  s.run (·.leadAsk 7)
/-- LEFT (R306). -/
def execMemLeft (s : State) : Out :=
  s.run (·.memLeft)
/-- LINKEV (R306). -/
def execLinkev (s : State) : Out :=
  s.run (·.leadLinkev)
/-- PROBE (R306). -/
def execMemProbe (s : State) : Out :=
  s.run (·.memProbe)
/-- PROBE_ACK (R306). -/
def execProbeAck (s : State) : Out :=
  s.run (·.leadProbeAck)
/-- PROBE_TIMEOUT (R306). -/
def execProbeTimeout (dt : Nat) (s : State) : Out :=
  s.runAt dt (·.probeTimeout)
/-- MEMBERSHIP_RESEND (R303). -/
def execMembershipResend (dt : Nat) (s : State) : Out :=
  s.runAt dt (·.leadResend)
/-- JOIN_RESEND (R306). -/
def execJoinResend (dt : Nat) (s : State) : Out :=
  s.runAt dt (·.joinResend)
/-- LEAD_SILENT (R307). -/
def execLeadSilent (dt : Nat) (s : State) : Out :=
  s.runAt dt (·.leadSilent)
/-- LEAD_FLIP_PHASE (R305). -/
def execLeadFlipPhase (s : State) : Out :=
  s.run (·.flipPhase)
/-- LEAD_MAPUPD_PHASE (R305). -/
def execLeadMapupdPhase (dt : Nat) (s : State) : Out :=
  s.runAt dt (·.mapupdPhase)
/-- FAB_JOIN_CMD (R306). -/
def execFabJoinCmd (s : State) : Out :=
  s.run (·.joinCmd)
/-- FAB_LEAVE_CMD (R306). -/
def execFabLeaveCmd (s : State) : Out :=
  s.run (·.leaveCmd)
/-- FAB_LEAD_WRITE (R307). -/
def execFabLeadWrite (v : Word) (s : State) : Out :=
  s.run (·.leadWrite v)
/-- MEMBERSHIP_CHANGE_START (R305). -/
def execMembershipChangeStart (dt : Nat) (tabs : List (BitVec 15 × List (BitVec 16))) (s : State) : Out :=
  s.runAt dt (·.changeStart tabs)

end Sys2Proof.Machine
end

