-- ==== Sys2Proof/Machine/Noc.lean ====
section
/-!
DEFINITION. Machine/Noc.lean: the Mortar mesh (spec/08): flit checks and dimension-order forwarding (R211 to R214, R226
to R231), bridge lanes (R215 to R218), core and L2 power (R219 to R225), statistics (R232 to R235).
-/
namespace Sys2Proof.Machine

/-! ### Bridges (R215 to R218) -/

/-- MESH_BRSTAT[e] and MESH_BRCFG[e] of a stop. -/
def meshBrstat (stop e : Nat) : Nat := meshBase stop + 0x200 + 0x20 * e
def meshBrcfg (stop e : Nat) : Nat := meshBase stop + 0x208 + 0x20 * e

/-- The bridge a flit crossed to arrive at input `inp` (0 east, 1 west, 2 north, 3 south) of a stop: the stop that holds
its registers, the link e, and whether the flit moved toward higher x or y. -/
def bridgeOf (stop inp : Nat) : Option (Nat × Nat × Bool) :=
  let r := match inp with
    | 0 => (stop, 0, false)
    | 1 => (stop - 1, 0, true)
    | 2 => (stop, 1, false)
    | _ => (stop - 16, 1, true)
  if inp < 4 ∧ bridgeAt r.1 r.2.1 then some r else none

/-- A lane's number in `Noc.lanes`. -/
def laneKey (hold e : Nat) (up : Bool) (n : Nat) : Nat := ((hold * 2 + e) * 2 + (if up then 0 else 1)) * 128 + n
def word0 : Nat → Word := fun _ => 0#64
/-- The input that receives on link e of a router (17 R432): east or north at its holder, west or south beyond it. -/
def laneInp (e : Nat) (up : Bool) : Nat := if e = 0 then (if up then 1 else 0) else (if up then 3 else 2)

/-- A lane error (R216): counted against Cadence time; at THRESH the lane is mapped onto an unused repair lane by a
retrain (R217), or reported once per window when none is left (R218). -/
def Pkg.laneError (s : Pkg) (hold e : Nat) (up : Bool) (n : Nat) : Pkg :=
  let k := laneKey hold e up n
  let cfg := meshBrcfg hold e
  let st := meshBrstat hold e
  if s.noc.mapped.contains k || s.noc.repairing.contains k || s.rf st 1 0 == 3 then s
  else
    let th := s.rf cfg 7 0
    let old := Map.get word0 s.noc.lanes k
    let v := winCount old (s.rf cfg 63 32) s.cadSec
    let s : Pkg := { s with noc := { s.noc with lanes := Map.set word0 s.noc.lanes k v } }
    if th = 0 ∨ bits v 7 0 < th then s
    else
      let used := (if up then s.rf st 4 2 else s.rf st 7 5) + (s.noc.repairing.filter (fun j => j / 128 == k / 128)).length
      if used < 4 then
        let s : Pkg := if s.rf st 1 0 = 1 then (s.wf st 1 0 2).sat st 23 8 else s
        { s with noc := { s.noc with repairing := s.noc.repairing ++ [k] } }
      else if winHit old (s.rf cfg 63 32) s.cadSec th then s.ueError (.mesh hold) { cls := 2, code := 0x0D, info := laneInp e up + n * 2 ^ 8 }
      else s

/-- The new lane map is in force (R217). -/
def Pkg.retrained (s : Pkg) (hold e : Nat) : Pkg :=
  let st := meshBrstat hold e
  if s.rf st 1 0 ≠ 2 then s
  else
    let mine := s.noc.repairing.filter (fun k => k / 256 == hold * 2 + e)
    let s := { s with noc := { s.noc with
      repairing := s.noc.repairing.filter (fun k => k / 256 != hold * 2 + e), mapped := s.noc.mapped ++ mine } }
    let s := s.wf st 1 0 1
    mine.foldl (fun s k =>
      let s : Pkg := if k / 128 % 2 = 0 then s.inc st 4 2 else s.inc st 7 5
      let info := laneInp e (k / 128 % 2 == 0) + k % 128 * 2 ^ 8
      let s := s.ce (.mesh hold) 0x0C none info
      s.odoEvent 0x09 3 hold (drsPa (Win.mesh hold).err) info) s

/-! ### Flits (R211, R212, R214, R226 to R231) -/

/-- The virtual network of a message (R226): REQ 0, IONP 1, IOP 2, SNP 3, RSP 4, DAT 5, IOC 6, MGT 7. -/
def meshVn : MeshMsg → Nat
  | .request => 0
  | .ioLoad | .dmaRead | .dmaAtomic | .remoteLoad | .remoteAtomic => 1
  | .ioStore | .wcFlush | .ticWrite | .dmaWrite | .remoteStore | .remoteWb => 2
  | .snoop | .backInval => 3
  | .response | .permGrant => 4
  | .lineData => 5
  | .ioCpl | .ioAccept => 6
  | .mgt => 7
/-- Buffer depths of R226. -/
def vnDepth (vn : Nat) : Nat := if vn = 5 then 8 else if vn = 7 then 2 else 4
def buf0 : Nat → List Flit := fun _ => []
/-- Router input buffers, by stop, input and VN. -/
def bufKey (stop inp vn : Nat) : Nat := (stop * 7 + inp) * 8 + vn
def Pkg.buf (s : Pkg) (k : Nat) : List Flit := Map.get buf0 s.noc.bufs k
def Pkg.setBuf (s : Pkg) (k : Nat) (l : List Flit) : Pkg := { s with noc := { s.noc with bufs := Map.set buf0 s.noc.bufs k l } }
/-- A flit enters a buffer behind those in it. -/
def Pkg.pushFlit (s : Pkg) (k : Nat) (g : Flit) : Pkg :=
  let s := s.setBuf k (s.buf k ++ [{ g with age := s.noc.tick }])
  { s with noc := { s.noc with tick := s.noc.tick + 1 } }

/-- The output that dimension-order routing picks (R212): 0 east, 1 west, 2 north, 3 south, 4 the destination. -/
def routeOut (stop dst : Nat) : Nat :=
  if stop % 16 < dst % 16 then 0 else if dst % 16 < stop % 16 then 1
  else if stop / 16 < dst / 16 then 2 else if dst / 16 < stop / 16 then 3 else 4
/-- The stop beyond an output, and its input. -/
def routeNext (stop out : Nat) : Nat × Nat :=
  match out with
  | 0 => (stop + 1, 1)
  | 1 => (stop - 1, 0)
  | 2 => (stop + 16, 3)
  | _ => (stop - 16, 2)
/-- The output of a flit at a stop: a link, or 4 + p, local port p. -/
def flitOut (stop : Nat) (g : Flit) : Nat := let o := routeOut stop g.op.dst.val; if o = 4 then 4 + g.op.port.val else o

/-- Whether the bridge over which input `inp` of a stop receives is being retrained (R217). -/
def Pkg.retraining (s : Pkg) (stop inp : Nat) : Bool :=
  match bridgeOf stop inp with
  | some (h, l, _) => s.rf (meshBrstat h l) 1 0 == 2
  | none => false
/-- The head flit of an input's VN, if it may be granted its output (R228): the router has checked it, it holds a credit, which a retrain of
the link withholds, and it is no IONP flit with an older IOP flit of its input for the same output (R231). -/
def Pkg.flitReady (s : Pkg) (stop inp vn : Nat) : Option Flit :=
  match s.buf (bufKey stop inp vn) with
  | [] => none
  | g :: _ =>
    let out := flitOut stop g
    let nx := routeNext stop out
    let credit := (decide (4 ≤ out) || (decide ((s.buf (bufKey nx.1 nx.2 vn)).length < vnDepth vn) && !s.retraining nx.1 nx.2)) && !s.creditHeld stop out vn
    let older := vn == 1 && (s.buf (bufKey stop inp 2)).any (fun q => decide (q.age < g.age) && flitOut stop q == out)
    if g.seen && credit && !older then some g else none
def rr0 : Nat → Nat := fun _ => 55
/-- The pair of input and VN that an output of a router grants next (R228): round-robin over the pairs, 8 · input + VN. -/
def Pkg.outTurn (s : Pkg) (stop out : Nat) : Option Nat :=
  let p0 := Map.get rr0 s.noc.rr (stop * 8 + out)
  (List.range 56).findSome? (fun i =>
    let p := (p0 + 1 + i) % 56
    match s.flitReady stop (p / 8) (p % 8) with
    | some g => if flitOut stop g = out then some p else none
    | none => none)

/-- A flit with an uncorrectable payload error reaches its destination port: the line is poisoned in what takes it there (R214, 06 R180): the
L2's copy and the misses that await the data, the slice's copy and its transaction's data, or the DRAM of its controller. -/
def Pkg.poisonAt (s : Pkg) (stop port line : Nat) : Pkg :=
  let mark (l : CLine) : CLine := { l with poison := true }
  if 16 ≤ stop ∧ stop < 144 then
    let t := stop - 16
    if port = 0 then
      let s : Pkg := match s.findL2 t line with | some k => s.putL2 k (mark (s.getL2 k)) | none => s
      [2 * t, 2 * t + 1].foldl (fun s c => s.updCore c (fun k : Core => { k with miss := k.miss.map (fun m =>
        if m.line = line then { m with data := m.data.map (fun q => (q.1, true)) } else m) })) s
    else if homeOf line = t then
      let s : Pkg := match s.findL3 line with | some k => s.putL3 k (mark (s.getL3 k)) | none => s
      match s.trkOf line with | some r => s.putTrk { r with data := r.data.map (fun q => (q.1, true)) } | none => s
    else s
  else if !isGlobal line && (Win.mc (mcOf line)).stop == stop then
    let m := s.mc (mcOf line)
    if m.wq.any (·.line == line) then s.updMc (mcOf line) (fun m => { m with wq := m.wq.map (fun w => if w.line = line then { w with poison := true } else w) })
    else { s with dpoison := Map.set flag0 s.dpoison line true }
  else s

/-- The check of a flit that arrives (R214 to R218), and whether its line is poisoned by it. Eight failed attempts lose the link. -/
def Pkg.flitCheck (s : Pkg) (stop inp : Nat) (line : Option Nat) (e : FlitErr) : Pkg × Bool :=
  let win : Win := .mesh stop
  let addr := line.map (64 * ·)
  match e with
  | .none => (s, false)
  | .payCe | .hdrCe => (s.ce win 1 addr inp, false)
  | .payUe => (s.record win { cls := 1, code := 4, addr := addr, info := inp }, true)
  | .hdrUe => (s.fatal win { cls := 3, code := 8, addr := addr, info := inp }, false)
  | .crc n =>
    match bridgeOf stop inp with
    | none => (s, false)
    | some (h, l, _) =>
      let s := iter (fun s => s.ce win 1 addr inp) (min n 8) s
      (if n ≥ 8 then (s.wf (meshBrstat h l) 1 0 3).fatal (.mesh h) { cls := 3, code := 9, info := inp } else s, false)
  | .lanes l =>
    match bridgeOf stop inp with
    | some (h, j, up) => (l.foldl (fun s n => s.laneError h j up n.val) s, false)
    | none => (s, false)

/-- The head flit of an input's VN moves on, if its output grants it now: to the next router's buffer, or to its destination port. -/
def Pkg.flitGo (s : Pkg) (stop inp vn : Nat) : Pkg :=
  match s.flitReady stop inp vn with
  | none => s
  | some g =>
    let out := flitOut stop g
    if s.outTurn stop out ≠ some (8 * inp + vn) then s
    else
      let s := s.setBuf (bufKey stop inp vn) ((s.buf (bufKey stop inp vn)).drop 1)
      let s := { s with noc := { s.noc with rr := Map.set rr0 s.noc.rr (stop * 8 + out) (8 * inp + vn) } }
      if 4 ≤ out then (if g.poison then (match g.op.line with | some l => s.poisonAt stop (out - 4) l | none => s) else s)
      else
        let nx := routeNext stop out
        s.pushFlit (bufKey nx.1 nx.2 vn) { g with seen := false }

/-- A flit arrives at input `inp` of a router and is checked. At a link's input it is the head of its buffer, once the bridge that it crosses
is not being retrained; at a local port (4 to 6) one that is not the head there is injected, if the buffer has room. Then its output
may grant it. -/
def Pkg.flitArrive (s : Pkg) (stop inp : Nat) (f : FlitOp) (e : FlitErr) : Pkg :=
  let vn := meshVn f.msg
  let k := bufKey stop inp vn
  let l := s.buf k
  match l.filter (fun g => g.op == f && some g == l.head?) with
  | g :: _ =>
    if inp < 4 && s.retraining stop inp && !g.seen then s
    else
      let (s, p) := s.flitCheck stop inp f.line e
      let s := match bridgeOf stop inp with
        | some (h, l, _) => (s.shmRetry (65536 + k) (fun t => t % 4 == 1 && t / 64 % 16 == h % 16 && t / 1024 % 16 == h / 16 && t / 16384 % 2 == l)).1
        | none => s
      (s.setBuf k ({ g with seen := true, poison := g.poison || p } :: l.drop 1)).flitGo stop inp vn
  | [] =>
    if inp < 4 ∨ l.length ≥ vnDepth vn then s
    else
      let (s, p) := s.flitCheck stop inp f.line e
      (s.pushFlit k { op := f, chk := Config.flitCheck f.hdr f.pay, poison := p, seen := true }).flitGo stop inp vn

/-! ### Core power (R219 to R224) -/

/-- The core of which every thread is OFF begins to gate (R221): its merge buffer releases every line and its write-combining buffers
flush, so that both are empty if the gating is abandoned (R224). -/
def Pkg.coreGating (s : Pkg) (c : Nat) : Pkg :=
  let s : Pkg := (s.core c).merge.foldl (fun s m => s.releaseMerge c m.line) s
  (s.wcFlush c (fun _ => true)).wf (meshCpwr c) 5 4 1
/-- CMD = GATE (R220). -/
def Pkg.coreGate (s : Pkg) (c : Nat) : Pkg :=
  if s.coreOff c && s.coreP c == 0 then s.coreGating c else s.wb (meshCpwr c) 2 true
/-- The last thread of a core has entered OFF (R220). -/
def Pkg.coreGateAuto (s : Pkg) (c : Nat) : Pkg :=
  if s.coreOff c && s.coreP c == 0 && s.rb (coreBase c) 1 then s.coreGating c else s
/-- CMD = WAKE (R223, R224). -/
def Pkg.coreWake (s : Pkg) (c : Nat) : Pkg := s.wakeCore c false

/-- Empty the L1s of a core. -/
def Pkg.coreEmpty (s : Pkg) (c : Nat) : Pkg :=
  { s with l1i := s.l1i.filter (fun p => p.1 / 1024 != c), l1d := s.l1d.filter (fun p => p.1 / 1024 != c) }

/-- What a thread keeps in its TIC, which is always on, when its core loses power: the FINFO of its pending 32 and 33 (R130, R223). -/
def Thread.gated (t : Thread) (h : Nat) : Thread := { thr0 h with fin32 := t.fin32, fin33 := t.fin33 }
/-- Power is removed from a gating core that has nothing in flight (R220, R221): its registers, except its error record, lose their
contents (R223); the sources of its TIMER and PMU vectors no longer hold (04 R130). -/
def Pkg.coreGated (s : Pkg) (c : Nat) : Pkg :=
  if s.coreP c = 1 ∧ s.coreOff c ∧ (s.core c).miss = [] ∧ (s.core c).merge = [] ∧ (s.core c).wc = []
      ∧ (List.range 8).all (fun t => (s.thr (8 * c + t)).sb.isEmpty) then
    let s := s.coreEmpty c
    let s := (List.range 8).foldl (fun s t => ((s.putPend (8 * c + t) 34 false).putPend (8 * c + t) 37 false).updThr (8 * c + t) (fun x => x.gated (8 * c + t))) s
    let s := { s with
      cores := s.cores.filter (fun p => p.1 != c)
      drs := s.drs.filter (fun p => !(decide (coreBase c ≤ p.1) && decide (p.1 < coreBase c + 0xC00))) }
    s.wf (meshCpwr c) 5 4 2
  else s

/-- The core is powered, its L2 before it if that was gated (R223). -/
def Pkg.coreWoken (s : Pkg) (c : Nat) : Pkg :=
  if s.coreP c ≠ 3 then s
  else
    let s := (s.wf (meshL2pwr (c / 2)) 2 1 0).wf (meshCpwr c) 5 4 0
    let int := s.noc.wokeInt.contains c
    let s := { s with noc := { s.noc with wokeInt := s.noc.wokeInt.filter (· != c) } }
    let s := s.wb (meshCpwr c) 6 int
    if int && s.rb (meshCpwr c) 7 then s.msiIn (s.rf (meshCpwr c) 18 8) (s.rf (meshCpwr c) 31 24) else s

/-- A write of MESH_CPWR: the RW fields, CMD_ERR and WOKE by their codes, then the command. -/
def Pkg.cpwrWrite (s : Pkg) (c : Nat) (v : Word) : Pkg :=
  let r := meshCpwr c
  let flds := match regAt r with
    | some (_, _, row) => row.flds
    | none => []
  let s := s.wr r (regWriteBits flds false (s.rd r) v)
  match bits v 1 0 with
  | 0 => s
  | 1 => s.coreGate c
  | 2 => s.coreWake c
  | _ => s.wb r 2 true

/-! ### Statistics (R232 to R235) -/

/-- The index of the current window of MESH_STCTL.WIN = 1 (Cadence ms) and 2 (Cadence s). -/
def Pkg.statIdx (s : Pkg) (win : Nat) : Nat := if win = 1 then s.cadNs / 1000000 else s.cadSec

/-- One block samples (R234). -/
def Pkg.statSample (s : Pkg) (stop p : Nat) : Pkg :=
  let b := meshBase stop + 0x1000 + 0x200 * p
  let l := Map.get st0 s.noc.live (2 * stop + p)
  let s := s.inc b 31 0
  let s := (s.wr (b + 8) l.start).wr (b + 0x10) s.rdtime
  let s := (s.wr (b + 0x18) (BitVec.ofNat 64 l.rd)).wr (b + 0x20) (BitVec.ofNat 64 l.wr)
  let s := s.wr (b + 0x28) (BitVec.ofNat 64 l.reqs)
  let s : Pkg := (List.range 16).foldl (fun s i => s.wr (b + 0x40 + 8 * i) (BitVec.ofNat 64 (l.hist.getD i 0))) s
  s.stat (2 * stop + p) (fun _ => { start := s.rdtime, seen := s.statIdx (s.rf (meshBase stop + 0x800) 1 0) })

/-- Every existing block whose router's WIN satisfies `q`. -/
def Pkg.statAll (s : Pkg) (q : Nat → Nat → Bool) : Pkg :=
  (List.range 320).foldl (fun s b =>
    if statBlock (b / 2) (b % 2) && q (s.rf (meshBase (b / 2) + 0x800) 1 0) b then s.statSample (b / 2) (b % 2) else s) s

/-- The boundaries of Cadence milliseconds and seconds (R234). -/
def Pkg.statTick (s : Pkg) : Pkg :=
  s.statAll (fun win b => (win == 1 || win == 2) && (Map.get st0 s.noc.live b).seen != s.statIdx win)
/-- A schedule entry whose action is a statistics sample fires. -/
def Pkg.statFire (s : Pkg) : Pkg := s.statAll (fun win _ => win == 3)

/-- A write of MESH_STCTL: the new setting takes effect at its next boundary. -/
def Pkg.stctlWrite (s : Pkg) (stop : Nat) (v : Word) : Pkg :=
  let win := bits v 1 0
  let s := s.wf (meshBase stop + 0x800) 1 0 win
  [0, 1].foldl (fun s p => if statBlock stop p then s.stat (2 * stop + p) (fun l => { l with seen := s.statIdx win }) else s) s

/-! ### Commands -/

/-- MESH_FLIT_ARRIVAL (R214). -/
def execMeshFlitArrival (stop : StopN) (inp : Fin 7) (f : FlitOp) (e : FlitErr) (s : State) : Out :=
  s.run (·.flitArrive stop inp f e)
/-- BRIDGE_RETRAIN_COMPLETE (R217). -/
def execBridgeRetrainComplete (stop : StopN) (e : Fin 2) (s : State) : Out :=
  s.run (·.retrained stop e)
/-- CORE_GATE (R220). -/
def execCoreGate (c : CoreN) (s : State) : Out :=
  s.run (·.coreGate c)
/-- CORE_GATE_COMPLETE (R221). -/
def execCoreGateComplete (c : CoreN) (s : State) : Out :=
  s.run (·.coreGated c)
/-- CORE_WAKE (R223). -/
def execCoreWake (c : CoreN) (s : State) : Out :=
  s.run (·.coreWake c)
/-- CORE_WAKE_COMPLETE (R223). -/
def execCoreWakeComplete (c : CoreN) (s : State) : Out :=
  s.run (·.coreWoken c)
/-- STATS_SAMPLE (R234). -/
def execStatsSample (dt : Nat) (s : State) : Out :=
  s.runAt dt (·.statTick)

end Sys2Proof.Machine
end

