-- ==== Sys2Proof/Machine/ThrCtl.lean ====
section
/-!
DEFINITION. Machine/ThrCtl.lean: the commands of CORE_THR_CTL (02 R55 to R58), wakes by time and by release (02 R55, 03
R92, 13 R348), core self-checks (02 R60, R61).
-/
namespace Sys2Proof.Machine

def thrCtlReg (h : Nat) : Nat := coreBase (h / 8) + 0x100 + 8 * (h % 8)

/-- A command that the thread's state does not accept (R57). -/
def Pkg.thrErr (s : Pkg) (h : Nat) : Pkg := s.wb (thrCtlReg h) 3 true

/-- The WAITT reason with which a paired captain's thread woke is committed (12 R314, TIMEREAD). -/
def Pkg.flushWake (s : Pkg) (h : Nat) : Pkg :=
  match (s.thr h).wreason with
  | none => s
  | some r => (s.commit h 5 r 0 0 r 8).updThr h (fun t => { t with wreason := none })

/-- CMD = START (R55, R58): TCHUNK counts from here (12 R345). -/
def Pkg.thrStart (s : Pkg) (h : Nat) : Pkg :=
  if (s.thr h).st = .off then
    let pc := ((s.rd (coreBase (h / 8) + 0x140 + 8 * (h % 8))).setWidth 57).signExtend 64
    let s := s.updThr h (fun t => { ((t.setPs 3#64).ws 0x600 0#64) with st := .run, chunk := none })
    ((s.redirect h pc).evalWake h).updChunk h id
  else s.thrErr h

/-- CMD = HALT (R55, R56): selection stops. -/
def Pkg.thrHalt (s : Pkg) (h : Nat) : Pkg :=
  match (s.thr h).st with
  | .run | .parked | .timewait => s.updThr h (fun t => { t with halting := true })
  | _ => s.thrErr h

/-- What the thread selected has completed and its store buffer has drained: HALTED (R56, R57). -/
def Pkg.thrHalted (s : Pkg) (h : Nat) : Pkg :=
  let t := s.thr h
  if t.halting && t.await.isNone && t.sb.isEmpty && t.ent.isNone && (!t.sel || t.long) && t.ebuf.isEmpty then
    let s := s.flushWake h
    let s := s.updThr h (fun t => { t with
      st := .halted, prior := t.st, halting := false, queue := [], fpc := t.pc, fstall := false, walk := none, long := false
      held := false, hparts := [], sel := false })
    (s.commit h 3 2).updThr h (fun t => { t with chunk := none })
  else s

/-- Cadence time reaches a WAITT operand (R55). -/
def Pkg.waittDue (s : Pkg) (h : Nat) : Pkg :=
  match (s.thr h).st, (s.thr h).waitt with
  | .timewait, some (w, _) =>
    if s.timeNs % 2 ^ 64 < w.toNat || s.shmHas 7 (skewWaitt h) then s else s.shmSkew 1 (skewWaitt h) 0 (·.wakeThr h 0)
  | _, _ => s

/-- A Cadence schedule entry releases WAITT sleepers (R92). -/
def Pkg.waittRelease (s : Pkg) (h : Nat) : Pkg := if (s.thr h).st = .timewait then s.wakeThr h 1 else s

/-- CMD = RESUME (R55): the state before HALT; its wake conditions are judged at once. -/
def Pkg.thrResume (s : Pkg) (h : Nat) : Pkg :=
  if (s.thr h).st = .halted then
    let s := s.updThr h (fun t => { t with st := t.prior, prior := .off, redirect := true })
    let s := s.updChunk h id
    let s := if (s.thr h).st = .parked && (s.thr h).monWake then s.wakeThr h 0 else s
    (s.waittDue h).evalWake h
  else s.thrErr h

/-- CMD = STOP (R55); the core may then power-gate (08 R220). -/
def Pkg.thrStop (s : Pkg) (h : Nat) : Pkg :=
  match (s.thr h).st with
  | .halted | .faulted =>
    let s := s.commit h 3 4
    let s := s.updThr h (fun t => { t with st := .off, prior := .off, chunk := none, mon := none, monWake := false, waitt := none })
    s.coreGateAuto (h / 8)
  | _ => s.thrErr h

/-- A write of CORE_THR_CTL (R57). -/
def Pkg.thrCtl (s : Pkg) (h : Nat) (v : Word) : Pkg :=
  let s := if v.getLsbD 3 then s.wb (thrCtlReg h) 3 false else s
  match bits v 2 0 with
  | 0 => s
  | 1 => s.thrStart h
  | 2 => s.thrHalt h
  | 3 => s.thrResume h
  | 4 => s.thrStop h
  | _ => s.thrErr h

/-- The core of a thread is ON: CORE_THR_CTL takes no command otherwise (08 R223). -/
def Pkg.coreUp (s : Pkg) (h : Nat) : Bool := s.coreP (h / 8) == 0

/-- A parity error in a line that L1I (unit 8) or L1D (unit 9) holds: the line is removed, to be refetched from L2 (R60). -/
def Pkg.l1Parity (s : Pkg) (h unit line : Nat) : Pkg :=
  let c := h / 8
  let e : Err := { cls := 0, code := 3, addr := some (64 * line), info := unit, htid := some h }
  if unit = 8 then
    match s.findL1i c line with
    | some k => ({ s with l1i := Map.set line0 s.l1i k {} }.record (.core c) e).pmu h 0x23
    | none => s
  else
    match s.findL1d c line with
    | some k => ({ s with l1d := Map.set line0 s.l1d k {} }.record (.core c) e).pmu h 0x23
    | none => s

/-- A parity error in entry n of a core's translation structures, counted through L1 ITLB, L1 DTLB, L2 TLB and walk caches: the entry is
dropped, and its next use walks (05 R153). -/
def Core.dropTlb (k : Core) (n : Nat) : Core :=
  let a := k.itlb.length
  let b := a + k.dtlb.length
  let c := b + k.tlb2.length
  if n < a then { k with itlb := k.itlb.eraseIdx n }
  else if n < b then { k with dtlb := k.dtlb.eraseIdx (n - a) }
  else if n < c then { k with tlb2 := k.tlb2.eraseIdx (n - b) }
  else { k with walkc := k.walkc.eraseIdx (n - c) }

/-- A self-check failure in the core of thread h while it executes (R60, R61), in the numbering of 17 R432. The corrected
ones let the instruction go on (true). -/
def Pkg.coreCheck (s : Pkg) (h : Nat) (k : CoreChk) : Pkg × Bool :=
  let c := h / 8
  if s.coreP c ≠ 0 then (s, true)
  else if k.unit = 8 ∨ k.unit = 9 then (s.l1Parity h k.unit k.line, true)
  else if k.unit = 10 then ((s.updCore c (·.dropTlb k.line)).record (.core c) { cls := 0, code := 2, info := 10, htid := some h }, true)
  else if k.unit = 7 ∧ k.corr then (s.ce (.core c) 1 (some (64 * k.line)) 7, true)
  else
    let e : Err := { cls := 2, code := 6, addr := some (s.thr h).pc.toNat, info := k.unit % 16, htid := some h }
    if s.boot.compat then
      let s := s.record (.core c) { e with mcreq := true }
      let raise (s : Pkg) (h : Nat) := s.raiseVec h 32 (BitVec.ofNat 64 (1 + h * 256))
      (if k.shared || k.unit == 7 then (List.range 8).foldl (fun s i => raise s (8 * c + i)) s else raise s h, false)
    else ((s.record (.core c) e).failStop (.core c) 2, false)

end Sys2Proof.Machine
end

