-- ==== Sys2Proof/Machine/Cadence.lean ====
section
/-!
DEFINITION. Machine/Cadence.lean: external time (13 R346 to R360): the pulse-per-second and time-of-day inputs, the
discipline, forward steps and slews, the schedule table, the registers of Cadence.
-/
namespace Sys2Proof.Machine

def cadCfg : Nat := cadBase
def cadStat : Nat := cadBase + 8
def cadCnt : Nat := cadBase + 0x30
/-- CAD_STAT.STATE: 0 UNLOCKED, 1 ACQUIRING, 2 LOCKED, 3 HOLDOVER. -/
def Pkg.cadState (s : Pkg) : Nat := s.rf cadStat 1 0
/-- The limit of ADJ (R346). -/
def adjLim : Int := 42949673
def clampAdj (x : Int) : Int := max (-adjLim) (min adjLim x)
/-- A signed number as 32 bits, saturated. -/
def sat32 (x : Int) : Nat := (BitVec.ofInt 32 (max (-2147483648) (min 2147483647 x))).toNat
/-- ADJ_F. -/
def Pkg.adjF (s : Pkg) : Int := (BitVec.ofNat 32 (s.rf (cadBase + 0x28) 31 0)).toInt
def Pkg.setAdjF (s : Pkg) (x : Int) : Pkg := s.wf (cadBase + 0x28) 31 0 (sat32 x)
def Pkg.setAdj (s : Pkg) (x : Int) : Pkg := s.wf (cadBase + 0x28) 63 32 (sat32 (clampAdj x))

/-- An event of Cadence (R360): its CE and its Odometer event; `win`: it counts in ERR_WIN. -/
def Pkg.cadEvent (s : Pkg) (info : Nat) (win : Bool) : Pkg :=
  let s := s.record .cad { cls := 0, code := 0x17, info := info, inWin := win }
  s.odoEvent 0x0C 10 15 (s.rd cadStat).toNat (s.rd (cadBase + 0x10)).toNat

/-! ### Schedule table (R356, R357) -/

/-- Doubleword j of schedule entry i. -/
def sched (i j : Nat) : Nat := cadBase + 0x10000 + 0x20 * i + 8 * j
/-- PERIOD as it acts. -/
def Pkg.schedPer (s : Pkg) (i : Nat) : Nat := max 1000 (s.rd (sched i 2)).toNat
/-- An entry is armed: NEXT. -/
def Pkg.schedArm (s : Pkg) (i : Nat) : Pkg :=
  let t := (s.rd (sched i 1)).toNat
  let now := s.rdtime.toNat
  let p := s.schedPer i
  s.wr (sched i 3) (BitVec.ofNat 64 (if s.rb (sched i 0) 1 then now + (t % p + p - now % p) % p else t))

/-- Every captain thread with an open chunk ends it with its register digest (12 R314, R323). -/
def Pkg.checkpoint (s : Pkg) : Pkg :=
  if s.paired then
    (s.threads.filter (fun p => p.2.chunk.isSome)).foldl (fun s p => (fun s => s.commit p.1 13 0 0 0 (s.thr p.1).digest.toNat 8) (s.undoLoad p.1 none)) s
  else s

/-- The action of a firing. -/
def Pkg.schedAct (s : Pkg) (dw : Word) : Pkg :=
  let h := bits dw 26 16
  match bits dw 4 2 with
  | 1 => s.ticSet h 35
  | 2 => (List.range 16).foldl (fun s c => if dw.getLsbD (32 + c) then s.trwStart c true else s) s
  | 3 => s.odoRequest 1
  | 4 => s.statFire
  | 5 => s.checkpoint
  | 6 =>
    if s.replaying then s
    else if dw.getLsbD 5 then s.threads.foldl (fun s p => s.waittRelease p.1) s
    else s.waittRelease h
  | _ => s

/-- Whether an entry is due. -/
def Pkg.schedDue (s : Pkg) (i : Nat) : Bool :=
  s.rb (sched i 0) 0 && decide ((s.rd (sched i 3)).toNat ≤ s.rdtime.toNat)
/-- A due entry fires once: occurrences that have been passed count as MISSED; an absolute one disarms itself. Nothing fires
before boot has ended. -/
def Pkg.schedFire (s : Pkg) (i : Nat) : Pkg :=
  if !s.boot.ended || s.boot.stop.isSome || !s.schedDue i then s
  else
    let dw := s.rd (sched i 0)
    let nx := (s.rd (sched i 3)).toNat
    let p := s.schedPer i
    let k := (s.rdtime.toNat - nx) / p + 1
    let late := s.shmHas 7 i
    let s : Pkg := if dw.getLsbD 1 then
        (s.sat (sched i 0) 15 8 (if late then k else k - 1)).wr (sched i 3) (BitVec.ofNat 64 (nx + k * p))
      else s.wb (sched i 0) 0 false
    if late then s else s.shmSkew 0 i dw.toNat (fun s => (s.wb (sched i 0) 6 true).schedAct dw)
/-- Every due entry fires, in increasing index. -/
def Pkg.schedSweep (s : Pkg) : Pkg := (List.range 256).foldl (fun s i => if s.schedDue i then s.schedFire i else s) s

/-- Doubleword 0, 1 or 2 of an entry is written. A write that clears EN of a due entry leaves the firing to take place: FIRED stays set, and
MISSED counts on top of what is written (R357; 00 R12). -/
def Pkg.schedWrite (s : Pkg) (i j : Nat) (v : Word) : Pkg :=
  let old := s.rd (sched i 0)
  if j = 0 then
    let s : Pkg := if old.getLsbD 0 && !v.getLsbD 0 then (s.wr (sched i 0) (setBits (setBits old 6 6 0) 15 8 0)).schedFire i else s.wr (sched i 0) 0#64
    let hw := s.rd (sched i 0)
    let fired := hw.getLsbD 6 || (old.getLsbD 6 && !v.getLsbD 6)
    let nv := setBits (setBits (v &&& 0x0000FFFF07FFFF3F#64) 6 6 (if fired then 1 else 0)) 15 8 (min 255 (bits v 15 8 + bits hw 15 8))
    let s := s.wr (sched i 0) nv
    if v.getLsbD 0 && (!old.getLsbD 0 || old.getLsbD 1 != v.getLsbD 1) then s.schedArm i else s
  else if old.getLsbD 0 then s.wb cadStat 5 true
  else if j = 1 then s.wr (sched i 1) v
  else if j = 2 then s.wr (sched i 2) (if v.toNat < 1000 then 1000#64 else v)
  else s

/-! ### Steps and slews (R349) -/

/-- Time moves forward by ns: the statistics window ends, WAITT and TCMP operands that it passes are reached, passed
schedule entries fire. -/
def Pkg.cadStep (s : Pkg) (ns : Nat) : Pkg :=
  let s := { s with cad := { s.cad with t := (s.cad.t + ns * nsUnit) % cadWrap, slew := 0 } }
  let s := (s.wb cadStat 2 false).wf (cadBase + 0x10) 63 32 0
  let s := s.cadEvent (s.cadState + 4) (decide (ns > 1000 * s.rf cadCfg 15 8))
  let s := s.statAll (fun win _ => win == 1 || win == 2)
  let s := s.threads.foldl (fun s p => (s.waittDue p.1).timerLevel p.1) s
  s.schedSweep
/-- A slew of ns begins. -/
def Pkg.cadSlew (s : Pkg) (ns : Nat) : Pkg :=
  let s := { s with cad := { s.cad with slew := ns * nsUnit } }
  let s := (s.wb cadStat 2 true).wf (cadBase + 0x10) 63 32 (remainOf (ns * nsUnit))
  s.cadEvent (s.cadState + 8) false
/-- A slew has removed its offset. -/
def Pkg.slewDone (s : Pkg) : Pkg := if s.rb cadStat 2 && s.cad.slew == 0 then s.wb cadStat 2 false else s

/-! ### States (R353) -/

/-- A change of state; entry to HOLDOVER sets ADJ (R354). -/
def Pkg.cadTo (s : Pkg) (x : Nat) : Pkg :=
  let old := s.cadState
  if old = x then s
  else
    let s : Pkg := if old = 3 then
        let sec := match s.cad.holdAt with | some t => min ((s.now - t) / 1000000000000) (2 ^ 32 - 1) | none => 0
        { (s.wf cadStat 63 32 sec) with cad := { s.cad with holdAt := none } }
      else s
    let s := (s.wf cadStat 1 0 x)
    let s := { s with cad := { s.cad with mis := 0, locked := s.cad.locked || x == 2 } }
    let s : Pkg := if x = 3 then
        { ((s.wf cadStat 63 32 0).setAdj s.adjF) with cad := { s.cad with holdAt := some s.now, day := false } }
      else s
    s.cadEvent x (x == 3)

/-- 1.5 s without an accepted edge. -/
def Pkg.ppsLoss (s : Pkg) : Pkg :=
  match s.cad.lastEdge with
  | none => s
  | some t =>
    if s.now < t + 1500000000000 then s
    else match s.cadState with
      | 1 => if s.cad.locked then s.cadTo 3 else s.cadTo 0
      | 2 => s.cadTo 3
      | _ => s
/-- HOLDOVER has lasted 24 hours (R360). -/
def Pkg.holdDay (s : Pkg) : Pkg :=
  match s.cad.holdAt with
  | some t =>
    if s.cadState = 3 ∧ s.cad.day = false ∧ s.now ≥ t + 86400 * 1000000000000 then
      ({ s with cad := { s.cad with day := true } }).cadEvent 3 true
    else s
  | none => s

/-! ### The time-of-day input (R351, R352) -/

/-- CRC-16 of R351. -/
def crc16 (l : List Byte) : Nat :=
  (l.foldl (fun (c : BitVec 16) b =>
    (List.range 8).foldl (fun (c : BitVec 16) _ => if c.getLsbD 15 then (c <<< 1) ^^^ 0x1021#16 else c <<< 1) (c ^^^ ((b.setWidth 16 : BitVec 16) <<< (8 : Nat)))) 0xFFFF#16).toNat
def frameByte (b : List Byte) (i : Nat) : Nat := (b.getD i 0#8).toNat
/-- Bytes i … i + n − 1 of a frame, little-endian. -/
def frameNat (b : List Byte) (i n : Nat) : Nat := (List.range n).foldr (fun k a => frameByte b (i + k) + a * 256) 0
def frameOk (b : List Byte) : Bool :=
  frameByte b 1 == 1 && frameByte b 12 == 0 && frameByte b 13 == 0 && (b.getD 10 0#8).getLsbD 0 && crc16 (b.take 14) == frameNat b 14 2
def Pkg.todErr (s : Pkg) (k : Nat := 1) : Pkg := s.sat cadCnt 47 32 k
/-- A frame of 16 bytes that began with SYNC is complete. -/
def Pkg.todFrame (s : Pkg) (b : List Byte) : Pkg :=
  if frameByte b 0 ≠ 0xA7 ∨ b.length ≠ 16 then s
  else if frameOk b then { s with cad := { s.cad with frames := s.cad.frames ++ [(s.now, b)] } }
  else s.todErr
/-- The bytes received since the last frame are discarded; counted if an assembly had begun. -/
def Pkg.todDiscard (s : Pkg) (b : List Byte) : Pkg := if b.any (· == 0xA7#8) then s.todErr else s
/-- Valid frames that no edge can claim any more. -/
def Pkg.todUnclaimed (s : Pkg) : Pkg :=
  let old := s.cad.frames.filter (fun f => decide (s.now > f.1 + 1000000000000))
  ({ s with cad := { s.cad with frames := s.cad.frames.filter (fun f => decide (s.now ≤ f.1 + 1000000000000)) } }).todErr old.length
/-- TODVALID ends 2 s after the last association. -/
def Pkg.todExpire (s : Pkg) : Pkg :=
  match s.cad.assoc with
  | some t => if s.now > t + 2000000000000 then s.wb cadStat 3 false else s
  | none => s
/-- The frame that an accepted edge claims: the latest that ended 1 ms to 1.0 s before it; earlier ones are lost. -/
def Pkg.claim (s : Pkg) : Pkg × Option (List Byte) :=
  let ok := s.cad.frames.filter (fun f => decide (f.1 + 1000000000 ≤ s.now) && decide (s.now ≤ f.1 + 1000000000000))
  match ok.getLast? with
  | none => (s, none)
  | some f =>
    let later := s.cad.frames.filter (fun g => decide (g.1 > f.1))
    let lost := s.cad.frames.length - later.length - 1
    let s := ({ s with cad := { s.cad with frames := later, assoc := some s.now } }).todErr lost
    let s := (s.wr (cadBase + 0x38) (BitVec.ofNat 64 (frameNat f.2 0 8))).wr (cadBase + 0x40) (BitVec.ofNat 64 (frameNat f.2 8 8))
    ((s.wb cadStat 3 true).wb cadStat 4 ((f.2.getD 10 0#8).getLsbD 4), some f.2)

/-! ### The pulse per second (R350, R353, R354) -/

/-- The time stamp of an edge now, in ns: the master time at its 400 MHz sample. -/
def Pkg.stamp (s : Pkg) : Nat := (s.cad.t + (s.now % 10000 + 2499) / 2500 * (5 * nsUnit / 2)) / nsUnit
/-- An edge acts in ACQUIRING: `n` is the number of REFCLK cycles since the previous accepted edge of the run. -/
def Pkg.acquireEdge (s : Pkg) (t sec : Nat) (n : Option Nat) : Pkg :=
  let e : Int := (t : Int) - (sec * 1000000000 : Nat)
  let s := s.wf (cadBase + 0x10) 31 0 (sat32 e)
  let s : Pkg := match n with
    | some n => if n = 0 then s else s.setAdjF ((2 * ((1000000000 : Int) - 10 * n) * nsUnit + n) / (2 * (n : Int)))
    | none => s
  let s := s.setAdj s.adjF
  let s : Pkg := if e < 0 then s.cadStep e.natAbs else if e > 0 then s.cadSlew e.natAbs else s
  s.wf cadStat 11 8 (if e.natAbs ≤ 1000 then min 15 (s.rf cadStat 11 8 + 1) else 0)
/-- The edge that enters ACQUIRING. -/
def Pkg.enterAcquire (s : Pkg) (t sec : Nat) : Pkg := ((s.cadTo 1).wf cadStat 11 8 0).acquireEdge t sec none

/-- An active edge of TIME_PPS. -/
def Pkg.ppsEdge (s : Pkg) (rising : Bool) : Pkg :=
  if rising == s.rb cadCfg 1 then s
  else
    let t := s.stamp
    let r := (t + 500000000) / 1000000000
    let soon := match s.cad.lastEdge with | some x => decide (s.now < x + 500000000000) | none => false
    if soon then s.sat cadCnt 15 0
    else if s.cadState = 2 ∧ ((t : Int) - (r * 1000000000 : Nat)).natAbs > 1000 * s.rf cadCfg 15 8 then s.sat cadCnt 31 16
    else
      let st := s.cadState
      let (s, f) := s.claim
      let sec := f.map (fun b => frameNat b 2 6)
      let cyc := s.now / 10000
      let n := s.cad.prevCyc.map (cyc - ·)
      let prev := s.cad.prevSec
      let s := { s with cad := { s.cad with lastEdge := some s.now, prevSec := sec } }
      let s : Pkg :=
        if !s.rb cadCfg 0 then s
        else match st, sec with
          | 1, some x =>
            if prev = some (x - 1) ∧ x ≠ 0 then
              let s := s.acquireEdge t x n
              if s.rf cadStat 11 8 ≥ s.rf cadCfg 19 16 && !s.rb cadStat 2 then s.cadTo 2 else s
            else s.wf cadStat 11 8 0
          | 1, none => s.wf cadStat 11 8 0
          | 2, _ =>
            let bad := match sec with | some x => x != r | none => false
            let s : Pkg := if bad then (s.sat cadCnt 63 48) else s
            let m := if bad then s.cad.mis + 1 else 0
            let s := { s with cad := { s.cad with mis := m } }
            if m ≥ 3 then s.enterAcquire t (sec.getD r)
            else
              let e : Int := (t : Int) - (r * 1000000000 : Nat)
              let s := s.wf (cadBase + 0x10) 31 0 (sat32 e)
              let s := s.setAdjF (s.adjF - (e * nsUnit).tdiv 6400000000)
              s.setAdj (s.adjF - (e * nsUnit).tdiv 800000000)
          | _, some x => s.enterAcquire t x
          | _, none => s
      { s with cad := { s.cad with prevCyc := if s.cadState = 1 then some cyc else none } }

/-! ### Registers (R359) -/

/-- CAD_CFG is written. -/
def Pkg.cadCfgWrite (s : Pkg) (v : Word) : Pkg :=
  if s.rb cadCfg 63 then s
  else
    let w := bits v 15 8
    let q := bits v 19 16
    let nv := setBits (setBits (setBits (setBits 0#64 1 0 (bits v 1 0)) 15 8 (if w = 0 then 1 else w)) 19 16 (if q < 2 then 2 else q)) 63 63 (bits v 63 63)
    let s := s.wr cadCfg nv
    if v.getLsbD 0 then s else s.cadTo 0
/-- CAD_FREQ is written. -/
def Pkg.cadFreqWrite (s : Pkg) (v : Word) : Pkg :=
  if s.rb cadCfg 63 || s.rb cadCfg 0 then s
  else
    let x := clampAdj (BitVec.ofNat 32 (bits v 31 0)).toInt
    (s.setAdjF x).setAdj x

/-! ### Commands -/

/-- PPS_EDGE (R354). -/
def execPpsEdge (dt : Nat) (rising : Bool) (s : State) : Out :=
  s.runSc dt (·.ppsEdge rising)
/-- TOD_FRAME (R352). -/
def execTodFrame (dt : Nat) (bytes : List Byte) (s : State) : Out :=
  s.runSc dt (·.todFrame bytes)
/-- TOD_GAP_TIMEOUT (R351). -/
def execTodGapTimeout (dt : Nat) (bytes : List Byte) (s : State) : Out :=
  s.runSc dt (·.todDiscard bytes)
/-- TOD_FRAMING_ERROR (R351). -/
def execTodFramingError (dt : Nat) (bytes : List Byte) (s : State) : Out :=
  s.runSc dt (·.todDiscard bytes)
/-- TOD_FRAME_UNCLAIMED (R352). -/
def execTodFrameUnclaimed (dt : Nat) (s : State) : Out :=
  s.runSc dt (·.todUnclaimed)
/-- PPS_LOSS_TIMEOUT (R353). -/
def execPpsLossTimeout (dt : Nat) (s : State) : Out :=
  s.runSc dt (·.ppsLoss)
/-- SLEW_COMPLETE (R349). -/
def execSlewComplete (dt : Nat) (s : State) : Out :=
  s.runSc dt (·.slewDone)
/-- TODVALID_EXPIRE (R359). -/
def execTodvalidExpire (dt : Nat) (s : State) : Out :=
  s.runSc dt (·.todExpire)
/-- HOLDOVER_DAY (R360). -/
def execHoldoverDay (dt : Nat) (s : State) : Out :=
  s.runSc dt (·.holdDay)
/-- SCHEDULE_FIRE (R357). -/
def execScheduleFire (dt : Nat) (ix : Fin 256) (s : State) : Out :=
  s.runAt dt (·.schedFire ix)
/-- SCHEDULE_ENTRY_WRITE (R356). -/
def execScheduleEntryWrite (ix : Fin 256) (j : Fin 3) (v : Word) (s : State) : Out :=
  s.run (·.schedWrite ix j v)
/-- CAD_CFG_WRITE (R353). -/
def execCadCfgWrite (v : Word) (s : State) : Out :=
  s.run (·.cadCfgWrite v)
/-- CAD_TIME_NS_READ (R359). -/
def execCadTimeNsRead (dt : Nat) (s : State) : Out :=
  s.runSc dt (·.cadTimeRead.1)

end Sys2Proof.Machine
end

