-- ==== Sys2Proof/Machine/Bci.lean ====
section
/-!
DEFINITION. Machine/Bci.lean: the boot flash (16 R408 to R410), the boot configuration image: its fields, the checks of
R412, the register values that it gives (R10, R415).
-/
namespace Sys2Proof.Machine

/-! ### The flash -/

/-- An erased byte (log entry 12). -/
def ff0 : Nat → BitVec 8 := fun _ => 0xFF#8
/-- n bytes from address a on. -/
def flashRun : Map (BitVec 8) → Nat → Nat → List Byte
  | _, _, 0 => []
  | [], a, n + 1 => 0xFF#8 :: flashRun [] (a + 1) n
  | (j, v) :: t, a, n + 1 =>
    if j = a then v :: flashRun t (a + 1) n else 0xFF#8 :: flashRun ((j, v) :: t) (a + 1) n
def Nv.read (v : Nv) (a n : Nat) : List Byte := flashRun (v.flash.dropWhile (fun e => decide (e.1 < a))) a n
/-- Erase bytes a to a + n − 1. -/
def Nv.erase (v : Nv) (a n : Nat) : Nv := { v with flash := v.flash.filter (fun e => decide (e.1 < a) || decide (e.1 ≥ a + n)) }
/-- Erase and program bytes. -/
def Nv.program (v : Nv) (a : Nat) (l : List Byte) : Nv :=
  l.zipIdx.foldl (fun v q => { v with flash := Map.set ff0 v.flash (a + q.2) q.1 }) (v.erase a l.length)

/-! ### Fields (R411) -/

/-- A field: n bytes at byte offset o, little-endian. -/
def bciF (b : List Byte) (o n : Nat) : Nat := leNat ((b.drop o).take n)
/-- Bits [hi:lo] of a number. -/
def nbits (x hi lo : Nat) : Nat := x / 2 ^ lo % 2 ^ (hi - lo + 1)
def bciLen (b : List Byte) : Nat := bciF b 8 4
def bciSeq (b : List Byte) : Nat := bciF b 0xC 4
def bciFabId (b : List Byte) : Nat := bciF b 0x40 2
def bciLead (b : List Byte) : Nat := bciF b 0x42 2
/-- k_d − 1. -/
def bciDim (b : List Byte) (d : Nat) : Nat :=
  let x := bciF b 0x44 2
  match d with | 0 => nbits x 2 0 | 1 => nbits x 5 3 | 2 => nbits x 9 6 | _ => nbits x 13 10
def bciTdmRole (b : List Byte) : Nat := bciF b 0x46 1
def bciPolicy (b : List Byte) : Nat := bciF b 0x47 1
def bciExpect (b : List Byte) : Nat := bciF b 0x68 4
def bciBifur (b : List Byte) (r p : Nat) : Nat := nbits (bciF b (0x80 + 4 * r) 4) (3 * p + 2) (3 * p)
def bciSpeed (b : List Byte) (r p : Nat) : Nat := nbits (bciF b (0x90 + 4 * r) 4) (3 * p + 2) (3 * p)
def bciSlot (b : List Byte) (r p : Nat) : Bool := nbits (bciF b (0xA0 + 2 * r) 2) p p == 1
def bciApFirst (b : List Byte) (r : Nat) : Nat := nbits (bciF b (0xA8 + 8 * r) 8) 21 0
def bciApLast (b : List Byte) (r : Nat) : Nat := nbits (bciF b (0xA8 + 8 * r) 8) 53 32
def bciRole (b : List Byte) (i : Nat) : Nat := bciF b (0xE0 + i) 1
def bciStby (b : List Byte) (i : Nat) : Nat := bciF b (0xEC + i) 1
def bciFwFlash (b : List Byte) : Nat := bciF b 0x190 4
def bciFwLen (b : List Byte) : Nat := bciF b 0x194 4
def bciFwLoad (b : List Byte) : Nat := bciF b 0x198 8
def bciFwEntry (b : List Byte) : Nat := bciF b 0x1A0 8
def bciOdo (b : List Byte) : Nat := bciF b 0x1E0 4
/-- Doubleword j of CAD_SCHED[i]. -/
def bciSched (b : List Byte) (i j : Nat) : Nat := bciF b (0x400 + 32 * i + 8 * j) 8

/-- The assigned bytes of R411, as (offset, size). -/
def bciAssigned : List (Nat × Nat) := [
  (0x000, 4), (0x004, 2), (0x008, 4), (0x00C, 4), (0x010, 2), (0x012, 2), (0x040, 2), (0x042, 2), (0x044, 2), (0x046, 1), (0x047, 1),
  (0x048, 8), (0x050, 1), (0x060, 2), (0x062, 1), (0x063, 1), (0x064, 1), (0x066, 2), (0x068, 4), (0x080, 16), (0x090, 16), (0x0A0, 8),
  (0x0A8, 32), (0x0C8, 16), (0x0E0, 12), (0x0EC, 12), (0x0F8, 48), (0x130, 2), (0x132, 2), (0x134, 2), (0x140, 1), (0x141, 1), (0x150, 1),
  (0x158, 48), (0x190, 4), (0x194, 4), (0x198, 8), (0x1A0, 8), (0x1A8, 48), (0x1E0, 4), (0x400, 1024)]

/-! ### The checks of R412 -/

/-- Check 1. -/
def bciCheck1 (b : List Byte) (stepping : Nat) : Bool :=
  bciF b 0 4 == 0x43425848 && bciF b 4 2 == 1 && bciF b 0x10 2 == 0x7256 && bciLen b % 8 == 0 && decide (0x8C0 ≤ bciLen b)
    && decide (bciLen b ≤ 0x10000) && nbits (bciF b 0x12 2) stepping stepping == 1
/-- Check 2. -/
def bciCheck2 (b : List Byte) (owner : Option (List Byte)) : Bool :=
  let n := bciLen b
  let key := (b.drop (n - 192)).take 96
  match owner with
  | none => false
  | some h => sha384 key == h && ecdsaOk key ((b.drop (n - 96)).take 96) (sha384 (b.take (n - 96)))
/-- Check 3: every unassigned byte is 0, and so is every bit that a field does not name. -/
def bciCheck3 (b : List Byte) : Bool :=
  let le (o n m : Nat) : Bool := decide (bciF b o n ≤ m)
  (List.range 0x800).all (fun k => bciAssigned.any (fun f => decide (f.1 ≤ k) && decide (k < f.1 + f.2)) || b.getD k 0#8 == 0#8)
    && le 0x40 2 0x7FFF && le 0x42 2 0x7FFF && le 0x44 2 0x3FFF && le 0x46 1 2 && le 0x47 1 1
    && decide (10 ≤ bciF b 0x50 1) && le 0x50 1 70
    && decide (3200 ≤ bciF b 0x60 2) && le 0x60 2 6400 && bciF b 0x60 2 % 400 == 0 && le 0x62 1 3 && le 0x68 4 0xFFFFF
    && (List.range 4).all (fun r => le (0x80 + 4 * r) 4 0xFFFFFF && le (0x90 + 4 * r) 4 0xFFFFFF && le (0xA0 + 2 * r) 2 255
        && le (0xC8 + 4 * r) 4 255 && (List.range 8).all (fun p => decide (bciBifur b r p ≤ 4) && decide (bciSpeed b r p ≤ 6))
        && bciF b (0xA8 + 8 * r) 8 == bciApFirst b r + bciApLast b r * 2 ^ 32)
    && (List.range 12).all (fun i => decide (bciRole b i ≤ 9) && decide (bciStby b i ≤ 9) && le (0xF8 + 4 * i) 4 1)
    && decide (200 ≤ bciF b 0x130 2) && le 0x130 2 850 && decide (bciF b 0x130 2 ≤ bciF b 0x132 2) && le 0x132 2 1100
    && decide (3000 ≤ bciF b 0x134 2) && le 0x134 2 3400 && le 0x140 1 3 && decide (1 ≤ bciF b 0x141 1) && le 0x150 1 3
    && bciFwFlash b % 4096 == 0 && decide (4 ≤ bciFwLen b) && decide (bciFwLen b ≤ 2 ^ 27) && bciFwLen b % 4 == 0
    && bciFwLoad b % 4096 == 0 && decide (0x100000 ≤ bciFwLoad b) && decide (bciFwLoad b + bciFwLen b ≤ 2 ^ 51)
    && bciFwEntry b % 4 == 0 && decide (bciFwLoad b ≤ bciFwEntry b) && decide (bciFwEntry b < bciFwLoad b + bciFwLen b)
    && bciOdo b % 0x40000 == 0
    && (List.range 32).all (fun i => BitVec.ofNat 64 (bciSched b i 0) &&& ~~~0x0000FFFF07FF003F#64 == 0#64 && bciSched b i 3 == 0)
/-- Check 4. -/
def bciCheck4 (b : List Byte) : Bool :=
  (List.range 4).all (fun d => decide (coord (bciFabId b) d ≤ bciDim b d) && decide (coord (bciLead b) d ≤ bciDim b d))
/-- Check 5. -/
def bciCheck5 (b : List Byte) : Bool :=
  bciTdmRole b == 0 || (bciPolicy b == 0 && bciRole b 5 == 9 && bciRole b 11 == 9)
/-- The default role of a link (01 R18). -/
def lkDefault (i : Nat) : Nat :=
  match i with | 0 => 1 | 1 => 2 | 2 => 3 | 3 => 4 | 6 => 5 | 7 => 6 | 8 => 7 | 9 => 8 | _ => 0
/-- Check 6. -/
def bciCheck6 (b : List Byte) : Bool :=
  let roles := (List.range 12).map (bciRole b)
  let stby := (List.range 12).map (bciStby b)
  let once (l : List Nat) (r : Nat) : Bool := decide ((l.filter (· == r)).length ≤ 1)
  (List.range 12).all (fun i =>
    let r := bciRole b i
    let q := bciStby b i
    (r != 9 || i == 5 || i == 11) && (r == 0 || r == 9 || lkDefault i == r || i == 4 || i == 10)
      && (q == 0 || (decide (q ≤ 8) && r == 0 && roles.contains q)))
    && (List.range 8).all (fun r => once roles (r + 1) && once stby (r + 1))
/-- The lanes of a width code: 1 x4, 2 x8, 3 x16, 4 x32. -/
def bifLanes (c : Nat) : Nat := if c = 0 then 0 else 2 * 2 ^ c
/-- Check 7, with 14 R361 and 01 R20. -/
def bciCheck7 (b : List Byte) : Bool :=
  (List.range 4).all (fun r =>
    bciBifur b r 0 != 0
      && (List.range 8).all (fun p =>
        let w := bifLanes (bciBifur b r p)
        w == 0 || (4 * p % w == 0 && (List.range 8).all (fun q => bciBifur b r q == 0 || decide (q ≤ p) || decide (4 * p + w ≤ 4 * q))))
      && decide (bciApFirst b r ≤ bciApLast b r) && decide (0x200000 ≤ bciApFirst b r) && decide (bciApLast b r ≤ 0x3BFFFF)
      && (List.range 4).all (fun q => q == r || decide (bciApLast b r < bciApFirst b q) || decide (bciApLast b q < bciApFirst b r)))
/-- Check 8. -/
def bciCheck8 (b : List Byte) (size : Nat) : Bool :=
  let rs := [(0, 0x10000), (0x10000, 0x10000), (bciFwFlash b, bciFwLen b), (bciOdo b, 0x40000)]
  rs.all (fun x => decide (x.1 + x.2 ≤ size))
    && rs.zipIdx.all (fun x => rs.zipIdx.all (fun y => x.2 == y.2 || decide (x.1.1 + x.1.2 ≤ y.1.1) || decide (y.1.1 + y.1.2 ≤ x.1.1)))

/-- The copy at a flash offset: LENGTH bytes, or its header where LENGTH is not permitted. -/
def Nv.copy (v : Nv) (base : Nat) : List Byte :=
  let n := leNat (v.read (base + 8) 4)
  if n ≤ 0x10000 then v.read base (max n 0x800) else v.read base 0x800
/-- A copy passes R412. -/
def bciValid (b : List Byte) (v : Nv) (stepping : Nat) : Bool :=
  bciCheck1 b stepping && bciCheck3 b && bciCheck4 b && bciCheck5 b && bciCheck6 b && bciCheck7 b && bciCheck8 b v.size
    && bciCheck2 b v.keyHash

/-! ### Registers whose reset value is a BCI field (R10, R415) -/

/-- Route bank 0 holds the shortest direction in every dimension, + on a tie (10 R286). -/
def Pkg.routeFill (s : Pkg) : Pkg :=
  let dir (c d : Nat) : Nat :=
    let k := s.dimK d
    let f := (c + k - coord s.selfId d) % k
    if 2 * f ≤ k then 0 else 1
  let entry (pos : Nat) : Nat :=
    if (List.range 4).any (fun d => decide (coord (2 * pos) d ≥ s.dimK d)) then 0
    else (List.range 4).foldl (fun a d => a + dir (coord (2 * pos) d) d * 2 ^ d) 0
  (List.range 4096).foldl (fun s j =>
    s.wr (fabBase + 0x10000 + 8 * j) (BitVec.ofNat 64 ((List.range 4).foldl (fun a q => a + entry (4 * j + q) * 2 ^ (16 * q)) 0))) s

/-- Registers that software may write. -/
def Pkg.bciRw (s : Pkg) (b : List Byte) : Pkg :=
  let s := (List.range 128).foldl (fun s n => (s.wf (l2Base n + 0x18) 7 0 (bciF b 0x64 1)).wf (l3sBase n + 0x18) 7 0 (bciF b 0x64 1)) s
  let s := (List.range 16).foldl (fun s i =>
    ((s.wf (mcBase i) 1 0 (bciF b 0x62 1)).wf (mcBase i + 0x10) 7 0 (bciF b 0x63 1)).wf (mcBase i + 0x20008) 31 16 (bciF b 0x66 2)) s
  let s := (s.wf (fabBase + 0x120) 14 0 (bciLead b)).wb (fabBase + 0x120) 15 (s.isSelf (bciLead b))
  let s := s.wf (tdmBase + 8) 6 0 (bciF b 0x50 1)
  let s := (s.wf cadCfg 1 0 (bciF b 0x140 1)).wf cadCfg 15 8 (bciF b 0x141 1)
  let s := (s.wf (mgtBase + 0x200) 15 0 (bciF b 0x130 2)).wf (mgtBase + 0x200) 31 16 (bciF b 0x132 2)
  (List.range 32).foldl (fun s k => s.wf (mgtBase + 0x600 + 8 * k) 15 0 (bciF b 0x134 2)) s

/-- A root port's capabilities (14 R362, R364, R367). -/
def Pkg.bciPort (s : Pkg) (b : List Byte) (r p : Nat) : Pkg :=
  let w := bifLanes (bciBifur b r p)
  if w = 0 then s
  else
    let sp := bciSpeed b r p
    let s := (s.wb (rcBase r) (8 + p) true).cfgSet (.rp r p) 0x6C 3 0 (if sp = 0 then 6 else sp)
    let s := s.cfgSet (.rp r p) 0x6C 9 4 w
    if bciSlot b r p then (s.cfgSet (.rp r p) 0x60 24 24 1).cfgSet (.rp r p) 0x74 6 5 3 else s

/-- Everything that the chosen copy sets before the units start. -/
def Pkg.bciUnits (s : Pkg) (b : List Byte) : Pkg :=
  let s := (s.wf fabBase 14 0 (bciFabId b)).wf fabBase 17 16 (bciTdmRole b)
  let s := (((s.wf fabBase 26 24 (bciDim b 0)).wf fabBase 30 28 (bciDim b 1)).wf fabBase 35 32 (bciDim b 2)).wf fabBase 39 36 (bciDim b 3)
  let s := s.setTdm (if bciTdmRole b = 0 then 0 else 1)
  let s := (List.range 12).foldl (fun s i => (s.wf (lkBase i) 7 4 (bciRole b i)).wf (lkBase i) 11 8 (bciStby b i)) s
  let s := (List.range 4).foldl (fun s r =>
    let s := (s.wf (rcBase r + 8) 51 30 (bciApFirst b r)).wf (rcBase r + 0x10) 51 30 (bciApLast b r)
    (List.range 8).foldl (fun s p => s.bciPort b r p) s) s
  ({ s with boot := { s.boot with bci := b, compat := bciPolicy b == 1 } }).routeFill.bciRw b

end Sys2Proof.Machine
end

