-- ==== Sys2Proof/Machine/Odo.lean ====
section
/-!
DEFINITION. Machine/Odo.lean: the Odometer (17 R439 to R444): the live state, its update each second, records in the flash
and how a start finds them.
-/
namespace Sys2Proof.Machine

/-! ### Records (R440, R443, R444) -/

/-- Seconds per fused year (R444). -/
def odoYear : Nat := 31557600
/-- Whether 4 KiB hold a record of this package: MAGIC, VERSION, UID, CRC. -/
def odoValid (b : List Byte) (uid : Nat) : Bool :=
  bciF b 0 4 == 0x314F444F && bciF b 4 2 == 1 && bciF b 0x10 16 == uid && bciF b 0xFFC 4 == crc32 (b.take 0xFFC)
/-- The newest record of a partition: its sector, SEQ and bytes. -/
def Nv.odoNewest (v : Nv) (part : Nat) : Option (Nat × Nat × List Byte) :=
  (List.range 64).foldl (fun a k =>
    let b := v.read (part + 4096 * k) 4096
    if odoValid b v.uid then
      match a with
      | some (_, q, _) => if bciF b 8 8 > q then some (k, bciF b 8 8, b) else a
      | none => some (k, bciF b 8 8, b)
    else a) none
/-- The bytes of a record with its SEQ and CRC. -/
def odoBytes (snap : List Word) (seq : Nat) : List Byte :=
  let body := ((snap.zipIdx.flatMap (fun q => natLe 8 (if q.2 = 1 then seq else q.1.toNat)))).take 0xFFC
  body ++ natLe 4 (crc32 body)
/-- The sector of the next write: the one after the newest record, leaving out the unusable ones. -/
def Odo.next (o : Odo) : Option Nat :=
  let from_ := match o.sector with | some k => k + 1 | none => 0
  ((List.range 64).map (fun j => (from_ + j) % 64)).find? (fun k => !o.bad.contains k && some k != o.sector)

/-- A start finds the newest record; when VAUX has failed since, it becomes the live state. Then the rollback floor applies
(R444). -/
def Pkg.odoStart (s : Pkg) (v : Nv) : Pkg :=
  let part := bciOdo s.boot.bci
  let best := v.odoNewest part
  let s := { s with odo := { s.odo with part := some part } }
  let s : Pkg := match best with
    | some (k, q, _) =>
      let s := { s with odo := { s.odo with sector := some k, seq := q } }
      (((s.wf odoBase 13 8 k).wr (odoBase + 8) (BitVec.ofNat 64 q)).wb odoBase 1 false)
    | none => ({ s with odo := { s.odo with sector := none, seq := 0 } }).wb odoBase 1 true
  if s.odo.live then s
  else
    let s : Pkg := match best with
      | some (_, _, b) => (List.range 512).foldl (fun s i => s.wr (odoLive (8 * i)) (BitVec.ofNat 64 (bciF b (8 * i) 8))) s
      | none => (List.range 512).foldl (fun s i => s.wr (odoLive (8 * i)) 0#64) s
    let s := (((s.livePut 0 8 0x0001314F444F).livePut 8 8 0).livePut 0x10 8 (v.uid % 2 ^ 64)).livePut 0x18 8 (v.uid / 2 ^ 64)
    let s := ((s.livePut 0x20 8 0).livePut 0x28 8 0).livePut 0xFFC 4 0
    let s := { s with odo := { s.odo with live := true } }
    let floor := ((List.range 32).filter (fun y => v.odofuse.getLsbD y)).length * odoYear
    if s.liveGet 0x30 8 < floor then
      let q := match best with | some (_, q, _) => q | none => 0
      ((s.livePut 0x30 8 floor).wb odoBase 2 true).odoEvent 0x0E 11 15 q floor
    else s

/-- The SC has finished with a write: a record that fell due meanwhile begins (R442). -/
def Pkg.odoEnd (s : Pkg) : Pkg :=
  let p := ({ s with odo := { s.odo with writing := none, again := none, snap := [] } }).wb odoBase 0 false
  match s.odo.again with
  | some r => p.odoRequest r
  | none => p
/-- The erase, program and check of a record end (R443). -/
def State.odoWritten (s : State) (ok : Bool) : State :=
  let p := s.pkg
  match p.odo.writing, p.odo.part with
  | some _, some part =>
    match p.odo.next with
    | none => { s with pkg := (p.wb odoBase 3 true).odoEnd }
    | some k =>
      let a := part + 4096 * k
      if ok then
        let q := p.odo.seq + 1
        let p := { p with odo := { p.odo with sector := some k, seq := q } }
        let p := (p.wf odoBase 13 8 k).wr (odoBase + 8) (BitVec.ofNat 64 q)
        { s with pkg := p.odoEnd, nv := s.nv.program a (odoBytes s.pkg.odo.snap q) }
      else
        let p := { p with odo := { p.odo with bad := k :: p.odo.bad } }
        let p := (p.ce .sc 0x19 (some a) 0).odoEvent 0x0F 11 15 a 0
        let p : Pkg := if p.odo.next.isNone then
            (p.wb odoBase 3 true).odoEnd
          else p
        { s with pkg := p, nv := s.nv.erase a 4096 }
  | _, _ => s

/-! ### The live state (R439) -/

/-- The greatest r with r^50 ≤ x, by bits from 2^k down. -/
def root50 (x : Nat) : Nat → Nat → Nat
  | 0, r => r
  | k + 1, r => root50 x k (if (r + 2 ^ k) ^ 50 ≤ x then r + 2 ^ k else r)
/-- 2^((T − 85) / 10) · 2^((V − 0.85) / 0.05) s in units of 2^−16 s, rounded down, for T in °C and V in mV; whether it is exact. -/
def odoWeight (t : Int) (mv : Nat) : Nat × Bool :=
  let e := 800 + 5 * (t - 85) + ((mv : Int) - 850)
  if e < 0 then (0, false)
  else
    let x := 2 ^ e.toNat
    let r := root50 x 40 0
    (r, r ^ 50 == x)
/-- MGT_TEMP.TJMAX. -/
def Pkg.tjMax (s : Pkg) : Int := (BitVec.ofNat 8 (s.rf (mgtBase + 0x110) 7 0)).toInt
/-- The highest setpoint of the powered courses. -/
def Pkg.vMax (s : Pkg) : Option Nat :=
  (List.range 32).foldl (fun a k => if s.coursePowered k then some (max (a.getD 0) (pointMv (s.course k).point)) else a) none
def tempBin (t : Int) : Nat := if t < 30 then 0 else min 15 ((t - 30) / 5 + 1).toNat
def voltBin (mv : Nat) : Nat := if mv < 700 then 0 else min 7 ((mv - 700) / 50 + 1)

/-- The thermal-cycle detector. -/
def Pkg.odoThermal (s : Pkg) (t : Int) : Pkg :=
  let e := s.odo.ext.getD t
  if s.odo.armed then
    let low := min e t
    if t ≥ low + 40 then { (s.liveAdd 0x3C 4 1) with odo := { s.odo with armed := false, ext := some t } }
    else { s with odo := { s.odo with ext := some low } }
  else
    let high := max e t
    { s with odo := if t ≤ high - 40 then { s.odo with armed := true, ext := some t } else { s.odo with ext := some high } }

/-- A second of REFCLK time has passed. -/
def Pkg.odoSecond (s : Pkg) : Pkg :=
  if s.now / 1000000000000 ≤ s.odo.sec || !s.odo.live then s
  else
    let s := { s with odo := { s.odo with sec := s.now / 1000000000000 } }
    let t := s.tjMax
    let s := (s.liveAdd 0x30 8 1).liveAdd (0x60 + 8 * tempBin t) 8 1
    let s : Pkg := match s.vMax with
      | some mv =>
        let s := s.liveAdd (0xE0 + 8 * voltBin mv) 8 1
        let (w, ex) := odoWeight t mv
        if ex then s.liveAdd 0x58 8 w
        else
          let (x, s) := s.draw
          s.liveAdd 0x58 8 (w + x.toNat % 2)
      | none =>
        let (x, s) := s.draw
        s.liveAdd 0x58 8 (x.toNat % 2 ^ 32)
    ((s.odoThermal t).lifePpm).inc odoBase 31 16
/-- ODOMETER_SECOND, with the fuses of the years that have passed (R444). -/
def State.odoSecond (s : State) : State :=
  let p := s.pkg.odoSecond
  let f : BitVec 32 := (List.range 32).foldl (fun a y =>
    if p.liveGet 0x30 8 ≥ (y + 1) * odoYear then a ||| BitVec.ofNat 32 (2 ^ y) else a) s.nv.odofuse
  { s with pkg := if f = s.nv.odofuse then p else p.wf (scBase + 0x228) 31 0 f.toNat, nv := { s.nv with odofuse := f } }

/-- An hour of Cadence time, or 3,600 local seconds while Cadence is not LOCKED (R442). -/
def Pkg.odoHourly (s : Pkg) : Pkg :=
  let hit := if s.cadState = 2 then s.cadSec / 3600 != s.odo.hour else decide (s.now ≥ s.odo.hourAt + 3600 * 1000000000000)
  if hit then ({ s with odo := { s.odo with hour := s.cadSec / 3600, hourAt := s.now } }).odoRequest 0 else s

/-- ODO_CMD is written. -/
def Pkg.odoCmd (s : Pkg) (v : Word) : Pkg := if v.getLsbD 0 then s.odoRequest 1 else s
/-- ODO_EVCODE is written (R441); the event names no unit (log entry 33). -/
def Pkg.odoEvcode (s : Pkg) (v : Word) : Pkg :=
  let c := bits v 7 0
  if 0x80 ≤ c then s.odoEvent c 11 15 (s.rd (odoBase + 0x18)).toNat (s.rd (odoBase + 0x20)).toNat
  else s.wb odoBase 4 true

/-- A command of the SC that also reads or writes the flash and the fuses, `dt` ps after the one before it. -/
def State.runNv (s : State) (dt : Nat) (f : State → State) : Out :=
  let q := { s with pkg := s.pkg.elapse dt }
  .next (if q.pkg.scLive then f q else q)

/-! ### Commands -/

/-- ODOMETER_SECOND (R439). -/
def execOdometerSecond (dt : Nat) (s : State) : Out :=
  s.runNv dt State.odoSecond
/-- ODOMETER_HOURLY (R442). -/
def execOdometerHourly (dt : Nat) (s : State) : Out :=
  s.runSc dt (·.odoHourly)
/-- ODOMETER_WRITE_COMPLETE (R443). -/
def execOdometerWriteComplete (dt : Nat) (ok : Bool) (s : State) : Out :=
  s.runNv dt (·.odoWritten ok)
/-- ODO_CMD_SNAP (R442). -/
def execOdoCmdSnap (s : State) : Out :=
  s.runSc 0 (·.odoCmd 1#64)
/-- ODO_EVCODE_WRITE (R441). -/
def execOdoEvcodeWrite (v : Word) (s : State) : Out :=
  s.runSc 0 (·.odoEvcode v)

end Sys2Proof.Machine
end

