-- ==== Sys2Proof/Machine/Boot.lean ====
section
/-!
DEFINITION. Machine/Boot.lean: power, the boot phases, what a reset keeps, the stop sequence and what follows it (16 R413 to
R424, 17 R444, 20 R473 to R479).
-/
namespace Sys2Proof.Machine

def bootstat : Nat := scBase + 0x200
def Pkg.phase (s : Pkg) : Nat := s.rf bootstat 3 0
def Pkg.setPhase (s : Pkg) (x : Nat) : Pkg := s.wf bootstat 3 0 x

/-! ### What a reset keeps (R9, R422) -/

/-- The bits that a cold reset keeps: the live Odometer record and the identity, which live on VAUX and in fuses, MGT_THERM.TRIPPED
(18 R457), ODO_STAT.BUSY while a record is being written. -/
def coldKeep (o : Odo) (off : Nat) : Word :=
  if odoBase + 0x1000 ≤ off ∧ off < odoBase + 0x2000 then 0xFFFFFFFFFFFFFFFF#64
  else if off = scBase ∨ off = mgtBase ∨ off = scBase + 0x10 ∨ off = scBase + 0x18 ∨ off = scBase + 0x228 then 0xFFFFFFFFFFFFFFFF#64
  else if off = mgtBase + 0x208 then 0x100#64
  else if off = odoBase ∧ o.writing.isSome then 1#64
  else 0#64
/-- And a warm or fail-stop reset: the /STK fields and CAD_CFG.LOCK too. -/
def warmKeep (o : Odo) (off : Nat) : Word :=
  coldKeep o off ||| regStkMask off ||| (if off = cadCfg then 0x8000000000000000#64 else 0#64)
/-- The registers after a reset that keeps those bits. -/
def Pkg.resetDrs (s : Pkg) (keep : Nat → Word) : Map Word :=
  s.drs.filterMap (fun e =>
    let r := regReset e.1
    let v := (e.2 &&& keep e.1) ||| (r &&& ~~~keep e.1)
    if v = r then none else some (e.1, v))

/-- A cold reset. -/
def Pkg.coldReset (s : Pkg) : Pkg :=
  { drs := s.resetDrs (coldKeep s.odo)
    odo := { s.odo with bad := [] }
    jtag := { ir := s.jtag.ir, trst := s.jtag.trst }
    pins := { s.pins with fsOut := true, alive := false }
    now := s.now
    fresh := s.fresh }

/-- A warm or fail-stop reset. A reservation of spare ways survives it, and the ways are empty then (06 R186); the retirements in progress
are complete (06 R182). -/
def Pkg.warmReset (s : Pkg) : Pkg :=
  let s := s.retireAll
  let p : Pkg :=
    { drs := s.resetDrs (warmKeep s.odo)
      mem := s.mem
      dpoison := s.dpoison
      dsym := s.dsym
      spare := s.spare
      noc := { mapped := s.noc.mapped }
      mcs := s.mcs.filterMap (fun e => if e.2.trwSeq = 0 then none else some (e.1, { trwSeq := e.2.trwSeq }))
      links := s.links.filterMap (fun e => if e.2.bad.isNone then none else some (e.1, { bad := e.2.bad }))
      cad := s.cad
      odo := s.odo
      mgt := { addr := s.mgt.addr, dyn := s.mgt.dyn, ibi := s.mgt.ibi, ibiAt := s.mgt.ibiAt }
      boot := { fsStart := s.boot.fsStart }
      jtag := { ir := s.jtag.ir, trst := s.jtag.trst }
      pins := { s.pins with fsOut := true, alive := false }
      now := s.now
      fresh := s.fresh }
  let p := s.spare.foldl (fun p e => (p.wb (l3sBase e.1) 4 true).wb (l3sBase e.1 + 0x10) 2 true) p
  -- TODVALID is computed anew (13 R347)
  p.wb cadStat 3 (match p.cad.assoc with | some t => decide (p.now < t + 2000000000000) | none => false)

/-! ### Power (20 R473, R476 to R478) -/

/-- VAUX comes into range. The package holds TDM_ALIVE low as long as it is in reset (12 R309). -/
def State.vauxUp (s : State) : State :=
  if s.pkg.pins.vaux then s
  else
    let p : Pkg := { now := s.pkg.now, fresh := s.pkg.fresh, pins := { vaux := true } }
    let p := ((p.wr (scBase + 0x10) (BitVec.ofNat 64 s.nv.uid)).wr (scBase + 0x18) (BitVec.ofNat 64 (s.nv.uid / 2 ^ 64)))
    let p := (p.wf scBase 59 56 s.nv.stepping.val).wf mgtBase 59 56 s.nv.stepping.val
    { s with pkg := p.wf (scBase + 0x228) 31 0 s.nv.odofuse.toNat }
/-- VAUX leaves its range: only what needs no power is left. -/
def Pkg.vauxLoss (s : Pkg) : Pkg := { now := s.now, fresh := s.fresh }

/-- PWRGOOD rises: MGT_ADDR is sampled, the SC leaves reset, Cadence counts from 0. -/
def Pkg.pwrRise (s : Pkg) (addr : BitVec 2) : Pkg :=
  if !s.pins.vaux || s.pins.pwrgood then s
  else { s with
    pins := { s.pins with pwrgood := true, refclk := true, thermtripN := true }
    mgt := { s.mgt with addr := addr }
    boot := { s.boot with cold := true }
    cad := {}
    odo := { s.odo with hour := 0, hourAt := s.now, sec := s.now / 1000000000000, armed := true, ext := none } }
/-- PWRGOOD falls: a cold reset. -/
def Pkg.pwrFall (s : Pkg) : Pkg :=
  if s.pins.pwrgood then let p := s.coldReset; { p with pins := { p.pins with pwrgood := false } } else s

/-- The package stops and stays so: cause 5 until a warm or cold reset, 6 until a cold start. -/
def Pkg.stopFor (s : Pkg) (cause : Nat) : Pkg :=
  match s.boot.stop with
  | some ⟨6, _⟩ => s
  | _ => { s with
      boot := { s.boot with stop := some { cause := cause, since := s.now } }
      pins := { s.pins with fsOut := true, alive := false } }
/-- REFCLK stops. -/
def Pkg.refclkLoss (s : Pkg) : Pkg :=
  let p := { s with pins := { s.pins with refclk := false } }
  if s.pins.vaux && s.pins.pwrgood then p.stopFor 5 else p

/-! ### The end of boot (R418, R420, 13 R356) -/

/-- Boot has ended: the schedule table is loaded and its entries act; cores without a running thread gate (08 R220). -/
def Pkg.endBoot (s : Pkg) : Pkg :=
  let b := s.boot.bci
  let s := (List.range 32).foldl (fun s i =>
    let s := (s.wr (sched i 0) (BitVec.ofNat 64 (bciSched b i 0))).wr (sched i 1) (BitVec.ofNat 64 (bciSched b i 1))
    let s := s.wr (sched i 2) (BitVec.ofNat 64 (bciSched b i 2))
    if s.rb (sched i 0) 0 then s.schedArm i else s) s
  let s := { s with boot := { s.boot with ended := true } }
  let s := s.schedSweep
  (List.range 256).foldl (fun s c => s.coreGateAuto c) s

/-- An entry in the SC's record for a halt (17 R432). -/
def Pkg.bootRecord (s : Pkg) (code chan rule : Nat) (addr : Option Nat := none) : Pkg :=
  s.record .sc { cls := 2, code := 0x18, addr := addr, info := code + 16 * chan + 256 * rule }
/-- Boot stops. -/
def Pkg.bootHalt (s : Pkg) (code : Nat) : Pkg :=
  let s := (s.setPhase 15).wf bootstat 7 4 code
  let s := s.odoEvent 0x04 11 15 (s.rd bootstat).toNat 0
  ({ s with pins := { s.pins with fsOut := true, alive := false } }).endBoot

/-! ### The phases (R416 to R420) -/

/-- AUTH: both copies have been read (`aOk`, `bOk`: the flash completed the read) and checked. -/
def State.bootAuth (s : State) (aOk bOk : Bool) : State :=
  let p := s.pkg
  if !p.live || !p.pins.warmRstN || (p.phase != 0 && p.phase != 1) then s
  else
    let p := p.setPhase 1
    match s.nv.keyHash with
    | none => { s with pkg := (p.bootRecord 2 0 0).bootHalt 2 }
    | some _ =>
      let step := bits (p.rd scBase) 59 56
      let a := s.nv.copy 0
      let b := s.nv.copy 0x10000
      let av := aOk && bciValid a s.nv step
      let bv := bOk && bciValid b s.nv step
      let p := (p.wb bootstat 9 av).wb bootstat 10 bv
      if !av && !bv then { s with pkg := (p.bootRecord 1 0 0).bootHalt 1 }
      else
        let useB := bv && (!av || decide (bciSeq b > bciSeq a))
        let c := if useB then b else a
        let p := (p.wb bootstat 8 useB).wf bootstat 47 16 (bciSeq c)
        { s with pkg := (p.bciUnits (c.take (bciLen c))).setPhase 2 }

/-- MESH: bridge lanes are trained, or one cannot be; the newest Odometer record is found; a cold start is counted. -/
def State.bootMesh (s : State) (ok : Bool) : State :=
  let p := s.pkg
  if !p.live || p.phase != 2 then s
  else
    let p := p.odoStart s.nv
    let p : Pkg := if p.boot.cold then
        let p := (p.liveAdd 0x38 4 1).liveAdd 0x40 4 1
        (p.odoEvent 0x01 11 15 (p.rd bootstat).toNat 0).odoRequest 3
      else p
    { s with pkg := if ok then p.setPhase 3 else (p.bootRecord 3 0 0).bootHalt 3 }

/-- The capacity of a channel in GiB (09 R238): 16 data devices a rank. -/
def chanGiB (c : ChanPop) : Nat := c.dimms * c.ranks * c.density * 2
/-- The data rate that the last row of R238 gives. -/
def chanRate (c : ChanPop) (speed : Nat) : Nat := min speed (min c.speed (if c.dimms = 2 then 5200 else 6400))
def isPow2 (n : Nat) : Bool := n != 0 && 2 ^ Nat.log2 n == n
/-- The lowest rule code of R417 that a channel fails. Rule 7: no data rate of 3,200 MT/s or more is common to all. -/
def chanFault (c c0 : ChanPop) (speed expect : Nat) : Option Nat :=
  if !c.rdimm then some 1
  else if c.dimms ≠ 1 ∧ c.dimms ≠ 2 then some 2
  else if !([1, 2, 4, 8].contains c.ranks) then some 3
  else if !([16, 32, 64].contains c.density) then some 4
  else if !isPow2 (chanGiB c) || decide (chanGiB c < 32) || decide (chanGiB c > 512) then some 5
  else if c.dimms ≠ c0.dimms ∨ c.ranks ≠ c0.ranks ∨ c.density ≠ c0.density then some 6
  else if chanRate c speed < 3200 then some 7
  else if !c.trains then some 8
  else if expect ≠ 0 ∧ expect ≠ c.dimms + 4 * Nat.log2 c.ranks + 16 * chanGiB c then some 9
  else none
def chan0 : ChanPop := { rdimm := false, dimms := 0, ranks := 0, density := 0, speed := 0, trains := false }

/-- MEMTRAIN: the population is checked; a cold start initialises DRAM up to LIMIT, which must pass 4 GiB and the image; the links
are released to DETECT, the existing root ports to train (R418; 20 R469). -/
def Pkg.bootMemtrain (s : Pkg) (pop : List ChanPop) : Pkg :=
  if s.phase ≠ 3 then s
  else
    let b := s.boot.bci
    let speed := bciF b 0x60 2
    let c0 := pop.getD 0 chan0
    let bad := (List.range 16).filterMap (fun i => (chanFault (pop.getD i chan0) c0 speed (bciExpect b)).map (fun r => (i, r)))
    if bad ≠ [] then (bad.foldl (fun s f => s.bootRecord 4 f.1 f.2) s).bootHalt 4
    else
      let rate := (List.range 16).foldl (fun a i => min a (chanRate (pop.getD i chan0) speed)) 6400
      let geom := c0.dimms + 4 * Nat.log2 c0.ranks + 16 * Nat.log2 (c0.density / 16) + 65536 * rate + 2 ^ 32 * chanGiB c0
      let s := (List.range 16).foldl (fun s i => s.wr (mcBase i + 8) (BitVec.ofNat 64 geom)) s
      let cap := 16 * chanGiB c0 * 2 ^ 30
      let need := min cap (max (2 ^ 32) ((bciFwLoad b + bciFwLen b + 4095) / 4096 * 4096))
      let s : Pkg := if s.rb (scBase + 0x218) 0 then s else s.wf (scBase + 0x218) 51 12 (max need s.memLimit / 4096)
      let s := { s with boot := { s.boot with capacity := cap, t0 := s.now } }
      let s := (List.range 12).foldl (fun s i => if s.roleLive (s.lkTrains i) then s.setLk i 1 else s) s
      let s := { s with pcie := { s.pcie with perst := (List.range 32).filter (fun k => s.portUp (k / 8) (k % 8)) } }
      s.setPhase 4

/-- What this member sends in the handshake (12 R310). -/
def Pkg.hello (s : Pkg) : TduHello :=
  { id := BitVec.ofNat 15 s.selfId, role := s.fabMode, check := BitVec.ofNat 64 (leNat ((s.boot.bci.drop 0x48).take 8)), part := s.rd scBase
    geom := (List.range 16).map (fun i => s.rd (mcBase i + 8)), captain := decide (3 ≤ s.tdmState ∧ s.tdmState ≤ 5) }
/-- LINKS: every link with a role has settled, or 100 ms have passed. -/
def Pkg.bootLinks (s : Pkg) : Pkg :=
  let settled := (List.range 12).all (fun i => !s.roleLive (s.lkTrains i) || [5, 7, 9].contains (s.lkState i))
  if s.phase ≠ 4 || (!settled && decide (s.now < s.boot.t0 + 100000000000)) then s
  else if s.fabMode = 0 then s.setPhase 6
  else
    let s := ({ s with boot := { s.boot with t0 := s.now }, pins := { s.pins with fsOut := false, alive := true } }).setPhase 5
    if s.lkUp 5 || s.lkUp 11 then s.tell (.hello s.hello) else s

/-- Bytes written to DRAM from line address a on. -/
def Pkg.dramBytes : Nat → Nat → List Byte → Pkg → Pkg
  | 0, _, _, s => s
  | k + 1, line, l, s =>
    match l with
    | [] => s
    | _ =>
      let c := l.take 64
      let (d, p) := (BitVec.ofNat 512 (s.memRead (64 * line) 64), Map.get flag0 s.dpoison line)
      Pkg.dramBytes k (line + 1) (l.drop 64) (s.dramPut line (linePut d 0 c.length (leNat c)) (p && decide (c.length < 64)))
/-- A line of the image is preloaded into its home (06 R176). -/
def Pkg.preload (s : Pkg) (line : Nat) : Pkg :=
  let cand := s.cand3 line
  if (cand.filter (fun q => q.2.st != .I)).length ≥ 8 then s
  else
    match cand.find? (fun q => q.2.st == .I) with
    | some (k, _) => s.putL3 k { line := line, st := .E, data := BitVec.ofNat 512 (s.memRead (64 * line) 64), age := 0, poison := false }
    | none => s

/-- FWLOAD: the image is read (`fail`: the flash does not complete the read at that offset), hashed, written and preloaded. -/
def State.bootFwload (s : State) (fail : Option Nat) : State :=
  let p := s.pkg
  if !p.live || p.phase != 6 || p.boot.loaded then s
  else
    let b := p.boot.bci
    let n := bciFwLen b
    let img := s.nv.read (bciFwFlash b) n
    if bciFwLoad b + n > p.boot.capacity then { s with pkg := (p.bootRecord 5 0 0).bootHalt 5 }
    else
      match fail with
      | some o => { s with pkg := (p.bootRecord 5 0 0 (some o)).bootHalt 5 }
      | none =>
        if sha384 img ≠ (b.drop 0x1A8).take 48 then { s with pkg := (p.bootRecord 5 0 0).bootHalt 5 }
        else
          let k := (n + 63) / 64
          let p := Pkg.dramBytes k (bciFwLoad b / 64) img p
          let p := (List.range k).foldl (fun p j => p.preload (bciFwLoad b / 64 + j)) p
          { s with pkg := { p with boot := { p.boot with loaded := true } } }

/-- The boot information block (R420). -/
def State.bib (s : State) : List Byte :=
  let p := s.pkg
  let b := p.boot.bci
  let rec_ := match p.odo.part with
    | some o => (match s.nv.odoNewest o with | some (_, _, r) => r | none => List.replicate 4096 0#8)
    | none => List.replicate 4096 0#8
  b ++ List.replicate (0x10000 - b.length) 0#8 ++ rec_ ++ natLe 8 (p.rd bootstat).toNat ++ natLe 8 (p.rd (scBase + 0x218)).toNat
    ++ natLe 8 p.rdtime.toNat ++ (List.range 16).flatMap (fun i => natLe 8 (p.rd (mcBase i + 8)).toNat)

/-- RELEASED: registers hold their BCI values, the BIB is written, thread 0 of core 0 starts. -/
def State.bootRelease (s : State) : State :=
  let p := s.pkg
  if !p.live || p.phase != 6 || !p.boot.loaded || (p.fabMode != 0 && p.tdmState != 3) then s
  else
    let b := p.boot.bci
    let p := (p.bciRw b).setPhase 7
    let at_ := bciFwLoad b - 0x100000
    let info := State.bib { s with pkg := p }
    let p := Pkg.dramBytes (info.length / 64 + 1) (at_ / 64) info p
    let p := p.updThr 0 (fun t => { ((t.wg 1 (BitVec.ofNat 64 at_)).wg 2 (p.rd (scBase + 0x208))) with st := .run })
    let p := (p.redirect 0 (BitVec.ofNat 64 (bciFwEntry b))).evalWake 0
    { s with pkg := p.endBoot }

/-- Initialisation passes the end of DRAM. -/
def Pkg.meminitDone (s : Pkg) : Pkg :=
  if s.boot.capacity = 0 then s
  else (s.wb (scBase + 0x218) 0 true).wf (scBase + 0x218) 51 12 (s.boot.capacity / 4096)

/-! ### Warm and fail-stop reset (R421 to R423) -/

/-- WARM_RST_N is recognised low; it is ignored while PWRGOOD is low (20 R479). A package that a lost REFCLK has stopped
restarts when it is back (`refclk`). -/
def Pkg.warmPin (s : Pkg) (refclk : Bool) : Pkg :=
  if !s.pins.vaux || !s.pins.pwrgood then s
  else
    let s := { s with pins := { s.pins with warmRstN := false, refclk := refclk || s.pins.refclk } }
    match s.boot.stop with
    | some ⟨5, _⟩ => if s.pins.refclk then ({ s with boot := { s.boot with stop := none } }).beginStop 1 0 0 0 else s
    | _ => s.beginStop 1 0 0 0
/-- WARM_RST_N is released. -/
def Pkg.warmRelease (s : Pkg) : Pkg := { s with pins := { s.pins with warmRstN := true } }
/-- SC_RESET is written. -/
def Pkg.scReset (s : Pkg) (v : Word) : Pkg := if v.getLsbD 0 ∧ bits v 15 8 = 0x5A then s.beginStop 2 0 0 0 else s

/-- FSCOUNT after a fail-stop (R423, counted as 06 R181 counts). -/
def Pkg.fsCount (s : Pkg) : Pkg :=
  if s.rf bootstat 55 48 = 0 ∨ s.cadSec - s.boot.fsStart ≥ 3600 then
    ({ s with boot := { s.boot with fsStart := s.cadSec } }).wf bootstat 55 48 1
  else s.sat bootstat 55 48
/-- The stop sequence ends, once every repair in progress has (09 R482): the reset, and the reboot from AUTH. -/
def Pkg.stopEnd (s : Pkg) : Pkg :=
  match s.boot.stop with
  | none => s
  | some st =>
    if st.cause > 4 ∨ s.mcs.any (fun e => e.2.rep.isSome) then s
    else
      let s : Pkg := if st.cause = 4 then (s.liveAdd 0x48 4 1).fsCount
        else (s.liveAdd 0x44 4 1).odoEvent 0x02 11 15 (s.rd (scBase + 0x208)).toNat 0
      let s := s.warmReset
      if st.cause = 4 ∧ s.rf bootstat 55 48 ≥ 4 then (s.bootRecord 6 0 0).bootHalt 6 else s.setPhase 1

/-- A machine check becomes pending on its target (17 R435). -/
def Pkg.mcDeliver (s : Pkg) : Pkg :=
  match s.boot.mcq with
  | [] => s
  | (h, f) :: q => ({ s with boot := { s.boot with mcq := q } }).raiseVec h 32 (BitVec.ofNat 64 f)

/-! ### Commands -/

/-- VAUX_POWER_UP (R476). -/
def execVauxPowerUp (s : State) : Out :=
  .next s.vauxUp
/-- VAUX_LOSS (R478). -/
def execVauxLoss (s : State) : Out :=
  s.on (·.vauxLoss)
/-- PWRGOOD_RISE (R416). -/
def execPwrgoodRise (addr : BitVec 2) (s : State) : Out :=
  s.on (·.pwrRise addr)
/-- PWRGOOD_FALL (R477). -/
def execPwrgoodFall (s : State) : Out :=
  s.on (·.pwrFall)
/-- REFCLK_LOSS (R473). -/
def execRefclkLoss (s : State) : Out :=
  s.on (·.refclkLoss)
/-- BOOT_AUTH (R414). -/
def execBootAuth (dt : Nat) (aOk bOk : Bool) (s : State) : Out :=
  s.runNv dt (·.bootAuth aOk bOk)
/-- BOOT_MESH (R416). -/
def execBootMesh (dt : Nat) (ok : Bool) (s : State) : Out :=
  s.runNv dt (·.bootMesh ok)
/-- BOOT_MEMTRAIN (R417). -/
def execBootMemtrain (dt : Nat) (pop : List ChanPop) (s : State) : Out :=
  s.runAt dt (·.bootMemtrain pop)
/-- BOOT_LINKS (R418). -/
def execBootLinks (dt : Nat) (s : State) : Out :=
  s.runAt dt (·.bootLinks)
/-- BOOT_FWLOAD (R419). -/
def execBootFwload (dt : Nat) (fail : Option Nat) (s : State) : Out :=
  s.runNv dt (·.bootFwload fail)
/-- BOOT_RELEASE (R420). -/
def execBootRelease (dt : Nat) (s : State) : Out :=
  s.runNv dt State.bootRelease
/-- MEMINIT_COMPLETE (R417). -/
def execMeminitComplete (dt : Nat) (s : State) : Out :=
  s.runAt dt (·.meminitDone)
/-- WARM_RST_N (R421). -/
def execWarmRstN (refclk : Bool) (s : State) : Out :=
  s.on (·.warmPin refclk)
/-- WARM_RST_N_RELEASE (R479). -/
def execWarmRstNRelease (s : State) : Out :=
  s.on (·.warmRelease)
/-- SC_RESET_WRITE (R421). -/
def execScResetWrite (v : Word) (s : State) : Out :=
  s.run (·.scReset v)
/-- STOP_SEQUENCE_END (R421). -/
def execStopSequenceEnd (dt : Nat) (s : State) : Out :=
  s.runSc dt (·.stopEnd)
/-- MACHINE_CHECK_PENDING (R435). -/
def execMachineCheckPending (dt : Nat) (s : State) : Out :=
  s.runAt dt (·.mcDeliver)

end Sys2Proof.Machine
end

