-- ==== Sys2Proof/Machine/Iotu.lean ====
section
/-!
DEFINITION. Machine/Iotu.lean: the IO translation units (05 R159 to R163): contexts, translation, the fault queue,
invalidation.
-/
namespace Sys2Proof.Machine

/-! ### Units -/

def iotu0 : Nat → Iotu := fun _ => {}
def Pkg.iotu (s : Pkg) (u : Nat) : Iotu := Map.get iotu0 s.iotus u
def Pkg.updIotu (s : Pkg) (u : Nat) (f : Iotu → Iotu) : Pkg := { s with iotus := Map.upd iotu0 s.iotus u f }
/-- The unit whose record takes an IOTU's errors. -/
def iotuWin (u : Nat) : Win := if u < 4 then .rc u else .cx (u - 4)

/-- A request as the IOTU sees it (R160): source, PASID, Privileged Mode Requested, address, kind of access, whether it is an ATS
translation request; the generation that its fault record carries. -/
structure IoReq where
  src : Nat
  pasid : Option Nat := none
  priv : Bool := false
  addr : Word
  kind : AccKind
  ats : Bool := false
  gen : Nat := 0
deriving DecidableEq, Repr

/-- Why a request fails: KIND of the fault record (0 TRANSLATION, 1 PERMISSION, 2 WALK_ABORT, 3 CONTEXT), and whether it was checked
as S-level. -/
structure IoFault where
  kind : Nat
  priv : Bool := false
deriving DecidableEq, Repr

/-! ### Contexts (R159) -/

/-- Read 8 bytes for the walker; none where it aborts. -/
def Pkg.iotuRead (s : Pkg) (u a : Nat) : Pkg × Option Nat :=
  match s.readPte (iotuWin u) none a with
  | (s, .ok x) => (s, some x)
  | (s, .error _) => (s, none)

/-- The translation of a context: US regime, tagged with source and PASID (R160). -/
def IoCtx.x (c : IoCtx) (u : Nat) (priv : Bool) : XCtx :=
  { win := iotuWin u, h := none, core := none, reg := .us, vmid := c.vmid, asid := c.pasid.getD c.did
    s1 := c.s1, s2 := c.s2, root := c.root, s2root := c.s2root, hwad := c.hwad, s2hwad := c.hwad
    lvl := if priv && c.supv then 1 else 0, sum := false }

/-- The context of a source and PASID from memory: the 32-byte entry, checked; with PASEN the PASID table's entry, whose
address is a guest PA under stage 2. -/
def Pkg.ctxWalk (s : Pkg) (u src : Nat) (pasid : Option Nat) : Pkg × Except Nat IoCtx :=
  let a := s.rf (iotuBase u + 8) 57 12 * 4096 + 32 * src
  match s.iotuRead u a with
  | (s, none) => (s, .error 2)
  | (s, some d0) =>
  match s.iotuRead u (a + 8) with
  | (s, none) => (s, .error 2)
  | (s, some d1) =>
  match s.iotuRead u (a + 16) with
  | (s, none) => (s, .error 2)
  | (s, some d2) =>
  match s.iotuRead u (a + 24) with
  | (s, none) => (s, .error 2)
  | (s, some d3) =>
    let f (d hi lo : Nat) := d / 2 ^ lo % 2 ^ (hi - lo + 1)
    let zero := f d0 15 6 == 0 && f d0 63 48 == 0 && f d1 11 5 == 0 && f d1 63 58 == 0 && f d2 12 0 == 0 && f d2 63 58 == 0 && d3 == 0
    let pasen := f d0 3 3 == 1
    let pas : Option Nat := if pasen then some (pasid.getD 0) else pasid
    let c : IoCtx := { src := src, pasid := pas, s1 := f d0 1 1 == 1, s2 := f d0 2 2 == 1, hwad := f d0 4 4 == 1, ats := f d0 5 5 == 1
                       vmid := f d0 31 16, did := f d0 47 32, root := f d1 57 12 * 4096, s2root := f d2 57 13 * 8192, supv := false }
    if f d0 0 0 = 0 || !zero then (s, .error 3)
    else if pasid.isSome && (!pasen || decide (pasid.getD 0 ≥ 2 ^ f d1 4 0)) then (s, .error 3)
    else if !pasen then (s, .ok c)
    else
      match s.tableAddr (c.x u false) (c.root + 8 * pas.getD 0) .load 0 with
      | (s, .error e) => (s, .error (min e.kind 2))
      | (s, .ok pa) =>
        match s.iotuRead u pa with
        | (s, none) => (s, .error 2)
        | (s, some e) =>
          if f e 0 0 = 0 ∨ f e 11 2 ≠ 0 ∨ f e 63 58 ≠ 0 then (s, .error 3)
          else (s, .ok { c with root := f e 57 12 * 4096, supv := f e 1 1 == 1 })

/-- The context of a request: a cached one, or one read now and cached (R163). -/
def Pkg.ctxOf (s : Pkg) (u src : Nat) (pasid : Option Nat) : Pkg × Except Nat IoCtx :=
  match (s.iotu u).ctx.find? (fun c => c.src == src && (c.pasid == pasid || (pasid.isNone && c.pasid == some 0))) with
  | some c => (s, .ok c)
  | none =>
    match s.ctxWalk u src pasid with
    | (s, .ok c) => (s.updIotu u (fun i => { i with ctx := i.ctx ++ [c] }), .ok c)
    | (s, .error e) => (s, .error e)

/-! ### Translation (R160) -/

/-- The entry for an address: from the IOTLB, else by a walk that starts at a cached pointer, and installs what it finds
(R163); the oldest of 2,048 entries, and of 128 pointers, goes. -/
def Pkg.ioWalk (s : Pkg) (u : Nat) (c : IoCtx) (x : XCtx) (a : Nat) (k : AccKind) : Pkg × Except XFault TlbE :=
  let tag := (c.src, c.pasid)
  let hit := (s.iotu u).tlb.find? (fun e => e.1 == tag && e.2.hits x a)
  let walk (s : Pkg) : Pkg × Except XFault TlbE :=
    let ptrs := (s.iotu u).walkc.filter (fun w => w.1 == tag && w.2.vmid == x.vmid && w.2.pre == walkPre a w.2.level)
    let (L, t) := if x.s1 then ptrs.foldl (fun b w => if w.2.level + 1 > b.1 then (w.2.level + 1, w.2.table) else b) (0, x.root) else (0, 0)
    match s.walkFrom x a k L t with
    | (s, .error f) => (s, .error f)
    | (s, .ok (e, ps)) =>
      let ws : List ((Nat × Option Nat) × WalkC) := ps.map (fun p =>
        (tag, { reg := .us, stage2 := false, vmid := x.vmid, asid := x.asid, level := p.1, pre := walkPre a p.1, table := p.2 }))
      -- an ATS request's walk sets no A: what it found is not kept
      if x.noad then (s, .ok e) else
      (s.updIotu u (fun i =>
        let l := i.tlb.filter (fun o => !(o.1 == tag && o.2.va == e.va && o.2.sz == e.sz)) ++ [(tag, e)]
        let w := i.walkc.filter (fun o => !ws.any (fun n => n.1 == o.1 && n.2.level == o.2.level && n.2.pre == o.2.pre)) ++ ws
        { i with tlb := l.drop (l.length - 2048), walkc := w.drop (w.length - 128) }), .ok e)
  match hit with
  | none => walk s
  | some e =>
    match e.2.check x a k with
    | none => (s, .ok e.2)
    | some (some f) => (s, .error f)
    | some none => walk s

/-- What a translation gives: the PA, its attribute index, the guest page of the dirty log (15 R403), and the entry. -/
structure IoRes where
  pa : Nat
  ai : Nat
  gpa : Nat
  e : Option TlbE := none
deriving DecidableEq, Repr

/-- The attribute index of an address that no stage translates (R160; MSI: 14 R376). -/
def flatAi (pa : Nat) : Nat := match region pa with | 0 => 0 | 5 => 5 | _ => 2

/-- Translate a request through its context. -/
def Pkg.ioXlate (s : Pkg) (u : Nat) (q : IoReq) : Pkg × Except IoFault IoRes :=
  if !s.rb (iotuBase u) 0 then (s, .error ⟨4, false⟩)
  else
    match s.ctxOf u q.src q.pasid with
    | (s, .error k) => (s, .error ⟨k, false⟩)
    | (s, .ok c) =>
      if q.ats && !c.ats then (s, .error ⟨4, false⟩)
      else
        let x := { c.x u q.priv with noad := q.ats }
        let priv := x.lvl == 1
        let a := q.addr.toNat
        if !x.s1 && !x.s2 then
          (if a ≥ 2 ^ 58 then (s, .ok { pa := 2 ^ 56, ai := 2, gpa := a }) else (s, .ok { pa := a, ai := flatAi a, gpa := a }))
        else if x.s1 && !canonical q.addr then (s, .error ⟨0, priv⟩)
        else if !x.s1 && decide (a ≥ 2 ^ 58) then (s, .error ⟨0, priv⟩)
        else
          let v := if x.s1 then va57 q.addr else a
          match s.ioWalk u c x v q.kind with
          | (s, .error f) => (s, .error ⟨min f.kind 2, priv⟩)
          | (s, .ok e) =>
            let pa := e.outPa v
            (s, .ok { pa := pa, ai := e.outAi, e := some e
                      gpa := match e.s2 with
                        | some l => if x.s1 then l.gpa + pa % 2 ^ l.sz else v
                        | none => pa })

/-! ### Writes from outside the threads (12 R320) -/

/-- Whether byte k of n is enabled by the enables of the first and last doubleword. -/
def dmaOn (n fbe lbe k : Nat) : Bool := if k < 4 then fbe.testBit k else if k + 4 ≥ n then lbe.testBit (k + 4 - n) else true
/-- Write bytes to DRAM at the home slices, one line at a time. -/
def Pkg.dmaPut (s : Pkg) (pa : Nat) (bs : List Byte) (fbe lbe : Nat) : Pkg :=
  let n := bs.length
  (List.range ((pa + n + 63) / 64 - pa / 64)).foldl (fun s i =>
    let line := pa / 64 + i
    let q := (bs.zipIdx).filter (fun b => (pa + b.2) / 64 == line && dmaOn n fbe lbe b.2)
    if q.isEmpty then s
    else s.homeWriteMasked line
      (q.foldl (fun (a : BitVec 64) b => a ||| BitVec.ofNat 64 (2 ^ ((pa + b.2) % 64))) 0#64)
      (q.foldl (fun (a : BitVec 512) b => a ||| BitVec.ofNat 512 (b.1.toNat * 2 ^ (8 * ((pa + b.2) % 64)))) 0#512)) s
/-- The lines of n bytes at pa. -/
def linesOf (pa n : Nat) : List Nat := (List.range ((pa + n + 63) / 64 - pa / 64)).map (· + pa / 64)
/-- The same, as an INB record of kind 0 with its source. -/
def Pkg.dmaWrite (s : Pkg) (src pa : Nat) (bs : List Byte) (fbe lbe : Nat) : Pkg :=
  (s.inb { inbBlank with nbytes := bs.length - 1, addr := pa, source := src, be := fbe + 16 * lbe, data := bs } (linesOf pa bs.length)).dmaPut pa bs fbe lbe
/-- Whether an access of a device or complex waits for open chunks (12 R315). -/
def Pkg.dmaWait (s : Pkg) (pa n : Nat) (wr : Bool) : Bool := (linesOf pa n).any (fun l => s.sigWait none l wr)

/-! ### The fault queue (R161, R162) -/

/-- A record is appended, or dropped where the queue is full; with IOTU_CTL.EN = 0 (kind 4) there is none. -/
def Pkg.ioRecord (s : Pkg) (u : Nat) (q : IoReq) (f : IoFault) : Pkg :=
  let b := iotuBase u
  if f.kind ≥ 4 ∨ (q.ats ∧ f.kind < 2) then s
  else
    let n := 2 ^ s.rf (b + 0x10) 4 0
    let head := s.rf (b + 0x18) 15 0
    let tail := s.rf (b + 0x18) 31 16
    if (tail + 1) % n = head then (s.wb (b + 0x18) 32 true).sat (b + 0x18) 63 48
    else
      let acc := if q.ats then 3 else match q.kind with | .atomic => 2 | .store => 1 | _ => 0
      let d0 := q.src + q.pasid.getD 0 * 2 ^ 16 + (if q.pasid.isSome then 2 ^ 36 else 0) + (if f.priv then 2 ^ 37 else 0)
        + acc * 2 ^ 38 + f.kind * 2 ^ 40 + q.gen * 2 ^ 48
      let a := s.rf (b + 0x10) 57 12 * 4096 + 32 * tail
      let s := if a + 32 ≤ s.memLimit then
          s.dmaWrite q.src a (leBytes 32 (d0 + q.addr.toNat * 2 ^ 64 + s.rdtime.toNat * 2 ^ 128)) 15 15 else s
      let s := s.wf (b + 0x18) 31 16 ((tail + 1) % n)
      if head = tail then s.irqOf (b + 0x20) else s

/-- Translate a request, recording its fault. -/
def Pkg.ioRequest (s : Pkg) (u : Nat) (q : IoReq) : Pkg × Except IoFault IoRes :=
  match s.ioXlate u q with
  | (s, .ok r) => (s, .ok r)
  | (s, .error f) => (s.ioRecord u q f, .error f)

/-! ### Registers and invalidation (R162, R163) -/

/-- IOTU_FQBASE. -/
def Pkg.fqbase (s : Pkg) (u : Nat) (v : Word) : Pkg :=
  let r := iotuBase u + 0x10
  let s := if 4 ≤ bits v 4 0 ∧ bits v 4 0 ≤ 16 then s.wf r 4 0 (bits v 4 0) else s
  (s.wf r 57 12 (bits v 57 12)).wf (iotuBase u + 0x18) 31 0 0
/-- IOTU_FQPTR. -/
def Pkg.fqptr (s : Pkg) (u : Nat) (v : Word) : Pkg :=
  let b := iotuBase u
  let s := s.wf (b + 0x18) 15 0 (bits v 15 0 % 2 ^ s.rf (b + 0x10) 4 0)
  let s := if v.getLsbD 32 then s.wb (b + 0x18) 32 false else s
  s.wf (b + 0x18) 63 48 (bits v 63 48)

/-- Whether IOTU_INV with value v removes what is cached for a source, PASID, VMID and page. -/
def invHits (ty : Nat) (v : Word) (page : Nat) (tag : Nat × Option Nat) (vmid : Nat) (e : Option TlbE) : Bool :=
  let src := tag.1 == bits v 31 16
  let pas := if v.getLsbD 3 then tag.2 == some (bits v 51 32) else tag.2.isNone || tag.2 == some 0
  match ty with
  | 0 => true
  | 1 => src
  | 2 => src && pas
  | 3 => src && pas && (match e with | some e => page / 2 ^ e.sz == e.va / 2 ^ e.sz | none => false)
  | 4 => vmid == bits v 31 16
  | _ => false

/-- IOTU_INV (R163): what matches is removed, BUSY is set; with ATS the device is asked. Types 5 to 7 have no effect. -/
def Pkg.ioInv (s : Pkg) (u : Nat) (v : Word) : Pkg :=
  let r := iotuBase u + 0x38
  let ty := bits v 2 0
  if s.rb r 0 then s.wb r 1 true
  else if ty ≥ 5 then s
  else
    let page := s.rf (iotuBase u + 0x30) 56 12 * 4096
    let ats := v.getLsbD 4 && decide (u < 4)
    let s := s.updIotu u (fun i => { i with
      ctx := i.ctx.filter (fun c => !(ty != 3 && invHits ty v page (c.src, c.pasid) c.vmid none))
      tlb := i.tlb.filter (fun e => !invHits ty v page e.1 e.2.vmid (some e.2))
      walkc := i.walkc.filter (fun w => !(if ty = 3 then invHits 2 v page w.1 w.2.vmid none && w.2.pre == walkPre page w.2.level
        else invHits ty v page w.1 w.2.vmid none))
      ats := if ats then some ⟨s.now, ty, bits v 31 16, if v.getLsbD 3 then some (bits v 51 32) else none, page⟩ else none })
    s.wb r 0 true
/-- The invalidation is complete, and any Invalidation Completion has arrived. -/
def Pkg.invDone (s : Pkg) (u : Nat) : Pkg := (s.wb (iotuBase u + 0x38) 0 false).updIotu u (fun i => { i with ats := none })
/-- The Invalidation Completion does not arrive (14 R377). -/
def Pkg.atsTimeout (s : Pkg) (u : Nat) : Pkg :=
  match (s.iotu u).ats with
  | none => s
  | some q =>
    if u < 4 ∧ s.now ≥ q.t0 + s.rf (rcBase u + 0x18) 15 0 * 1000000000 then (s.invDone u).wb (iotuBase u + 0x38) 2 true else s

/-- An IOTU_INV of one TYPE: the row's. -/
def Pkg.ioInvTy (s : Pkg) (u ty : Nat) (v : Word) : Pkg := s.ioInv u (setBits v 2 0 ty)

/-! ### Commands -/

/-- IOTU_INV_ALL (R163). -/
def execIotuInvAll (u : IotuN) (v : Word) (s : State) : Out :=
  s.run (·.ioInvTy u.val 0 v)
/-- IOTU_INV_SRC (R163). -/
def execIotuInvSrc (u : IotuN) (v : Word) (s : State) : Out :=
  s.run (·.ioInvTy u.val 1 v)
/-- IOTU_INV_PASID (R163). -/
def execIotuInvPasid (u : IotuN) (v : Word) (s : State) : Out :=
  s.run (·.ioInvTy u.val 2 v)
/-- IOTU_INV_PAGE (R163). -/
def execIotuInvPage (u : IotuN) (v : Word) (s : State) : Out :=
  s.run (·.ioInvTy u.val 3 v)
/-- IOTU_INV_VMID (R163). -/
def execIotuInvVmid (u : IotuN) (v : Word) (s : State) : Out :=
  s.run (·.ioInvTy u.val 4 v)
/-- IOTU_INV_COMPLETE (R163). -/
def execIotuInvComplete (u : IotuN) (s : State) : Out :=
  s.run (·.invDone u.val)
/-- ATS_INVALIDATE_TIMEOUT (R377). -/
def execAtsInvalidateTimeout (u : IotuN) (dt : Nat) (s : State) : Out :=
  s.runAt dt (·.atsTimeout u.val)
/-- IOTU_FQBASE_WRITE (R162). -/
def execIotuFqbaseWrite (u : IotuN) (v : Word) (s : State) : Out :=
  s.run (·.fqbase u.val v)

end Sys2Proof.Machine
end

