-- ==== Sys2Proof/Machine/Cx.lean ====
section
/-!
DEFINITION. Machine/Cx.lean: the compression complexes (15 R381 to R407): instances, queues, doorbells, descriptors, the
pipelines, completion records, MSI-X, the dirty log, the BAR registers; Bus Master Enable, FLR and VF Enable of their functions
(14 R371, R380).
-/
namespace Sys2Proof.Machine

/-! ### Registers -/

def cx0 : Nat → Cx := fun _ => {}
def Pkg.cx (s : Pkg) (k : Nat) : Cx := Map.get cx0 s.cxs k
def Pkg.updCx (s : Pkg) (k : Nat) (f : Cx → Cx) : Pkg := { s with cxs := Map.upd cx0 s.cxs k f }
/-- CX_INST[n] and CX_Q[q]. -/
def cxInst (k n : Nat) : Nat := cxBar k + 0x10000 + 0x40 * n
def cxQ (k q : Nat) : Nat := cxBar k + 0x40000 + 0x40 * q
/-- The function of an instance. -/
def cxFn (k n : Nat) : Cfn := if n = 0 then .pf k else .vf k n
def Pkg.instEn (s : Pkg) (k n : Nat) : Bool := s.rb (cxInst k n) 0
def Pkg.instBase (s : Pkg) (k n : Nat) : Nat := s.rf (cxInst k n) 25 16
def Pkg.instCount (s : Pkg) (k n : Nat) : Nat := s.rf (cxInst k n) 42 32
def Pkg.instCred (s : Pkg) (k n : Nat) : Nat := s.rf (cxInst k n + 8) 14 0
def Pkg.instGen (s : Pkg) (k n : Nat) : Nat := s.rf (cxInst k n + 0x10) 15 0
def Pkg.resetting (s : Pkg) (k n : Nat) : Bool := s.rb (cxInst k n + 0x10) 16
def Pkg.ownsQ (s : Pkg) (k n q : Nat) : Bool := decide (s.instBase k n ≤ q) && decide (q < s.instBase k n + s.instCount k n)
/-- The instance that owns a queue: enabled, or not yet through the reset that ends its use (R405). -/
def Pkg.cxOwner (s : Pkg) (k q : Nat) : Option Nat :=
  (List.range 257).find? (fun n => (s.instEn k n || s.resetting k n) && s.ownsQ k n q)
/-- Whether a function may access memory: Bus Master Enable, D0 (14 R368, R380), not in FLR. -/
def Pkg.cxMaster (s : Pkg) (k n : Nat) : Bool :=
  s.bme (cxFn k n) && !s.inFlr (cxFn k n) && !s.inFlr (.pf k) && s.cfgF (.pf k) 0x44 1 0 != 3
/-- IDLE of a queue. -/
def Pkg.qIdle (s : Pkg) (k q : Nat) : Pkg :=
  s.wb (cxQ k q + 0x18) 0 (!s.rb (cxQ k q) 0 && s.rf (cxQ k q + 0x18) 31 16 == 0)

/-! ### Accesses of an instance (R394) -/

/-- Open chunks that an access conflicts with commit first (12 R315). -/
def Pkg.yieldAll (s : Pkg) (line : Nat) (write : Bool) : Pkg :=
  if s.paired then
    s.threads.foldl (fun s p => if (match p.2.chunk with | some k => k.conflicts line write | none => false) then s.endChunk p.1 12 else s) s
  else s
def Pkg.yieldLines (s : Pkg) (pa n : Nat) (write : Bool) : Pkg := (linesOf pa n).foldl (fun s l => s.yieldAll l write) s

/-- Why an access fails: STATUS (4 TRANSLATION, 5 ACCESS, 6 POISON) and the IOTU fault, if it was one. -/
structure CxFail where
  status : Nat
  req : IoReq
  f : Option IoFault := none
deriving DecidableEq, Repr
/-- Record the IOTU fault of a failure that counts. -/
def Pkg.cxFault (s : Pkg) (k : Nat) (e : CxFail) : Pkg :=
  match e.f with
  | some f => s.ioRecord (4 + k) e.req f
  | none => s

/-- Translate and check one request: local DRAM or a global PA (R374). -/
def Pkg.cxAt (s : Pkg) (k : Nat) (q : IoReq) : Pkg × Except CxFail IoRes :=
  match s.ioXlate (4 + k) q with
  | (s, .error f) => (s, .error ⟨4, q, some f⟩)
  | (s, .ok r) =>
    if (region r.pa = 0 ∨ region r.pa = 5) ∧ (s.regionErr r.pa r.ai).isNone then (s, .ok r) else (s, .error ⟨5, q, none⟩)

/-- What an access comes to: bytes read, or how many have been written; a failure; a remote access that has been sent. -/
inductive CxGot where
  | bytes (l : List Byte)
  | wrote (n : Nat)
  | fail (e : CxFail)
  | ask (a : CxAsk)
deriving DecidableEq, Repr
/-- The complex's statistics: a request; a completion of n bytes. -/
def cxStat (k : Nat) : Nat := 2 * (Win.cx k).stop + 1
/-- Send a remote access (07 R203). -/
def Pkg.cxSend (s : Pkg) (k : Nat) (kind : GKind) (pa n data : Nat) : Pkg × CxGot :=
  let id := (s.cx k).seq
  let s := (s.updCx k (fun c => { c with seq := id + 1 })).stReq (cxStat k) (match kind with | .wr => n | _ => 0)
  ({ s with fab := { s.fab with gq := s.fab.gq ++ [{ kind := kind, pa := pa, n := n, data := data, op := 0, who := .io k id, gsn := s.tdm.gsn + 1 }] } }, .ask { id := id, n := n })
/-- What the answer to a remote access that was sent at address `a` brings (R300): its data, POISON, or ACCESS. -/
def cxAnswer (inst gen : Nat) (a : Word) (kind : AccKind) (n st data : Nat) : CxGot :=
  if st = 0 then (if kind = .store then .wrote n else .bytes (leBytes n data))
  else .fail ⟨if st = 1 then 6 else 5, { src := inst, addr := a, kind := kind, gen := gen }, none⟩

/-- Read up to n bytes within a page; a remote read ends at the end of its line. -/
def Pkg.cxGet (s : Pkg) (k inst gen : Nat) (a : Word) (n : Nat) : Pkg × CxGot :=
  let q : IoReq := { src := inst, addr := a, kind := .load, gen := gen }
  match s.cxAt k q with
  | (s, .error e) => (s, .fail e)
  | (s, .ok r) =>
    if region r.pa = 5 then s.cxSend k .rd r.pa (min n (64 - r.pa % 64)) 0
    else
      let s := (s.stReq (cxStat k) 0).stRd (cxStat k) n 0
      let s := s.yieldLines r.pa n false
      let (l, p) := s.readBytes r.pa n
      let s := s.seenBytes r.pa n
      if p then (s, .fail ⟨6, q, none⟩) else (s, .bytes l)

/-- An atomic OR of the dirty log's bit (R403). -/
def Pkg.cxDirty (s : Pkg) (k inst gpa : Nat) : Pkg :=
  let i := cxInst k inst
  if !s.rb i 1 then s
  else
    let g := gpa / 4096 % 2 ^ 40
    if g ≥ s.rf (i + 0x28) 51 12 then s.wb (i + 0x10) 18 true
    else
      let a := s.rf (i + 0x20) 51 12 * 4096 + 8 * (g / 64)
      if a + 8 > s.memLimit then s
      else
        let s := s.yieldLines a 8 true
        let s := s.inb { inbBlank with kind := 1, nbytes := 7, addr := a, atop := 5, source := inst, be := 0xFF, data := leBytes 8 (2 ^ (g % 64)) } [a / 64]
        s.homeWrite a 8 ((s.homeRead a 8).1 ||| 2 ^ (g % 64))

/-- Write bytes within a page, or to the end of a remote line, with the dirty log. -/
def Pkg.cxPut (s : Pkg) (k inst gen : Nat) (a : Word) (bs : List Byte) : Pkg × CxGot :=
  let q : IoReq := { src := inst, addr := a, kind := .store, gen := gen }
  match s.cxAt k q with
  | (s, .error e) => (s, .fail e)
  | (s, .ok r) =>
    let s := s.cxDirty k inst r.gpa
    if region r.pa = 5 then
      let n := min bs.length (64 - r.pa % 64)
      s.cxSend k .wr r.pa n (leNat (bs.take n))
    else
      let s := (s.stReq (cxStat k) bs.length).stRd (cxStat k) 0 0
      ((s.yieldLines r.pa bs.length true).dmaWrite inst r.pa bs 15 15, .wrote bs.length)

/-- The first piece of an access of n bytes: at most 256, within a page. -/
def pieceLen (a : Word) (n : Nat) : Nat := min (min n 256) (4096 - a.toNat % 4096)

/-- Read a source in order while `more` says that the engine needs further bytes, `acc` having been read: what has been read, and the
failure or the remote access at which it stops. -/
def Pkg.cxPull (s : Pkg) (k inst gen : Nat) (more : List Byte → Bool) : Nat → Word → Nat → List Byte → Pkg × List Byte × Option CxGot
  | 0, _, _, acc => (s, acc, none)
  | f + 1, a, n, acc =>
    if acc.length ≥ n || !more acc then (s, acc, none)
    else
      let b := a + BitVec.ofNat 64 acc.length
      match s.cxGet k inst gen b (pieceLen b (n - acc.length)) with
      | (s, .bytes l) => s.cxPull k inst gen more f a n (acc ++ l)
      | (s, g) => (s, acc, some g)
/-- Write a destination in order, `done` bytes having been written: how many have, and where it stops. -/
def Pkg.cxPush (s : Pkg) (k inst gen : Nat) (a : Word) (bs : List Byte) : Nat → Nat → Pkg × Nat × Option CxGot
  | 0, done => (s, done, none)
  | f + 1, done =>
    if done ≥ bs.length then (s, done, none)
    else
      let b := a + BitVec.ofNat 64 done
      match s.cxPut k inst gen b ((bs.drop done).take (pieceLen b (bs.length - done))) with
      | (s, .wrote n) => s.cxPush k inst gen a bs f (done + n)
      | (s, g) => (s, done, some g)

/-! ### Descriptors (R392, R393) -/

def CxJob.f (j : CxJob) (w hi lo : Nat) : Nat := bits (j.d.getD w 0#64) hi lo
def CxJob.op (j : CxJob) : Nat := j.f 0 3 0
def CxJob.frame (j : CxJob) : Nat := j.f 0 5 4
def CxJob.level (j : CxJob) : Nat := j.f 0 9 6
def CxJob.static (j : CxJob) : Bool := j.f 0 10 10 == 1
def CxJob.adler (j : CxJob) : Bool := j.f 0 11 11 == 1
def CxJob.cr (j : CxJob) : Bool := j.f 0 12 12 == 1
def CxJob.irq (j : CxJob) : Bool := j.f 0 13 13 == 1
def CxJob.order (j : CxJob) : Bool := j.f 0 14 14 == 1
def CxJob.srcLen (j : CxJob) : Nat := j.f 3 31 0
def CxJob.dstLen (j : CxJob) : Nat := j.f 3 63 32
/-- BAD_DESCRIPTOR. -/
def CxJob.bad (j : CxJob) : Bool :=
  decide (j.op > 3) || j.frame == 3 || decide (j.level > 9) || (j.op != 1 && (j.level != 0 || j.static))
    || (j.adler && j.frame != 0) || (j.op == 3 && j.frame != 0)
    || j.f 0 15 15 != 0 || j.f 0 63 32 != 0 || j.f 4 4 0 != 0 || j.f 5 63 0 != 0 || j.f 6 63 0 != 0 || j.f 7 63 0 != 0
/-- The kind of pipeline that runs it: 0 compression, 1 decompression, none for a NOP or a bad descriptor. -/
def CxJob.kind (j : CxJob) : Option Nat := if j.bad then none else if j.op = 1 then some 0 else if j.op ≥ 2 then some 1 else none

/-- Whether outstanding descriptor i may start (R392): the earlier ones of its queue that need a pipeline have started; none of
them is unfinished with ORDER = 1, nor at all if this one has ORDER = 1. -/
def mayStart (l : List CxJob) (i : Nat) : Bool :=
  match l[i]? with
  | none => false
  | some j =>
    let before := (l.take i).filter (·.q == j.q)
    !j.started && before.all (fun b => (b.kind.isNone || b.started) && !b.order) && (!j.order || before.isEmpty)

/-- DESCRIPTOR_FETCH (R391): the next descriptor of queue q, or FETCHERR (R399). -/
def Pkg.cxFetch (s : Pkg) (k q : Nat) : Pkg :=
  let r := cxQ k q
  match s.cxOwner k q with
  | none => s
  | some n =>
    let head := s.rf (r + 0x10) 15 0
    if !s.instEn k n || s.resetting k n || !s.rb r 0 || head == s.rf (r + 0x10) 31 16 || !s.cxMaster k n
        || decide (s.rf (cxInst k n + 8) 30 16 ≥ s.instCred k n) then s
    else
      let a := BitVec.ofNat 64 (s.rf (r + 8) 63 12 * 4096 + 64 * head)
      let gen := s.instGen k n
      let got : Pkg × CxGot := match (s.cx k).fetches.find? (·.q == q) with
        | none => s.cxGet k n gen a 64
        | some f =>
          match f.ask.ans with
          | none => (s, .ask f.ask)
          | some (st, d) =>
            ((s.updCx k (fun c => { c with fetches := c.fetches.filter (·.q != q) })).stRd (cxStat k) 64 0, cxAnswer n gen a .load 64 st d)
      match got with
      | (s, .fail e) =>
        if e.status = 6 && !s.boot.compat then s.poisonUsed (.cx k) a.toNat none
        else
          let s := if e.status = 6 then s.poisonUsed (.cx k) a.toNat none else s.cxFault k e
          ((s.wb r 0 false).wb (r + 0x18) 2 true).qIdle k q
      | (s, .bytes l) =>
        let d := (List.range 8).map (fun i => BitVec.ofNat 64 (leNat ((l.drop (8 * i)).take 8)))
        let s := s.wf (r + 0x10) 15 0 ((head + 1) % 2 ^ s.rf r 4 1)
        let s := s.updCx k (fun c => { c with jobs := c.jobs ++ [{ q := q, inst := n, j := q - s.instBase k n, gen := gen, d := d }] })
        ((s.inc (r + 0x18) 31 16).inc (cxInst k n + 8) 30 16).qIdle k q
      | (s, .ask x) =>
        if (s.cx k).fetches.any (·.q == q) then s else s.updCx k (fun c => { c with fetches := c.fetches ++ [{ q := q, inst := n, ask := x }] })
      | (s, .wrote _) => s

/-- Change descriptor i. -/
def Pkg.updJob (s : Pkg) (k i : Nat) (f : CxJob → CxJob) : Pkg := s.updCx k (fun c => { c with jobs := c.jobs.modify i f })

/-! ### Dispatch (R401) -/

/-- The quantum of deficit round-robin for WEIGHT 1, in source bytes (log entry 32). -/
def drrQuantum : Nat := 4096
def nat0 : Nat → Nat := fun _ => 0
/-- The waiting descriptor of an instance for a kind of pipeline: its queues in round-robin order. -/
def Pkg.cxPick (s : Pkg) (k kind n : Nat) : Option Nat :=
  let c := s.cx k
  let cand := (List.range c.jobs.length).filter (fun i =>
    match c.jobs[i]? with
    | some j => j.inst == n && j.kind == some kind && mayStart c.jobs i
    | none => false)
  let lastq := Map.get nat0 c.lastq n
  let key (i : Nat) : Nat := ((c.jobs.map (·.q)).getD i 0 + 1024 - lastq - 1) % 1024
  cand.foldl (fun b i => match b with | none => some i | some x => if key i < key x then some i else b) none
/-- A free pipeline takes a descriptor by deficit round-robin over the instances. -/
def Pkg.cxDispatch (s : Pkg) (k : Nat) (comp : Bool) (p : Nat) : Pkg :=
  let c := s.cx k
  let kind := if comp then 0 else 1
  let pipe := if comp then p else 4 + p
  if c.jobs.any (fun j => j.pipe == some pipe && j.res.isNone) then s
  else
    let last := c.last.getD kind 0
    let cand := ((List.range 257).map (fun i => (last + i) % 257)).filterMap (fun n => (s.cxPick k kind n).map (fun i => (n, i)))
    let rounds (x : Nat × Nat) : Nat :=
      let cost := (match c.jobs[x.2]? with | some j => j.srcLen | none => 0) + 1
      let q := max 1 (s.rf (cxInst k x.1) 55 48) * drrQuantum
      (cost - Map.get nat0 c.deficit (512 * kind + x.1) + q - 1) / q
    match cand.foldl (fun b x => match b with | none => some x | some y => if rounds x < rounds y then some x else b) none with
    | none => s
    | some (n, i) =>
      let r := rounds (n, i)
      let cost := (match c.jobs[i]? with | some j => j.srcLen | none => 0) + 1
      let q := (match c.jobs[i]? with | some j => j.q | none => 0)
      let def' := cand.foldl (fun m x =>
        Map.upd nat0 m (512 * kind + x.1) (· + r * (max 1 (s.rf (cxInst k x.1) 55 48)) * drrQuantum)) (c.deficit.filter (fun e => e.1 / 512 != kind || cand.any (·.1 == e.1 % 512)))
      (s.updCx k (fun c => { c with
        deficit := Map.upd nat0 def' (512 * kind + n) (fun d => d - cost), last := c.last.set kind n, lastq := Map.set nat0 c.lastq n q })).updJob k i
        (fun j => { j with pipe := some pipe, started := true })

/-! ### The pipelines (R382 to R388, R394, R395) -/

/-- The descriptor that a pipeline runs. -/
def Pkg.cxOn (s : Pkg) (k pipe op : Nat) : Option (Nat × CxJob) :=
  let l := (s.cx k).jobs
  match l.findIdx? (fun j => j.pipe == some pipe && j.res.isNone && j.op == op) with
  | some i => (l[i]?).map (fun j => (i, j))
  | none => none
/-- The descriptor ends. -/
def Pkg.cxEnd (s : Pkg) (k i : Nat) (r : CxRes) : Pkg := s.updJob k i (fun j => { j with res := some r })

/-- What a source failure does to a descriptor: NATIVE stops the package for poison; else the status. -/
def Pkg.cxSrcFail (s : Pkg) (k : Nat) (e : CxFail) : Pkg :=
  if e.status = 6 then s.poisonUsed (.cx k) e.req.addr.toNat none else s.cxFault k e

/-- The source of descriptor i as far as the engine needs it, with the failure that ended it; none while a remote read is out. -/
def Pkg.cxSource (s : Pkg) (k i : Nat) (j : CxJob) (more : List Byte → Bool) : Pkg × Option (List Byte × Option CxFail) :=
  let a := j.d.getD 1 0#64
  let hold (s : Pkg) (acc : List Byte) (x : Option CxAsk) : Pkg := s.updJob k i (fun j => { j with got := acc, ask := x })
  let go (s : Pkg) (acc : List Byte) : Pkg × Option (List Byte × Option CxFail) :=
    match s.cxPull k j.inst j.gen more (j.srcLen + 1) a j.srcLen acc with
    | (s, acc, some (.ask x)) => (hold s acc (some x), none)
    | (s, acc, some (.fail e)) => (hold s acc none, some (acc, some e))
    | (s, acc, _) => (hold s acc none, some (acc, none))
  match j.ask with
  | none => go s j.got
  | some x =>
    match x.ans with
    | none => (s, none)
    | some (st, d) =>
      match cxAnswer j.inst j.gen (a + BitVec.ofNat 64 j.got.length) .load x.n st d with
      | .bytes l => go (s.stRd (cxStat k) x.n 0) (j.got ++ l)
      | .fail e => (hold s j.got none, some (j.got, some e))
      | _ => (s, none)

/-- The output of descriptor i goes on: it is written in ascending order, one remote line at a time; then the descriptor ends with its
result, or with the failure of a write (R395, R396). -/
def Pkg.cxOut (s : Pkg) (k i : Nat) : Pkg :=
  match (s.cx k).jobs[i]? with
  | none => s
  | some j =>
    match j.out with
    | none => s
    | some (out, done, r) =>
      let fail (s : Pkg) (n : Nat) (e : CxFail) : Pkg :=
        (s.cxFault k e).updJob k i (fun j => { j with ask := none, res := some { r with status := e.status, produced := n, check := 0, erroff := 0 } })
      let go (s : Pkg) (done : Nat) : Pkg :=
        match s.cxPush k j.inst j.gen (j.d.getD 2 0#64) out (out.length + 1) done with
        | (s, n, some (.ask x)) => s.updJob k i (fun j => { j with out := some (out, n, r), ask := some x })
        | (s, n, some (.fail e)) => fail s n e
        | (s, n, _) => s.updJob k i (fun j => { j with ask := none, res := some { r with produced := n } })
      match j.ask with
      | none => go s done
      | some x =>
        match x.ans with
        | none => s
        | some (st, d) =>
          match cxAnswer j.inst j.gen 0#64 .store x.n st d with
          | .wrote n => go (s.stRd (cxStat k) 0 0) (done + n)
          | .fail e => fail s done e
          | _ => s
/-- A pipeline writes its output and ends with `r`, or with the failure of a write. -/
def Pkg.cxFinish (s : Pkg) (k i : Nat) (j : CxJob) (out : List Byte) (r : CxRes) : Pkg :=
  (s.updJob k i (fun x => { x with ask := none, out := some (out.take j.dstLen, 0, r) })).cxOut k i

/-- COMPRESS (R382). `chk`: the block in which the pipeline's own decode finds a mismatch (R386). -/
def Pkg.cxCompress (s : Pkg) (k p : Nat) (chk : Option Nat) : Pkg :=
  match s.cxOn k p 1 with
  | none => s
  | some (i, j) =>
    if !s.cxMaster k j.inst then s
    else if j.out.isSome then s.cxOut k i
    else
      let head := frameHead j.frame j.level
      match s.cxSource k i j (fun _ => true) with
      | (s, none) => s
      | (s, some (src, some e)) =>
        let s := s.cxSrcFail k e
        if e.status = 6 && !s.boot.compat then s
        else
          let (body, st) := deflate j.level j.static src (some (src.length / 32768))
          s.cxFinish k i j (head ++ body) { status := e.status, stored := st, consumed := src.length / 32768 * 32768 }
      | (s, some (src, none)) =>
        match chk with
        | some b =>
          let s := s.ueError (.cx k) { cls := 2, code := 0x06, addr := some (j.d.getD 1 0#64).toNat, info := j.inst + j.q * 2 ^ 16 }
          if !s.boot.compat then s
          else
            let (body, st) := deflate j.level j.static src (some b)
            s.cxFinish k i j (head ++ body) { status := 7, stored := st, consumed := min src.length (32768 * b) }
        | none =>
          let (body, st) := deflate j.level j.static src none
          let c := checkOf j.frame j.adler src
          let out := head ++ body ++ frameTail j.frame c (src.length % 2 ^ 32)
          if out.length > j.dstLen then
            let (w, s) := s.draw
            s.cxFinish k i j out { status := 1, stored := st, consumed := w.toNat % (src.length + 1) }
          else s.cxFinish k i j out { status := 0, stored := st, consumed := src.length, check := c }

/-- DECOMPRESS (R387): the source is read as far as the decoder needs it. -/
def Pkg.cxDecompress (s : Pkg) (k p : Nat) : Pkg :=
  match s.cxOn k (4 + p) 2 with
  | none => s
  | some (i, j) =>
    if !s.cxMaster k j.inst then s
    else if j.out.isSome then s.cxOut k i
    else
      let run (l : List Byte) : Unz := unframe j.frame j.adler l j.dstLen
      match s.cxSource k i j (fun l => (run l).more) with
      | (s, none) => s
      | (s, some (src, fl)) =>
        let u := run src
        let r : CxRes := { status := u.status, consumed := u.consumed, check := u.check, erroff := u.erroff }
        match fl with
        | some e =>
          let s := s.cxSrcFail k e
          if e.status = 6 && !s.boot.compat then s else s.cxFinish k i j u.out { r with status := e.status, erroff := 0 }
        | none => s.cxFinish k i j u.out r

/-- CHECKSUM (R388). -/
def Pkg.cxChecksum (s : Pkg) (k p : Nat) : Pkg :=
  match s.cxOn k (4 + p) 3 with
  | none => s
  | some (i, j) =>
    if !s.cxMaster k j.inst then s
    else
      match s.cxSource k i j (fun _ => true) with
      | (s, none) => s
      | (s, some (src, some e)) =>
        let s := s.cxSrcFail k e
        if e.status = 6 && !s.boot.compat then s else s.cxEnd k i { status := e.status, consumed := src.length }
      | (s, some (src, none)) => s.cxEnd k i { status := 0, consumed := src.length, check := checkOf 0 j.adler src }

/-- NOP: outstanding descriptor i completes without a pipeline. -/
def Pkg.cxNop (s : Pkg) (k i : Nat) : Pkg :=
  match (s.cx k).jobs[i]? with
  | none => s
  | some j =>
    if !j.bad && j.op == 0 && mayStart (s.cx k).jobs i then s.updJob k i (fun j => { j with started := true, res := some { status := 0 } }) else s

/-! ### Completion (R396 to R398) -/

/-- The MSI-X table of an instance: entries, and a doubleword of one. A vector is masked at reset. -/
def msixReset (key : Nat) : BitVec 32 := if key % 4 = 3 then 1#32 else 0#32
def Pkg.msix (s : Pkg) (k n e w : Nat) : BitVec 32 := Map.get msixReset (s.cx k).msix (4096 * n + 4 * e + w)
def msixSize (n : Nat) : Nat := if n = 0 then 1024 else 64
/-- The complex discards an interrupt message, and counts it. -/
def Pkg.msixLost (s : Pkg) (k n : Nat) (a : Word) : Pkg := s.ce (.cx k) 0x15 (some a.toNat) n
/-- Send vector e of an instance (R398): masked, it is pending; else a 4-byte write through the instance's context. -/
def Pkg.msixSend (s : Pkg) (k n gen e : Nat) : Pkg :=
  let f := cxFn k n
  if e ≥ msixSize n ∨ ¬ s.cfgB f 0x50 31 = true then s
  else if s.cfgB f 0x50 30 || (s.msix k n e 3).getLsbD 0 || !s.cxMaster k n then
    s.updCx k (fun c => { c with pba := if c.pba.contains (1024 * n + e) then c.pba else (1024 * n + e) :: c.pba })
  else
    let a := BitVec.ofNat 64 ((s.msix k n e 0).toNat + (s.msix k n e 1).toNat * 2 ^ 32)
    match s.ioRequest (4 + k) { src := n, addr := a, kind := .store, gen := gen } with
    | (s, .error _) => s.msixLost k n a
    | (s, .ok r) =>
      match ticMsiAt r.pa with
      | some h => if r.ai = 2 then s.msiIn h ((s.msix k n e 2).toNat) else s.msixLost k n a
      | none => s.msixLost k n a
/-- Pending vectors whose masks have gone are sent. -/
def Pkg.msixPending (s : Pkg) (k n : Nat) : Pkg :=
  ((s.cx k).pba.filter (fun p => p / 1024 == n)).foldl (fun s p =>
    let e := p % 1024
    if s.cfgB (cxFn k n) 0x50 31 && !s.cfgB (cxFn k n) 0x50 30 && !(s.msix k n e 3).getLsbD 0 && s.cxMaster k n then
      (s.updCx k (fun c => { c with pba := c.pba.filter (· != p) })).msixSend k n (s.instGen k n) e
    else s) s

/-- The completion record as a number. -/
def Pkg.cxRecord (s : Pkg) (j : CxJob) (r : CxRes) : Nat :=
  let ok := r.status == 0
  (1 + (if r.stored then 2 else 0) + r.status * 2 ^ 8 + j.f 0 31 16 * 2 ^ 16 + j.gen * 2 ^ 32 + j.j * 2 ^ 48)
    + (r.consumed + r.produced * 2 ^ 32) * 2 ^ 64 + ((if ok then r.check else 0) + r.erroff * 2 ^ 32) * 2 ^ 128 + s.rdtime.toNat * 2 ^ 192

/-- The descriptor's record is written, or there is none (R396, R397); false while a remote write of it is out. -/
def Pkg.cxRecPut (s : Pkg) (k i : Nat) (j : CxJob) (r : CxRes) : Pkg × Bool :=
  let a := BitVec.ofNat 64 (j.f 4 63 5 * 32)
  let bad (s : Pkg) (e : CxFail) : Pkg := (s.cxFault k e).wb (cxQ k j.q + 0x18) 3 true
  let got : Pkg × CxGot := match j.ask with
    | none => s.cxPut k j.inst j.gen a (leBytes 32 (s.cxRecord j r))
    | some x => (s, match x.ans with | none => .ask x | some (st, d) => cxAnswer j.inst j.gen a .store x.n st d)
  if !j.cr then (s, true)
  else
    match got with
    | (s, .ask x) => (s.updJob k i (fun j => { j with ask := some x, res := some r }), false)
    | (s, .fail e) => (bad s e, true)
    | (s, _) => (s, true)
/-- DESCRIPTOR_COMPLETE: outstanding descriptor i has ended, or is bad and its turn has come. -/
def Pkg.cxComplete (s : Pkg) (k i : Nat) : Pkg :=
  match (s.cx k).jobs[i]? with
  | none => s
  | some j =>
    let res := if j.bad && j.res.isNone then (if mayStart (s.cx k).jobs i then some { status := 3 } else none) else j.res
    match res with
    | none => s
    | some r =>
      if !s.cxMaster k j.inst then s
      else
        match s.cxRecPut k i j r with
        | (s, false) => s
        | (s, true) =>
          let s := if j.irq then s.msixSend k j.inst j.gen (s.rf (cxQ k j.q) 25 16) else s
          let s := s.updCx k (fun c => { c with jobs := c.jobs.eraseIdx i })
          let st := cxQ k j.q + 0x18
          let s := (s.wf st 31 16 (s.rf st 31 16 - 1)).inc st 63 32
          let cr := cxInst k j.inst + 8
          (s.wf cr 30 16 (s.rf cr 30 16 - 1)).qIdle k j.q

/-! ### Instances (R400, R404, R405) -/

/-- The reset of an instance begins (R404). -/
def Pkg.instReset (s : Pkg) (k n : Nat) : Pkg :=
  let st := cxInst k n + 0x10
  ((s.inc st 15 0).wb st 16 true).updCx k (fun c => { c with jobs := c.jobs.filter (·.inst != n), fetches := c.fetches.filter (·.inst != n) })
/-- A queue's registers at their reset values. -/
def Pkg.qReset (s : Pkg) (k q : Nat) : Pkg :=
  [0, 8, 0x10, 0x18].foldl (fun s o => s.wr (cxQ k q + o) (regReset (cxQ k q + o))) s
/-- The reset ends. -/
def Pkg.instResetDone (s : Pkg) (k n : Nat) : Pkg :=
  if !s.resetting k n then s
  else
    let s := (List.range (s.instCount k n)).foldl (fun s j => s.qReset k ((s.instBase k n + j) % 1024)) s
    (s.wf (cxInst k n + 8) 30 16 0).wb (cxInst k n + 0x10) 16 false

/-- Whether EN = 1 may take effect (R400). -/
def Pkg.instOk (s : Pkg) (k n : Nat) : Bool :=
  let b := s.instBase k n
  let c := s.instCount k n
  let others := (List.range 257).filter (fun m => m != n && (s.instEn k m || s.resetting k m))
  decide (b + c ≤ 1024) && others.all (fun m => decide (b + c ≤ s.instBase k m) || decide (s.instBase k m + s.instCount k m ≤ b) || c == 0 || s.instCount k m == 0)
    && (n == 0 || decide (c ≤ 64)) && decide (s.rf (cxInst k n) 55 48 ≠ 0)
    && decide ((others.map (s.instCred k)).sum + s.instCred k n ≤ 16384)
    && (n == 0 || s.cfnLive (.vf k n))
    && (!s.rb (cxInst k n) 1 || decide (s.rf (cxInst k n + 0x20) 51 12 * 4096 + (s.rf (cxInst k n + 0x28) 51 12 + 63) / 64 * 8 ≤ s.boot.capacity))

/-- A write of CX_INST_CFG. -/
def Pkg.instCfg (s : Pkg) (k n : Nat) (v : Word) : Pkg :=
  let r := cxInst k n
  let st := r + 0x10
  if s.rb r 0 then
    let same := setBits v 0 0 1 &&& fmask 55 0 == s.rd r
    let s := if same then s else s.wb st 17 true
    if v.getLsbD 0 then s else (s.wb r 0 false).instReset k n
  else
    let s := s.wr r (setBits (v &&& 0x00FF07FF03FF0002#64) 0 0 0)
    if !v.getLsbD 0 then s else if s.instOk k n then s.wb r 0 true else s.wb st 17 true

/-! ### Queues and doorbells (R389, R390, R399) -/

/-- A doorbell of queue q rung by instance n. -/
def Pkg.cxDoorbell (s : Pkg) (k n q : Nat) (v : Word) : Pkg :=
  let r := cxQ k q
  if s.fabMode = 2 ∨ ¬ (s.instEn k n = true ∧ s.ownsQ k n q = true ∧ s.resetting k n = false ∧ s.rb r 0 = true) then s
  else
    let m := 2 ^ s.rf r 4 1
    let head := s.rf (r + 0x10) 15 0
    let tail := s.rf (r + 0x10) 31 16
    let t := v.toNat
    if t ≥ 2 ^ 16 ∨ t ≥ m ∨ (t + m - head) % m < (tail + m - head) % m then s.wb (r + 0x18) 1 true
    else s.wf (r + 0x10) 31 16 t
/-- The queue that a doorbell of instance n names: PF doorbells by global queue, a VF's by local queue (R389). -/
def Pkg.bellQ (s : Pkg) (k n j : Nat) : Nat := if n = 0 then j else s.instBase k n + j
def Pkg.cxBell (s : Pkg) (k n j : Nat) (v : Word) : Pkg :=
  if n ≠ 0 ∧ j ≥ s.instCount k n then s else s.cxDoorbell k n (s.bellQ k n j) v

/-- A write of CX_Q_CFG by the owner n. -/
def Pkg.qCfg (s : Pkg) (k n q : Nat) (v : Word) : Pkg :=
  let r := cxQ k q
  let en := s.rb r 0
  let s := if !en && decide (6 ≤ bits v 4 1 ∧ bits v 4 1 ≤ 16) then s.wf r 4 1 (bits v 4 1) else s
  let s := s.wf r 25 16 (bits v 25 16)
  if v.getLsbD 0 && !en then
    if s.instEn k n && s.ownsQ k n q && !s.resetting k n then (s.wb r 0 true).qIdle k q else s.wb (r + 0x18) 4 true
  else if !v.getLsbD 0 && en then ((s.wb r 0 false).updCx k (fun c => { c with fetches := c.fetches.filter (·.q != q) })).qIdle k q
  else s
/-- A write of a queue's register at offset o by instance n (0: the PF view): a resetting instance's is discarded, so is the PF view's of a queue of a VF. -/
def Pkg.qWrite (s : Pkg) (k n q o : Nat) (v : Word) : Pkg :=
  let r := cxQ k q
  let owner := s.cxOwner k q
  if (match owner with | some m => m != n || s.resetting k m | none => false) then s
  else
    match o with
    | 0 => s.qCfg k n q v
    | 8 => if s.rb r 0 then s else s.wf (r + 8) 63 12 (bits v 63 12)
    | 0x10 =>
      if s.rb r 0 then s
      else
        let m := 2 ^ s.rf r 4 1
        (s.wf (r + 0x10) 15 0 (bits v 15 0 % m)).wf (r + 0x10) 31 16 (bits v 31 16 % m)
    | 0x18 => s.wr (r + 0x18) (setBits (s.rd (r + 0x18) &&& ~~~(v &&& 0x1E#64)) 63 32 (bits v 63 32))
    | _ => s

/-- A write of a queue's EN by its owner, the other fields as they stand. -/
def Pkg.qSet (s : Pkg) (k n j : Nat) (on : Bool) : Pkg :=
  if n ≠ 0 ∧ j ≥ s.instCount k n then s
  else
    let q := s.bellQ k n j
    s.qWrite k n q 0 (setBits (s.rd (cxQ k q)) 0 0 (if on then 1 else 0))

/-! ### The BARs (R407) -/

/-- A queue's register as a read shows it. -/
def Pkg.qRead (s : Pkg) (k q o : Nat) : Word :=
  match s.cxOwner k q with
  | some n => if s.resetting k n then regReset (cxQ k q + o) else s.rd (cxQ k q + o)
  | none => s.rd (cxQ k q + o)
/-- The MSI-X table and Pending Bit Array of an instance, by doubleword and by quadword. -/
def Pkg.msixRead (s : Pkg) (k n o : Nat) : Word :=
  let e := o / 16
  let w := o % 16 / 4
  BitVec.ofNat 64 ((s.msix k n e w).toNat + (s.msix k n e (w + 1)).toNat * 2 ^ 32)
def Pkg.pbaRead (s : Pkg) (k n o : Nat) : Word :=
  (s.cx k).pba.foldl (fun a p => if p / 1024 = n ∧ p % 1024 / 64 = o / 8 then a ||| BitVec.ofNat 64 (2 ^ (p % 64)) else a) 0#64
/-- A write of doubleword w of an entry; unmasking sends what is pending. -/
def Pkg.msixPut (s : Pkg) (k n o : Nat) (x : BitVec 32) : Pkg :=
  let w := o % 16 / 4
  let x := if w = 3 then x &&& 1#32 else if w = 0 then x &&& 0xFFFFFFFC#32 else x
  (s.updCx k (fun c => { c with msix := Map.set msixReset c.msix (4096 * n + o / 4) x })).msixPending k n

/-- The 8-byte register at an aligned offset of BAR0 of the PF (n = 0), or of VF n. -/
def Pkg.barRead8 (s : Pkg) (k n o : Nat) : Word :=
  if n = 0 then
    if 0x80000 ≤ o ∧ o < 0x84000 then s.msixRead k 0 (o - 0x80000)
    else if 0xC0000 ≤ o ∧ o < 0xC0080 then s.pbaRead k 0 (o - 0xC0000)
    else if 0x40000 ≤ o ∧ o < 0x50000 then (if o % 0x40 < 0x20 then s.qRead k ((o - 0x40000) / 0x40) (o % 0x40) else 0#64)
    else
      match regAt (cxBar k + o) with
      | some (_, _, r) => regReadBits r.flds (s.rd (cxBar k + o))
      | none => 0#64
  else
    if o = 0 then
      BitVec.ofNat 64 ((if s.instEn k n then 1 else 0) + (if s.resetting k n then 2 else 0) + s.instGen k n * 2 ^ 16
        + s.instCount k n * 2 ^ 32 + s.instCred k n * 2 ^ 48)
    else if 0x1000 ≤ o ∧ o < 0x2000 then
      (if (o - 0x1000) / 0x40 < s.instCount k n ∧ o % 0x40 < 0x20 then s.qRead k (s.instBase k n + (o - 0x1000) / 0x40) (o % 0x40) else 0#64)
    else if 0x8000 ≤ o ∧ o < 0x8400 then s.msixRead k n (o - 0x8000)
    else if o = 0xC000 then s.pbaRead k n 0
    else 0#64

/-- A write of n8 = 4 or 8 bytes as a write of the whole register: the other half as it stands, with bits whose writing has an
effect of its own as 0. -/
def halfWrite (flds : List Fld) (old v : Word) (o n8 : Nat) : Word :=
  if n8 = 8 then v
  else
    let keep := flds.foldl (fun a f => match f.acc with | .rw | .rwl => a | _ => setBits a f.hi f.lo 0) old
    if o % 8 = 0 then setBits keep 31 0 (bits v 31 0) else setBits keep 63 32 (bits v 31 0)

/-- A write to BAR0. -/
def Pkg.barWrite (s : Pkg) (k n o n8 : Nat) (v : Word) : Pkg :=
  let o8 := o / 8 * 8
  let flds (a : Nat) : List Fld := match regAt a with | some (_, _, r) => r.flds | none => []
  let msix (b : Nat) : Pkg :=
    let s := s.msixPut k n (o - b) (v.setWidth 32)
    if n8 = 8 then s.msixPut k n (o - b + 4) ((v >>> 32).setWidth 32) else s
  let queue (q x : Nat) : Pkg := s.qWrite k n q x (halfWrite (flds (cxQ k q + x)) (s.rd (cxQ k q + x)) v o n8)
  if n = 0 then
    if 0x80000 ≤ o ∧ o < 0x84000 then msix 0x80000
    else if 0x40000 ≤ o ∧ o < 0x50000 then (if o8 % 0x40 < 0x20 then queue ((o - 0x40000) / 0x40) (o8 % 0x40) else s)
    else if 0x10000 ≤ o ∧ o < 0x10000 + 0x40 * 257 then
      let i := (o - 0x10000) / 0x40
      let r := cxBar k + o8
      let w := halfWrite (flds r) (s.rd r) v o n8
      match o8 % 0x40 with
      | 0 => s.instCfg k i w
      | 8 => if s.instEn k i then (if bits w 14 0 = s.instCred k i then s else s.wb (cxInst k i + 0x10) 17 true)
             else s.wf r 14 0 (min (bits w 14 0) 16384)
      | 0x10 => s.wr r (s.rd r &&& ~~~(w &&& 0x60000#64))
      | 0x18 => if w.getLsbD 0 then s.instReset k i else s
      | 0x20 | 0x28 => if s.instEn k i then (if bits w 51 12 = s.rf r 51 12 then s else s.wb (cxInst k i + 0x10) 17 true) else s.wf r 51 12 (bits w 51 12)
      | _ => s
    else s
  else
    if 0x1000 ≤ o ∧ o < 0x2000 then
      (if (o - 0x1000) / 0x40 < s.instCount k n ∧ o8 % 0x40 < 0x20 then queue (s.instBase k n + (o - 0x1000) / 0x40) (o8 % 0x40) else s)
    else if 0x4000 ≤ o ∧ o < 0x4200 ∧ n8 = 8 then s.cxBell k n ((o - 0x4000) / 8) v
    else if 0x8000 ≤ o ∧ o < 0x8400 then msix 0x8000
    else s

/-! ### Functions (14 R371, R380) -/

/-- Reads that an instance has out are discarded when their data comes; its writes stand (R380). -/
def Pkg.readsLost (s : Pkg) (k n : Nat) : Pkg :=
  s.updCx k (fun c => { c with
    fetches := c.fetches.filter (·.inst != n)
    jobs := c.jobs.map (fun j : CxJob => if j.inst = n ∧ j.out.isNone ∧ j.res.isNone then { j with ask := none } else j) })
/-- Clearing Bus Master Enable: Transactions Pending while reads are out. -/
def Pkg.bmeClear (s : Pkg) (f : Cfn) : Pkg :=
  if !s.cfgB f 4 2 then s
  else
    let s := s.cfgSet f 4 2 2 0
    let s := match f with | .pf k => s.readsLost k 0 | .vf k n => s.readsLost k n | _ => s
    match f with
    | .rp _ _ => s
    | _ => { s with pcie := { s.pcie with drain := (f.rid, s.now) :: s.pcie.drain.filter (·.1 != f.rid) } }
/-- The drain ends. -/
def Pkg.drainEnd (s : Pkg) (f : Cfn) : Pkg := { s with pcie := { s.pcie with drain := s.pcie.drain.filter (·.1 != f.rid) } }

/-- The configuration registers of a function return to reset. -/
def Pkg.cfgClear (s : Pkg) (f : Cfn) : Pkg := { s with pcie := { s.pcie with cfg := s.pcie.cfg.filter (fun e => e.1 / 1024 != f.rid) } }
/-- The MSI-X state of an instance returns to reset. -/
def Pkg.msixClear (s : Pkg) (k n : Nat) : Pkg :=
  s.updCx k (fun c => { c with msix := c.msix.filter (fun e => e.1 / 4096 != n), pba := c.pba.filter (fun p => p / 1024 != n) })
/-- Every VF of a complex that exists is reset, as by an FLR. -/
def Pkg.vfsReset (s : Pkg) (k : Nat) : Pkg :=
  (List.range (s.numVfs k)).foldl (fun s i => ((s.instReset k (i + 1)).cfgClear (.vf k (i + 1))).msixClear k (i + 1)) s
/-- A write of VF Enable (R371). -/
def Pkg.vfEnable (s : Pkg) (k : Nat) (on : Bool) : Pkg :=
  if s.vfOn k = on then s
  else if on then s.cfgSet (.pf k) 0x158 0 0 1
  else (s.vfsReset k).cfgSet (.pf k) 0x158 0 0 0

/-- Initiate Function Level Reset of the PF (n = 0) or of VF n (R380): the generation advances. -/
def Pkg.flr (s : Pkg) (k n : Nat) : Pkg :=
  let f := cxFn k n
  if !s.cfnLive f then s
  else
    let s := s.drainEnd f
    let s := { s with pcie := { s.pcie with flr := (f.rid, s.now) :: s.pcie.flr.filter (·.1 != f.rid) } }
    if n = 0 then
      let vfs := if s.vfOn k then s.numVfs k else 0
      let s := (s.vfEnable k false).instReset k 0
      (List.range 256).foldl (fun s i => if i < vfs then s else s.inc (cxInst k (i + 1) + 0x10) 15 0) s
    else s.instReset k n
/-- The FLR ends: every register of the function holds its reset value; GEN stays. -/
def Pkg.flrDone (s : Pkg) (k n : Nat) : Pkg :=
  let f := cxFn k n
  if !s.inFlr f then s
  else
    let s := { s with pcie := { s.pcie with flr := s.pcie.flr.filter (·.1 != f.rid) } }
    let s := (s.cfgClear f).instResetDone k n
    if n = 0 then
      let gens := (List.range 257).map (s.instGen k)
      let lo := cxBar k
      let s := { s with drs := s.drs.filter (fun e => !(decide (lo ≤ e.1) && decide (e.1 < lo + 0x1000000))) }
      let s := (gens.zipIdx).foldl (fun s g => s.wf (cxInst k g.2 + 0x10) 15 0 g.1) s
      s.updCx k (fun c => { seq := c.seq })
    else s.msixClear k n

/-! ### Commands -/

/-- CX_DOORBELL (R390). -/
def execCxDoorbell (k : CxN) (n : InstN) (j : QueueN) (v : Word) (s : State) : Out :=
  s.run (·.cxBell k.val n.val j.val v)
/-- DESCRIPTOR_FETCH (R391). -/
def execDescriptorFetch (k : CxN) (q : QueueN) (s : State) : Out :=
  s.run (·.cxFetch k.val q.val)
/-- DESCRIPTOR_DISPATCH (R401). -/
def execDescriptorDispatch (k : CxN) (comp : Bool) (p : Fin 4) (s : State) : Out :=
  s.run (·.cxDispatch k.val comp p.val)
/-- NOP (R392). -/
def execNop (k : CxN) (ix : Nat) (s : State) : Out :=
  s.run (·.cxNop k.val ix)
/-- COMPRESS (R382). -/
def execCompress (k : CxN) (p : Fin 4) (chk : Option Nat) (s : State) : Out :=
  s.run (·.cxCompress k.val p.val chk)
/-- DECOMPRESS (R387). -/
def execDecompress (k : CxN) (p : Fin 4) (s : State) : Out :=
  s.run (·.cxDecompress k.val p.val)
/-- CHECKSUM (R388). -/
def execChecksum (k : CxN) (p : Fin 4) (s : State) : Out :=
  s.run (·.cxChecksum k.val p.val)
/-- DESCRIPTOR_COMPLETE (R396). -/
def execDescriptorComplete (k : CxN) (ix : Nat) (s : State) : Out :=
  s.run (·.cxComplete k.val ix)
/-- CX_QUEUE_ENABLE (R399). -/
def execCxQueueEnable (k : CxN) (n : InstN) (j : QueueN) (on : Bool) (s : State) : Out :=
  s.run (·.qSet k.val n.val j.val on)
/-- CX_INSTANCE_ENABLE (R400). -/
def execCxInstanceEnable (k : CxN) (n : InstN) (s : State) : Out :=
  s.run (fun p => p.instCfg k.val n.val (setBits (p.rd (cxInst k.val n.val)) 0 0 1))
/-- CX_INSTANCE_DISABLE (R405). -/
def execCxInstanceDisable (k : CxN) (n : InstN) (s : State) : Out :=
  s.run (fun p => p.instCfg k.val n.val (setBits (p.rd (cxInst k.val n.val)) 0 0 0))
/-- CX_INSTANCE_RESET (R404). -/
def execCxInstanceReset (k : CxN) (n : InstN) (s : State) : Out :=
  s.run (·.instReset k.val n.val)
/-- INSTANCE_RESET_COMPLETE (R404). -/
def execInstanceResetComplete (k : CxN) (n : InstN) (dt : Nat) (s : State) : Out :=
  s.runAt dt (·.instResetDone k.val n.val)
/-- BME_CLEAR (R380). -/
def execBmeClear (k : CxN) (n : InstN) (s : State) : Out :=
  s.run (fun p => if p.cfnLive (cxFn k.val n.val) then p.bmeClear (cxFn k.val n.val) else p)
/-- BME_DRAIN_END (R380). -/
def execBmeDrainEnd (k : CxN) (n : InstN) (dt : Nat) (s : State) : Out :=
  s.runAt dt (·.drainEnd (cxFn k.val n.val))
/-- FLR (R380). -/
def execFlr (k : CxN) (n : InstN) (s : State) : Out :=
  s.run (·.flr k.val n.val)
/-- FLR_COMPLETE (R380). -/
def execFlrComplete (k : CxN) (n : InstN) (dt : Nat) (s : State) : Out :=
  s.runAt dt (·.flrDone k.val n.val)
/-- VF_ENABLE_CHANGE (R371). -/
def execVfEnableChange (k : CxN) (on : Bool) (s : State) : Out :=
  s.run (·.vfEnable k.val on)

end Sys2Proof.Machine
end

