-- ==== Sys2Proof/Machine/Mgt.lean ====
section
/-!
DEFINITION. Machine/Mgt.lean: the management port's target and alerts (18 R445, R447), the mailbox commands but those that
access a register (R449 to R451, R483), the debug challenge (16 R425, R426), power, points and temperature (18 R452 to R457).
-/
namespace Sys2Proof.Machine

/-! ### The target (R445, R447) -/

/-- An alert is set whose enable is set. -/
def Pkg.alerting (s : Pkg) : Bool := s.rd (mgtBase + 0x210) &&& s.rd (mgtBase + 0x218) &&& 0xF#64 != 0#64
/-- MGT_ALERT_N: held low under I²C while an alert is signalled. -/
def Pkg.alertN (s : Pkg) : Bool := !(s.pins.pwrgood && s.mgt.dyn.isNone && s.alerting)
def Pkg.answerBytes (s : Pkg) (l : List Byte) : Pkg := { s with reply := .bytes l }
/-- Whether the target answers as an I3C target. -/
def Pkg.i3c (s : Pkg) : Bool := s.mgt.dyn.isSome
/-- A directed CCC that reads. -/
def Pkg.cccGet (s : Pkg) (l : List Byte) : Pkg := if s.i3c then s.answerBytes l else s
/-- Bytes that spec/ does not give (log entry 1). -/
def Pkg.freeBytes (s : Pkg) (w : Nat) : List Byte × Pkg :=
  ((List.range w).flatMap (fun k => natLe 8 (Config.free (s.fresh + k)).toNat), { s with fresh := s.fresh + w })
/-- A CCC whose answer spec/ does not give. -/
def Pkg.cccFree (s : Pkg) (n : Nat) : Pkg :=
  if s.i3c then let (l, s) := s.freeBytes 1; s.answerBytes (l.take n) else s
/-- SETDASA names the target's static address. -/
def Pkg.setdasa (s : Pkg) (static dyn : BitVec 7) : Pkg :=
  if static.toNat = 0x58 + s.mgt.addr.toNat then { s with mgt := { s.mgt with dyn := some dyn } } else s
/-- GETPID: the vendor in [47:33], SC_UID0[31:0] in [31:0]; bit 32 is 0, a fixed value, and the most significant byte goes first
(PRESUMED, I3C Basic; log entry 68). -/
def Pkg.pidBytes (s : Pkg) : List Byte := natBe 6 (0x1F6B * 2 ^ 33 + bits (s.rd (scBase + 0x10)) 31 0)
/-- An IBI is sent when an alert appears, and every 10 ms while it stays. -/
def Pkg.ibiSend (s : Pkg) : Pkg :=
  let due := match s.mgt.ibiAt with | some t => decide (s.now ≥ t + 10000000000) | none => true
  if s.alerting && s.i3c && s.mgt.ibi && due then { s with reply := .bytes [1#8], mgt := { s.mgt with ibiAt := some s.now } } else s

/-! ### Mailbox commands (R450, R483) -/

/-- The command at the head of the queue, when it has this opcode and its mailbox takes it. -/
def State.mbx (s : State) (op : Nat) (f : Bool → State → State) : State :=
  match s.pkg.mgt.q with
  | port :: _ =>
    if s.pkg.mbxOp port == op && s.pkg.mgt.fwdAt.isNone && (mbxRefusal port op).isNone then f port s else s
  | [] => s
def State.mbxAns (s : State) (port : Bool) (result : Nat) (resp : List Byte) : State :=
  { s with pkg := s.pkg.mbxDone port result resp }

def State.getInfo (port : Bool) (s : State) : State :=
  s.mbxAns port 0 ([0, 0x10, 0x18, 0x200, 0x208].flatMap (fun o => natLe 8 (s.pkg.rd (scBase + o)).toNat))
/-- READ_ODO; where there is no record its bytes are free. -/
def State.readOdo (port : Bool) (s : State) : State :=
  let p := s.pkg
  match p.mbxArg port with
  | 0 =>
    match p.odo.part.bind s.nv.odoNewest with
    | some (_, _, b) => s.mbxAns port 0 b
    | none => let (l, p) := p.freeBytes 512; State.mbxAns { s with pkg := p } port 0 l
  | 1 => s.mbxAns port 0 ((List.range 512).flatMap (fun i => natLe 8 (p.rd (odoLive (8 * i))).toNat))
  | _ => s.mbxAns port 2 []
def State.odoSnap (port : Bool) (s : State) : State := State.mbxAns { s with pkg := s.pkg.odoRequest 1 } port 0 []
/-- FLASH_READ; `ok`: the flash completes the read. Flash operations never interleave (R409). -/
def State.flashRead (ok : Bool) (port : Bool) (s : State) : State :=
  let a := s.pkg.mbxArg port
  let n := s.pkg.mbxLen port
  if s.pkg.odo.writing.isSome then s
  else if n = 0 ∨ a + n > s.nv.size then s.mbxAns port 2 []
  else if ok then s.mbxAns port 0 (s.nv.read a n) else s.mbxAns port 4 []
/-- An address in the Odometer partition or the BCI copy in use. -/
def Pkg.flashKept (s : Pkg) (a : Nat) : Bool :=
  let c := 0x10000 * s.rf bootstat 8 8
  let o := bciOdo s.boot.bci
  s.boot.bci != [] && (decide (c ≤ a ∧ a < c + 0x10000) || decide (o ≤ a ∧ a < o + 0x40000))
/-- FLASH_WRITE; `ok`: the sector reads back as written. -/
def State.flashWrite (ok : Bool) (port : Bool) (s : State) : State :=
  let a := s.pkg.mbxArg port
  let n := s.pkg.mbxLen port
  if s.pkg.odo.writing.isSome then s
  else if s.pkg.flashKept a || s.pkg.flashKept (a + max n 1 - 1) then s.mbxAns port 3 []
  else if n ≠ 4096 ∨ a % 4096 ≠ 0 ∨ a + 4096 > s.nv.size then s.mbxAns port 2 []
  else if ok then State.mbxAns { s with nv := s.nv.program a (s.pkg.bufGet (mbxData port) 4096) } port 0 []
  else State.mbxAns { s with nv := s.nv.erase a 4096 } port 4 []
/-- PROVISION (16 R413). -/
def State.provision (port : Bool) (s : State) : State :=
  if s.nv.keyHash.isSome then s.mbxAns port 3 []
  else if s.pkg.mbxLen port ≠ 48 then s.mbxAns port 2 []
  else State.mbxAns { s with nv := { s.nv with keyHash := some (s.pkg.bufGet (mbxData port) 48) } } port 0 []
/-- RESET; the warm reset follows 1 ms after DONE. -/
def State.resetCmd (port : Bool) (s : State) : State :=
  if s.pkg.mbxArg port ≠ 0x5A then s.mbxAns port 2 []
  else
    let p := s.pkg.mbxDone port 0 []
    { s with pkg := { p with mgt := { p.mgt with resetAt := some p.now } } }
def Pkg.resetDue (s : Pkg) : Pkg :=
  match s.mgt.resetAt with
  | some t => if s.now ≥ t + 1000000000 then ({ s with mgt := { s.mgt with resetAt := none } }).beginStop 3 0 0 0 else s
  | none => s
/-- SET_LEAD (11 R307). -/
def State.setLead (port : Bool) (s : State) : State :=
  let a := s.pkg.mbxArg port
  if a ≥ 2 ^ 15 then s.mbxAns port 2 []
  else State.mbxAns { s with pkg := s.pkg.leadWrite (BitVec.ofNat 64 a) } port 0 []

/-! ### The debug challenge (16 R425, R426) -/

def dbgstat : Nat := scBase + 0x300
def Pkg.dbgFails (s : Pkg) : Nat := s.rf dbgstat 5 3
/-- A fresh nonce, a free value; the segments stored for the one before are dropped (19 R466). -/
def Pkg.challenge (s : Pkg) : Pkg :=
  let (l, s) := s.freeBytes 4
  { s with jtag := { s.jtag with nonce := some l, segs := [] } }
/-- A response to a nonce is checked: 192 bytes, or none where a segment is missing. -/
def Pkg.debugOk (s : Pkg) (nonce : List Byte) (r : Option (List Byte)) : Bool :=
  match r with
  | none => false
  | some l =>
    let key := l.take 96
    let msg := nonce ++ natLe 8 (s.rd scBase).toNat ++ natLe 8 (s.rd (scBase + 0x10)).toNat ++ natLe 8 (s.rd (scBase + 0x18)).toNat
    l.length == 192 && s.boot.bci != [] && sha384 key == (s.boot.bci.drop 0x158).take 48 && ecdsaOk key (l.drop 96) (sha384 msg)
/-- What follows a check: the unlock, or a failure counted. -/
def Pkg.debugSettle (s : Pkg) (ok : Bool) : Pkg :=
  if ok then
    let pol := bciF s.boot.bci 0x150 1
    let s := ((s.wb dbgstat 0 true).wf dbgstat 1 1 pol).wf dbgstat 2 2 (pol / 2)
    s.odoEvent 0x0D 11 15 (s.rd dbgstat).toNat 0
  else s.wf dbgstat 5 3 (min 3 (s.dbgFails + 1))
def State.dbgChallenge (port : Bool) (s : State) : State :=
  if s.pkg.dbgFails ≥ 3 then s.mbxAns port 3 []
  else let p := s.pkg.challenge; State.mbxAns { s with pkg := p } port 0 (p.jtag.nonce.getD [])
def State.dbgResponse (port : Bool) (s : State) : State :=
  let p := s.pkg
  match p.jtag.nonce with
  | none => s.mbxAns port 3 []
  | some n =>
    if p.dbgFails ≥ 3 then s.mbxAns port 3 []
    else if p.mbxLen port ≠ 192 then s.mbxAns port 2 []
    else
      let ok := p.debugOk n (some (p.bufGet (mbxData port) 192))
      let p := ({ p with jtag := { p.jtag with nonce := none } }).debugSettle ok
      State.mbxAns { s with pkg := p } port (if ok then 0 else 3) []

/-! ### Forwarded commands (R451) -/

/-- The command at the head of the port's mailbox goes to firmware, or completes at once. -/
def Pkg.forward (s : Pkg) : Pkg :=
  match s.mgt.q with
  | true :: _ =>
    let op := s.mbxOp true
    if op < 0x80 || s.mgt.fwdAt.isSome then s
    else
      let irq := mgtBase + 0x20018
      let st := s.tdmState
      if !s.rb irq 31 || st == 6 || st == 7 || st == 8 then s.mbxDone true 6 []
      else
        let n := s.mbxLen true
        let s := s.wr (mgtBase + 0x20000) (BitVec.ofNat 64 (op + 256 * n + 2 ^ 31))
        let s := s.wr (mgtBase + 0x20008) (s.rd (mbxBase true + 8))
        let s := s.bufPut (mgtBase + 0x21000) (s.bufGet (mbxData true) n ++ List.replicate (4096 - n) 0#8)
        ({ s with mgt := { s.mgt with fwdAt := some s.now } }).irqOf irq
  | _ => s
/-- MGT_FWDONE has not been written within MGT_FWTO. -/
def Pkg.forwardLate (s : Pkg) : Pkg :=
  match s.mgt.fwdAt with
  | some t =>
    if s.now ≥ t + s.rf (mgtBase + 0x318) 15 0 * 1000000000 then (s.wb (mgtBase + 0x20000) 31 false).mbxDone true 5 [] else s
  | none => s

/-! ### Rails, power and points (R452 to R455) -/

def mgtRail (r : Nat) : Nat := mgtBase + 0x500 + 8 * r
def mgtCourse (k : Nat) : Nat := mgtBase + 0x400 + 8 * k
/-- The rail of a course's brick. -/
def brickRail (k : Nat) : Nat := if k / 4 < 4 then k / 4 else k / 4 + 2
/-- An AVSBus frame to rail r fails or is acknowledged: three failures in succession set FAULT. -/
def Pkg.railFrame (s : Pkg) (r : Nat) (ok : Bool) : Pkg :=
  let n := if ok then 0 else min 3 (Map.get (fun _ => 0) s.pwr.fails r + 1)
  let s : Pkg := { s with pwr := { s.pwr with fails := Map.set (fun _ => 0) s.pwr.fails r n } }
  if n < 3 then (if ok then s.wb (mgtRail r) 32 false else s)
  else if s.rb (mgtRail r) 32 then s else (s.wb (mgtRail r) 32 true).wb (mgtBase + 0x210) 3 true
/-- The rails are read: MV and DA of those that answer. VAUX, rail 12, has a sensor of its own. -/
def Pkg.sampleRails (s : Pkg) (t : Telem) : Pkg :=
  (List.range 13).foldl (fun s r =>
    let ok := r == 12 || !t.fails.contains r
    let s := if r = 12 then s else s.railFrame r ok
    if ok then (s.wf (mgtRail r) 15 0 (t.rails.getD r (0, 0)).1).wf (mgtRail r) 31 16 (t.rails.getD r (0, 0)).2 else s) s
/-- Package power in units of 0.1 mW. -/
def Pkg.power (s : Pkg) : Nat := ((List.range 12).map (fun r => s.rf (mgtRail r) 15 0 * s.rf (mgtRail r) 31 16)).sum
/-- An exponential average after 100 µs of constant power x, with e = 2^64·exp(−100 µs / τ); `up`: the free rounding bit. -/
def expAvg (old x e : Nat) (up : Bool) : Nat :=
  let v := old * e + x * (2 ^ 64 - e)
  v / 2 ^ 64 + if up && v % 2 ^ 64 != 0 then 1 else 0
/-- Whole watts of an average, `up`: the free rounding bit. -/
def watts (a : Nat) (up : Bool) : Nat := a / 65536 + if up && a % 65536 != 0 then 1 else 0
/-- MGT_PWR and MGT_ENERGY (log entries 1 and 14). -/
def Pkg.samplePower (s : Pkg) : Pkg :=
  let p := s.power
  let (x, s) := s.draw
  let a1 := expAvg s.pwr.avg1ms (p * 65536 / 10000) 16691304278825489409 (x.getLsbD 0)
  let a2 := expAvg s.pwr.avg1s (p * 65536 / 10000) 18444899491532826648 (x.getLsbD 1)
  let f := s.pwr.frac + p
  let s := s.inc (mgtBase + 0x108) 63 0 (f / 100000)
  let s := (s.wf (mgtBase + 0x100) 15 0 (watts a1 (x.getLsbD 2))).wf (mgtBase + 0x100) 31 16 (watts a2 (x.getLsbD 3))
  { s with pwr := { s.pwr with avg1ms := a1, avg1s := a2, frac := f % 100000 } }
/-- CAP (R455), lowered further by a hot footing (R456). -/
def Pkg.sampleCap (s : Pkg) (hotFoot : Bool) : Pkg :=
  let pl1 := s.rf (mgtBase + 0x200) 15 0 * 65536
  let pl2 := s.rf (mgtBase + 0x200) 31 16 * 65536
  let c := s.pwr.cap
  let c := if s.boot.bci = [] then c
    else if s.pwr.avg1ms > pl2 ∨ s.pwr.avg1s > pl1 then c - 1
    else if 100 * s.pwr.avg1ms < 97 * pl2 ∧ 100 * s.pwr.avg1s < 97 * pl1 then min 7 (c + 1) else c
  let c := if hotFoot then c - 1 else c
  ({ s with pwr := { s.pwr with cap := c } }).wf (mgtBase + 0x100) 47 32 c
/-- The highest point whose clock does not exceed mhz. -/
def pointFor (mhz : Nat) : Nat := (List.range 8).foldl (fun a p => if pointMhz p ≤ mhz then p else a) 0
def Pkg.setCourse (s : Pkg) (k : Nat) (c : Course) : Pkg := { s with pwr := { s.pwr with courses := Map.set course0 s.pwr.courses k c } }
/-- MGT_COURSE shows the point. -/
def Pkg.showCourse (s : Pkg) (k : Nat) : Pkg :=
  let p := (s.course k).point
  ((s.wf (mgtCourse k) 10 8 p).wf (mgtCourse k) 31 16 (pointMhz p)).wf (mgtCourse k) 47 32 (pointMv p)
/-- The point that a course goes to. -/
def Pkg.samplePoint (s : Pkg) (k : Nat) : Pkg :=
  let c := s.course k
  let other := min (pointFor (s.rf (mgtBase + 0x600 + 8 * k) 15 0)) (min (pointFor (bciF s.boot.bci 0x134 2)) c.therm)
  let want := min other s.pwr.cap
  let want := if s.rb (mgtRail (brickRail k)) 32 then min want c.point else want
  let s := s.setCourse k { c with want := want }
  ((s.wb (mgtCourse k) 12 (decide (s.pwr.cap < other))).wb (mgtCourse k) 13 (!s.coursePowered k)).showCourse k

/-! ### Temperature (R456, R457) -/

/-- Vector 38 becomes pending on the 64 threads of a course (04 R133). -/
def Pkg.thermalVec (s : Pkg) (k : Nat) : Pkg :=
  if s.live then (courseTiles k).foldl (fun s n => (List.range 16).foldl (fun s j => s.ticSet (16 * n + j) 38) s) s else s
/-- A course's Tj is sampled. -/
def Pkg.sampleTj (s : Pkg) (k : Nat) (tj : Int) : Pkg :=
  let throt : Int := s.rf (mgtBase + 0x208) 7 0
  let s := s.wf (mgtCourse k) 7 0 (BitVec.ofInt 8 tj).toNat
  let c := s.course k
  if tj ≥ throt then
    let s := s.setCourse k { c with throt := true, therm := c.therm - 1, cool := 0 }
    if c.throt then s else ((s.wb (mgtCourse k) 11 true).wb (mgtBase + 0x210) 1 true).thermalVec k
  else if tj ≥ throt - 2 || !c.throt then s.setCourse k { c with cool := 0 }
  else if c.cool + 1 < 10 then s.setCourse k { c with cool := c.cool + 1 }
  else
    let t := c.therm + 1
    let s := s.setCourse k { c with therm := t, cool := 0, throt := decide (t < 7) }
    if t < 7 then s else (s.wb (mgtCourse k) 11 false).thermalVec k
/-- The highest reading of a course's tiles. -/
def telemTj (t : Telem) (k : Nat) : Int :=
  (courseTiles k).foldl (fun a n => max a (t.tiles.getD n (-128))) (-128)
/-- 115 °C or more in two samples in succession stops the package. -/
def Pkg.thermtrip (s : Pkg) (hot : Bool) : Pkg :=
  if !hot then { s with pwr := { s.pwr with hot := 0 } }
  else if s.pwr.hot = 0 then { s with pwr := { s.pwr with hot := 1 } }
  else
    let s := (s.stopFor 6).wb (mgtBase + 0x208) 8 true
    { s with pins := { s.pins with thermtripN := false } }
/-- TELEMETRY_SAMPLE. -/
def Pkg.telemetry (s : Pkg) (t : Telem) : Pkg :=
  let s := (s.sampleRails t).samplePower
  let tjs := (List.range 32).map (telemTj t)
  let top := tjs.foldl max (-128)
  let b := mgtBase + 0x110
  let s := (s.wf b 7 0 (BitVec.ofInt 8 top).toNat).wf b 12 8 (tjs.findIdx (· == top))
  let s := (s.wf b 23 16 (BitVec.ofInt 8 t.foot0).toNat).wf b 31 24 (BitVec.ofInt 8 t.foot1).toNat
  let throt : Int := s.rf (mgtBase + 0x208) 7 0
  let s := s.sampleCap (decide (t.foot0 ≥ throt) || decide (t.foot1 ≥ throt))
  let s := tjs.zipIdx.foldl (fun s q => s.sampleTj q.2 q.1) s
  let s := (List.range 32).foldl (fun s k => s.samplePoint k) s
  s.thermtrip (decide (max top (max t.foot0 t.foot1) ≥ 115))
/-- What the SC sets rail r to (R453): 50 mV above the highest setpoint of the brick's courses; the others are fixed. -/
def Pkg.railMv (s : Pkg) (r : Nat) : Nat :=
  match r with
  | 4 | 5 => 800
  | 10 => 1100
  | 11 => 900
  | _ => ((List.range 4).map (fun j => pointMv (s.course (4 * (if r < 4 then r else r - 2) + j)).point)).foldl max 0 + 50
/-- DVFS_STEP: one step of course k. Where it changes what the brick's rail is to be set to, the SC sends an AVSBus Voltage write
(R453); `ok`: it is acknowledged, which a step up needs. -/
def Pkg.dvfsStep (s : Pkg) (k : Nat) (ok : Bool) : Pkg :=
  let c := s.course k
  let r := brickRail k
  if c.want = c.point then s
  else
    let p := (s.setCourse k { c with point := if c.want < c.point then c.point - 1 else c.point + 1 }).showCourse k
    if p.railMv r = s.railMv r then p
    else
      let q := if c.want < c.point || ok then p else s
      { (q.railFrame r ok) with reply := .avs r (p.railMv r) }

/-! ### Commands -/

/-- ENTDAA (R445). -/
def execEntdaa (a : BitVec 7) (s : State) : Out :=
  s.runSc 0 (fun p => { p with mgt := { p.mgt with dyn := some a } })
/-- SETDASA (R445). -/
def execSetdasa (st : BitVec 7) (a : BitVec 7) (s : State) : Out :=
  s.runSc 0 (·.setdasa st a)
/-- RSTDAA (R445). -/
def execRstdaa (s : State) : Out :=
  s.runSc 0 (fun p => { p with mgt := { p.mgt with dyn := none } })
/-- ENEC (R445). -/
def execEnec (s : State) : Out :=
  s.runSc 0 (fun p => { p with mgt := { p.mgt with ibi := true } })
/-- DISEC (R445). -/
def execDisec (s : State) : Out :=
  s.runSc 0 (fun p => { p with mgt := { p.mgt with ibi := false } })
/-- GETPID (R445). -/
def execGetpid (s : State) : Out :=
  s.runSc 0 (fun p => p.cccGet p.pidBytes)
/-- GETBCR (R445). -/
def execGetbcr (s : State) : Out :=
  s.runSc 0 (·.cccGet [0x26#8])
/-- GETDCR (R445). -/
def execGetdcr (s : State) : Out :=
  s.runSc 0 (·.cccGet [0x00#8])
/-- GETSTATUS (R445). -/
def execGetstatus (s : State) : Out :=
  s.runSc 0 (·.cccFree 2)
/-- GETMXDS (R445). -/
def execGetmxds (s : State) : Out :=
  s.runSc 0 (·.cccFree 2)
/-- IBI_REPEAT (R447). -/
def execIbiRepeat (dt : Nat) (s : State) : Out :=
  s.runSc dt (·.ibiSend)
/-- MGT_BUS_TIMEOUT (R479). -/
def execMgtBusTimeout (dt : Nat) (s : State) : Out :=
  s.runSc dt id
/-- MBX_GO (R449). -/
def execMbxGo (port : Bool) (v : Word) (s : State) : Out :=
  s.runSc 0 (·.mbxCmd port (v ||| 0x80000000#64))
/-- GET_INFO (R450). -/
def execGetInfo (dt : Nat) (s : State) : Out :=
  s.runNv dt (·.mbx 0x01 State.getInfo)
/-- READ_ODO (R450). -/
def execReadOdo (dt : Nat) (s : State) : Out :=
  s.runNv dt (·.mbx 0x04 State.readOdo)
/-- ODO_SNAP (R450). -/
def execOdoSnap (dt : Nat) (s : State) : Out :=
  s.runNv dt (·.mbx 0x05 State.odoSnap)
/-- FLASH_READ (R450). -/
def execFlashRead (dt : Nat) (ok : Bool) (s : State) : Out :=
  s.runNv dt (·.mbx 0x06 (State.flashRead ok))
/-- FLASH_WRITE (R450). -/
def execFlashWrite (dt : Nat) (ok : Bool) (s : State) : Out :=
  s.runNv dt (·.mbx 0x07 (State.flashWrite ok))
/-- PROVISION (R413). -/
def execProvision (dt : Nat) (s : State) : Out :=
  s.runNv dt (·.mbx 0x08 State.provision)
/-- DBG_CHALLENGE (R425). -/
def execDbgChallenge (dt : Nat) (s : State) : Out :=
  s.runNv dt (·.mbx 0x09 State.dbgChallenge)
/-- DBG_RESPONSE (R425). -/
def execDbgResponse (dt : Nat) (s : State) : Out :=
  s.runNv dt (·.mbx 0x0A State.dbgResponse)
/-- RESET (R450). -/
def execMbxReset (dt : Nat) (s : State) : Out :=
  s.runNv dt (·.mbx 0x0B State.resetCmd)
/-- RESET_DELAY_EXPIRY (R450). -/
def execResetDelayExpiry (dt : Nat) (s : State) : Out :=
  s.runSc dt (·.resetDue)
/-- SET_LEAD (R450). -/
def execSetLead (dt : Nat) (s : State) : Out :=
  s.runNv dt (·.mbx 0x0C State.setLead)
/-- FORWARDED_COMMAND (R451). -/
def execForwardedCommand (dt : Nat) (s : State) : Out :=
  s.runAt dt (·.forward)
/-- MGT_FWDONE_WRITE (R451). -/
def execMgtFwdoneWrite (v : Word) (s : State) : Out :=
  s.runSc 0 (·.fwDone v)
/-- FORWARD_TIMEOUT (R451). -/
def execForwardTimeout (dt : Nat) (s : State) : Out :=
  s.runSc dt (·.forwardLate)
/-- TELEMETRY_SAMPLE (R452). -/
def execTelemetrySample (dt : Nat) (t : Telem) (s : State) : Out :=
  s.runSc dt (·.telemetry t)
/-- DVFS_STEP (R455). -/
def execDvfsStep (dt : Nat) (k : Fin 32) (ok : Bool) (s : State) : Out :=
  s.runSc dt (·.dvfsStep k ok)

end Sys2Proof.Machine
end

