-- ==== Sys2Proof/Machine/Debug.lean ====
section
/-!
DEFINITION. Machine/Debug.lean: Shimmy's control and the end of what it puts off (19 R458, R461, R464), the JTAG TAP and its
SC_CHAL register (R465, R466).
-/
namespace Sys2Proof.Machine

/-! ### Arming (R464) -/

def shmStat : Nat := shmBase + 8
/-- The enabled slots load SEED and begin to decide. -/
def Pkg.shmArm (s : Pkg) : Pkg :=
  let s := (List.range 16).foldl (fun s i =>
    if s.rb (shmSlot i 0) 0 then ((s.wf (shmSlot i 6) 31 0 (s.rf (shmSlot i 1) 31 0)).wf (shmSlot i 4) 47 0 0).wf (shmSlot i 5) 47 0 0 else s) s
  { s with shm := { s.shm with on := true, cyc := s.now, tries := [] } }
/-- SHM_CTL is written. -/
def Pkg.shmCtl (s : Pkg) (v : Word) : Pkg :=
  if !s.shmOpen then s
  else if v.getLsbD 1 then ({ s with shm := { s.shm with on := false } }).wb shmStat 0 false
  else if v.getLsbD 0 then
    let s := s.wb shmStat 0 true
    if s.rd (shmBase + 0x10) = 0#64 then s.shmArm else { s with shm := { s.shm with on := false } }
  else s
/-- Cadence time reaches SHM_START. -/
def Pkg.shmStart (s : Pkg) : Pkg :=
  if s.rb shmStat 0 && !s.shm.on && decide (s.rdtime.toNat ≥ (s.rd (shmBase + 0x10)).toNat) then s.shmArm else s

/-- What was put off comes about: credits flow again, a response or flit is delivered, a Cadence release takes place. -/
def Pkg.shmEnd (s : Pkg) (k : Nat) : Pkg :=
  match s.shm.acts[k]? with
  | none => s
  | some a =>
    if s.now < a.due || (s.shm.acts.take k).any (fun b => b.kind == a.kind && b.what == a.what) then s
    else
      let s := { s with shm := { s.shm with acts := s.shm.acts.eraseIdx k } }
      match a.cmd with
      | some (.dramReadReturn i line err) => s.dramReturn i line err
      | some (.dataFlitReceive i w) => s.dataFlit i (flitData ((s.link i).flit w))
      | _ =>
        if a.kind ≠ 7 then s
        else if a.what < 65536 then (s.wb (sched a.what 0) 6 true).schedAct (BitVec.ofNat 64 a.arg)
        else if a.what < 131072 then
          let h := a.what - 65536
          match (s.thr h).st, (s.thr h).waitt with
          | .timewait, some (w, _) => if s.timeNs % 2 ^ 64 ≥ w.toNat then s.wakeThr h 0 else s
          | _, _ => s
        else
          let h := a.what - 131072
          s.setLevel h 34 (decide (s.timeNs % 2 ^ 64 ≥ ((s.thr h).rs 0x401).toNat))

/-! ### JTAG (R465, R466) -/

/-- The TAP is powered and not held in Test-Logic-Reset. -/
def Pkg.tapOn (s : Pkg) : Bool := s.pins.vaux && !s.jtag.trst
/-- An instruction is loaded. -/
def Pkg.tap (s : Pkg) (i : Tap) : Pkg := if s.tapOn then { s with jtag := { s.jtag with ir := i } } else s
/-- IDCODE: the register shifts out the code of R465. -/
def Pkg.idcode (s : Pkg) : Pkg :=
  if s.tapOn then
    (s.tap .idcode).answerBytes (natLe 4 (s.rf scBase 59 56 * 2 ^ 28 + s.rf scBase 31 16 * 2 ^ 12 + 0x3D6 * 2 + 1))
  else s
/-- SC_DBGSTAT.JTAG. -/
def Pkg.jtagOpen (s : Pkg) : Bool := s.rb dbgstat 1
/-- EXTEST: the package stops until a warm or cold reset; while JTAG = 0 it is not available and selects BYPASS. -/
def Pkg.extest (s : Pkg) : Pkg := if s.tapOn && s.jtagOpen then (s.tap .extest).stopFor 5 else s.tap .bypass
/-- TRST_N. -/
def Pkg.trstPin (s : Pkg) (low : Bool) : Pkg :=
  if s.pins.vaux then { s with jtag := { s.jtag with trst := low, ir := if low then .idcode else s.jtag.ir } } else s

/-- What a capture of SC_CHAL returns. -/
def Pkg.chalCapture (s : Pkg) : List Byte :=
  let j := s.jtag
  natLe 33 (leNat (j.nonce.getD []) + (if j.nonce.isSome then 2 ^ 256 else 0) + (if j.done then 2 ^ 257 else 0)
    + s.rf dbgstat 0 0 * 2 ^ 258 + s.dbgFails * 2 ^ 259 + (if j.segErr then 2 ^ 262 else 0))
/-- A scan of SC_CHAL: the capture, then the update's command. -/
def Pkg.chal (s : Pkg) (f : Pkg → Pkg) : Pkg :=
  if s.tapOn && s.scLive then f ((s.tap .scChal).answerBytes s.chalCapture) else s
/-- CMD 0. -/
def Pkg.chalStore (s : Pkg) (seg : Nat) (data : BitVec 256) : Pkg :=
  if seg ≥ 6 then { s with jtag := { s.jtag with segErr := true } }
  else { s with jtag := { s.jtag with segErr := false, segs := Map.set (fun _ => []) s.jtag.segs seg (natLe 32 data.toNat) } }
/-- CMD 1. -/
def Pkg.chalNew (s : Pkg) : Pkg :=
  if s.dbgFails ≥ 3 then { s with jtag := { s.jtag with segErr := true } }
  else let s := s.challenge; { s with jtag := { s.jtag with segErr := false } }
/-- CMD 2: without a nonce it is refused; a missing segment makes the check fail. -/
def Pkg.chalSubmit (s : Pkg) : Pkg :=
  match s.jtag.nonce with
  | none => { s with jtag := { s.jtag with segErr := true } }
  | some n =>
    if s.dbgFails ≥ 3 then { s with jtag := { s.jtag with segErr := true } }
    else
      let l := (List.range 6).map (Map.get (fun _ => []) s.jtag.segs)
      let r := if l.all (fun b => b.length == 32) then some l.flatten else none
      { s with jtag := { s.jtag with nonce := none, segErr := false, done := false, check := some (n, r) } }
/-- The check ends. -/
def Pkg.debugDone (s : Pkg) : Pkg :=
  match s.jtag.check with
  | none => s
  | some (n, r) =>
    let s := s.debugSettle (s.debugOk n r)
    { s with jtag := { s.jtag with check := none, done := true } }

/-! ### Commands -/

/-- SHM_ARM (R464). -/
def execShmArm (s : State) : Out :=
  s.run (·.shmCtl 1#64)
/-- SHM_DISARM (R464). -/
def execShmDisarm (s : State) : Out :=
  s.run (·.shmCtl 2#64)
/-- SHM_START_REACHED (R464). -/
def execShmStartReached (dt : Nat) (s : State) : Out :=
  s.runAt dt (·.shmStart)
/-- PERTURBATION_DELAY_END (R461). -/
def execPerturbationDelayEnd (dt : Nat) (ix : Nat) (s : State) : Out :=
  s.runAt dt (·.shmEnd ix)
/-- BYPASS (R465). -/
def execBypass (s : State) : Out :=
  s.on (·.tap .bypass)
/-- IDCODE (R465). -/
def execIdcode (s : State) : Out :=
  s.on (·.idcode)
/-- SAMPLE_PRELOAD (R465). -/
def execSamplePreload (s : State) : Out :=
  s.on (·.tap .sample)
/-- EXTEST (R465). -/
def execExtest (s : State) : Out :=
  s.on (·.extest)
/-- SC_CHAL_STORE (R466). -/
def execScChalStore (seg : BitVec 3) (data : BitVec 256) (s : State) : Out :=
  s.on (·.chal (·.chalStore seg.toNat data))
/-- SC_CHAL_NEW_CHALLENGE (R466). -/
def execScChalNewChallenge (s : State) : Out :=
  s.on (·.chal (·.chalNew))
/-- SC_CHAL_SUBMIT (R466). -/
def execScChalSubmit (s : State) : Out :=
  s.on (·.chal (·.chalSubmit))
/-- DEBUG_CHECK_COMPLETE (R466). -/
def execDebugCheckComplete (dt : Nat) (s : State) : Out :=
  s.runSc dt (·.debugDone)
/-- TRST (R479). -/
def execTrst (low : Bool) (s : State) : Out :=
  s.on (·.trstPin low)

end Sys2Proof.Machine
end

