-- ==== Sys2Proof/Machine/Log.lean ====
section
/-!
DEFINITION. Machine/Log.lean: the form of the Tandem log's records on the CROSS links (12 R318, R319, R320, R321).
-/
namespace Sys2Proof.Machine

/-- A doubleword of fields: high bit, low bit, value. -/
def fields (l : List (Nat × Nat × Nat)) : Word := BitVec.ofNat 64 (l.map (fun f => f.2.2 % 2 ^ (f.1 - f.2.1 + 1) * 2 ^ f.2.1)).sum
/-- Doubleword 0: TYPE, LEN in units of 16 bytes, GSN. -/
def recHeader (typ len gsn : Nat) : Word := fields [(3, 0, typ), (12, 8, len), (63, 16, gsn)]
/-- Whole units of 16 bytes, zero-filled. -/
def unitBytes (l : List Byte) : List Byte := l ++ List.replicate ((16 - l.length % 16) % 16) 0#8
/-- Bytes as doublewords, least significant byte first, and back. -/
def dwsOf (l : List Byte) : List Word := (List.range (l.length / 8)).map (fun k => BitVec.ofNat 64 (leNat ((l.drop (8 * k)).take 8)))
def bytesOf (l : List Word) : List Byte := l.flatMap (fun w => (List.range 8).map (fun k => w.extractLsb' (8 * k) 8))

/-- The doublewords of a record (R318 to R321). -/
def LogRec.dws : LogRec → List Word
  | .chunk c =>
    let v := unitBytes c.value
    let n := v.length / 16
    [recHeader 1 (2 + n) c.gsn
     , fields [(10, 0, c.htid.val), (26, 12, c.steps), (36, 32, c.cause), (44, 37, c.arg), (48, 45, c.fault), (53, 49, c.dfl), (55, 54, n)]
     , fields [(47, 0, c.pred), (62, 48, c.drn)], BitVec.ofNat 64 c.tCommit] ++ dwsOf v
  | .inb r =>
    let d := unitBytes r.data
    [recHeader 2 (4 + d.length / 16) r.gsn
     , fields [(47, 0, r.pred), (51, 48, r.kind), (60, 52, r.nbytes)]
     , fields [(51, 0, r.addr), (55, 52, r.atop), (58, 56, r.rm), (59, 59, if r.poison then 1 else 0)]
     , fields [(15, 0, r.source), (31, 16, r.be)]
     , r.slot1.extractLsb' 0 64, r.slot1.extractLsb' 64 64, BitVec.ofNat 64 r.ts, 0#64] ++ dwsOf d
  | .outmap o =>
    [recHeader 3 2 o.gsn, fields [(31, 0, o.osn), (34, 32, o.cls), (35, 35, if o.inb then 1 else 0)]
     , fields [(14, 0, o.dst), (18, 15, o.epoch), (34, 19, o.seq)], 0#64]
  | .released osn => [recHeader 4 1 0, fields [(31, 0, osn)]]
  | .mark kind => [recHeader 5 1 0, fields [(3, 0, kind)]]

/-- What the doublewords that have arrived say; none for a record received only in part, which is discarded whole (R319), and for a
TYPE that is not sent. -/
def logRec (l : List Word) : Option LogRec :=
  let d (k : Nat) : Word := l.getD k 0#64
  let gsn := bits (d 0) 63 16
  let len := bits (d 0) 12 8
  if l.length ≠ 2 * len then none
  else
    match bits (d 0) 3 0 with
    | 1 =>
      if len = 2 + bits (d 1) 55 54 then
        some (.chunk {
          gsn := gsn, htid := Fin.ofNat 2048 (bits (d 1) 10 0), steps := bits (d 1) 26 12, cause := bits (d 1) 36 32, arg := bits (d 1) 44 37
          fault := bits (d 1) 48 45, dfl := bits (d 1) 53 49, pred := bits (d 2) 47 0, drn := bits (d 2) 62 48
          tCommit := (d 3).toNat, value := bytesOf (l.drop 4) })
      else none
    | 2 =>
      if 4 ≤ len then
        some (.inb {
          gsn := gsn, pred := bits (d 1) 47 0, kind := bits (d 1) 51 48, nbytes := bits (d 1) 60 52, addr := bits (d 2) 51 0
          atop := bits (d 2) 55 52, rm := bits (d 2) 58 56, poison := (d 2).getLsbD 59, source := bits (d 3) 15 0, be := bits (d 3) 31 16
          slot1 := d 5 ++ d 4, ts := (d 6).toNat, data := bytesOf (l.drop 8) })
      else none
    | 3 =>
      if len = 2 then
        some (.outmap {
          gsn := gsn, osn := bits (d 1) 31 0, cls := bits (d 1) 34 32, inb := (d 1).getLsbD 35, dst := bits (d 2) 14 0
          epoch := bits (d 2) 18 15, seq := bits (d 2) 34 19 })
      else none
    | 4 => if len = 1 then some (.released (bits (d 1) 31 0)) else none
    | 5 => if len = 1 then some (.mark (bits (d 1) 3 0)) else none
    | _ => none

end Sys2Proof.Machine
end

