-- ==== Sys2Proof/Machine/Tdm.lean ====
section
/-!
DEFINITION. Machine/Tdm.lean: the Tandem unit's commands and events: the handshake, the log's receipt, digests and progress, lost
partners, divergence, promotion, rejoin, cut-over, swap, page repair (12 R308 to R344, 20 R480).
-/
namespace Sys2Proof.Machine

def tdmCfg : Nat := tdmBase + 8
def tdmCnt : Nat := tdmBase + 0x38
/-- A command is refused (R344). -/
def Pkg.tdmErr (s : Pkg) : Pkg := s.wb (tdmBase + 0x10) 4 true
/-- FAB_SELF.MODE changes. -/
def Pkg.setMode (s : Pkg) (m : Nat) : Pkg := s.wf fabBase 17 16 m
/-- Both CROSS links are DOWN. -/
def Pkg.crossDown (s : Pkg) : Bool := !s.lkUp 5 && !s.lkUp 11
/-- The Tandem unit's error record names a code (17 R432). -/
def Pkg.tdmRecord (s : Pkg) (code addr : Nat) : Pkg := s.record .tdm { cls := 2, code := 0x14, addr := some addr, info := code }
/-- The stoker stops itself (R337, R338, R480). -/
def Pkg.tdmStop (s : Pkg) (code : Nat) : Pkg := (s.tdmRecord code s.tdm.doneTo).failStop .tdm 2
/-- A stoker: waiting, resilvering, replaying, promoting, or swapping out of that role. -/
def Pkg.stoker (s : Pkg) : Bool := s.tdmState == 6 || s.tdmState == 7 || s.tdmState == 8 || s.tdmState == 9 || (s.tdmState == 10 && s.fabMode == 2)

/-! ### The end of pairing on a captain (R337, R338) -/

/-- No chunk is open, and no thread waits for the stoker. -/
def Pkg.noChunks (s : Pkg) : Pkg :=
  { s with threads := s.threads.filterMap (fun p =>
      let t := { p.2 with chunk := none, lagged := false, wreason := none }
      if t = thr0 p.1 then none else some (p.1, t)) }
/-- The captain works alone: chunks, the log and any resilvering end; held outputs of `free` need no comparison. -/
def Pkg.alone (s : Pkg) (free : Held → Bool) : Pkg :=
  let s := (s.noChunks.setTdm 3).wb tdmBase 8 false
  let s : Pkg := { s with tdm := { s.tdm with
    track := false, dirty := [], pause := false, recs := [], log := [], commits := [], progress := 0, left := [], repair := none
    partnerWait := false, hold := s.tdm.hold.map (fun e : Held => { e with go := e.go || free e }) } }
  (s.wf (tdmBase + 0x20) 31 0 0).holdRun
/-- The stoker is lost (R337): every held output leaves. -/
def Pkg.partnerLost (s : Pkg) : Pkg := ((s.alone (fun _ => true))).tdmCode 2
/-- A divergence (R338): outputs from `osn` on stay, earlier ones leave. -/
def Pkg.diverge (s : Pkg) (osn : Nat) : Pkg :=
  let s := s.alone (fun e => decide (e.osn < osn))
  let s : Pkg := { s with tdm := { s.tdm with auto := true, hold := s.tdm.hold.map (fun e : Held => { e with go := e.go && !s.compares e.cls }) } }
  let s := (s.wb tdmBase 9 true).sat tdmCnt 31 16
  ((s.tdmRecord 3 osn).tell .stop).tdmCode 3
/-- A report that concerns no output withholds every output that is held. -/
def Pkg.divergeAll (s : Pkg) : Pkg := s.diverge (match s.tdm.hold.head? with | some e => e.osn | none => s.tdm.osn + 1)

/-! ### The handshake (R310) -/

/-- The member takes a captain's part alone; `ok`: a rejoin may be accepted; `answered`: the partner waits. -/
def Pkg.takeCaptain (s : Pkg) (ok answered : Bool) : Pkg :=
  let s := (s.setTdm 3).setMode 1
  ({ s with tdm := { s.tdm with refused := !ok, partnerWait := answered } }).setPhase 6
/-- The member waits as stoker: its registers take their BCI values, its boot stops here (16 R419, 13 R356). -/
def Pkg.takeStoker (s : Pkg) : Pkg := ((((s.setTdm 6).setMode 2).bciRw s.boot.bci).setPhase 8).endBoot
/-- The member cannot pair. -/
def Pkg.takeNopair (s : Pkg) : Pkg :=
  ({ (s.setTdm 2) with pins := { s.pins with fsOut := true } }).endBoot

/-! ### Resilvering (R341) -/

/-- Every write permission for the lines of the pages `q` is removed, dirty data staying in the caches. -/
def Pkg.revoke (s : Pkg) (q : Nat → Bool) : Pkg :=
  let s := s.cores.foldl (fun s p => (p.2.merge.filter (fun m => m.perm && q (m.line / 64))).foldl (fun s m => s.releaseMerge p.1 m.line) s) s
  let ls := (s.l2.filter (fun p => (p.2.st == .E || p.2.st == .M) && q (p.2.line / 64))).map (·.2.line)
  let s := { s with l2 := s.l2.map (fun p =>
    if q (p.2.line / 64) then (p.1, { p.2 with st := match p.2.st with | .M => Moesi.O | .E => Moesi.S | x => x }) else p) }
  ls.foldl (fun s l => s.dirSync l) s
/-- A pass begins: the pages' bits clear, then their lines are read. -/
def Pkg.passStart (s : Pkg) (q : Nat → Bool) : Pkg :=
  let a := s.dbmapPage * 4096
  let b := a + s.dbmapLen * 4096
  ({ s with
    tdm := { s.tdm with dirty := [] }
    mem := s.mem.filter (fun c => c.1 < a || b ≤ c.1) }).revoke q
/-- A rejoin is accepted. -/
def Pkg.rejoinOk (s : Pkg) : Bool :=
  s.tdmState == 3 && s.tdm.partnerWait && !s.tdm.refused && !s.pins.fsIn && s.rb (tdmBase + 0x28) 0 && s.rb (scBase + 0x218) 0
/-- And starts. -/
def Pkg.rejoinGo (s : Pkg) : Pkg :=
  let s := s.setTdm 4
  (({ s with tdm := { s.tdm with track := true, auto := false } }).tell .rejoin).passStart (fun _ => true)
/-- TDM_CMD = REJOIN. -/
def Pkg.rejoin (s : Pkg) : Pkg := if s.rejoinOk then s.rejoinGo else s.tdmErr
/-- The captain has started the rejoin, seen by the stoker. -/
def Pkg.rejoinPeer (s : Pkg) : Pkg := if s.tdmState = 6 ∧ s.pins.fsIn = false then s.setTdm 7 else s

/-- A page arrives. -/
def Pkg.pagePut (s : Pkg) (p : PageImg) : Pkg :=
  (List.range 64).foldl (fun s k =>
    s.dramPut (64 * p.page + k) (BitVec.ofNat 512 (leNat ((p.data.drop (64 * k)).take 64))) (p.poison.getLsbD k)) s
/-- Few enough pages are dirty. -/
def Pkg.fewDirty (s : Pkg) : Bool := decide (s.tdm.dirty.length ≤ s.rf tdmCfg 63 48)
/-- A pass ends; the next one begins. -/
def Pkg.passEnd (s : Pkg) (pages : List PageImg) : Pkg :=
  match s.tdmState with
  | 4 =>
    if s.tdm.pause then s
    else
      let s := if s.fewDirty && !s.rb tdmBase 8 then (s.wb tdmBase 8 true).tdmCode 4 else s
      s.passStart s.tdm.dirty.contains
  | 7 => pages.foldl Pkg.pagePut s
  | _ => s

/-! ### Cut-over (R342) -/

/-- The cut-over starts: threads stop, inbound traffic is held. -/
def Pkg.cutStart (s : Pkg) : Pkg :=
  let at_ := (s.rd (tdmBase + 0x18)).toNat
  if s.tdmState = 4 ∧ s.rb tdmBase 8 ∧ s.fewDirty ∧ !s.tdm.pause ∧ at_ ≤ s.rdtime.toNat then { s with tdm := { s.tdm with pause := true } } else s
/-- Everything that threads have sent has completed or drained. -/
def Pkg.drained (s : Pkg) : Bool :=
  s.threads.all (fun p => p.2.sb.isEmpty && p.2.await.isNone) && s.devq.isEmpty
    && s.cores.all (fun p => p.2.merge.all (fun m => !m.perm) && p.2.wc.isEmpty)
/-- Pairing begins: numbers start again. -/
def Pkg.pairStart (s : Pkg) (mark : Nat) : Pkg :=
  { s with tdm := { hold := [], log := [.mark mark], osn := s.tdm.osn, gsn := s.tdm.gsn, released := s.tdm.osn, tell := s.tdm.tell } }
/-- Every thread that forms chunks opens one (R313). -/
def Pkg.openChunks (s : Pkg) : Pkg :=
  s.threads.foldl (fun s p => match p.2.st with | .run | .parked | .timewait => s.updChunk p.1 id | _ => s) s
/-- On the captain. -/
def Pkg.cutCaptain (s : Pkg) : Pkg :=
  let s := (({ s with tdm := { s.tdm with gsn := 0, osn := 0 } }).pairStart 0).setTdm 5
  ((s.wb tdmBase 8 false).sat tdmCnt 47 32).openChunks.tdmCode 5

/-- The registers of a cut-over's image. -/
def imgReg (off : Nat) : Bool :=
  match winOf off with
  | some (w, o) =>
    if 0xC00 ≤ o ∧ o < 0xC40 then false
    else match w with
      | .tic _ | .iotu _ | .cx _ | .cxbar _ => true
      | .fab => o != 0
      | .core _ | .l2 _ | .l3s _ => o == 0
      | .mesh _ => o == 0x400 || o == 0x408 || o == 0x410
      | .sc => o == 0x100
      | .cad => decide (0x10000 ≤ o)
      | _ => false
  | none => false
def thrStOf : Nat → ThrSt | 1 => .run | 2 => .parked | 3 => .timewait | 4 => .halted | 5 => .faulted | _ => .off
/-- A thread as the image gives it. -/
def ThrImg.thread (i : ThrImg) : Thread :=
  let t : Thread := { st := thrStOf i.st.val, prior := thrStOf i.prior.val, pc := i.pc, fpc := i.pc, mon := i.mon, monWake := i.monWake
                      waitt := i.waitt, fin32 := i.fin32, fin33 := i.fin33 }
  let t := i.g.zipIdx.foldl (fun t q => if q.2 < 32 then t.wg q.2 q.1 else t) t
  let t := i.f.zipIdx.foldl (fun t q => if q.2 < 32 then t.wF q.2 q.1 else t) t
  let t := i.v.zipIdx.foldl (fun t q => if q.2 < 32 then t.wV q.2 q.1 else t) t
  i.sr.foldl (fun t q => t.ws q.1 q.2) t
/-- The stoker installs the image. -/
def Pkg.cutStoker (s : Pkg) (m : PairImg) : Pkg :=
  let s := m.pages.foldl Pkg.pagePut s
  let s := m.thrs.foldl (fun s i => s.setThr i.h.val (ThrImg.thread i)) s
  let s := m.csr.foldl (fun s q => s.updCore q.1.val (fun c => { c with csr := Map.set srReset c.csr q.2.1 q.2.2 })) s
  let s := m.regs.foldl (fun s q => if imgReg q.1 then s.wr q.1 q.2 else s) s
  let s := m.srcs.foldl (fun s q => s.setSrc q.1 { next := q.2.1, epoch := q.2.2 }) s
  let s := m.homes.foldl (fun s q => s.setHome q.1 { exp := q.2.1, epoch := q.2.2.1, jrn := q.2.2.2 }) s
  let s := m.msix.foldl (fun s q => s.updCx q.1.val (fun c => { c with msix := Map.set (fun _ => 0#32) c.msix q.2.1 q.2.2 })) s
  ({ s with tdm := { log := [.mark 0], tell := s.tdm.tell } }).setTdm 8
/-- The cut-over ends. -/
def Pkg.cutEnd (s : Pkg) (m : PairImg) : Pkg :=
  match s.tdmState with
  | 4 => if s.tdm.pause && s.drained then s.cutCaptain else s
  | 7 => s.cutStoker m
  | _ => s

/-! ### The log's receipt (R318 to R321) -/

/-- A record reaches a member that replays. -/
def Pkg.logIn (s : Pkg) (r : LogRec) : Pkg :=
  if !s.replaying then s
  else
    match r with
    | .outmap o => { s with tdm := { s.tdm with outmaps := s.tdm.outmaps ++ [o] } }
    | .released n =>
      let (old, rest) := s.tdm.hold.partition (fun e => decide (e.osn ≤ n) && decide (e.osn ≠ 0))
      let s : Pkg := { s with tdm := { s.tdm with released := max s.tdm.released n, hold := rest } }
      old.foldl (fun s e => if e.cls = 1 then s.letGo e.what else s) s
    | .mark _ => s
    | r => { s with tdm := { s.tdm with inlog := s.tdm.inlog ++ [r] } }

/-- A record's doublewords arrive as TYPE `typ`. -/
def Pkg.logOf (s : Pkg) (typ : Nat) (w : List Word) : Pkg :=
  match logRec w with
  | some r => if bits (w.getD 0 0#64) 3 0 = typ then s.logIn r else s
  | none => s

/-! ### Digests and progress (R326, R327, R329) -/

/-- DIGEST. -/
def Pkg.digestIn (s : Pkg) (osn : Nat) (dg : Word) : Pkg :=
  if !s.logging then s
  else
    match s.tdm.hold.find? (·.osn == osn), s.tdm.left.find? (·.1 == osn) with
    | some e, _ =>
      if e.digest = dg then
        ({ s with tdm := { s.tdm with hold := s.tdm.hold.map (fun x : Held => if x.osn = osn then { x with go := true } else x) } }).holdRun
      else s.diverge osn
    | none, some e =>
      let s : Pkg := { s with tdm := { s.tdm with left := s.tdm.left.filter (·.1 != osn) } }
      if e.2 = dg then s else s.diverge osn
    | none, none => s
/-- The GSN that names a record in the captain's log. -/
def recGsn : LogRec → Option Nat
  | .chunk c => some c.gsn
  | .inb r => some r.gsn
  | _ => none
/-- PROGRESS. -/
def Pkg.progressIn (s : Pkg) (g : Nat) : Pkg :=
  if !s.logging then s
  else
    let g := max s.tdm.progress (min g s.tdm.gsn)
    let s : Pkg := { s with tdm := { s.tdm with
      progress := g, commits := s.tdm.commits.filter (fun c => g ≤ c.1)
      log := s.tdm.log.filter (fun r => match recGsn r with | some x => decide (g < x) | none => false) } }
    let s := s.showLag
    if s.lagging then s
    else { s with threads := s.threads.filterMap (fun p =>
      let t := { p.2 with lagged := false }
      if t = thr0 p.1 then none else some (p.1, t)) }

/-! ### Chunks that end by conflict or time (R314, R315) -/

/-- Another agent's access to a line meets an open chunk's signature, or a line of it has left the tile. -/
def Pkg.conflictEnd (s : Pkg) (h line : Nat) (write : Bool) : Pkg :=
  match (s.thr h).chunk with
  | some k => if s.paired && (k.due || k.conflicts line write) then s.endChunk h 12 else s
  | none => s
/-- TMAX µs have passed since the chunk's first step. -/
def Pkg.timeEnd (s : Pkg) (h : Nat) : Pkg :=
  match (s.thr h).chunk with
  | some k => if s.paired && decide (k.steps > 0) && decide (s.cadNs ≥ k.t0 + 1000 * s.rf tdmCfg 23 16) then s.endChunk h 16 else s
  | none => s

/-! ### Lost partners and promotion (R333, R335 to R337, R480) -/

/-- A stoker begins its promotion. -/
def Pkg.tdmPromote (s : Pkg) : Pkg := { (s.setTdm 9) with tdm := { s.tdm with live := false } }
/-- The partner is lost. -/
def Pkg.lost (s : Pkg) : Pkg :=
  let s : Pkg := { s with tdm := { s.tdm with partnerWait := false } }
  match s.tdmState with
  | 4 | 5 => s.partnerLost
  | 7 => s.setTdm 6
  | 8 => s.tdmPromote
  | _ => s
/-- TDM_FS_IN asserts; `alive`: TDM_ALIVE still reads high, so that the case is recorded. -/
def Pkg.fsAssert (s : Pkg) (alive : Bool) : Pkg :=
  let s : Pkg := { s with pins := { s.pins with fsIn := true, partner := alive } }
  let t := s.tdmState
  let s := if alive && (t == 4 || t == 5 || t == 8 || t == 6 || t == 1) then s.tdmRecord (if t = 8 then 1 else 2) s.tdm.gsn else s
  s.lost
/-- Both CROSS links DOWN with TDM_ALIVE low for 1 µs. -/
def Pkg.silence (s : Pkg) : Pkg :=
  if s.crossDown && (s.tdmState == 4 || s.tdmState == 5 || s.tdmState == 7 || s.tdmState == 8) then
    ({ s with pins := { s.pins with partner := false } }).lost
  else s
/-- Both CROSS links DOWN with TDM_ALIVE high for 10 µs. -/
def Pkg.isolated (s : Pkg) : Pkg :=
  if s.crossDown && (s.tdmState == 7 || s.tdmState == 8) then s.tdmStop 2 else s
/-- The captain commands this member to fail-stop. -/
def Pkg.commanded (s : Pkg) : Pkg := if s.stoker then s.tdmStop 3 else s

/-- A replayed thread goes on of its own accord: nothing it has in the pipeline is kept. -/
def Thread.resume (t : Thread) : Thread :=
  { t with queue := [], fpc := t.pc, redirect := false, fstall := false, await := none, held := false, hparts := [], walk := none, chunk := none
           sel := false, ebuf := [], ent := none, lagged := false, wreason := none }
def Pkg.resumeAll (s : Pkg) : Pkg :=
  { s with threads := s.threads.filterMap (fun p =>
      let t := p.2.resume
      if t = thr0 p.1 then none else some (p.1, t)) }
/-- Sleeping threads judge their wake conditions again. -/
def Pkg.wakeAll (s : Pkg) : Pkg :=
  s.threads.foldl (fun s p =>
    let s := if p.2.st == .parked && p.2.monWake then s.wakeThr p.1 0 else s
    s.evalWake p.1) s
/-- Thread-origin requests whose answers the captain awaited are sent again with RTY. -/
def Pkg.resendAll (s : Pkg) : Pkg :=
  s.fab.src.foldl (fun s q =>
    let s := s.updSrc q.1 (fun st => { st with gen := s.rtGen s.rtActive, out := st.out.map (fun o => { o with t := some s.now }) })
    s.resendFrom q.1 (s.srcS q.1).out) s
/-- Every instance of both complexes is reset (15 R406). -/
def Pkg.cxResetAll (s : Pkg) : Pkg :=
  (List.range 2).foldl (fun s k => (List.range 257).foldl (fun s n => s.instReset k n) s) s
/-- Every record is replayed: the member becomes captain, unless its partner has not been seen to stop. `low`: TDM_ALIVE has read low;
`whole`: the captain's queued log all arrived. -/
def Pkg.promoted (s : Pkg) (low whole : Bool) : Pkg :=
  if s.tdmState ≠ 9 || s.tdm.live || !s.tdm.inlog.isEmpty then s
  else if !low && s.pins.partner then s.tdmStop 1
  else
    let s : Pkg := { s with pins := { s.pins with partner := false } }
    let top := s.tdm.formed.foldl (fun a f => max a f.1) s.tdm.released
    let s := if whole then s else s.sat tdmCnt 63 48 (top - s.tdm.released)
    let s := (s.setMode 1).cxResetAll
    let s := if s.rb tdmCfg 8 then { s with pcie := { s.pcie with shadow := [] } } else s.wb tdmBase 10 true
    let s : Pkg := { s.resumeAll with tdm := {
      live := true, tell := s.tdm.tell, gsn := s.tdm.doneTo, osn := s.tdm.osn, tfloor := s.tdm.tlast + 1
      hold := s.tdm.hold.map (fun e : Held => { e with go := true }) } }
    ((s.wakeAll.resendAll).holdRun.sat tdmCnt 15 0).tdmCode 1
/-- The last re-released output has left. -/
def Pkg.promotionEnd (s : Pkg) : Pkg :=
  if s.tdmState = 9 ∧ s.tdm.live ∧ s.tdm.hold.all (fun e => decide (e.cls ≤ 1) && s.rb tdmBase 10) then
    ({ s with tdm := { s.tdm with live := false } }).setTdm 3
  else s

/-! ### Held outputs and closed IO (R334, R338) -/

/-- RELEASE_HELD. -/
def Pkg.releaseHeld (s : Pkg) : Pkg :=
  if !s.rb tdmBase 9 then s.tdmErr
  else
    let s := s.wb tdmBase 9 false
    ({ s with tdm := { s.tdm with hold := s.tdm.hold.map (fun e : Held => { e with go := true }) } }).holdRun
/-- DISCARD_HELD: requests that never left complete as unanswered ones do, and their numbers are used again. -/
def Pkg.discardHeld (s : Pkg) : Pkg :=
  if !s.rb tdmBase 9 then s.tdmErr
  else
    let s := s.wb tdmBase 9 false
    let s : Pkg := { s with tdm := { s.tdm with hold := s.tdm.hold.filter (fun e => !s.compares e.cls) } }
    let s := s.fab.src.foldl (fun s q =>
      match q.2.out.find? (·.t.isNone) with
      | some o => (s.updSrc q.1 (fun st => { st with next := o.seq })).finish q.1 (·.t.isNone) 7
      | none => s) s
    s.holdRun
/-- OPEN_IO. -/
def Pkg.openIo (s : Pkg) : Pkg :=
  if !s.rb tdmBase 10 then s.tdmErr
  else ({ (s.wb tdmBase 10 false) with pcie := { s.pcie with shadow := [] } }).holdRun

/-! ### Swap (R339) -/

/-- TDM_CMD = SWAP: every chunk ends. -/
def Pkg.swap (s : Pkg) : Pkg :=
  if !s.paired then s.tdmErr
  else
    let s := (s.threads.filter (fun p => p.2.chunk.isSome)).foldl (fun s p => s.endChunk p.1 14) s
    (s.noChunks.setTdm 10).tell .swap
/-- The captain has started a swap, seen by the stoker. -/
def Pkg.swapPeer (s : Pkg) : Pkg := if s.tdmState = 8 then s.setTdm 10 else s
/-- Outstanding requests count as sent now by the new captain, and as kept by the new stoker. -/
def Pkg.outTimed (s : Pkg) (t : Option Nat) : Pkg :=
  { s with fab := { s.fab with src := s.fab.src.map (fun q => (q.1, { q.2 with out := q.2.out.map (fun o => { o with t := t }) })) } }
/-- Roles are exchanged. -/
def Pkg.swapEnd (s : Pkg) : Pkg :=
  if s.tdmState ≠ 10 then s
  else if s.fabMode = 1 then
    if s.tdm.progress < s.tdm.gsn ∨ s.tdm.hold ≠ [] then s
    else
      let g := s.tdm.gsn
      let o := s.tdm.osn
      { ((s.resumeAll.outTimed none).setMode 2).setTdm 8 with tdm := { gsn := g, doneTo := g, osn := o, released := o, log := [.mark 1], tell := s.tdm.tell } }
  else
    if s.tdm.inlog ≠ [] then s
    else
      let g := s.tdm.doneTo
      let o := s.tdm.formed.foldl (fun a f => max a f.1) s.tdm.released
      let s : Pkg := { s.resumeAll with
        tdm := { gsn := g, osn := o, progress := g, released := o, log := [.mark 1], tell := s.tdm.tell }
        pcie := { s.pcie with shadow := [] } }
      let s := (s.setMode 1).setTdm 5
      (s.outTimed (some s.now)).wakeAll.openChunks.tdmCode 6

/-! ### Page repair (R340) -/

/-- One record of a page repair: four lines. -/
def Pkg.repairRec (s : Pkg) (pa : Nat) : Pkg :=
  let lines := (List.range 4).map (fun k => pa / 64 + k)
  let s := (s.threads.filter (fun p => match p.2.chunk with | some k => lines.any (fun l => k.conflicts l true) | none => false)).foldl
    (fun s p => s.endChunk p.1 12) s
  let (b, p) := s.readBytes pa 256
  s.inb { inbBlank with kind := 8, nbytes := 255, addr := pa, poison := p, data := b } lines
/-- TDM_REPAIR is written. -/
def Pkg.repairWrite (s : Pkg) (v : Word) : Pkg :=
  let r := tdmBase + 0x30
  let s := if v.getLsbD 2 then s.wb r 2 false else s
  if !v.getLsbD 0 then s
  else if !s.paired || s.rb r 1 then s.wb r 2 true
  else
    let page := bits v 51 12
    let s : Pkg := { (s.wb r 1 true) with tdm := { s.tdm with repair := some page } }
    (List.range 16).foldl (fun s k => s.repairRec (4096 * page + 256 * k)) s
/-- The repair ends. -/
def Pkg.repairEnd (s : Pkg) : Pkg :=
  if s.rb (tdmBase + 0x30) 1 then
    ({ (s.wb (tdmBase + 0x30) 1 false) with tdm := { s.tdm with repair := none } }).tdmCode 8
  else s

/-- TDM_CMD is written. -/
def Pkg.tdmCmd (s : Pkg) (v : Word) : Pkg :=
  let s := if v.getLsbD 4 then s.wb (tdmBase + 0x10) 4 false else s
  match bits v 3 0 with
  | 0 => s
  | 1 => s.rejoin
  | 2 => s.swap
  | 3 => s.releaseHeld
  | 4 => s.discardHeld
  | 5 => s.openIo
  | 6 => if s.paired then s.checkpoint else s.tdmErr
  | _ => s.tdmErr
/-- The checkpoint command. -/
def Pkg.checkpointCmd (s : Pkg) : Pkg := s.tdmCmd 6#64

/-- A partner's values arrive (R310). -/
def Pkg.handshake (s : Pkg) (m : TduHello) : Pkg :=
  let role := s.fabMode
  let bad := m.id.toNat ≠ Nat.xor s.selfId 1 ∨ m.check ≠ BitVec.ofNat 64 (leNat ((s.boot.bci.drop 0x48).take 8)) ∨ m.part ≠ s.rd scBase ∨ m.geom ≠ s.hello.geom
  if s.crossDown then s
  else if s.tdmState = 3 then
    -- a partner that has restarted
    let s : Pkg := { s with
      pins := { s.pins with fsIn := false, partner := true }
      tdm := { s.tdm with partnerWait := !decide bad, refused := decide bad } }
    let s := s.tell (.hello s.hello)
    if s.tdm.auto && s.rb tdmCfg 9 && s.rejoinOk then s.rejoinGo else s
  else if s.tdmState ≠ 1 || s.phase ≠ 5 then s
  else
    let s : Pkg := { s with pins := { s.pins with fsIn := false, partner := true } }
    if bad then (if m.captain || role == 2 then s.takeNopair else s.takeCaptain false false)
    else if m.captain then s.takeStoker
    else if m.role = role then
      let s := s.tdmCode 7
      if s.selfId % 2 = 0 then s.takeCaptain true true else s.takeStoker
    else if role = 1 then s.takeCaptain true true
    else s.takeStoker
/-- No partner has answered the captain-role member for 1 s. -/
def Pkg.handshakeLate (s : Pkg) : Pkg :=
  if s.tdmState = 1 ∧ s.phase = 5 ∧ s.fabMode = 1 ∧ s.now ≥ s.boot.t0 + 1000000000000 then s.takeCaptain true false else s

/-! ### Commands -/

/-- TANDEM_HANDSHAKE (R310). -/
def execTandemHandshake (m : TduHello) (s : State) : Out :=
  s.run (·.handshake m)
/-- HANDSHAKE_TIMEOUT (R310). -/
def execHandshakeTimeout (dt : Nat) (s : State) : Out :=
  s.runAt dt (·.handshakeLate)
/-- CHUNK_CONFLICT_COMMIT (R315). -/
def execChunkConflictCommit (h : Htid) (line : Nat) (write : Bool) (s : State) : Out :=
  s.run (·.conflictEnd h.val line write)
/-- CHUNK_TIME_LIMIT (R314). -/
def execChunkTimeLimit (h : Htid) (dt : Nat) (s : State) : Out :=
  s.runAt dt (·.timeEnd h.val)
/-- LOG_CHUNK (R319). -/
def execLogChunk (w : List Word) (s : State) : Out :=
  s.run (·.logOf 1 w)
/-- LOG_INB (R320). -/
def execLogInb (w : List Word) (s : State) : Out :=
  s.run (·.logOf 2 w)
/-- LOG_OUTMAP (R321). -/
def execLogOutmap (w : List Word) (s : State) : Out :=
  s.run (·.logOf 3 w)
/-- LOG_RELEASED (R321). -/
def execLogReleased (w : List Word) (s : State) : Out :=
  s.run (·.logOf 4 w)
/-- LOG_MARK (R321). -/
def execLogMark (w : List Word) (s : State) : Out :=
  s.run (·.logOf 5 w)
/-- DIGEST (R326). -/
def execDigest (osn : Nat) (dg : Word) (s : State) : Out :=
  s.run (·.digestIn osn dg)
/-- PROGRESS (R329). -/
def execProgress (g : Nat) (s : State) : Out :=
  s.run (·.progressIn g)
/-- STOKER_FAILSTOP_COMMAND (R338). -/
def execStokerFailstopCommand (s : State) : Out :=
  s.run (·.commanded)
/-- TDM_FS_IN_ASSERT (R480). -/
def execTdmFsInAssert (alive : Bool) (s : State) : Out :=
  s.run (·.fsAssert alive)
/-- PARTNER_SILENCE_TIMEOUT (R337). -/
def execPartnerSilenceTimeout (dt : Nat) (s : State) : Out :=
  s.runAt dt (·.silence)
/-- STOKER_ISOLATION_TIMEOUT (R337). -/
def execStokerIsolationTimeout (dt : Nat) (s : State) : Out :=
  s.runAt dt (·.isolated)
/-- PROMOTION_REPLAY_DONE (R333). -/
def execPromotionReplayDone (dt : Nat) (low whole : Bool) (s : State) : Out :=
  s.runAt dt (·.promoted low whole)
/-- PROMOTION_COMPLETE (R333). -/
def execPromotionComplete (dt : Nat) (s : State) : Out :=
  s.runAt dt (·.promotionEnd)
/-- REJOIN (R341). -/
def execRejoin (peer : Bool) (s : State) : Out :=
  s.run (fun p => if peer then p.rejoinPeer else p.rejoin)
/-- RESILVER_PASS_END (R341). -/
def execResilverPassEnd (pages : List PageImg) (s : State) : Out :=
  s.run (·.passEnd pages)
/-- CUTOVER_START (R342). -/
def execCutoverStart (dt : Nat) (s : State) : Out :=
  s.runAt dt (·.cutStart)
/-- CUTOVER_COMPLETE (R342). -/
def execCutoverComplete (dt : Nat) (m : PairImg) (s : State) : Out :=
  s.runAt dt (·.cutEnd m)
/-- SWAP (R339). -/
def execSwap (peer : Bool) (s : State) : Out :=
  s.run (fun p => if peer then p.swapPeer else p.swap)
/-- SWAP_COMPLETE (R339). -/
def execSwapComplete (dt : Nat) (s : State) : Out :=
  s.runAt dt (·.swapEnd)
/-- RELEASE_HELD (R338). -/
def execReleaseHeld (s : State) : Out :=
  s.run (·.releaseHeld)
/-- DISCARD_HELD (R338). -/
def execDiscardHeld (s : State) : Out :=
  s.run (·.discardHeld)
/-- OPEN_IO (R334). -/
def execOpenIo (s : State) : Out :=
  s.run (·.openIo)
/-- CHECKPOINT (R314). -/
def execCheckpoint (s : State) : Out :=
  s.run (·.checkpointCmd)
/-- TDM_REPAIR_GO (R340). -/
def execTdmRepairGo (v : Word) (s : State) : Out :=
  s.run (·.repairWrite v)
/-- TDM_REPAIR_COMPLETE (R340). -/
def execTdmRepairComplete (dt : Nat) (s : State) : Out :=
  s.runAt dt (·.repairEnd)
/-- DIVERGENCE_REPORT (R338). -/
def execDivergenceReport (s : State) : Out :=
  s.run (fun p => if p.logging then p.divergeAll else p)

end Sys2Proof.Machine
end

