-- ==== Sys2Proof/Machine/Drs.lean ====
section
/-!
DEFINITION. Machine/Drs.lean: accesses to device register space (00 R8 to R13, 01 R22 to R29): which widths a register
takes, what a read returns, what a write does: the registers whose writes have rules of their own, and else the access codes.
-/
namespace Sys2Proof.Machine

/-! ### Writes -/

/-- x, or the nearer limit. -/
def clampN (lo hi x : Nat) : Nat := max lo (min hi x)
/-- A window register whose WINDOW a write of 0 sets to 1 (06 R183, 08 R218, 09 R251, 10 R290, 17 R429). -/
def hasWindow (w : Win) (o : Nat) : Bool :=
  o == 0xC28 || (match w with
    | .l2 _ | .l3s _ | .lk _ => o == 0x18
    | .mesh _ => o == 0x208 || o == 0x228
    | .mc _ => o == 0x10
    | _ => false)

/-- The Tandem unit's registers (12 R344). -/
def Pkg.tdmWrite (s : Pkg) (o : Nat) (v gen : Word) : Pkg :=
  match o with
  | 0x8 =>
    let g := setBits gen 6 0 (clampN 10 70 (bits v 6 0))
    let g := setBits g 23 16 (max 1 (bits v 23 16))
    let s := s.wr tdmCfg (setBits g 63 48 (min 11000 (bits v 63 48)))
    if s.logging then s.progressIn 0 else s
  | 0x10 => s.tdmCmd v
  | 0x30 => s.repairWrite v
  | _ => s.wr (tdmBase + o) gen

/-- A fabric register (10 R290, 11 R307). -/
def Pkg.fabWrite (s : Pkg) (o : Nat) (v gen : Word) : Pkg :=
  let plain := s.wr (fabBase + o) gen
  if o = 8 then s.rtctlWrite v
  else if o = 0x110 then s.wr (fabBase + o) (if 10 ≤ bits v 4 0 ∧ bits v 4 0 ≤ 20 then gen else setBits gen 4 0 (s.rf (fabBase + o) 4 0))
  else if o = 0x120 then s.leadWrite v
  else if o = 0x130 then s.mcmdWrite v
  else if 0x10000 ≤ o ∧ o < 0x30000 then s.rtWrite (o / 0x10000 - 1) (o % 0x10000 / 8) v
  else if 0x40000 ≤ o ∧ o < 0x41000 then
    let q := (o - 0x40000) / 0x40
    if o % 0x40 = 0 then s.rqCfg q v else if o % 0x40 = 8 then s.rqHead q v else plain
  else if 0x100000 ≤ o ∧ o < 0x140000 then
    let h := (o - 0x100000) / 0x80
    let k := o % 0x80
    if k < 0x40 then s.fabPayload h (k / 8) v else if k = 0x40 then s.fabSend h v else plain
  else plain

/-- A Shimmy register (19 R458, R464). -/
def Pkg.shmWrite (s : Pkg) (o : Nat) (v gen : Word) : Pkg :=
  if !s.shmOpen then s
  else if o = 0 then s.shmCtl v
  else if o < 0x1000 then s.wr (shmBase + o) gen
  else if s.rb shmStat 0 then s.wb shmStat 1 true
  else
    let i := (o - 0x1000) / 0x40
    match o % 0x40 with
    | 0x08 => s.wr (shmBase + o) (if gen = 0#64 then 1#64 else gen)
    | 0x10 => s.wr (shmBase + o) (if gen.toNat > 0x10000 then 0x10000#64 else gen)
    | 0x18 =>
      if s.rf (shmSlot i 0) 3 1 = 3 then s.wr (shmBase + o) (setBits (setBits gen 15 0 (min 800 (bits v 15 0))) 31 16 (min 800 (bits v 31 16)))
      else s.wr (shmBase + o) gen
    | _ => s.wr (shmBase + o) gen

/-- No alert is signalled any more. -/
def Pkg.alertCheck (s : Pkg) : Pkg := if s.alerting then s else { s with mgt := { s.mgt with ibiAt := none } }
/-- A management register (18 R449 to R452). -/
def Pkg.mgtWrite (s : Pkg) (o : Nat) (v gen : Word) : Pkg :=
  let plain := s.wr (mgtBase + o) gen
  let idle (port : Bool) : Pkg := if s.rb (mbxBase port + 0x10) 0 then s else plain
  match o with
  | 0x200 =>
    let p1 := clampN 200 850 (bits v 15 0)
    s.wr (mgtBase + o) (BitVec.ofNat 64 (p1 + clampN p1 1100 (bits v 31 16) * 65536))
  | 0x208 => s.wf (mgtBase + o) 7 0 (clampN 85 105 (bits v 7 0))
  | 0x210 => plain.alertCheck
  | 0x218 => plain.alertCheck
  | 0x300 => s.mbxCmd true v
  | 0x308 => idle true
  | 0x318 => s.wf (mgtBase + o) 15 0 (max 1 (bits v 15 0))
  | 0x10000 => s.mbxCmd false v
  | 0x10008 => idle false
  | 0x20010 => s.fwDone v
  | _ =>
    if 0x1000 ≤ o ∧ o < 0x2000 then idle true
    else if 0x11000 ≤ o ∧ o < 0x12000 then idle false
    else plain

/-- Whether a replayed write is discarded on a stoker (12 R324). -/
def replayDrops (w : Win) (o : Nat) : Bool :=
  (0xC00 ≤ o && o < 0xC40) || (match w with
    | .tic _ => o == 0 || o == 0x30
    | .tdm => o == 0x10 || o == 0x30
    | .mc _ | .lk _ | .odo | .shm | .mgt => true
    | .mesh _ => o == 0x208 || o == 0x228
    | _ => false)

/-- A write of the register at a DRS offset; `thr`: by a thread. -/
def Pkg.drsWrite (s : Pkg) (thr : Bool) (off : Nat) (v : Word) : Pkg :=
  match regAt off with
  | none => s
  | some (w, o, r) =>
    if s.proxied w o || (thr && s.replaying && replayDrops w o) then s
    else
      let g := regWriteBits r.flds false (s.rd off) v
      let g := if hasWindow w o && bits g 63 32 == 0 then setBits g 63 32 1 else g
      let plain := s.wr off g
      match w with
      | .core c =>
        if 0x100 ≤ o ∧ o < 0x140 then
          if s.coreP c ≠ 0 then s else
          -- a HALT or STOP of a replayed thread comes from the log
          if thr && s.replaying && (bits v 2 0 == 2 || bits v 2 0 == 4) then s.thrCtl (8 * c + (o - 0x100) / 8) (setBits v 2 0 0)
          else s.thrCtl (8 * c + (o - 0x100) / 8) v
        else plain
      | .tic h =>
        match o with
        | 0 => s.msiIn h (bits v 31 0)
        | 0x10 | 0x18 | 0x28 => plain.ticChanged h (s.ripe h)
        | 0x20 => s.wr off (regWriteBits r.flds false (s.rd off) (v &&& ~~~0x24#64))
        | 0x30 => if v.getLsbD 0 then s.ticSet h 36 else s
        | _ => plain
      | .l2 n =>
        if o = 8 then s.cacheCmd false n (bits v 1 0)
        else if 0x100 ≤ o ∧ o < 0x180 then s.wayWrite false n ((o - 0x100) / 8) v
        else plain
      | .l3s n =>
        if o = 0 then
          let s := s.wf off 1 0 (bits v 1 0)
          let s := if v.getLsbD 4 then s.spareReserve n else s.spareClear n
          if v.getLsbD 5 then s.evacStart n else s
        else if o = 8 then s.cacheCmd true n (bits v 1 0)
        else if 0x100 ≤ o ∧ o < 0x180 then s.wayWrite true n ((o - 0x100) / 8) v
        else plain
      | .mesh x =>
        if o = 0x400 then s.cpwrWrite (2 * (x - 16)) v
        else if o = 0x408 then s.cpwrWrite (2 * (x - 16) + 1) v
        else if o = 0x800 then s.stctlWrite x v
        else if (o = 0x208 ∧ !bridgeAt x 0) ∨ (o = 0x228 ∧ !bridgeAt x 1) then s
        else plain
      | .mc i => if o = 0x28 then s.pprWrite i v else if o = 0x20000 then s.trwCmd i (bits v 1 0) else plain
      | .lk i => if o = 8 then s.lkCtlWrite i v else plain
      | .rc i =>
        if o = 0x18 then s.wf off 15 0 (clampN 1 60000 (bits v 15 0))
        else if 0x100 ≤ o ∧ o < 0x180 ∧ !s.portUp i ((o - 0x100) / 16) then s
        else plain
      | .iotu u =>
        if o = 0x10 then s.fqbase u v else if o = 0x18 then s.fqptr u v else if o = 0x28 then s.ioInv u v else plain
      | .tdm => s.tdmWrite o v g
      | .sc => if o = 0x100 then s.cacheModeWrite v else if o = 0x210 then s.scReset v else plain
      | .cad =>
        if o = 0 then s.cadCfgWrite v
        else if o = 0x28 then s.cadFreqWrite v
        else if 0x10000 ≤ o ∧ o < 0x12000 then s.schedWrite ((o - 0x10000) / 0x20) (o % 0x20 / 8) v
        else plain
      | .odo => if o = 0x10 then s.odoCmd v else if o = 0x28 then s.odoEvcode v else plain
      | .shm => s.shmWrite o v g
      | .mgt => s.mgtWrite o v g
      | .fab => s.fabWrite o v g
      | .cx _ | .cxbar _ => plain

/-- An offset whose writes by threads are outputs of class MGT (12 R325). -/
def mgtOutput (off : Nat) : Bool := off / 4096 == (mgtBase + 0x22000) / 4096 || off == mgtBase + 0x20010
/-- A store of n bytes by thread h. -/
def Pkg.drsStore (s : Pkg) (h off n x : Nat) : Pkg :=
  if mgtOutput off then s.output 3 (some h) (.mgt off n (x % 2 ^ (8 * n)))
  else if n = 32 then (List.range 4).foldl (fun s i => s.drsWrite true (off + 8 * i) (BitVec.ofNat 64 (x / 2 ^ (64 * i)))) s
  else if mgtBuf off then
    let b := off / 8 * 8
    let lo := 8 * (off % 8)
    s.drsWrite true b (setBits (s.rd b) (lo + 8 * n - 1) lo (x % 2 ^ (8 * n)))
  else s.drsWrite true (off / 8 * 8) (BitVec.ofNat 64 x)

end Sys2Proof.Machine
end

