-- ==== Sys2Proof/Machine/Mem.lean ====
section
/-!
DEFINITION. Machine/Mem.lean: the accesses of a thread's instructions: split accesses (04 R125), watchpoints (R127), the
order of checks (R124), the store buffer (02 R46, R47), loads and misses (R50 to R53), write permission and drains (R46, R49, R51; 07 R191, R198 to
R203), atomics (03 R88, R89; 07 R208, R209), uncached accesses to DRAM (07 R192).
-/
namespace Sys2Proof.Machine

/-! ### Watchpoints -/

/-- What a watchpoint is compared with: a piece, whether it reads and writes, FINFO.ACCESS, and the upper half. -/
structure Seen where
  va : Word
  n : Nat
  rd : Bool
  wr : Bool
  acc : Nat
  half : Bool
deriving DecidableEq, Repr

/-- The lowest byte of a piece that lies in a watchpoint's block, if any. -/
def Seen.hit (x : Seen) (a m : Nat) : Option Word :=
  let lo := va57 x.va
  let b := a / 2 ^ m
  if lo / 2 ^ m ≤ b ∧ b ≤ (lo + x.n - 1) / 2 ^ m then some (x.va + BitVec.ofNat 64 (b * 2 ^ m - lo)) else none

/-- The first element with the least key. -/
def lowest {α : Type} (f : α → Nat) (l : List α) : Option α :=
  l.foldl (fun a x => match a with | none => some x | some y => if f x < f y then some x else some y) none

/-- The watchpoint that an instruction matches (R127): its FADDR, for a data access the lowest byte in the range, and its FINFO. -/
def Thread.watch (t : Thread) (l : List Seen) : Option (Word × Nat) :=
  if t.ps.getLsbD 4 then none
  else
    (List.range 4).findSome? (fun i =>
      let c := t.rs (0x181 + 2 * i)
      let a := bits (t.rs (0x180 + 2 * i)) 56 0
      let m := bits c 9 4
      if !c.getLsbD 0 || !c.getLsbD (10 + t.lvl) then none
      else if c.getLsbD 3 && va57 t.pc / 2 ^ m == a / 2 ^ m then some (t.pc, i)
      else lowest (fun q => q.1.toNat) (l.filterMap (fun x =>
        if (c.getLsbD 1 && x.rd) || (c.getLsbD 2 && x.wr) then
          (x.hit a m).map (fun w => (w, i + x.acc * 1024 + (if x.half then 256 else 0)))
        else none)))

/-! ### Translating and checking an access (R124, R125) -/

/-- Translate one address, walking at once when `now` is set; a walk that cannot be made yet counts as a miss. -/
def Pkg.xl1 (s : Pkg) (h lvl : Nat) (k : AccKind) (now : Bool) (va : Word) : Pkg × XRes :=
  if now then
    match s.xlateNow h lvl va k with
    | (s, .ok (pa, ai)) => (s, .ok pa ai)
    | (s, .error f) => (s, if f.kind = 9 then .miss else .fault f)
  else s.xlate h lvl va k

def Pkg.xlAll (s : Pkg) (h lvl : Nat) (k : AccKind) (now : Bool) : List Piece → Pkg × List (Piece × XRes)
  | [] => (s, [])
  | p :: t =>
    let (s, r) := s.xl1 h lvl k now p.va
    let (s, l) := s.xlAll h lvl k now t
    (s, (p, r) :: l)

/-- A translation outcome that is a data permission fault, the 7th place of R124; other faults have the 6th. -/
def XFault.isPerm (f : XFault) : Bool := f.kind == 1 && f.stage == 0

/-- The outcome for a whole access. -/
inductive Judged where
  | ok (l : List Piece)
  | fault (f : XFault) (half : Bool) (va : Word)
  | miss
deriving DecidableEq, Repr

/-- Translations, walk aborts and stage-2 faults of either half come before permission; FADDR is the lowest faulting
byte, and HALF is 1 only if the lower half passed (R124, R125). -/
def judge (l : List (Piece × XRes)) : Judged :=
  if l.any (fun q => q.2 == .miss) then .miss
  else
    let bad := l.filterMap (fun q => match q.2 with | .fault f => some (q.1, f) | _ => none)
    match bad.head? with
    | none => .ok (l.filterMap (fun q => match q.2 with | .ok pa ai => some { q.1 with pa := pa, ai := ai } | _ => none))
    | some (p, f0) =>
      let f := match bad.find? (fun q => !q.2.isPerm) with | some (_, f) => f | none => f0
      let first := match l.head? with | some q => q.1.va == p.va | none => true
      .fault f (!first) p.va

/-- What a translation meets in the TLBs (02 R67): a miss of the L1 TLB, of the L2 TLB, and whether a walk is needed. -/
def Pkg.tlbSeen (s : Pkg) (h lvl : Nat) (va : Word) (k : AccKind) : Bool × Bool × Bool :=
  let x := s.xctx h lvl
  let a := va57 va
  let c := s.core (h / 8)
  if (xlateFlat x va k).isSome then (false, false, false)
  else
    let m1 := !(if k = .fetch then c.itlb else c.dtlb).any (·.hits x a)
    let m2 := m1 && !c.tlb2.any (·.hits x a)
    let again := match ((if k = .fetch then c.itlb else c.dtlb) ++ c.tlb2).find? (·.hits x a) with
      | some e => e.check x a k == some none
      | none => true
    (m1, m2, again)
/-- The counts of an access that has passed its checks (02 R67): `ev` is 0x15 or 0x16. A fault counts nothing (R124). -/
def Pkg.tlbCount (s : Pkg) (h ev : Nat) (l : List (Bool × Bool × Bool)) : Pkg :=
  let n (f : Bool × Bool × Bool → Bool) : Nat := (l.filter f).length
  ((s.pmu h ev (n (·.1))).pmu h 0x17 (n (·.2.1))).pmu h 0x18 (n (·.2.2))

/-- The BUS_ERR SRC of one of an access's pieces; an access that crosses a line is misaligned for device register space and ECAM (R13,
R125; 14 R366). -/
def Pkg.badPiece (s : Pkg) (err : Pkg → Piece → Option Nat) (ps : List Piece) (p : Piece) : Option Nat :=
  match err s p with
  | some e => some e
  | none => if ps.length > 1 ∧ (region p.pa = 2 ∨ region p.pa = 3) then some 4 else none

/-- An access of n bytes by thread h's head instruction: translated, checked in the order of R124 (`err` gives the BUS_ERR of a
piece), and then performed by `go`. A TLB miss leaves a request for a table walk. -/
def Pkg.access (s : Pkg) (h : Nat) (k : AccKind) (now : Bool) (va : Word) (n : Nat) (rd wr : Bool)
    (err : Pkg → Piece → Option Nat) (go : Pkg → List Piece → Pkg) : Pkg :=
  let t := s.thr h
  let seen := (split va n).map (fun p => s.tlbSeen h t.lvl p.va k)
  let (s, l) := s.xlAll h t.lvl k now (split va n)
  match judge l with
  | .miss => s.updThr h (fun t => { t with walk := some ⟨va, n, k⟩ })
  | .fault f half a => s.xfault h f k half t.pc a
  | .ok ps =>
    match t.watch (ps.mapIdx (fun i p => ⟨p.va, p.n, rd, wr, k.code, decide (i > 0)⟩)) with
    | some (a, fin) => s.fault h 15 t.pc a fin
    | none =>
      match ps.findIdx? (fun p => (s.badPiece err ps p).isSome) with
      | some i =>
        let p := ps.getD i { va := va, n := n }
        s.busErr h ((s.badPiece err ps p).getD 0) k (decide (i > 0)) t.pc p.va
      | none => go (s.tlbCount h 0x15 seen) (ps.map (fun p => { p with ai := s.effAi p.ai }))

/-! ### The store buffer (02 R46, R47) -/

def SbEnt.overlaps (e : SbEnt) (pa n : Nat) : Bool := decide (e.pa < pa + n) && decide (pa < e.pa + e.n)

/-- What the store buffer says of a load's bytes (R47). -/
inductive Fwd where
  | none | data (x : Nat) | hold
deriving DecidableEq, Repr

def forwardOf (l : List SbEnt) (pa n : Nat) : Fwd :=
  match l.filter (·.overlaps pa n) with
  | [] => .none
  | [e] => if e.pa ≤ pa ∧ pa + n ≤ e.pa + e.n then .data (e.data / 2 ^ (8 * (pa - e.pa)) % 2 ^ (8 * n)) else .hold
  | _ => .hold
def Thread.forward (t : Thread) (pa n : Nat) : Fwd := forwardOf t.sb pa n
/-- What it says of one part of a load: AI 2, 3 and 4 loads never take data from it (07 R202). -/
def Thread.fwd (t : Thread) (p : Part) : Fwd :=
  if 2 ≤ p.ai ∧ p.ai ≤ 4 then (if t.sb.any (·.overlaps p.pa p.n) then .hold else .none) else t.forward p.pa p.n

/-! ### Reading a line at the core (02 R50; 06 R167) -/

/-- Whether core c has a line in its L1D or its merge buffer. -/
def Pkg.inCore (s : Pkg) (c line : Nat) : Bool := (s.findL1d c line).isSome || (s.core c).merge.any (fun m => m.line == line && m.perm)

/-- Whether the thread may use one more of the core's miss entries (R52). -/
def Pkg.missRoom (s : Pkg) (h : Nat) : Bool :=
  let m := (s.core (h / 8)).miss
  decide (m.length < 32) && decide ((m.filter (fun e => e.thr == h % 8)).length < 16)

/-- Take a miss entry; load misses and permission requests go past the stride detector (06 R171). -/
def Pkg.addMiss (s : Pkg) (h line : Nat) (k : MissKind) (ai : Nat) (stream : Bool) : Pkg :=
  let c := h / 8
  let (q, st) := if k = .load ∨ k = .perm then (s.core c).stridden line else (s.core c, false)
  let e : Miss := { thr := h % 8, line := line, kind := k, ai := ai, stream := st || stream, data := none }
  s.setCore c { q with miss := q.miss ++ [e] }

/-! ### Sending stores on (07 R198 to R203) -/

/-- A device write leaves the core (07 R198): an output in a pair (12 R325). -/
def Pkg.emitDev (s : Pkg) (h : Nat) (r : DevReq) : Pkg :=
  s.output (if region r.pa = 2 then 1 else 0) (some h) (.dev r)

/-- A global access enters the home agent's queue (11 R291). -/
def Pkg.sendGlobal (s : Pkg) (kind : GKind) (pa n data op : Nat) (who : GFor) : Pkg :=
  { s with fab := { s.fab with gq := s.fab.gq ++ [{ kind := kind, pa := pa, n := n, data := data, op := op, who := who, gsn := s.tdm.gsn + 1 }] } }

/-- Whether a thread has an AI 2 access that is not complete (R199). -/
def Pkg.devBusy (s : Pkg) (h : Nat) : Bool :=
  s.devq.any (fun r => r.h == h && r.wait)
    || s.tdm.hold.any (fun o => o.h == some h && match o.what with | .dev r => r.wait | _ => false)

/-- Whether a store that drains here ends its chunk, and with which cause (12 R314): OUTPUT 8, LOCAL 9. -/
def drainCause (pa ai : Nat) : Nat :=
  match region pa with
  | 0 => if ai ≤ 1 then 0 else 9
  | 3 => if mgtOutput (pa - drsLo) then 8 else 9
  | 5 => if ai = 6 then 0 else 8
  | _ => 8

/-- A store buffer entry drains: the bytes become visible, or leave the core (R49, R192, R198). -/
def Pkg.drainEnt (s : Pkg) (h : Nat) (e : SbEnt) : Pkg :=
  let c := h / 8
  let line := e.pa / 64
  let dev (wait : Bool) : DevReq := { h := h, pa := e.pa, n := e.n, data := e.data, be := 2 ^ e.n - 1, wr := true, wait := wait, t0 := s.now }
  let s := s.chunkDrain h
  let s :=
    match region e.pa with
    | 0 =>
      if e.ai ≤ 1 then (s.chunkWrite h line).coreWrite c e.ai e.pa e.n e.data
      else if s.replaying then s.homeWrite e.pa e.n e.data
      else if e.ai = 4 then (s.chunkWrite h line).wcStore h e.pa e.n e.data
      else { (s.chunkWrite h line) with devq := s.devq ++ [dev (decide (e.ai = 2))] }
    | 3 => ((s.stReq (stCore c) e.n).stRd (stCore c) 0 0).drsStore h (e.pa - drsLo) e.n e.data
    | 5 => if e.ai = 6 then s.coreWrite c 6 e.pa e.n e.data else (s.stReq (stCore c) e.n).sendGlobal .wr e.pa e.n e.data 0 (.store h)
    | _ => if e.ai = 4 ∧ ¬ s.inPair then s.wcStore h e.pa e.n e.data else (s.stReq (stCore c) e.n).emitDev h (dev (decide (e.ai = 2)))
  if s.paired ∧ drainCause e.pa e.ai ≠ 0 then s.commit h (drainCause e.pa e.ai) else s

/-- Whether core c holds a line with write permission. -/
def Pkg.permitted (s : Pkg) (c line : Nat) : Bool := (s.core c).merge.any (fun m => m.line == line && m.perm)

/-- Whether an entry needs write permission in the merge buffer. -/
def SbEnt.merges (e : SbEnt) : Bool := decide (e.ai ≤ 1) || decide (e.ai = 6)

/-- Request write permission for the lines of the oldest entries (R49): each takes a merge buffer line, which may have to be made free
(R51), and a miss entry (R52). -/
def Pkg.wantPerm (s : Pkg) (h : Nat) (l : List SbEnt) : Pkg :=
  l.foldl (fun s e =>
    let c := h / 8
    let line := e.pa / 64
    if !e.merges || (s.core c).merge.any (·.line == line) || !s.missRoom h then s
    else
      let s := s.mergeRoom c
      if (s.core c).merge.length ≥ 16 then s
      else
        let m : MergeLine := { line := line, perm := false, ai := e.ai, data := 0#512, poison := false, last := s.now, owe := some (h % 8) }
        (((s.updCore c (fun k : Core => { k with merge := k.merge ++ [m] })).addMiss h line .perm e.ai false).pmu h 0x12)) s

/-- Entries that are older than what the thread awaits may drain; no younger one before the value has come (R194). -/
def Thread.drains (t : Thread) : Bool := match t.await with | some a => decide (a.nsb > 0) | none => true

/-- The thread's oldest entry is ready to drain (R46): its line has permission, or it needs none. It does not drain into another thread's
open chunk (12 R315); an AI 2 store waits for the previous AI 2 access (R199); a full hold buffer holds outputs (12 R326). -/
def Pkg.drainable (s : Pkg) (h : Nat) : Bool :=
  let t := s.thr h
  match t.sb with
  | [] => false
  | e :: _ =>
    s.threadsRun && t.drains && (!e.merges || s.permitted (h / 8) (e.pa / 64))
      && !(region e.pa == 0 && s.sigWait (some h) (e.pa / 64) true) && !(e.ai == 2 && s.devBusy h)
      && !(drainCause e.pa e.ai == 8 && s.holdFull)

/-- Whether tile t holds a line whose store has still to drain and is ready to: the line is not released before (R51; 07 R191). -/
def Pkg.owing (s : Pkg) (t line : Nat) : Bool :=
  [2 * t, 2 * t + 1].any (fun c => (s.core c).merge.any (fun m => m.line == line && m.perm && (match m.owe with
    | some u => (match (s.thr (8 * c + u)).sb with | e :: _ => e.pa / 64 == line | [] => false) && s.drainable (8 * c + u)
    | none => false)))

/-- The exception of a load whose fill was in error is taken once the thread's older stores have drained (R42, R110). -/
def Pkg.errGo (s : Pkg) (h : Nat) : Pkg :=
  let t := s.thr h
  match t.await with
  | none => s
  | some a =>
    match a.err with
    | none => s
    | some (src, fa, up) =>
      if !t.sb.isEmpty then s
      else (s.updThr h (fun t => { t with await := none })).enter h 11 a.pc fa (BitVec.ofNat 64 (src + 1024 + (if up then 256 else 0))) false

/-- The thread that core c's store port serves next: round-robin by thread number among those whose oldest entry is ready (R46). -/
def Pkg.drainTurn (s : Pkg) (c : Nat) : Option Nat :=
  ((List.range 8).map (fun i => ((s.core c).rrDrain + 1 + i) % 8)).find? (fun u => s.drainable (8 * c + u))

/-- STORE_DRAIN (R46, R49): the thread's oldest entry drains if it is ready and the port comes to it, round-robin by thread number; one
that lacks permission asks for it, for itself and the next three. -/
def Pkg.storeDrain (s : Pkg) (h : Nat) : Pkg :=
  let t := s.thr h
  let c := h / 8
  match t.sb with
  | [] => s
  | e :: rest =>
    if !s.drainable h then (if s.threadsRun && e.merges && !s.permitted c (e.pa / 64) then s.wantPerm h (t.sb.take 4) else s)
    else if s.drainTurn c != some (h % 8) then s
    else
      let s := s.updThr h (fun t => { t with sb := rest, await := t.await.map (fun a => { a with nsb := a.nsb - 1 }) })
      let s := s.updCore c (fun k => { k with rrDrain := h % 8 })
      (s.drainEnt h e).errGo h

/-- The remote home refused the line: the stores that wait for it are lost, and recorded (11 R300). -/
def Pkg.permFail (s : Pkg) (c line src : Nat) : Pkg :=
  let s := s.updCore c (fun k => { k with
    miss := k.miss.filter (fun e => !(e.line == line && e.kind == .perm)), merge := k.merge.filter (fun m => m.line != line || m.perm) })
  (List.range 8).foldl (fun s t =>
    let h := 8 * c + t
    let mine (e : SbEnt) : Bool := e.pa / 64 == line && e.merges
    let l := (s.thr h).sb.filter mine
    let s := s.updThr h (fun t => { t with
      sb := t.sb.filter (fun e => !mine e), await := t.await.map (fun a => { a with nsb := ((t.sb.take a.nsb).filter (fun e => !mine e)).length }) })
    (l.foldl (fun s e => s.werr h (match src with | 1 => 2 | 6 => 3 | _ => 7) e.pa) s).errGo h) s

/-- PERMISSION_GRANT (R49, R191): the line is in the tile's L2 in M or E, or the sibling's merge buffer gives it up; the error `e` is met
by the lookup of the L2 (06 R179). -/
def Pkg.permGrant (s : Pkg) (c line ns : Nat) (e : ArrErr) : Pkg :=
  match (s.core c).miss.find? (fun m => m.line == line && m.kind == .perm) with
  | none => s
  | some m =>
    let t := c / 2
    let u := sibling c
    if (s.trkOf line).isSome then s
    else if m.err.isSome then s.permFail c line (m.err.getD 5)
    else
      let own := s.stL2 t line == .M || s.stL2 t line == .E
      if (!own && !s.permitted u line) || s.owing t line then s
      else
        let s := s.arrayErr false t line (s.findL2 t line) e
        let held := (s.mergeOf u line).filter (·.perm)
        let s := (s.releaseMerge u line).dropL1 u line false
        let dp : Option (BitVec 512 × Bool) := match s.findL2 t line with
          | some k => some ((s.getL2 k).data, (s.getL2 k).poison)
          | none => held.map (fun q => (q.data, q.poison))
        match dp with
        | none => s
        | some (d, p) =>
          let s : Pkg := match s.findL2 t line with | some k => s.putL2 k { s.getL2 k with age := 0 } | none => s
          let s : Pkg := match m.asked with | some n => s.stRd (stCore c) n ns | none => s
          s.mergeIn c line m.ai d p (some m.thr)

/-! ### Loads (02 R47, R50 to R53) -/

/-- A line's error on an access of the head that has not completed, found while it executes: its precise exception. -/
def Pkg.poisonNow (s : Pkg) (h pa : Nat) (k : AccKind) (half : Bool) : Pkg :=
  let t := s.thr h
  if t.await.isSome || !t.sb.isEmpty then s
  else
    let s := s.poisonUsed (.core (h / 8)) pa (some h)
    if s.boot.compat then s.enter h 11 t.pc (BitVec.ofNat 64 (pa / 64 * 64)) (BitVec.ofNat 64 (3 + 1024 * k.code + (if half then 256 else 0))) false else s

/-- The line of part i of a load that awaits its value is in error: SRC 3 with the line's PA, or the SRC of a remote home with the global PA
(11 R300). The thread goes back to the load: what followed it is undone (R42, R62), and its exception is taken at the load's own
boundary once the older stores have drained. -/
def Pkg.loadError (s : Pkg) (h i src : Nat) : Pkg :=
  match (s.thr h).await with
  | none => s
  | some a =>
    let pa := (a.parts.getD i ⟨0, 0, 0, none⟩).pa
    let s := if src = 3 then s.poisonUsed (.core (h / 8)) pa (some h) else s
    let b := { a with blk := true, snap := none, err := some (src, BitVec.ofNat 64 (if src = 3 then pa / 64 * 64 else pa), decide (i > 0)) }
    (if a.snap.isSome then s.undoLoad h (some b) else s.updThr h (fun t => { t with await := some b })).errGo h

/-- A miss entry for a line that the thread's load needs, unless it has one for it or may use no more (R52). -/
def Pkg.loadMiss (s : Pkg) (h line ai : Nat) : Pkg :=
  if (s.core (h / 8)).miss.any (fun m => m.line == line && m.kind == .load && m.thr == h % 8) || !s.missRoom h then s
  else (s.addMiss h line .load ai false).pmu h 0x0E

/-- A line that has just arrived, or that the core has in its L1D or merge buffer (R50). -/
def Pkg.lineAt (s : Pkg) (h line : Nat) (given : Option (Nat × Option (BitVec 512 × Bool))) : Pkg × Option (BitVec 512 × Bool) :=
  match given.filter (·.1 == line) with
  | some (_, r) => (s, r)
  | none =>
    let c := h / 8
    if s.inCore c line then (s.pmu h (if (s.findL1d c line).isSome then 0x0D else 0x0E)).lookTile c line false else (s, none)

/-- The waiting load of thread h takes the values of its parts in order (R194), as far as the store buffer's older entries and the core
hold them; for the first line that it does not hold a miss entry is taken (R52). `given`: a line that has just arrived, with its
data, if any. -/
def Pkg.loadGo (s : Pkg) (h : Nat) (given : Option (Nat × Option (BitVec 512 × Bool))) : Nat → Pkg
  | 0 => s
  | fuel + 1 =>
    match (s.thr h).await with
    | none => s
    | some a =>
      match a.parts.findIdx? (·.got.isNone) with
      | none => s.loadDone h
      | some i =>
        let p := a.parts.getD i ⟨0, 0, 0, none⟩
        let line := p.pa / 64
        if s.sigWait (some h) line false then s
        else
          match forwardOf ((s.thr h).sb.take a.nsb) p.pa p.n with
          | .data x => ((s.chunkRead h line).partDone h i x).loadGo h given fuel
          | _ =>
            match s.lineAt h line given with
            | (s, some (_, true)) => s.loadError h i 3
            | (s, some (d, false)) => ((s.chunkRead h line).partDone h i (lineGet d (p.pa % 64) p.n)).loadGo h given fuel
            | (s, none) => s.loadMiss h line p.ai

/-- Whether a part of a load is cacheable. -/
def Part.plain (p : Part) : Bool := decide (p.ai ≤ 1) || p.ai == 6

/-- Why a load is held at M1 (R47, R52; 07 R194, R202). -/
def Pkg.loadHeld (s : Pkg) (h : Nat) (ps : List Part) : Bool :=
  let t := s.thr h
  t.await.isSome || ps.any (fun p => t.fwd p == .hold)
    || (ps.any (fun p => p.plain && t.fwd p == .none && !s.inCore (h / 8) (p.pa / 64)) && !s.missRoom h)

/-- The load is held: it has made no access, and is selected again as if new (R47). A partial overlap is counted (R67). -/
def Pkg.holdLoad (s : Pkg) (h : Nat) (ps : List Part) : Pkg :=
  let t := s.thr h
  let s := if t.await.isNone && ps.any (fun p => t.fwd p == .hold) then s.pmu h 0x10 else s
  s.updThr h (fun t => { t with held := true, hparts := ps, sel := false })

/-- LOAD_REISSUE: what held the load has gone. A load whose next part has found no miss entry, or another thread's open chunk, goes on. -/
def Pkg.loadReissue (s : Pkg) (h : Nat) : Pkg :=
  let t := s.thr h
  if t.held then (if s.loadHeld h t.hparts then s else s.updThr h (fun t => { t with held := false, hparts := [] }))
  else
    match t.await with
    | none => s
    | some a =>
      if a.snap.isNone || (s.core (h / 8)).miss.any (fun m => m.thr == h % 8 && m.kind == .load && (a.parts.find? (·.got.isNone)).any (fun p => p.pa / 64 == m.line)) then s
      else s.loadGo h none 3

/-- A device read of thread h, or an uncached one of DRAM, that must wait (07 R192, R199). -/
def Pkg.devLoad (s : Pkg) (h : Nat) (a : Await) : Pkg :=
  let s := a.parts.foldl (fun s p => if region p.pa = 0 then s else s.stReq (stCore (h / 8)) 0) (s.updThr h (fun t => { t with await := some a }))
  { s with devq := s.devq ++ (a.parts.mapIdx (fun i p =>
      ({ h := h, pa := p.pa, n := p.n, data := 0, be := 2 ^ p.n - 1, wr := false, wait := p.ai == 2, part := i } : DevReq))) }

/-- The input that a replayed step consumes in place of its access (12 R322). -/
def Pkg.replayInput (s : Pkg) (cause : Nat) : Option ReplayIn := s.tdm.inp.filter (fun i => i.cause == cause)

/-- The value of a load from values for its parts, the lower first. -/
def joinVals (l : List (Nat × Nat)) : Nat := l.foldr (fun q acc => q.2 + acc * 2 ^ (8 * q.1)) 0

/-- A load on a replaying member: its input comes from the log, or its access is performed at once (12 R322, R324). -/
def Pkg.loadReplay (s : Pkg) (h : Nat) (d : Dest) (va : Word) (ps : List Piece) (cause : Nat) : Pkg :=
  let t := s.thr h
  let p0 := ps.getD 0 { va := va, n := 0 }
  let n := (ps.map (·.n)).sum
  if cause == 4 || cause == 6 then
    match s.replayInput cause with
    | none => s
    | some i =>
      if !t.sb.isEmpty then s
      else
        let s : Pkg := if cause = 6 then (ps.zipIdx).foldl (fun s q => s.sendGlobal .rd q.1.pa q.1.n 0 0 (.load h q.2)) s else s
        if i.fault > 0 then (s.chunkStep h).busErr h (i.fault - 1) .load false t.pc (if cause = 6 then BitVec.ofNat 64 p0.pa else va)
        else (s.updThr h (fun t => t.deliver d (i.value % 2 ^ (8 * n)))).retire h
  else
    let vals := ps.map (fun p => (p, t.fwd ⟨p.pa, p.ai, p.n, none⟩))
    if vals.any (fun q => q.2 == .hold) || (ps.any (fun p => 2 ≤ p.ai && p.ai ≤ 4) && !t.sb.isEmpty) then s
    else
      match vals.find? (fun q => q.2 == .none && (s.homeRead q.1.pa q.1.n).2) with
      | some q => s.poisonNow h q.1.pa .load (q.1.pa != p0.pa)
      | none =>
        let x := joinVals (vals.map (fun q => (q.1.n, match q.2 with | .data x => x | _ => (s.homeRead q.1.pa q.1.n).1)))
        let s := (vals.filter (·.2 == .none)).foldl (fun s q => s.seenBytes q.1.pa q.1.n) s
        (s.updThr h (fun t => t.deliver d x)).retire h

/-- A cacheable load at M1: it completes from what the core has, or its destination awaits the fill and the thread goes on (R50, R53). -/
def Pkg.loadPlain (s : Pkg) (h : Nat) (a : Await) : Pkg :=
  let t := s.thr h
  let snap : Snap := { g := t.g, f := t.f, v := t.v, sr := t.sr, chunk := t.chunk }
  let s := if a.parts.all (fun p => match t.fwd p with | .data _ => true | _ => false) then s.pmu h 0x0F else s
  let s := (s.updThr h (fun t => { t with await := some { a with nsb := t.sb.length } })).loadGo h none 3
  match (s.thr h).await with
  | none => s
  | some b =>
    if b.err.isSome then s
    else ((s.updThr h (fun t => { t with await := some { b with blk := false, snap := some snap } })).retire h).stepEnd h 0

/-- Perform a load whose pieces have passed every check (R47, R50 to R53; 07 R198 to R203). -/
def Pkg.loadPerform (s : Pkg) (h : Nat) (d : Dest) (va : Word) (ps : List Piece) : Pkg :=
  let t := s.thr h
  let parts : List Part := ps.map (fun p => ⟨p.pa, p.ai, p.n, none⟩)
  let cause := causeOfAll (ps.map (fun p => (p.pa, p.ai)))
  let n := (ps.map (·.n)).sum
  let a : Await := { dest := d, parts := parts, va := va, pc := t.pc, blk := true, nsb := t.sb.length, t0 := s.now }
  let p0 := ps.getD 0 { va := va, n := n }
  if s.replaying then s.loadReplay h d va ps cause
  else if s.loadHeld h parts then s.holdLoad h parts
  else if parts.all (·.plain) then
    if parts.any (fun p => s.sigWait (some h) (p.pa / 64) false) then s else s.loadPlain h a
  else if p0.ai = 5 then
    let vals := parts.map (fun p => (p.n, t.fwd p))
    if vals.all (fun q => match q.2 with | .data _ => true | _ => false) then
      let x := joinVals (vals.map (fun q => (q.1, match q.2 with | .data x => x | _ => 0)))
      (((s.pmu h 0x0F).updThr h (fun t => t.deliver d x)).retire h).stepEnd h cause 0 0 0 x n
    else if t.sb.any (·.ai == 5) then s
    else
      (parts.zipIdx).foldl (fun s q => (s.stReq (stCore (h / 8)) 0).sendGlobal .rd q.1.pa q.1.n 0 0 (.load h q.2)) (s.updThr h (fun t => { t with await := some a }))
  else if p0.ai ≠ 4 ∧ (!t.sb.isEmpty ∨ s.devBusy h) then s
  else if region p0.pa = 3 then
    let (s, x) := ((s.stReq (stCore (h / 8)) 0).stRd (stCore (h / 8)) n 0).drsLoad (p0.pa - drsLo) n
    ((s.updThr h (fun t => t.deliver d x)).retire h).stepEnd h 4 0 0 0 x n
  else
    let s := if p0.ai = 4 then ps.foldl (fun s p => s.wcFlush (h / 8) (fun b => b.line == p.pa / 64)) s else s
    s.devLoad h a

/-- FILL_ARRIVAL for a load (R53): miss entry i of core c is answered; the error `e` is met by the lookup of the tile's L2. `ns` is the
latency that the core's statistics record (08 R233). Another thread's open chunk on the line ends first (12 R315), and a store that
is ready to drain into the line drains first (07 R191). -/
def Pkg.fillLoad (s : Pkg) (c i ns : Nat) (e : ArrErr) (m : Miss) : Pkg :=
  let h := 8 * c + m.thr
  if s.sigWait (some h) m.line false || s.owing (c / 2) m.line then s
  else
    let s := s.updCore c (fun k => { k with miss := k.miss.eraseIdx i })
    let s := match m.asked with | some n => s.stRd (stCore c) n ns | none => s
    match m.err with
    | some src =>
      match (s.thr h).await.bind (fun a => a.parts.findIdx? (fun p => p.pa / 64 == m.line && p.got.isNone)) with
      | some j => s.loadError h j src
      | none => s
    | none =>
      let s := if m.data.isNone then s.arrayErr false (c / 2) m.line (s.findL2 (c / 2) m.line) e else s
      match s.lookTile c m.line m.stream with
      | (s, some r) => s.loadGo h (some (m.line, some r)) 3
      | (s, none) => s.loadGo h (some (m.line, m.data)) 3

/-! ### Atomics (03 R88, R89; 07 R208, R209) -/

/-- The thread's other work that an atomic or a fence waits for (R89, R91). -/
def Pkg.quiet (s : Pkg) (h : Nat) : Bool := (s.thr h).await.isNone && (s.thr h).sb.isEmpty

/-- CIVA of one line to the point of coherence, its write-back charged to a thread (07 R209; 03 R96). -/
def Pkg.flushLine (s : Pkg) (line : Nat) (h : Option Nat) : Pkg :=
  let dirty := (s.mergeAny line).isSome || (s.holders line).any (fun u => s.stL2 u line == .M || s.stL2 u line == .O)
    || (match s.findL3 line with | some k => (s.getL3 k).st == .M | none => false)
  let (d, p) := s.curLine line
  let s := s.purgeOthers none line
  let s := match s.findL3 line with | some k => s.putL3 k {} | none => s
  if dirty then
    let s := match h with | some u => s.stReq (stCore (u / 8)) 64 | none => s
    s.toStore line d p h
  else s

/-- Perform an atomic whose address has passed every check: the result goes to `d`. -/
def Pkg.atomPerform (s : Pkg) (h : Nat) (d : Dest) (a : AtomOp) (p : Piece) : Pkg :=
  let t := s.thr h
  let c := h / 8
  let line := p.pa / 64
  if !s.quiet h then s
  else if s.replaying && p.ai == 5 then
    match s.replayInput 6 with
    | none => s
    | some i =>
      let s := s.sendGlobal .atom p.pa a.n (if a.op ≤ 1 then a.cmp + a.x * 2 ^ (8 * a.n) else a.x) (a.op + 16 * a.rm) (.atomic h)
      if i.fault > 0 then (s.chunkStep h).busErr h (i.fault - 1) .atomic false t.pc (BitVec.ofNat 64 p.pa)
      else
        (s.updThr h (fun t =>
          let t := t.deliver d (i.value % 2 ^ (8 * a.n))
          if a.op = 10 then t.ws 0x018 (t.rs 0x018 ||| BitVec.ofNat 64 (i.dfl * 65536)) else t)).retire h
  else if p.ai ≤ 1 then
    if s.sigWait (some h) line true || (s.trkOf line).isSome || s.cores.any (fun q => s.owing (q.1 / 2) line) then s
    else
      let s := s.wcFlush c (fun _ => true)
      let s := s.acquire c line p.ai
      match (s.core c).merge.find? (fun m => m.line == line && m.perm) with
      | none => s
      | some m =>
        if m.poison then s.poisonNow h p.pa .atomic false
        else
          let old := lineGet m.data (p.pa % 64) a.n
          let (nw, fl) := a.apply old
          let s := s.chunkRead h line
          let s := match nw with
            | some x => ((s.chunkWrite h line).mergeWrite c line (p.pa % 64) a.n x)
            | none => s
          let s := if p.ai = 1 then s.releaseMerge c line else s
          let s := s.updThr h (fun t =>
            let t := t.deliver d old
            if a.op = 10 then t.ws 0x018 (t.rs 0x018 ||| BitVec.ofNat 64 (fl * 65536)) else t)
          ((s.pmu h 0x1C).retire h).stepEnd h 0
  else if p.ai = 6 && ((s.trkOf line).isSome || s.cores.any (fun q => s.owing (q.1 / 2) line)) then s
  else
    let s := s.wcFlush c (fun _ => true)
    let s := if p.ai = 6 then s.flushLine line (some h) else s
    let s := (s.stReq (stCore c) 0).updThr h (fun t => { t with
      await := some { dest := d, parts := [⟨p.pa, p.ai, a.n, none⟩], va := p.va, pc := t.pc, blk := true, atomic := true, dflags := decide (a.op = 10), t0 := s.now } })
    (s.sendGlobal .atom p.pa a.n (if a.op ≤ 1 then a.cmp + a.x * 2 ^ (8 * a.n) else a.x) (a.op + 16 * a.rm) (.atomic h)).pmu h 0x1C

/-! ### Uncached accesses to DRAM (07 R192) -/

/-- UNCACHED_HOME_ACCESS: the thread's next access of this kind is performed at the line's home, after an active transaction for the line
(R189) and after what the core's threads have sent to it before (R201, R202). `ns`: the latency that the statistics record (08 R233);
the error `e` is met by the lookup of the slice (06 R179). -/
def Pkg.uncachedHome (s : Pkg) (h ns : Nat) (e : ArrErr) : Pkg :=
  match s.devq.find? (fun r => r.h == h && region r.pa == 0) with
  | none => s
  | some r =>
    let line := r.pa / 64
    let c := h / 8
    if s.sigWait (some h) line r.wr || (s.trkOf line).isSome
        || (s.devq.takeWhile (· != r)).any (fun q => q.wr && q.h / 8 == c && q.pa / 64 == line) then s
    else
      let s := { s with devq := s.devq.erase r }
      let s := s.arrayErr true (homeOf line) line (s.findL3 line) e
      let bytes := if r.wr then ((List.range 64).filter (fun k => r.be.testBit k)).length else 0
      let s := (s.stReq (stCore c) bytes).stRd (stCore c) (if r.wr then 0 else r.n) ns
      if r.wr then
        let o := r.pa % 64
        s.homeWriteMasked line (BitVec.ofNat 64 (r.be * 2 ^ o)) (BitVec.ofNat 512 (r.data * 2 ^ (8 * o)))
      else
        let (s, x, p) := s.homeTake r.pa r.n
        if p then s.loadError h r.part 3 else (s.chunkRead h line).partDone h r.part x

end Sys2Proof.Machine
end

