-- ==== Sys2Proof/Machine/Pcie.lean ====
section
/-!
DEFINITION. Machine/Pcie.lean: the root complexes (14 R361 to R380): configuration accesses, the routing of MMIO, completions and
timeouts, inbound requests, ATS, link and error events, PTM (13 R358).
-/
namespace Sys2Proof.Machine

/-! ### Configuration writes (R366 to R371, R380) -/

/-- A write of enabled bits of a function's register, with its effects. -/
def Pkg.cfgWrite (s : Pkg) (f : Cfn) (off : Nat) (be x : BitVec 32) : Pkg :=
  let old := s.cfg f off
  let new := (f.reg off).write old be x
  let hot (i : Nat) : Bool := (be &&& x).getLsbD i
  if s.inFlr f then s
  else if off = 0x44 ∧ (new.toNat % 4 = 1 ∨ new.toNat % 4 = 2) then s.setCfg f off ((new &&& ~~~3#32) ||| (old &&& 3#32))
  else
    match f with
    | .rp r p =>
      let s := s.setCfg f off new
      if off = 0x168 then (if old.getLsbD 0 && !new.getLsbD 0 then s.wb (rpStat r p) 13 false else s)
      else if off = 0x164 then (if hot 22 && s.cfgF f 0x164 17 16 != 0 then s.dpcTrigger r p 3 0 else s)
      else s
    | .pf k =>
      if off = 4 then
        let s := if !new.getLsbD 2 then s.bmeClear f else s
        (s.setCfg f off new).msixPending k 0
      else if off = 0x50 then (s.setCfg f off new).msixPending k 0
      else if off = 0x78 then
        let s := s.setCfg f off new
        if hot 15 then s.flr k 0 else s
      else if off = 0x158 then (s.vfEnable k (new.getLsbD 0)).setCfg f off new
      else if off = 0x160 then
        if s.vfOn k then s else s.setCfg f off (if new.toNat % 65536 > 256 then 256#32 else new)
      else if off = 0x170 then (if new = 1#32 ∨ new = 0x10#32 then s.setCfg f off new else s)
      else s.setCfg f off new
    | .vf k n =>
      if off = 4 then
        let s := if !new.getLsbD 2 then s.bmeClear f else s
        (s.setCfg f off new).msixPending k n
      else if off = 0x50 then (s.setCfg f off new).msixPending k n
      else if off = 0x78 then (if hot 15 then s.flr k n else s)
      else s.setCfg f off new

/-- All ones of n bytes. -/
def ones (n : Nat) : Nat := 2 ^ (8 * n) - 1
/-- The byte-enabled part of a doubleword for n bytes at an offset. -/
def cfgBe (off n : Nat) : BitVec 32 := BitVec.ofNat 32 (ones n * 2 ^ (8 * (off % 4)))
/-- A configuration access inside the package: n bytes, a read or a write. -/
def Pkg.cfgAccess (s : Pkg) (f : Cfn) (off n : Nat) (wr : Option Nat) : Pkg × Nat :=
  if !s.cfnLive f then (s, ones n)
  else
    match wr with
    | some x => (s.cfgWrite f (off / 4 * 4) (cfgBe off n) (BitVec.ofNat 32 (x * 2 ^ (8 * (off % 4)))), 0)
    | none => (s, (s.cfgRead f (off / 4 * 4)).toNat / 2 ^ (8 * (off % 4)) % 2 ^ (8 * n))

/-- The root port whose secondary-to-subordinate range holds a bus (R365); never buses 0 to 2. -/
def Pkg.busPort (s : Pkg) (bus : Nat) : Option Nat :=
  if bus < 3 then none
  else (List.range 32).find? (fun i =>
    let f : Cfn := .rp (i / 8) (i % 8)
    s.portUp (i / 8) (i % 8) && decide (s.cfgF f 0x18 15 8 ≤ bus) && decide (bus ≤ s.cfgF f 0x18 23 16))
/-- A root port's link carries requests: up, and not in containment. -/
def Pkg.linkOk (s : Pkg) (r p : Nat) : Bool := s.rb (rpStat r p) 0 && !s.rb (rpStat r p) 13

/-- Why a configuration request fails finally, as AER and RP PIO bits (R366). -/
def Pkg.cfgFail (s : Pkg) (port : Nat) (a : Cpl) (rid : Nat) : Pkg :=
  let (bit, pio) := match a with | .ca => (15, 1) | .crs | .timeout => (14, 2) | _ => (20, 0)
  (s.aerUncor (port / 8) (port % 8) bit rid).rpPio (port / 8) (port % 8) pio

/-- A configuration request of a thread ends: a read delivers its value. -/
def Pkg.cfgEnd (s : Pkg) (q : DevReq) (x : Nat) : Pkg :=
  if q.wr then s.stRd (stCore (q.h / 8)) 0 ((s.now - q.t0) / 1000) else (s.stAnswer q.h q.n).partDone q.h q.part x

/-- A request below a root port is answered, or stays outstanding for a retry. -/
def Pkg.cfgAnswer (s : Pkg) (q : DevReq) (port : Nat) (a : Cpl) : Pkg :=
  let drop (s : Pkg) : Pkg := { s with devq := s.devq.erase q }
  let off := q.pa % 4096
  let rid := q.pa / 4096 % 65536
  match a with
  | .ok x => (drop s).cfgEnd q (x % 2 ^ (8 * q.n))
  | .crs =>
    if !q.wr && off == 0 && decide (q.n ≥ 2) && s.cfgB (.rp (port / 8) (port % 8)) 0x7C 4 then
      (drop s).cfgEnd q (ones q.n - 65535 + 1)
    else if q.sent && decide (s.now ≥ q.t0 + 1000000000000) then ((drop s).cfgFail port a rid).cfgEnd q (ones q.n)
    else { s with devq := s.devq.map (fun d => if d = q then { q with sent := true, port := port, t0 := if q.sent then q.t0 else s.now } else d) }
  | _ => ((drop s).cfgFail port a rid).cfgEnd q (ones q.n)

/-- ECAM_ACCESS: thread h's next access to configuration space (R365, R366); `a` is how a device below a root port answers. -/
def Pkg.ecamAccess (s : Pkg) (h : Nat) (a : Cpl) : Pkg :=
  match s.devq.find? (fun q => q.h == h && region q.pa == 2 && !q.sent) with
  | none => s
  | some q =>
    -- the halves of a split AI 2 access go one at a time (07 R199)
    if q.wait && s.devq.any (fun d => d.h == h && d.wait && d.sent) then s else
    let o := q.pa % 2 ^ 36
    let rid := o / 4096 % 65536
    let off := o % 4096
    let drop (s : Pkg) : Pkg := { s with devq := s.devq.erase q }
    let none' := (drop s).cfgEnd q (ones q.n)
    if o ≥ 2 ^ 28 then none'
    else
      match cfnOf rid with
      | some f =>
        let (s, x) := (drop s).cfgAccess f off q.n (if q.wr then some q.data else none)
        s.cfgEnd q x
      | none =>
        match s.busPort (rid / 256) with
        | none => none'
        | some port =>
          if !s.linkOk (port / 8) (port % 8) then ((drop s).cfgFail port .ur rid).cfgEnd q (ones q.n)
          else
            let bit := if off ≤ 4 ∧ 4 < off + q.n then 2 ^ (8 * (4 - off) + 2) else 0
            let hold := q.wr && s.bmeHeld && decide (bit ≠ 0) && q.data / bit % 2 == 1
            let s := if hold then { s with pcie := { s.pcie with shadow := if s.pcie.shadow.contains rid then s.pcie.shadow else rid :: s.pcie.shadow } }
              else if q.wr && decide (bit ≠ 0) then { s with pcie := { s.pcie with shadow := s.pcie.shadow.filter (· != rid) } } else s
            let s := { s with reply := .tlp port true q.wr o q.n (if hold then q.data - bit else q.data) q.be false }
            s.cfgAnswer q port a
/-- CRS_RETRY: a request that received CRS is sent again after 1 ms. -/
def Pkg.crsRetry (s : Pkg) (h : Nat) (a : Cpl) : Pkg :=
  match s.devq.find? (fun q => q.h == h && region q.pa == 2 && q.sent) with
  | none => s
  | some q => if s.now ≥ q.t0 + 1000000000 then s.cfgAnswer q q.port a else s

/-! ### Routing of memory requests (R372, R373) -/

/-- Where a PCIe address goes. -/
inductive MmTgt where
  | pf (k bar off : Nat) | vf (k n off : Nat) | port (r p : Nat)
deriving DecidableEq, Repr

/-- The root complex whose aperture holds a PA. -/
def Pkg.apertureOf (s : Pkg) (pa : Nat) : Option Nat :=
  (List.range 4).find? (fun r => decide (s.rf (rcBase r + 8) 51 30 ≤ pa / 2 ^ 30) && decide (pa / 2 ^ 30 ≤ s.rf (rcBase r + 0x10) 51 30) && region pa == 1)
/-- A 64-bit BAR's base. -/
def Pkg.barBase (s : Pkg) (f : Cfn) (off lowBits : Nat) : Nat :=
  (s.cfg f off).toNat / 2 ^ lowBits * 2 ^ lowBits + (s.cfg f (off + 4)).toNat * 2 ^ 32
/-- The windows of a root port (R372): 32-bit non-prefetchable, 64-bit prefetchable. -/
def Pkg.rpClaims (s : Pkg) (r p a : Nat) : Bool :=
  let f : Cfn := .rp r p
  let m := (s.cfg f 0x20).toNat
  let q := (s.cfg f 0x24).toNat
  let in1 := decide (a < 2 ^ 32) && decide (m % 65536 / 16 * 2 ^ 20 ≤ a) && decide (a < (m / 2 ^ 20 + 1) * 2 ^ 20)
  let base := q % 65536 / 16 * 2 ^ 20 + (s.cfg f 0x28).toNat * 2 ^ 32
  let lim := (q / 2 ^ 20 + 1) * 2 ^ 20 + (s.cfg f 0x2C).toNat * 2 ^ 32
  s.portUp r p && s.cfgB f 4 1 && (in1 || (decide (base ≤ a) && decide (a < lim)))
/-- The target of a PA in the MMIO region; a complex in D3hot or in FLR claims nothing. -/
def Pkg.mmTarget (s : Pkg) (pa : Nat) : Option MmTgt :=
  match s.apertureOf pa with
  | none => none
  | some r =>
    let a := pa - 2 ^ 51
    let cx : Option MmTgt :=
      if r % 2 = 1 then none
      else
        let k := r / 2
        let f : Cfn := .pf k
        let live := s.cfgF f 0x44 1 0 != 3 && !s.inFlr f
        let b0 := s.barBase f 0x10 20
        let b2 := s.barBase f 0x18 24
        let bv := s.barBase f 0x174 16
        if live && s.cfgB f 4 1 && decide (b0 ≤ a) && decide (a < b0 + 2 ^ 20) then some (.pf k 0 (a - b0))
        else if live && s.cfgB f 4 1 && decide (b2 ≤ a) && decide (a < b2 + 2 ^ 24) then some (.pf k 2 (a - b2))
        else if live && s.vfOn k && s.cfgB f 0x158 3 && decide (bv ≤ a) && decide (a < bv + s.numVfs k * 65536)
            && !s.inFlr (.vf k ((a - bv) / 65536 + 1)) then some (.vf k ((a - bv) / 65536 + 1) ((a - bv) % 65536))
        else none
    match cx with
    | some t => some t
    | none => ((List.range 8).find? (fun p => s.rpClaims r p a)).map (fun p => MmTgt.port r p)

/-- A read of n bytes of a complex's BAR; none: UR (15 R407). -/
def Pkg.barRead (s : Pkg) (t : MmTgt) (n : Nat) : Option Nat :=
  let get (k v o : Nat) : Option Nat :=
    if (n = 4 ∨ n = 8) ∧ o % n = 0 then some ((s.barRead8 k v (o / 8 * 8)).toNat / 2 ^ (8 * (o % 8)) % 2 ^ (8 * n)) else none
  match t with
  | .pf k 0 o => get k 0 o
  | .pf _ _ o => if (n = 4 ∨ n = 8) ∧ o % n = 0 then some 0 else none
  | .vf k v o => get k v o
  | .port _ _ => none
/-- A write of n bytes to a complex's BAR; none: UR. -/
def Pkg.barPut (s : Pkg) (t : MmTgt) (n x : Nat) : Option Pkg :=
  let v := BitVec.ofNat 64 x
  match t with
  | .pf k 0 o => if (n = 4 ∨ n = 8) ∧ o % n = 0 then some (s.barWrite k 0 o n v) else none
  | .pf k _ o =>
    if (n = 4 ∨ n = 8) ∧ o % n = 0 then some (if n = 8 ∧ o % 0x4000 = 0 then s.cxBell k 0 (o / 0x4000) v else s) else none
  | .vf k u o => if (n = 4 ∨ n = 8) ∧ o % n = 0 then some (s.barWrite k u o n v) else none
  | .port _ _ => none

/-- An access to a complex's BAR that completes as UR: in the PF's AER registers, a VF's with its routing ID (R371). -/
def Pkg.barUr (s : Pkg) (t : MmTgt) (rid : Nat) : Pkg :=
  match t with
  | .pf k _ _ => s.pfAer k rid 20
  | .vf k n _ => s.pfAer k (Cfn.vf k n).rid 20
  | .port _ _ => s

/-- The first enabled byte and the number of bytes, if the enables are one run. -/
def runOf (be n : Nat) : Option (Nat × Nat) :=
  match (List.range n).find? (be.testBit ·) with
  | none => none
  | some lo =>
    let k := ((List.range n).filter (be.testBit ·)).length
    if (List.range k).all (fun i => be.testBit (lo + i)) then some (lo, k) else none

/-- A failed MMIO access of a thread (R379): a load takes BUS_ERR SRC 2; a store is discarded and recorded, in root complex 0 where no
aperture holds its address (DESIGN CHOICE, log entry 36: R379 does not say whose record it is). -/
def Pkg.mmFail (s : Pkg) (q : DevReq) (port : Option Nat) : Pkg :=
  if q.wr then
    let r := match port with | some x => x / 8 | none => (s.apertureOf q.pa).getD 0
    (s.ioDiscard r (port.map (· % 8)) q.pa (some q.h)).entGo q.h
  else (s.stAnswer q.h 0).partFault q.h q.part 2
/-- A device write of a thread has been accepted: an AI 2 one is acknowledged (07 R199; 08 R226, R233). -/
def Pkg.mmAccepted (s : Pkg) (q : DevReq) : Pkg :=
  (if q.wait then s.stRd (stCore (q.h / 8)) 0 ((s.now - q.t0) / 1000) else s).entGo q.h

/-- MMIO_ACCESS: thread h's next access to PCIe MMIO reaches its decoder (R372). -/
def Pkg.mmioAccess (s : Pkg) (h : Nat) : Pkg :=
  match s.devq.find? (fun q => q.h == h && region q.pa == 1 && !q.sent) with
  | none => s
  | some q =>
    -- the halves of a split AI 2 access go one at a time (07 R199)
    if q.wait && s.devq.any (fun d => d.h == h && d.wait && d.sent) then s
    -- an AI 4 read goes after the bytes that the core has flushed (R201)
    else if !q.wr && (s.devq.takeWhile (· != q)).any (fun d => d.wr && d.h / 8 == h / 8 && d.pa / 64 == q.pa / 64) then s else
    let gone : Pkg := { s with devq := s.devq.erase q }
    let (pa, n, data) := match runOf q.be q.n with
      | some (lo, k) => (q.pa + lo, k, q.data / 2 ^ (8 * lo) % 2 ^ (8 * k))
      | none => (q.pa, q.n, q.data)
    match s.mmTarget pa with
    | none => gone.mmFail q none
    | some (.port r p) =>
      if !s.linkOk r p then gone.mmFail q (some (8 * r + p))
      else
        let m : Reply := .tlp (8 * r + p) false q.wr (pa - 2 ^ 51) n data q.be false
        if q.wr then ({ gone with reply := m } : Pkg).mmAccepted q
        else { s with reply := m, devq := s.devq.map (fun d => if d = q then { q with sent := true, port := 8 * r + p, t0 := s.now } else d) }
    | some t =>
      if q.wr then match gone.barPut t n data with | some s => s.mmAccepted q | none => (gone.mmFail q none).barUr t (8 * ((s.apertureOf pa).getD 0))
      else
        match gone.barRead t n with
        | some x => (gone.stAnswer h n).partDone h q.part x
        | none => (gone.mmFail q none).barUr t (8 * ((s.apertureOf pa).getD 0))

/-- The outstanding MMIO read of a thread. -/
def Pkg.mmOut (s : Pkg) (h : Nat) : Option DevReq := s.devq.find? (fun q => q.h == h && region q.pa == 1 && q.sent && !q.wr)
/-- PCIE_COMPLETION (R379). -/
def Pkg.pcieCompletion (s : Pkg) (h : Nat) (a : Cpl) : Pkg :=
  match s.mmOut h with
  | none => s
  | some q =>
    let s := ({ s with devq := s.devq.erase q } : Pkg).stAnswer h (match a with | .ok _ => q.n | _ => 0)
    let r := q.port / 8
    let p := q.port % 8
    match a with
    | .ok x => s.partDone h q.part (x % 2 ^ (8 * q.n))
    | .ep => (s.partFault h q.part 2).aerUncor r p 12 0
    | .ca => ((s.partFault h q.part 2).aerUncor r p 15 0).rpPio r p 17
    | .timeout => ((s.partFault h q.part 2).aerUncor r p 14 0).rpPio r p 18
    | _ => ((s.partFault h q.part 2).aerUncor r p 20 0).rpPio r p 16
/-- Completion Timeout Value of a root port in ps: 50 ms for 0 (R367), else the least of its range. -/
def Pkg.cplTimeout (s : Pkg) (r p : Nat) : Nat :=
  1000000000 * (match s.cfgF (.rp r p) 0x88 3 0 with
    | 5 => 16 | 6 => 65 | 9 => 260 | 10 => 1000 | 13 => 4000 | 14 => 17000 | _ => 50)
/-- COMPLETION_TIMEOUT. -/
def Pkg.cplLate (s : Pkg) (h : Nat) : Pkg :=
  match s.mmOut h with
  | none => s
  | some q => if s.now ≥ q.t0 + s.cplTimeout (q.port / 8) (q.port % 8) then s.pcieCompletion h .timeout else s

/-! ### Inbound requests (R374 to R377) -/

/-- The number of bytes of a request. -/
def inbLen : PcieOp → Nat
  | .rd dw => 4 * dw | .wr l _ _ _ => l.length | .atom _ n _ _ => n
def inbKindOf : PcieOp → AccKind
  | .rd _ => .load | .wr _ _ _ _ => .store | .atom _ _ _ _ => .atomic
/-- A request fails (R374): UR, or ACS Violation; reads and AtomicOps get a Completion with UR. -/
def Pkg.inbFail (s : Pkg) (r p : Nat) (q : PcieReq) (bit : Nat) : Pkg :=
  let s := s.aerUncor r p bit q.rid.toNat
  match q.op with
  | .wr _ _ _ _ => s
  | _ => { s with reply := .cpl 1 0 0 }
/-- AtomicOps that are completed (R363). -/
def atomOk (op n a : Nat) : Bool := (n == 4 || n == 8 || (n == 16 && op == 2)) && decide (op ≤ 2) && a % n == 0
/-- As an operation of the home (11 R299). -/
def atomOf (op n x cmp : Nat) : AtomOp := { op := (match op with | 0 => 2 | 1 => 3 | _ => if n = 16 then 1 else 0), n := n, x := x, cmp := cmp, rm := 0 }

/-- Runs of enabled bytes within lines: address and bytes. -/
def runsOf (pa : Nat) (l : List Byte) (fbe lbe : Nat) : List (Nat × List Byte) :=
  (l.zipIdx).foldl (fun acc b =>
    if !dmaOn l.length fbe lbe b.2 then acc
    else
      let a := pa + b.2
      match acc.getLast? with
      | some (o, bs) => if o + bs.length = a ∧ a % 64 ≠ 0 then acc.dropLast ++ [(o, bs ++ [b.1])] else acc ++ [(a, [b.1])]
      | none => [(a, [b.1])]) []

/-- A request for the package's DRAM is performed at the home slices. -/
def Pkg.inbDram (s : Pkg) (r p : Nat) (q : PcieReq) (pa : Nat) : Pkg :=
  let n := inbLen q.op
  let rid := q.rid.toNat
  if s.dmaWait pa n (inbKindOf q.op != AccKind.load) then s
  else
    match q.op with
    | .rd _ =>
      let (l, bad) := s.readBytes pa n
      let s := s.seenBytes pa n
      if bad then s.devPoison (8 * r + p) pa n else { s with reply := .cpl 0 n (l.foldr (fun b x => b.toNat + 256 * x) 0) }
    | .wr l fbe lbe ep =>
      let s := s.dmaWrite rid pa l fbe.toNat lbe.toNat
      if ep then (linesOf pa n).foldl (fun s line => s.homePoison line) s else s
    | .atom op w x cmp =>
      if !atomOk op w pa then s.inbFail r p q 20
      else
        let (s, old, bad) := s.homeTake pa w
        if bad then s.devPoison (8 * r + p) pa n
        else
          let a := atomOf op w x cmp
          let s := s.inb { inbBlank with kind := 1, nbytes := w - 1, addr := pa, atop := a.op, source := rid, be := 0xFF
                                         data := leBytes (if op = 2 then 2 * w else w) (if op = 2 then cmp + x * 2 ^ (8 * w) else x) } [pa / 64]
          let s := match (a.apply old).1 with | some y => s.homeWrite pa w y | none => s
          { s with reply := .cpl 0 w old }

/-- A request for a global address becomes remote uncached accesses (R374). -/
def Pkg.inbGlobal (s : Pkg) (r p : Nat) (q : PcieReq) (pa : Nat) : Pkg :=
  let port := 8 * r + p
  let put (s : Pkg) (g : GReq) : Pkg := { s with fab := { s.fab with gq := s.fab.gq ++ [g] } }
  match q.op with
  | .rd dw =>
    (linesOf pa (4 * dw)).foldl (fun s l =>
      let lo := max pa (64 * l)
      let hi := min (pa + 4 * dw) (64 * l + 64)
      put s { kind := .rd, pa := lo, n := hi - lo, data := 0, op := 0, who := .dev port true, gsn := s.tdm.gsn + 1 }) s
  | .wr l fbe lbe ep =>
    (runsOf pa l fbe.toNat lbe.toNat).foldl (fun s b =>
      put s { kind := .wr, pa := b.1, n := b.2.length, data := b.2.foldr (fun x y => x.toNat + 256 * y) 0, op := 0, who := .dev port false, gsn := s.tdm.gsn + 1, poison := ep }) s
  | .atom op w x cmp =>
    if !atomOk op w pa then s.inbFail r p q 20
    else
      let a := atomOf op w x cmp
      put s { kind := .atom, pa := pa, n := w, data := if op = 2 then cmp + x * 2 ^ (8 * w) else x, op := a.op, who := .dev port true, gsn := s.tdm.gsn + 1 }

/-- A peer-to-peer request (R375). -/
def Pkg.inbPeer (s : Pkg) (r p : Nat) (q : PcieReq) (pa : Nat) : Pkg :=
  let f : Cfn := .rp r p
  let fail := s.inbFail r p q 20
  let n := inbLen q.op
  match q.op with
  | .atom _ _ _ _ => fail
  | op =>
    if !s.cfgB f 0x14C 18 then fail
    else
      match s.mmTarget pa with
      | none => fail
      | some (.port r2 p2) =>
        if s.cfgB f 0x150 (8 * r2 + p2) then fail
        else if !s.linkOk r2 p2 then fail
        else
          match op with
          | .wr l fbe lbe ep => { s with reply := .tlp (8 * r2 + p2) false true (pa - 2 ^ 51) n (leNat l) (fbe.toNat + 16 * lbe.toNat) ep }
          | _ => { s with reply := .tlp (8 * r2 + p2) false false (pa - 2 ^ 51) n 0 255 false }
      | some t =>
        match op with
        | .wr l _ _ _ => match s.barPut t n (leNat l) with | some s => s | none => fail.barUr t q.rid.toNat
        | _ =>
          match s.barRead t n with
          | some x => { s with reply := .cpl 0 n x }
          | none => fail.barUr t q.rid.toNat

/-- A poisoned write (R379). -/
def tlpEp (q : PcieReq) : Bool := match q.op with | .wr _ _ _ ep => ep | _ => false
/-- Dispatch of a request by its PA and attribute index (R374); a poisoned write is logged, and discarded unless EPWR = 1 (R379). -/
def Pkg.inbAt (s : Pkg) (r p : Nat) (q : PcieReq) (pa ai : Nat) : Pkg :=
  let s := if tlpEp q then s.aerUncor r p 12 q.rid.toNat else s
  if (s.regionErr pa ai).isSome then s.inbFail r p q 20
  else if tlpEp q && !s.rb (rpCtl r p) 0 then s
  else
    let k := 2 * (Win.rc r).stop
    let s := s.stReq k (match q.op with | .wr l _ _ _ => l.length | .atom _ n _ _ => n | .rd _ => 0)
    let s := match region pa, q.op with
      | 0, .wr _ _ _ _ => s.stRd k 0 0
      | 0, _ => s.stRd k (inbLen q.op) 0
      | _, _ => s
    match region pa with
    | 0 => s.inbDram r p q pa
    | 5 => s.inbGlobal r p q pa
    | 1 => s.inbPeer r p q pa
    | 3 =>
      match q.op, ticMsiAt pa with
      | .wr [b0, _, _, _] 15#4 _ false, some h => if ai = 2 then s.msiIn h b0.toNat else s.inbFail r p q 20
      | _, _ => s.inbFail r p q 20
    | _ => s.inbFail r p q 20

/-- The first steps of R374: Bus Master Enable, ACS Source Validation; the AER bit of a failure. -/
def Pkg.inbGate (s : Pkg) (r p : Nat) (q : PcieReq) : Option Nat :=
  let f : Cfn := .rp r p
  let bus := q.rid.toNat / 256
  if !s.bme f then some 20
  else if s.cfgB f 0x14C 16 && !(decide (s.cfgF f 0x18 15 8 ≤ bus) && decide (bus ≤ s.cfgF f 0x18 23 16)) then some 21
  else none

/-- Inbound credits are withheld: the pause of a cut-over, a swap (12 R339, R342). -/
def Pkg.inboundHeld (s : Pkg) : Bool := s.tdm.pause || s.tdmState == 10
/-- INBOUND_REQUEST. -/
def Pkg.inbound (s : Pkg) (r p : Nat) (q : PcieReq) : Pkg :=
  if !s.portUp r p || !s.linkOk r p || s.inboundHeld then s
  else if q.addr.toNat % 4096 + inbLen q.op > 4096 ∨ inbLen q.op = 0 then s.aerUncor r p 18 q.rid.toNat
  else
    match s.inbGate r p q with
    | some bit => s.inbFail r p q bit
    | none =>
      let pasid := q.pasid.map (·.toNat)
      if q.translated then
        if s.cfgB (.rp r p) 0x14C 17 || !s.rb (iotuBase r) 0 then s.inbFail r p q 21
        else
          match s.ctxOf r q.rid.toNat pasid with
          | (s, .ok c) =>
            if !c.ats then s.inbFail r p q 21
            else s.inbAt r p q q.addr.toNat (flatAi q.addr.toNat)
          | (s, .error _) => s.inbFail r p q 21
      else
        match s.ioRequest r { src := q.rid.toNat, pasid := pasid, priv := q.priv, addr := q.addr, kind := inbKindOf q.op } with
        | (s, .error _) => s.inbFail r p q 20
        | (s, .ok x) => s.inbAt r p q x.pa x.ai

/-- ATS_TRANSLATION_REQUEST (R377, 05 R160). -/
def Pkg.atsRequest (s : Pkg) (r p : Nat) (q : PcieReq) : Pkg :=
  let ur (s : Pkg) (bit : Nat) : Pkg := { (s.aerUncor r p bit q.rid.toNat) with reply := .cpl 1 0 0 }
  if !s.portUp r p || !s.linkOk r p || s.inboundHeld then s
  else
    match s.inbGate r p q with
    | some bit => ur s bit
    | none =>
      match s.ioRequest r { src := q.rid.toNat, pasid := q.pasid.map (·.toNat), priv := q.priv, addr := q.addr, kind := .load, ats := true } with
      | (s, .error f) => if f.kind ≤ 1 then { s with reply := .ats false false f.priv false 0 0 } else ur s 20
      | (s, .ok x) =>
        match x.e with
        | none => { s with reply := .ats true true q.priv false x.pa 4096 }
        | some e =>
          let r2 := match e.s2 with | some l => l.r | none => true
          let w2 := match e.s2 with | some l => l.w | none => true
          { s with reply := .ats (e.r && r2) (e.w && w2) (q.priv && !e.u) e.glob (x.pa / 2 ^ e.sz * 2 ^ e.sz) (2 ^ e.sz) }

/-! ### Links, errors, INTx, PTM (R358, R361 to R364, R379) -/

/-- INTX_MESSAGE. -/
def Pkg.intx (s : Pkg) (r p : Nat) : Pkg := if s.portUp r p then s.sat (rpStat r p) 31 16 else s
/-- Presence and link state of the port's slot, if it has one, have changed: status, and the hot-plug interrupt. -/
def Pkg.slotChange (s : Pkg) (r p : Nat) : Pkg :=
  let f : Cfn := .rp r p
  if !s.cfgB f 0x60 24 then s else
  let s := (s.cfgSet f 0x78 24 24 1).cfgSet f 0x78 19 19 1
  if s.cfgB f 0x78 5 && (s.cfgB f 0x78 12 || s.cfgB f 0x78 3) then s.rpMsi r p else s
/-- PCIE_LINK_UP: at a rate and width that the port supports, once its fundamental reset has ended. -/
def Pkg.pcieUp (s : Pkg) (r p speed width : Nat) (flit : Bool) : Pkg :=
  let f : Cfn := .rp r p
  if !s.portUp r p || !s.perstN r p || s.rb (rpStat r p) 13 || s.rb (rpStat r p) 0 || s.cfgB f 0x70 4 || speed == 0 || decide (speed > s.cfgF f 0x6C 3 0)
      || !([1, 2, 4, 8, 16, 32].contains width) || decide (width > s.cfgF f 0x6C 9 4) then s
  else
    let st := rpStat r p
    let s := (((s.wb st 0 true).wb st 3 (flit || speed == 6)).wf st 6 4 speed).wf st 12 7 width
    s.slotChange r p
/-- PCIE_LINK_DOWN (R364). -/
def Pkg.pcieDown (s : Pkg) (r p : Nat) : Pkg :=
  let st := rpStat r p
  if !s.rb st 0 then s
  else
    let s := (s.wf st 12 0 0).slotChange r p
    let s := if s.cfgF (.rp r p) 0x164 17 16 ≠ 0 then s.dpcTrigger r p 0 0 else s
    s.failPort r p
/-- PCIE_ERROR_REPORT (R379). -/
def Pkg.pcieError (s : Pkg) (r p : Nat) (e : PErr) : Pkg :=
  if !s.portUp r p then s
  else
    match e with
    | .cor rid => s.rootCor r p rid.toNat
    | .nonfatal rid => s.rootError r p rid.toNat false
    | .fatal rid => s.rootError r p rid.toNat true
    | .ownCor b => s.aerCor r p b.val (8 * r + p)
    | .ownUncor b => s.aerUncor r p b.val (8 * r + p)
/-- PTM_REQUEST (13 R358): PTM Master Time. -/
def Pkg.ptm (s : Pkg) (r p : Nat) : Pkg :=
  if s.portUp r p && s.linkOk r p then { s with reply := .cpl 0 8 s.rdtime.toNat } else s

/-! ### Commands -/

/-- ECAM_ACCESS (R366). -/
def execEcamAccess (h : Htid) (a : Cpl) (s : State) : Out :=
  s.run (·.ecamAccess h.val a)
/-- CRS_RETRY (R366). -/
def execCrsRetry (h : Htid) (dt : Nat) (a : Cpl) (s : State) : Out :=
  s.runAt dt (·.crsRetry h.val a)
/-- MMIO_ACCESS (R372). -/
def execMmioAccess (h : Htid) (s : State) : Out :=
  s.run (·.mmioAccess h.val)
/-- PCIE_COMPLETION (R379). -/
def execPcieCompletion (h : Htid) (a : Cpl) (s : State) : Out :=
  s.run (·.pcieCompletion h.val a)
/-- COMPLETION_TIMEOUT (R379). -/
def execCompletionTimeout (h : Htid) (dt : Nat) (s : State) : Out :=
  s.runAt dt (·.cplLate h.val)
/-- INBOUND_REQUEST (R374). -/
def execInboundRequest (r : RcN) (p : PortN) (q : PcieReq) (s : State) : Out :=
  s.run (·.inbound r.val p.val q)
/-- ATS_TRANSLATION_REQUEST (R377). -/
def execAtsTranslationRequest (r : RcN) (p : PortN) (q : PcieReq) (s : State) : Out :=
  s.run (·.atsRequest r.val p.val q)
/-- INTX_MESSAGE (R363). -/
def execIntxMessage (r : RcN) (p : PortN) (s : State) : Out :=
  s.run (·.intx r.val p.val)
/-- PCIE_LINK_UP (R361). -/
def execPcieLinkUp (r : RcN) (p : PortN) (speed : Fin 7) (width : BitVec 6) (flit : Bool) (s : State) : Out :=
  s.run (·.pcieUp r.val p.val speed.val width.toNat flit)
/-- PCIE_LINK_DOWN (R364). -/
def execPcieLinkDown (r : RcN) (p : PortN) (s : State) : Out :=
  s.run (·.pcieDown r.val p.val)
/-- PCIE_ERROR_REPORT (R379). -/
def execPcieErrorReport (r : RcN) (p : PortN) (e : PErr) (s : State) : Out :=
  s.run (·.pcieError r.val p.val e)
/-- PTM_REQUEST (R358). -/
def execPtmRequest (r : RcN) (p : PortN) (dt : Nat) (s : State) : Out :=
  s.runAt dt (·.ptm r.val p.val)

end Sys2Proof.Machine
end

