-- ==== Sys2Proof/Machine/Port.lean ====
section
/-!
DEFINITION. Machine/Port.lean: accesses to registers from outside the threads: the management port's transfers (18 R446), the
mailbox commands READ_REG and WRITE_REG (R450), JTAG's DBG_ACCESS (19 R465), and a register write as such (00 R8).
-/
namespace Sys2Proof.Machine

/-! ### Accesses by the system controller (R450, R465) -/

/-- The end of an access: its value, an access that R13, R22 or R366 forbids, or a configuration request that is to be sent again. -/
inductive ScEnd where
  | ok (x : Nat) | err | retry
deriving DecidableEq, Repr

/-- A configuration access of n bytes at an offset of ECAM (R366); `a` is how a device below a root port answers. -/
def Pkg.scEcam (s : Pkg) (o n : Nat) (wr : Option Nat) (a : Cpl) : Pkg × ScEnd :=
  let rid := o / 4096 % 65536
  let off := o % 4096
  if !((n = 1 ∨ n = 2 ∨ n = 4) ∧ o % n = 0) then (s, .err)
  else if o ≥ 2 ^ 28 then (s, .ok (ones n))
  else
    match cfnOf rid with
    | some f => let (s, x) := s.cfgAccess f off n wr; (s, .ok x)
    | none =>
      match s.busPort (rid / 256) with
      | none => (s, .ok (ones n))
      | some port =>
        if !s.linkOk (port / 8) (port % 8) then (s.cfgFail port .ur rid, .ok (ones n))
        else
          let s := { s with reply := .tlp port true wr.isSome o n (wr.getD 0) (2 ^ n - 1) false }
          match a with
          | .ok x => (s, .ok (x % 2 ^ (8 * n)))
          | .crs =>
            if wr.isNone && off == 0 && decide (n ≥ 2) && s.cfgB (.rp (port / 8) (port % 8)) 0x7C 4 then (s, .ok (ones n - 65535 + 1))
            else (s, .retry)
          | _ => (s.cfgFail port a rid, .ok (ones n))

/-- An access to device register space; threads' outputs and the stoker's discards do not concern it. -/
def Pkg.scDrs (s : Pkg) (off n : Nat) (wr : Option Nat) : Pkg × ScEnd :=
  match drsErr off n wr.isSome with
  | some _ => (s, .err)
  | none =>
    match wr with
    | none => let (s, x) := s.drsLoad off n; (s, .ok x)
    | some x =>
      let b := off / 8 * 8
      let lo := 8 * (off % 8)
      (s.drsWrite false b (if mgtBuf off then setBits (s.rd b) (lo + 8 * n - 1) lo (x % 2 ^ (8 * n)) else BitVec.ofNat 64 x), .ok 0)

/-! ### READ_REG and WRITE_REG (R450) -/

/-- The states in which ECAM is not written. -/
def Pkg.ecamShut (s : Pkg) : Bool := [4, 5, 8, 9, 10].contains s.tdmState
/-- Registers that WRITE_REG writes: MC_, TRW_, LK_, ERR_, MESH_ and FAB_LEAD. -/
def portWrites (off : Nat) : Bool :=
  match regAt (off / 8 * 8) with
  | some (w, o, _) =>
    decide (0xC00 ≤ o ∧ o < 0xC40) || (match w with
      | .mc _ | .lk _ | .mesh _ => true
      | .fab => o == 0x120
      | _ => false)
  | none => false

/-- READ_REG and WRITE_REG: refusals first; an address or length outside those of R450, and an access that would be a bus error, is
BAD_ARG. A configuration request that a device puts off leaves the command running. -/
def State.regCmd (wr : Bool) (a : Cpl) (port : Bool) (s : State) : State :=
  let p := s.pkg
  let pa := p.mbxArg port
  let n := p.mbxLen port
  let x : Option Nat := if wr then some (leNat (p.bufGet (mbxData port) n)) else none
  let fin (r : Pkg × ScEnd) : State :=
    match r.2 with
    | .ok v => State.mbxAns { s with pkg := r.1 } port 0 (if wr then [] else natLe n v)
    | .err => s.mbxAns port 2 []
    | .retry => { s with pkg := r.1 }
  if !([1, 2, 4, 8].contains n) then s.mbxAns port 2 []
  else
    match region pa with
    | 2 => if wr && p.ecamShut then s.mbxAns port 3 [] else fin (p.scEcam (pa % 2 ^ 36) n x a)
    | 3 =>
      if wr && (regAt ((pa - drsLo) / 8 * 8)).isSome && !portWrites (pa - drsLo) then s.mbxAns port 3 []
      else fin (p.scDrs (pa - drsLo) n x)
    | _ => s.mbxAns port 2 []

/-! ### The port's transfers (R446) -/

/-- The port mailbox's data buffer, which is written by units as such. -/
def portBuf (o : Nat) : Bool := o / 4096 == 1
/-- The value of a register or of eight bytes of a buffer. -/
def Pkg.portValue (s : Pkg) (o : Nat) : Pkg × Word := s.drsRead (mgtBase + o / 8 * 8)

/-- One unit is written. -/
def Pkg.portWrite (s : Pkg) (o : Nat) (u : BitVec 32) : Pkg :=
  let b := mgtBase + o / 8 * 8
  if (regAt b).isNone then s
  else if portBuf o then
    s.drsWrite false b (if o % 8 = 0 then setBits (s.rd b) 31 0 u.toNat else setBits (s.rd b) 63 32 u.toNat)
  else if o % 8 = 0 then { s with mgt := { s.mgt with low := some (o, u) } }
  else
    match s.mgt.low with
    | some (p, l) =>
      if p + 4 = o then ({ s with mgt := { s.mgt with low := none } }).drsWrite false b (BitVec.ofNat 64 (l.toNat + u.toNat * 2 ^ 32)) else s
    | none => s
/-- The whole units of a transfer, in order; a unit that is not whole is discarded. -/
def Pkg.portWrites (s : Pkg) (o : Nat) : List Byte → Pkg
  | a :: b :: c :: d :: t => (s.portWrite o (BitVec.ofNat 32 (leNat [a, b, c, d]))).portWrites ((o + 4) % 65536) t
  | _ => s
/-- A write transfer; `bad`: its parity fails, which I3C detects. -/
def Pkg.portWriteXfer (s : Pkg) (o : Nat) (l : List Byte) (bad : Bool) : Pkg :=
  if o % 4 ≠ 0 || (bad && s.i3c) then s else s.portWrites o l

/-- One unit is read; `whole`: the transfer reads all of it. -/
def Pkg.portRead (s : Pkg) (o : Nat) (whole : Bool) : Pkg × BitVec 32 :=
  let (s1, v) := s.portValue o
  if o % 8 = 0 then (if whole then { s1 with mgt := { s1.mgt with latch := some (o, (v >>> 32).setWidth 32) } } else s, v.setWidth 32)
  else
    match s.mgt.latch with
    | some (p, h) => if p + 4 = o then (s, h) else (s1, (v >>> 32).setWidth 32)
    | none => (s1, (v >>> 32).setWidth 32)
/-- n bytes from an offset on, and the state after them. -/
def Pkg.portReads (s : Pkg) (o n : Nat) : Nat → Pkg × List Byte
  | 0 => (s, [])
  | f + 1 =>
    if n = 0 then (s, [])
    else
      let (s, u) := s.portRead o (decide (4 ≤ n))
      let (s, l) := s.portReads ((o + 4) % 65536) (n - 4) f
      (s, (natLe 4 u.toNat).take n ++ l)
/-- A read transfer: the offset is written, then n bytes are read. -/
def Pkg.portReadXfer (s : Pkg) (o n : Nat) : Pkg :=
  if o % 4 ≠ 0 then s.answerBytes (List.replicate n 0#8)
  else let (s, l) := s.portReads o n n; s.answerBytes l

/-! ### DBG_ACCESS (R465) -/

/-- A physical access: registers, configuration space and the package's DRAM; Shimmy's registers only once they are open (R458). -/
def Pkg.dbgPhys (s : Pkg) (pa n : Nat) (wr : Option Nat) (a : Cpl) : Pkg × ScEnd :=
  match region pa with
  | 0 =>
    if pa + n > s.memLimit then (s, .err)
    else
      let s := s.yieldLines pa n wr.isSome
      match wr with
      | some x => (s.writeBytes pa (natLe n x), .ok 0)
      | none => let (l, bad) := s.readBytes pa n; (s, if bad then .err else .ok (leNat l))
  | 2 => s.scEcam (pa % 2 ^ 36) n wr a
  | 3 =>
    let off := pa - drsLo
    if shmBase ≤ off ∧ off < shmBase + 0x1000000 ∧ !s.shmOpen then (s, .err) else s.scDrs off n wr
  | _ => (s, .err)
/-- A scan of DBG_ACCESS: the capture returns the last access's result, the update performs the next. -/
def Pkg.dbgAccess (s : Pkg) (v : BitVec 128) (a : Cpl) : Pkg :=
  if !s.tapOn || !s.scLive then s
  else if !s.jtagOpen then (s.tap .dbgAccess).answerBytes (natLe 16 0)
  else
    let s := (s.tap .dbgAccess).answerBytes (natLe 16 s.jtag.dbg.toNat)
    let f (hi lo : Nat) : Nat := v.toNat / 2 ^ lo % 2 ^ (hi + 1 - lo)
    let n := 2 ^ f 3 2
    if f 1 0 > 1 then s
    else
      let (s, r) := s.dbgPhys (f 63 6) n (if f 1 0 = 1 then some (f 127 64 % 2 ^ (8 * n)) else none) a
      let put (data flags : Nat) : Pkg := { s with jtag := { s.jtag with dbg := BitVec.ofNat 128 (data * 2 ^ 64 + flags) } }
      match r with
      | .ok x => put x 16
      | .err => put 0 48
      | .retry => put 0 0

/-! ### A register write (00 R8) -/

/-- A write of eight bytes to a register. -/
def Pkg.registerWrite (s : Pkg) (off : Nat) (v : Word) : Pkg := if off % 8 = 0 then s.drsWrite false off v else s

/-! ### Commands -/

/-- READ_REG (R450). -/
def execReadReg (dt : Nat) (a : Cpl) (s : State) : Out :=
  s.runNv dt (·.mbx 0x02 (State.regCmd false a))
/-- WRITE_REG (R450). -/
def execWriteReg (dt : Nat) (a : Cpl) (s : State) : Out :=
  s.runNv dt (·.mbx 0x03 (State.regCmd true a))
/-- MGT_WRITE_TRANSFER (R446). -/
def execMgtWriteTransfer (o : BitVec 16) (l : List Byte) (bad : Bool) (s : State) : Out :=
  s.runSc 0 (·.portWriteXfer o.toNat l bad)
/-- MGT_READ_TRANSFER (R446). -/
def execMgtReadTransfer (o : BitVec 16) (n : Nat) (s : State) : Out :=
  s.runSc 0 (·.portReadXfer o.toNat n)
/-- DBG_ACCESS (R465). -/
def execDbgAccess (v : BitVec 128) (a : Cpl) (s : State) : Out :=
  s.on (·.dbgAccess v a)
/-- REGISTER_WRITE (R8). -/
def execRegisterWrite (off : Nat) (v : Word) (s : State) : Out :=
  s.run (·.registerWrite off v)

end Sys2Proof.Machine
end

