-- ==== Sys2Proof/Machine/Select.lean ====
section
/-!
DEFINITION. Machine/Select.lean: the thread selector of a core (02 R36 to R41): which registers and unit an instruction takes, its
latency and hold time, which threads are ready, and which of them is selected next. The selector's cycles are counted as its picks
need them: a cycle ends when nothing ready is left for its slots, and cycles in which nothing could be selected are passed over
(DESIGN CHOICE, log entry 3).
-/
namespace Sys2Proof.Machine

/-! ### Registers, units, latencies (R37, R39 to R41) -/

/-- Registers as (file, number): G 0, F 1, V 2. -/
abbrev RegId := Nat × Nat
def gReg (r : Reg) : RegId := (0, r.toNat)
def fReg (r : Reg) : RegId := (1, r.toNat)
def vReg (r : Reg) : RegId := (2, r.toNat)
/-- An F register, or the pair that a decimal128 takes (03 R69). -/
def fPair (wide : Bool) (r : Reg) : List RegId := if wide then [fReg r, fReg (r + 1#5)] else [fReg r]

/-- The registers that an instruction writes. -/
def Ins.dsts : Ins → List RegId
  | .op _ rd _ _ _ | .opi _ rd _ _ | .ldih rd _ | .addpch rd _ | .bal rd _ | .balr rd _ _ | .load _ rd _ _ => [gReg rd]
  | .branch _ _ _ _ | .store _ _ _ _ | .storef _ _ _ _ | .storev _ _ _ => []
  | .loadf _ rd _ _ => [fReg rd]
  | .loadv rd _ _ => [vReg rd]
  | .fp fn _ _ rd _ _ => if (7 ≤ fn.toNat ∧ fn.toNat ≤ 9) ∨ fn.toNat = 12 ∨ fn.toNat = 13 ∨ fn.toNat = 15 ∨ fn.toNat = 17 then [gReg rd] else [fReg rd]
  | .fma _ _ rd _ _ _ => [fReg rd]
  | .dec fn _ p rd _ _ =>
    if fn.toNat = 6 ∨ fn.toNat = 7 ∨ (9 ≤ fn.toNat ∧ fn.toNat ≤ 11) ∨ fn.toNat = 13 ∨ fn.toNat = 15 ∨ fn.toNat = 16 then [gReg rd] else fPair p rd
  | .vec fn rd _ _ _ => if fn.toNat = 18 then [vReg rd, vReg (rd + 1#5)] else if fn.toNat = 23 then [gReg rd] else [vReg rd]
  | .amo fn _ rd _ _ => if fn.toNat = 1 then [gReg rd, gReg (rd + 1#5)] else if fn.toNat = 10 then [fReg rd] else [gReg rd]
  | .mfsr rd _ => [gReg rd]
  | .sys sub rd _ => if sub.toNat = 0xA ∨ sub.toNat = 0xB ∨ sub.toNat = 0xC then [gReg rd] else if sub.toNat = 0 ∨ sub.toNat = 3 ∨ sub.toNat = 4 then [gReg 31#5] else []
  | .mtsr _ _ | .trap _ | .cma _ _ | .csw _ _ | .tlbi _ _ => []
  | .block fn rd ra rb rc =>
    match fn.toNat with
    | 0 => [gReg ra, gReg rb, gReg rc]
    | 1 => [gReg ra, gReg rc]
    | 2 => [gReg rd, gReg ra, gReg rb, gReg rc]
    | _ => [gReg rd, gReg ra, gReg rc]

/-- The registers that an instruction reads. -/
def Ins.srcs : Ins → List RegId
  | .op fn _ ra rb _ => if 21 ≤ fn.toNat ∧ fn.toNat ≤ 23 then [gReg ra] else [gReg ra, gReg rb]
  | .opi _ _ ra _ | .balr _ ra _ | .load _ _ ra _ | .loadf _ _ ra _ | .loadv _ ra _ => [gReg ra]
  | .ldih _ _ | .addpch _ _ | .bal _ _ | .mfsr _ _ | .trap _ => []
  | .branch _ ra rb _ | .store _ ra rb _ => [gReg ra, gReg rb]
  | .storef _ ra rb _ => [gReg ra, fReg rb]
  | .storev ra rb _ => [gReg ra, vReg rb]
  | .fp fn _ _ _ ra rb =>
    if fn.toNat = 10 ∨ fn.toNat = 11 ∨ fn.toNat = 16 then [gReg ra]
    else if fn.toNat = 4 ∨ (12 ≤ fn.toNat ∧ fn.toNat ≤ 17) then [fReg ra] else [fReg ra, fReg rb]
  | .fma _ _ _ ra rb rc => [fReg ra, fReg rb, fReg rc]
  | .dec fn _ p _ ra rb =>
    match fn.toNat with
    | 0 | 1 | 2 | 3 | 4 | 6 | 9 | 10 | 11 => fPair p ra ++ fPair p rb
    | 5 | 7 | 13 | 15 | 16 => fPair p ra
    | 8 => gReg ra :: fPair p rb
    | 14 => fPair (!p) ra
    | _ => [gReg ra]
  | .vec fn rd ra rb rc =>
    match fn.toNat with
    | 8 | 9 => [vReg ra, vReg rb, vReg rc]
    | 12 | 13 | 23 => [vReg ra]
    | 18 => [vReg ra, vReg (ra + 1#5), vReg rb]
    | 19 => [vReg ra, vReg (ra + 1#5), vReg rb, vReg (rb + 1#5)]
    | 22 => [vReg rd, gReg ra]
    | 24 => [gReg ra]
    | _ => [vReg ra, vReg rb]
  | .amo fn _ rd ra rb =>
    if fn.toNat = 0 then [gReg rd, gReg ra, gReg rb]
    else if fn.toNat = 1 then [gReg rd, gReg (rd + 1#5), gReg ra, gReg rb, gReg (rb + 1#5)]
    else if fn.toNat = 10 then [gReg ra, fReg rb] else [gReg ra, gReg rb]
  | .mtsr ra _ | .cma _ ra | .csw _ ra | .tlbi _ ra => [gReg ra]
  | .sys sub _ ra => if sub.toNat = 9 ∨ sub.toNat = 0xA then [gReg ra] else if sub.toNat = 0 ∨ sub.toNat = 3 then [gReg 31#5] else []
  | .block fn rd ra rb rc => if fn.toNat = 3 then [gReg rd, gReg ra, gReg rc] else [gReg ra, gReg rb, gReg rc]

/-- The unit of an instruction. The table of R39 gives none to CRC32C, HTID and MONITOR (taken as an ALU operation, a move and a load), nor
to calls and returns (DESIGN CHOICE, log entry 37). -/
def Ins.unit : Ins → ExUnit
  | .op fn _ _ _ _ => if 10 ≤ fn.toNat ∧ fn.toNat ≤ 16 then .mul else .alu
  | .opi _ _ _ _ | .ldih _ _ | .addpch _ _ => .alu
  | .bal _ _ | .balr _ _ _ | .branch _ _ _ _ => .branch
  | .load _ _ _ _ | .loadf _ _ _ _ | .loadv _ _ _ => .ldPort
  | .store _ _ _ _ | .storef _ _ _ _ | .storev _ _ _ => .stPort
  | .fp _ _ _ _ _ _ | .fma _ _ _ _ _ _ | .dec _ _ _ _ _ _ => .fp
  | .vec _ _ _ _ _ => .simd
  | .amo _ _ _ _ _ | .block _ _ _ _ _ => .both
  | .sys sub _ _ => if sub.toNat = 9 then .ldPort else if sub.toNat = 0xC then .alu else .alone
  | .mfsr _ _ | .mtsr _ _ | .trap _ | .cma _ _ | .csw _ _ | .tlbi _ _ => .alone

/-- Instructions that are performed only once the thread's earlier loads have their values: the serialising ones, and those that enter
an exception or return from one (R39, R42). -/
def Ins.serial : Ins → Bool
  | .amo _ _ _ _ _ | .mfsr _ _ | .mtsr _ _ | .trap _ | .cma _ _ | .csw _ _ | .tlbi _ _ | .block _ _ _ _ _ => true
  | .sys sub _ _ => sub.toNat != 0xC
  | _ => false

/-- The divider that an instruction uses: 0 none, 1 the integer divider, 2 the FP/decimal divider (R41). -/
def Ins.divider : Ins → Nat
  | .op fn _ _ _ _ => if 13 ≤ fn.toNat ∧ fn.toNat ≤ 16 then 1 else 0
  | .fp fn _ _ _ _ _ => if fn.toNat = 3 ∨ fn.toNat = 4 then 2 else 0
  | .dec fn _ _ _ _ _ => if fn.toNat = 3 then 2 else 0
  | _ => 0

/-- The significant bits of a magnitude. -/
def sigBits (x : Nat) : Nat := if x = 0 then 0 else Nat.log2 x + 1
/-- Integer divide (R40): fn 13 and 15 are signed. -/
def divCycles (fn : Nat) (a b : Word) : Nat :=
  let mag (x : Word) : Nat := if fn = 13 ∨ fn = 15 then x.toInt.natAbs else x.toNat
  if b = 0#64 then 12 else 12 + min 28 ((sigBits (mag a) - sigBits (mag b) + 1) / 2)

/-- The latency L of an instruction for its operand values (R39, R40; 03 R78, R83). -/
def Ins.latency (i : Ins) (t : Thread) : Nat :=
  match i with
  | .op fn _ ra rb _ =>
    if 10 ≤ fn.toNat ∧ fn.toNat ≤ 12 then 3 else if 13 ≤ fn.toNat ∧ fn.toNat ≤ 16 then divCycles fn.toNat (t.rg ra.toNat) (t.rg rb.toNat) else 1
  | .fp fn _ _ _ _ _ => if fn.toNat = 3 then 24 else if fn.toNat = 4 then 28 else 4
  | .fma _ _ _ _ _ _ | .vec _ _ _ _ _ | .load _ _ _ _ | .loadf _ _ _ _ | .loadv _ _ _ => 4
  | .dec fn _ p _ _ _ => (if fn.toNat = 2 then 12 else if fn.toNat = 3 then 40 else 6) * (if p then 2 else 1)
  | _ => 1

/-- How long the selection of the thread's next instruction is held (R39): an FP or decimal one that may trap until its exceptions are
known. -/
def Ins.hold (i : Ins) (t : Thread) : Nat :=
  match i with
  | .load _ _ _ _ | .loadf _ _ _ _ | .loadv _ _ _ | .store _ _ _ _ | .storef _ _ _ _ | .storev _ _ _ => 4
  | .sys sub _ _ => if sub.toNat = 9 then 4 else 1
  | .branch _ _ _ _ | .balr _ _ _ => 3
  | .fp _ _ _ _ _ _ | .fma _ _ _ _ _ _ | .dec _ _ _ _ _ _ => if bits (t.rs 0x018) 28 24 = 0 then 1 else i.latency t
  | _ => 1

/-! ### Ready threads (R37) -/

/-- The word at the thread's PC, once it has been decoded into the queue. -/
def Thread.head (t : Thread) : Option Word32 :=
  match t.queue with
  | (pc, w) :: _ => if pc = t.pc then some w else none
  | [] => none

/-- A paired captain's thread waits for the drain of its last store when that ends the chunk (12 R314). -/
def Pkg.outStall (s : Pkg) (h : Nat) : Bool :=
  s.paired && (match (s.thr h).sb.getLast? with | some e => drainCause e.pa e.ai != 0 | none => false)

/-- The thread's head may go on executing: the core has power and runs, nothing that the head has asked for is missing (R37, R54). -/
def Pkg.mayGo (s : Pkg) (h : Nat) : Bool :=
  let t := s.thr h
  t.st == .run && s.threadsRun && s.coreP (h / 8) == 0 && !t.held && t.walk.isNone && t.ent.isNone
    && !(match t.await with | some a => a.blk | none => false)

/-- The thread selects at its boundary: no HALT, no interrupt, no end of its chunk is before its next instruction (R56; 04 R126; 12
R313, R314, R329). -/
def Pkg.startable (s : Pkg) (h : Nat) : Bool :=
  let t := s.thr h
  !t.halting && !t.lagged && !t.full && !t.due && !s.outStall h && (s.pickVector h).isNone

/-- A register that a load has still to write. -/
def Await.writes (a : Await) (q : RegId) : Bool :=
  match a.dest with
  | .g r _ _ => r != 0 && q == (0, r)
  | .f r _ => q == (1, r)
  | .v r => q == (2, r)
  | .gg r => q == (0, r) || q == (0, r + 1)
  | .buf => false

/-- No register that an instruction reads or writes awaits a load (R37). -/
def Thread.unawaited (t : Thread) (i : Ins) : Bool :=
  match t.await with
  | none => true
  | some a => (i.srcs ++ i.dsts).all (fun q => !a.writes q)

/-- The width, base, offset and data of a store. -/
def Thread.storeForm (t : Thread) : Ins → Option (Nat × Reg × BitVec 12 × Nat)
  | .store fn ra rb imm => let n := 2 ^ (fn.toNat % 4); some (n, ra, imm, (t.rg rb.toNat).toNat % 2 ^ (8 * n))
  | .storef fn ra rb imm => let n := if fn = 2#3 then 4 else 8; some (n, ra, imm, (t.rF rb.toNat).toNat % 2 ^ (8 * n))
  | .storev ra rb imm => some (32, ra, imm, (t.rV rb.toNat).toNat)
  | _ => none

/-- The store buffer has the entries that a store takes (R46). -/
def Thread.storeRoom (t : Thread) (i : Ins) : Bool :=
  match t.storeForm i with
  | none => true
  | some (n, ra, imm, _) => decide (t.sb.length + (split (t.rg ra.toNat + imm.signExtend 64) n).length ≤ 16)

/-- Key of a register of thread t in the scoreboard; G0 is always available. -/
def regKey (t : Nat) (q : RegId) : Nat := t * 96 + q.1 * 32 + q.2
def n0 : Nat → Nat := fun _ => 0

/-- A thread that is ready, or will be in a later cycle: from which cycle on, the unit and divider of its head, its level, its latency,
its hold time and what it writes. -/
structure Cand where
  t : Nat
  from' : Nat
  unit : ExUnit
  div : Nat
  lev : Nat
  lat : Nat
  hold : Nat
  dst : List RegId
deriving DecidableEq, Repr

/-- What thread h offers the selector (R37), if nothing but time is before it. An ILLEGAL head is selected as an ALU operation. -/
def Pkg.cand (s : Pkg) (h : Nat) : Option Cand :=
  let t := s.thr h
  let k := (s.core (h / 8)).sched
  match t.head with
  | none => none
  | some w =>
    if t.sel || !s.mayGo h then none
    else
      let lev := bits (t.rs 0x010) 1 0
      let hold := Map.get n0 k.hold (h % 8)
      match insDecode w with
      | none => if s.startable h then some ⟨h % 8, hold, .alu, 0, lev, 1, 1, []⟩ else none
      | some i =>
        if !t.unawaited i || !t.storeRoom i || !s.startable h then none
        else
          let av := (i.srcs ++ i.dsts).foldl (fun a q => max a (Map.get n0 k.avail (regKey (h % 8) q))) hold
          some ⟨h % 8, av, i.unit, i.divider, lev, i.latency t, i.hold t, i.dsts.filter (· != (0, 0))⟩

/-! ### The selector (R36, R38) -/

/-- A unit is free beside those claimed in the cycle. -/
def unitFree (l : List (Nat × ExUnit)) (u : ExUnit) : Bool :=
  match u with
  | .alone => true
  | .alu => decide ((l.filter (·.2 == .alu)).length < 2)
  | .both => l.all (fun q => q.2 != .ldPort && q.2 != .stPort && q.2 != .both)
  | .ldPort | .stPort => l.all (fun q => q.2 != u && q.2 != .both)
  | _ => l.all (fun q => q.2 != u)

/-- The level at which a thread is searched: 3 once it has waited 64 cycles, or in a cycle of THREADSEL (19 R461). -/
def Sched.eff (k : Sched) (x : Cand) : Nat := if Map.get n0 k.starve x.t ≥ 64 || k.shim.isSome then 3 else x.lev
/-- The pointer of a level in this cycle, and how many instructions may issue in it. -/
def Sched.from_ (k : Sched) (ptr : List Nat) (lv : Nat) : Nat := match k.shim with | some (p, _) => p | none => ptr.getD lv 7
def Sched.width (k : Sched) : Nat := match k.shim with | some (_, true) => 1 | _ => 2
/-- Thread x is ready in the current cycle, and its divider is not busy. -/
def Sched.readyNow (k : Sched) (x : Cand) : Bool := decide (x.from' ≤ k.cyc)
def Sched.divFree (k : Sched) (x : Cand) : Nat := if x.div = 1 then k.divI else if x.div = 2 then k.divF else 0
def Sched.open (k : Sched) (units : List (Nat × ExUnit)) (x : Cand) : Bool :=
  k.readyNow x && decide (k.divFree x ≤ k.cyc) && !units.any (·.1 == x.t) && unitFree units x.unit

/-- The pick of one slot: strict between levels, round-robin from the level's pointer within one. -/
def Sched.pick (k : Sched) (ptr : List Nat) (l : List Cand) : Option Cand :=
  [3, 2, 1, 0].findSome? (fun lv =>
    (List.range 8).findSome? (fun i =>
      l.find? (fun x => x.t == (k.from_ ptr lv + 1 + i) % 8 && k.eff x == lv && k.open k.slots x)))

/-- `n` cycles pass in which nothing (more) is selected: each thread ready in them and not chosen waits one longer (R38). -/
def Sched.pass (k : Sched) (l : List Cand) (n : Nat) : Sched :=
  if n = 0 then k
  else
    { k with
      cyc := k.cyc + n, slots := [], shim := none
      starve := (List.range 8).foldl (fun m t =>
        let old := Map.get n0 k.starve t
        let new := match l.find? (·.t == t) with
          | none => 0
          | some x =>
            if k.slots.any (·.1 == t) then k.cyc + n - max (k.cyc + 1) x.from'
            else if x.from' ≤ k.cyc then old + n
            else k.cyc + n - x.from'
        Map.set n0 m t new) k.starve
      noted := k.noted.filter (fun t => !k.slots.any (·.1 == t) && l.any (fun x => x.t == t && decide (x.from' ≤ k.cyc))) }

/-- `n` cycles of core c pass before the selector's next pick. -/
def Pkg.cyclesPass (s : Pkg) (c : Nat) (l : List Cand) (n : Nat) : Pkg :=
  let s := s.updCore c (fun q => { q with sched := q.sched.pass l n })
  match s.shmSelect c n with
  | (s, none) => s
  | (s, some f) => s.updCore c (fun q => { q with sched := { q.sched with shim := some f } })
/-- The selector's next pick, and the state at it: in the current cycle if a slot and something for it are left, else in the next one in
which something can be selected. -/
def Pkg.turn (s : Pkg) (c : Nat) : Option (Pkg × Cand) :=
  let k := (s.core c).sched
  let ptr := (s.core c).ptr
  let l := (List.range 8).filterMap (fun t => s.cand (8 * c + t))
  match (if k.slots.length < k.width then k.pick ptr l else none) with
  | some x => some (s, x)
  | none =>
    match (l.map (fun x => max (k.cyc + 1) (max x.from' (k.divFree x)))).min? with
    | none => none
    | some n =>
      let s := s.cyclesPass c l (n - k.cyc)
      match (s.core c).sched.pick ptr l with
      | some x => some (s, x)
      | none => none

/-- The selected head is issued in the cycle's slot (R38 to R41). -/
def Sched.take (k : Sched) (x : Cand) : Sched :=
  { k with
    slots := k.slots ++ [(x.t, x.unit)]
    hold := Map.set n0 k.hold x.t (k.cyc + x.hold)
    avail := x.dst.foldl (fun m q => Map.set n0 m (regKey x.t q) (k.cyc + x.lat)) k.avail
    divI := if x.div = 1 then k.cyc + x.lat else k.divI
    divF := if x.div = 2 then k.cyc + x.lat else k.divF }

/-- Select the head of thread h, if the selector's next pick is that thread. -/
def Pkg.select (s : Pkg) (h : Nat) : Option Pkg :=
  match s.turn (h / 8) with
  | none => none
  | some (s, x) =>
    if x.t ≠ h % 8 then none
    else some ((s.updCore (h / 8) (fun q => { q with sched := q.sched.take x, ptr := q.ptr.set (q.sched.eff x) x.t })).updThr h (fun t => { t with sel := true }))

/-- STARVATION_PROMOTION (R36): a thread that has been ready but unselected for 64 cycles is treated as level 3; event 0x24 counts it. -/
def Pkg.promote (s : Pkg) (h : Nat) : Pkg :=
  let k := (s.core (h / 8)).sched
  if decide (Map.get n0 k.starve (h % 8) ≥ 64) && !k.noted.contains (h % 8) then
    (s.updCore (h / 8) (fun q => { q with sched := { q.sched with noted := h % 8 :: q.sched.noted } })).pmu h 0x24
  else s

/-! ### Executing the head -/

/-- Execute the head by `f` if it belongs to group `g` and has been selected, or is selected now. An ILLEGAL encoding (03 R73) is in the
group of INTEGER_OP and raises vector 0. A serialising instruction waits for the thread's outstanding load. -/
def Pkg.issue (s : Pkg) (h : Nat) (g : Grp) (f : Pkg → Ins → Pkg) : Pkg :=
  match (s.thr h).head with
  | none => s
  | some w =>
    if wordGrp w != g || !s.mayGo h then s
    else
      match (if (s.thr h).sel then some s else s.select h) with
      | none => s
      | some s =>
        let s := s.flushWake h
        match insDecode w with
        | none => s.fault h 0 (s.thr h).pc 0#64 0
        | some i => if i.serial && (s.thr h).await.isSome then s else f s i

end Sys2Proof.Machine
end

