-- ==== Sys2Proof/Machine/Sysreg.lean ====
section
/-!
DEFINITION. Machine/Sysreg.lean: the system registers (03 R94): which numbers name one, at which levels it is readable and
writable, what MFSR returns and MTSR writes (02 R36, R66; 03 R79, R92; 04 R102 to R106, R119, R127; 05 R136, R137; 12
R345).
-/
namespace Sys2Proof.Machine

/-- Access to a system register: the lowest level that reads it, and the lowest that writes it (none: read-only). -/
structure SrAcc where
  rd : Nat
  wr : Option Nat
deriving DecidableEq, Repr

/-- The registers (R94): none for a number that names no register. `uread` is PMCTL.UREAD. The identification register
0xF00 is readable at every level (log entry 26). -/
def srAcc (n : Nat) (uread : Bool) : Option SrAcc :=
  if n = 0x010 then some ⟨1, some 1⟩
  else if n = 0x018 then some ⟨0, some 0⟩
  else if n = 0x100 then some ⟨0, some 1⟩
  else if n = 0x104 then some ⟨2, some 2⟩
  else if 0x108 ≤ n ∧ n ≤ 0x10B then some ⟨3, some 3⟩
  else if 0x10C ≤ n ∧ n ≤ 0x10F then some ⟨2, some 2⟩
  else if 0x120 ≤ n ∧ n < 0x180 then
    let l := (n - 0x120) / 0x20 + 1
    let o := n % 0x20
    if o ≤ 3 ∨ (8 ≤ o ∧ o ≤ 15) then some ⟨l, some l⟩ else none
  else if 0x180 ≤ n ∧ n ≤ 0x187 then some ⟨1, some 1⟩
  else if 0x200 ≤ n ∧ n ≤ 0x202 then some ⟨n - 0x1FF, some (n - 0x1FF)⟩
  else if n = 0x204 then some ⟨1, some 1⟩
  else if 0x208 ≤ n ∧ n ≤ 0x20A then some ⟨n - 0x207, some (n - 0x207)⟩
  else if n = 0x210 ∨ n = 0x211 then some ⟨2, some 2⟩
  else if 0x300 ≤ n ∧ n ≤ 0x304 then some ⟨1, some 1⟩
  else if n = 0x400 then some ⟨0, none⟩
  else if n = 0x401 then some ⟨1, some 1⟩
  else if 0x500 ≤ n ∧ n ≤ 0x507 then some ⟨if uread then 0 else 1, some 1⟩
  else if 0x508 ≤ n ∧ n ≤ 0x511 then some ⟨1, some 1⟩
  else if 0x520 ≤ n ∧ n ≤ 0x52F then some ⟨1, some 1⟩
  else if n = 0x600 then some ⟨1, none⟩
  else if n = 0x601 then some ⟨0, none⟩
  else if n = 0xF00 then some ⟨0, none⟩
  else none

/-- The vector that an access raises (R94): ILLEGAL 0, PRIV 1, in the order given there. -/
def srFault (n lvl : Nat) (uread write : Bool) : Option Nat :=
  match srAcc n uread with
  | none => some 0
  | some a =>
    if write then
      match a.wr with
      | some w => if lvl < w then some 1 else none
      | none => if lvl < a.rd then some 1 else some 0
    else if lvl < a.rd then some 1 else none

/-- TROLE (12 R345): 0 SOLO, 1 CAPTAIN, 2 STOKER, the role that FAB_SELF.MODE shows; a stoker replays what the captain
read. -/
def Pkg.trole (s : Pkg) : Nat := s.fabMode

/-- Whether MFSR of a register is a nondeterministic input (02 R64; 12 R314, SYSREG). -/
def srTiming (n : Nat) : Bool :=
  n == 0x400 || n == 0x601 || (decide (0x500 ≤ n) && decide (n ≤ 0x507)) || n == 0x510
    || (decide (0x520 ≤ n) && decide (n ≤ 0x527))

/-- The value of a system register. -/
def Pkg.srRead (s : Pkg) (h n : Nat) : Word :=
  let t := s.thr h
  let k := s.core (h / 8)
  if n = 0x400 then BitVec.ofNat 64 s.timeNs
  else if n = 0x601 then BitVec.ofNat 64 s.trole
  else if n = 0xF00 then s.rd scBase
  else if n = 0x510 then t.rs n ||| Map.get w0 k.csr 0x510
  else if 0x520 ≤ n ∧ n ≤ 0x52F then Map.get w0 k.csr n
  else t.rs n

/-- Keep bits [hi:lo] of a written value. -/
def keep (v : Word) (hi lo : Nat) : Word := v &&& fmask hi lo

/-- The delegation bits that may be 1 in doubleword j (R109). -/
def delegMask (fixed : Nat → Bool) (j : Nat) : Word :=
  (List.range 64).foldl (fun a i => if fixed (64 * j + i) then a else a ||| BitVec.ofNat 64 (2 ^ i)) 0#64

/-- A write of WPCTL (R127): MASK above 56 becomes 56, LVL bits above the writer's level keep their value. -/
def wpctl (old v : Word) (lvl : Nat) : Word :=
  let m := min (bits v 9 4) 56
  let keepHi := bits old 13 10 / 2 ^ (lvl + 1) * 2 ^ (lvl + 1)
  setBits (setBits (keep v 13 0) 9 4 m) 13 10 (bits v 13 10 % 2 ^ (lvl + 1) + keepHi)

/-- A write of FPCR (R79): a rounding mode 5 to 7 leaves its field unchanged. -/
def fpcr (old v : Word) : Word :=
  let b := if bits v 2 0 ≥ 5 then bits old 2 0 else bits v 2 0
  let d := if bits v 6 4 ≥ 5 then bits old 6 4 else bits v 6 4
  setBits (setBits (v &&& 0x1F1F1F77#64) 2 0 b) 6 4 d

/-- A write of a system register by thread h at its level (R94), with what follows from it. -/
def Pkg.srWrite (s : Pkg) (h n : Nat) (v : Word) : Pkg :=
  let t := s.thr h
  let lvl := t.lvl
  let put (x : Word) : Pkg := s.updThr h (·.ws n x)
  if n = 0x010 then put (BitVec.ofNat 64 (if lvl = 1 ∧ bits v 1 0 = 3 then 2 else bits v 1 0))
  else if n = 0x018 then put (fpcr (t.rs n) v)
  else if n = 0x100 then (put (setBits t.ps 2 2 (bits v 2 2)))
  else if n = 0x104 then put (keep v 57 12)
  else if 0x108 ≤ n ∧ n ≤ 0x10B then (put (v &&& delegMask mdelegFixed (n - 0x108)))
  else if 0x10C ≤ n ∧ n ≤ 0x10F then (put (v &&& delegMask hdelegFixed (n - 0x10C)))
  else if 0x120 ≤ n ∧ n < 0x180 then
    match n % 0x20 with
    | 0 => put (keep v 63 11)
    | 1 | 2 => put (keep v 63 6)
    | 3 => put (if v.getLsbD 0 then 0#64 else t.rs n)
    | _ => put v
  else if 0x180 ≤ n ∧ n ≤ 0x187 then put (if n % 2 = 0 then keep v 56 0 else wpctl (t.rs n) v lvl)
  else if 0x200 ≤ n ∧ n ≤ 0x202 then put (keep v 57 12)
  else if n = 0x204 then put (keep v 15 0)
  else if n = 0x208 then put (keep v 2 0)
  else if n = 0x209 ∨ n = 0x20A then put (keep v 1 0)
  else if n = 0x210 then put (keep v 31 16 ||| keep v 1 0)
  else if n = 0x211 then put (keep v 57 13)
  else if n = 0x300 then put (keep v 63 2)
  else if n = 0x302 then
    let l := bits v 2 1
    put (setBits (keep v 3 0) 2 1 (if l = 0 ∨ l > lvl then bits (t.rs n) 2 1 else l))
  else if n = 0x304 then put (keep v 7 7 ||| keep v 4 0)
  else if n = 0x401 then (put v).timerLevel h
  else if 0x500 ≤ n ∧ n ≤ 0x507 then put (keep v 47 0)
  else if 0x508 ≤ n ∧ n ≤ 0x50F then (put (keep v 13 0)).pmuLevel h
  else if n = 0x510 then
    let s := put (t.rs n &&& ~~~(keep v 7 0))
    (s.updCore (h / 8) (fun k => { k with csr := Map.set w0 k.csr 0x510 (Map.get w0 k.csr 0x510 &&& ~~~(keep v 15 8)) })).pmuCore (h / 8)
  else if n = 0x511 then put (keep v 1 0)
  else if 0x520 ≤ n ∧ n ≤ 0x527 then s.updCore (h / 8) (fun k => { k with csr := Map.set w0 k.csr n (keep v 47 0) })
  else if 0x528 ≤ n ∧ n ≤ 0x52F then
    (s.updCore (h / 8) (fun k => { k with csr := Map.set w0 k.csr n (keep v 23 16 ||| keep v 13 0) })).pmuCore (h / 8)
  else put v

end Sys2Proof.Machine
end

