-- ==== Sys2Proof/Machine/Isa.lean ====
section
/-!
DEFINITION. Machine/Isa.lean: what each Skevy instruction does to its thread (03 R75 to R101, R481; 04 R113, R119 to
R122). An instruction executes when it is the head of its thread and has been selected (Select.lean). One that cannot
complete yet stays selected and leaves the rest of the state as it is.
-/
namespace Sys2Proof.Machine

/-! ### Completing, and the checks before it -/

/-- An instruction that completes by changing its thread's registers. -/
def Pkg.done (s : Pkg) (h : Nat) (f : Thread → Thread) : Pkg := ((s.updThr h f).retire h).stepEnd h 0

/-- Below its lowest level an instruction raises PRIV (R90). -/
def Pkg.priv (s : Pkg) (h lowest : Nat) (f : Pkg → Pkg) : Pkg :=
  let t := s.thr h
  if t.lvl < lowest then s.fault h 1 t.pc 0#64 0 else f s

/-- A watchpoint on execution (04 R127), for instructions without a data access. -/
def Pkg.watchX (s : Pkg) (h : Nat) (f : Pkg → Pkg) : Pkg :=
  match (s.thr h).watch [] with
  | some (a, fin) => s.fault h 15 (s.thr h).pc a fin
  | none => f s

/-- ALIGN (R75, R77): FADDR is the misaligned address. -/
def Pkg.alignFault (s : Pkg) (h : Nat) (k : AccKind) (va : Word) : Pkg := s.fault h 2 (s.thr h).pc va (1024 * k.code)

/-! ### Integer and control (R75) -/

/-- INTEGER_OP: the destination and its new value. -/
def Thread.intResult (t : Thread) : Ins → Reg × Word
  | .op fn rd ra rb rc => (rd, intOp fn.toNat (t.rg ra.toNat) (t.rg rb.toNat) rc.toNat)
  | .opi fn rd ra imm => (rd, intOpi fn.toNat (t.rg ra.toNat) imm)
  | .ldih rd imm => (rd, (imm.signExtend 64) <<< 12)
  | .addpch rd imm => (rd, t.pc + ((imm.signExtend 64) <<< 12))
  | _ => (0#5, 0#64)

def Pkg.opInteger (s : Pkg) (h : Nat) (i : Ins) : Pkg :=
  let (rd, x) := (s.thr h).intResult i
  s.watchX h (fun s => s.done h (fun t => t.wg rd.toNat x))

/-- Whether a decoded word stalls its thread's fetch (02 R43). -/
def stallsFetch (w : Word32) : Bool := wordGrp w == .branch || wordGrp w == .balr

/-- BRANCH (02 R43). -/
def Pkg.opBranch (s : Pkg) (h : Nat) (i : Ins) : Pkg :=
  match i with
  | .branch fn ra rb off =>
    s.watchX h (fun s =>
      let t := s.thr h
      let s := s.pmu h 0x08
      if branchTaken fn.toNat (t.rg ra.toNat) (t.rg rb.toNat) then
        (s.jump h (t.pc + ((off.signExtend 64) <<< 2))).stepEnd h 0
      else
        s.done h (fun t => { t with fstall := (t.queue.drop 1).any (fun q => stallsFetch q.2) }))
  | _ => s

/-- BAL (02 R44): what DE has fetched from the target follows it in the queue. -/
def Pkg.opBal (s : Pkg) (h : Nat) (i : Ins) : Pkg :=
  match i with
  | .bal rd imm =>
    s.watchX h (fun s =>
      let t := s.thr h
      let tgt := t.pc + ((imm.signExtend 64) <<< 2)
      let s := (s.updThr h (fun t => t.wg rd.toNat (t.pc + 4#64))).retire h
      let s := s.pmu h 0x09
      let s := if t.pc.toNat % 32 < 28 then s.pmu h 0x0A else s
      let s := match (s.thr h).queue with
        | (pc, _) :: _ => if pc = tgt then s.updThr h (fun t => { t with pc := tgt }) else s.redirect h tgt
        | [] => if (s.thr h).fpc = tgt then s.updThr h (fun t => { t with pc := tgt }) else s.redirect h tgt
      s.stepEnd h 0)
  | _ => s

/-- BALR: a misaligned target raises ALIGN and writes nothing. -/
def Pkg.opBalr (s : Pkg) (h : Nat) (i : Ins) : Pkg :=
  match i with
  | .balr rd ra imm =>
    let t := s.thr h
    let tgt := t.rg ra.toNat + imm.signExtend 64
    if tgt.toNat % 4 ≠ 0 then s.alignFault h .fetch tgt
    else
      s.watchX h (fun s => ((s.updThr h (fun t => t.wg rd.toNat (t.pc + 4#64))).jump h tgt).stepEnd h 0)
  | _ => s

/-! ### Loads and stores (R76) -/

/-- The destination, width, base and offset of a load. -/
def Ins.loadForm : Ins → Option (Dest × Nat × Reg × BitVec 12)
  | .load fn rd ra imm => let n := 2 ^ (fn.toNat % 4); some (.g rd.toNat n (decide (fn.toNat < 4)), n, ra, imm)
  | .loadf fn rd ra imm => let n := if fn = 2#3 then 4 else 8; some (.f rd.toNat n, n, ra, imm)
  | .loadv rd ra imm => some (.v rd.toNat, 32, ra, imm)
  | _ => none

def Pkg.opLoad (s : Pkg) (h : Nat) (now : Bool) (i : Ins) : Pkg :=
  match i.loadForm with
  | some (d, n, ra, imm) =>
    let va := (s.thr h).rg ra.toNat + imm.signExtend 64
    s.access h .load now va n true false (fun s p => s.pieceErr h .load p) (fun s ps => s.loadPerform h d va ps)
  | none => s

/-- The store buffer entries of a store's pieces (02 R46), the lower first; a 32-byte store within a line takes one (DESIGN CHOICE, log entry
15: R46 names entries of at most 16 bytes and of whole lines). -/
def sbOf : List Piece → Nat → List SbEnt
  | [], _ => []
  | p :: t, x => ⟨p.pa, p.ai, p.n, x % 2 ^ (8 * p.n)⟩ :: sbOf t (x / 2 ^ (8 * p.n))

/-- STORE: it is selected only when its entries are free (02 R46). -/
def Pkg.opStore (s : Pkg) (h : Nat) (now : Bool) (i : Ins) : Pkg :=
  match (s.thr h).storeForm i with
  | some (n, ra, imm, x) =>
    let va := (s.thr h).rg ra.toNat + imm.signExtend 64
    s.access h .store now va n false true (fun s p => s.pieceErr h .store p)
      (fun s ps => s.done h (fun t => { t with sb := t.sb ++ sbOf ps x }))
  | none => s

/-! ### Floating point (R78 to R85) -/

def Thread.fpcrV (t : Thread) : Word := t.rs 0x018
/-- The mode of an RM field: 0 takes FPCR's (R78, R83). -/
def Thread.rmode (t : Thread) (rm : BitVec 3) (dec : Bool) : Nat :=
  if rm = 0#3 then (if dec then bits t.fpcrV 6 4 else bits t.fpcrV 2 0) else rm.toNat - 1
def Thread.trapUf (t : Thread) : Bool := t.fpcrV.getLsbD 27

/-- Write a result and its flags, or trap (R80); `ev` is a PMU event of its own (0xFF names none). -/
def Pkg.fpDone (s : Pkg) (h e : Nat) (dec : Bool) (f : Thread → Thread) (ev : Nat := 0xFF) : Pkg :=
  let t := s.thr h
  s.watchX h (fun s =>
    if e &&& bits t.fpcrV 28 24 ≠ 0 then s.fault h 13 t.pc 0#64 (e + (if dec then 32 else 0))
    else (s.done h (fun t => (f t).ws 0x018 (t.fpcrV ||| BitVec.ofNat 64 (e * (if dec then 65536 else 256))))).pmu h ev)

/-- FP_OP (R78). -/
def Pkg.opFp (s : Pkg) (h : Nat) (i : Ins) : Pkg :=
  match i with
  | .fp fn rm p rd ra rb =>
    let t := s.thr h
    let (d, x, e) := fpOp fn.toNat p (t.rmode rm false) t.trapUf (t.rF ra.toNat) (t.rF rb.toNat) (t.rg ra.toNat)
    s.fpDone h e false (fun t => match d with | .f => t.wF rd.toNat x | .g => t.wg rd.toNat x)
  | _ => s

/-- FMA (R78): fn 0 FMADD, 1 FMSUB, 2 FNMADD, 3 FNMSUB. -/
def Pkg.opFma (s : Pkg) (h : Nat) (i : Ins) : Pkg :=
  match i with
  | .fma fn p rd ra rb rc =>
    let t := s.thr h
    let u (r : Reg) := unpackB p (t.rF r.toNat)
    let (x, e) := fmaB p (bits t.fpcrV 2 0) t.trapUf (u ra) (u rb) (u rc) (decide (fn.toNat ≥ 2)) (decide (fn = 1#2 ∨ fn = 2#2))
    s.fpDone h e false (fun t => t.wF rd.toNat x)
  | _ => s

/-- An F register, or a pair (R69). -/
def Thread.rFw (t : Thread) (wide : Bool) (r : Reg) : Nat :=
  (t.rF r.toNat).toNat + (if wide then (t.rF (r + 1#5).toNat).toNat * 2 ^ 64 else 0)
def Thread.wFw (t : Thread) (wide : Bool) (r : Reg) (x : Nat) : Thread :=
  let t := t.wF r.toNat (BitVec.ofNat 64 x)
  if wide then t.wF (r + 1#5).toNat (BitVec.ofNat 64 (x / 2 ^ 64)) else t

/-- DEC_OP (R83). A value that spec/ does not state is a free one in canonical encoding (R84; log entry 23). -/
def Pkg.opDec (s : Pkg) (h : Nat) (i : Ins) : Pkg :=
  match i with
  | .dec fn rm p rd ra rb =>
    let t := s.thr h
    let src := if fn = 14#5 then !p else p
    let (d, x, e) := decOp fn.toNat p (t.rmode rm true) t.trapUf (t.rFw src ra) (t.rFw p rb) (t.rg ra.toNat)
    match d with
    | .f => s.fpDone h e true (fun t => t.wFw p rd x) 0x1A
    | .g => s.fpDone h e true (fun t => t.wg rd.toNat (BitVec.ofNat 64 x)) 0x1A
    | .free nan neg =>
      let (a, s) := s.draw
      let (b, s) := s.draw
      s.fpDone h e true (fun t => t.wFw p rd (freeD p nan neg (a.toNat + b.toNat * 2 ^ 64))) 0x1A
  | _ => s

/-- VEC_OP (R86). -/
def Pkg.opVec (s : Pkg) (h : Nat) (i : Ins) : Pkg :=
  match i with
  | .vec fn rd ra rb rc =>
    let t := s.thr h
    let v (r : Reg) := t.rV r.toNat
    let o := vecOp fn.toNat {
      a := v ra, a1 := v (ra + 1#5), b := v rb, b1 := v (rb + 1#5), c := v rc, d := v rd, g := t.rg ra.toNat, rc := rc.toNat
      rm := bits t.fpcrV 2 0, tu := t.trapUf }
    s.fpDone h o.fl false (fun t =>
      let t := match o.v with | some x => t.wV rd.toNat x | none => t
      let t := match o.v1 with | some x => t.wV (rd + 1#5).toNat x | none => t
      match o.g with | some x => t.wg rd.toNat x | none => t) 0x1B
  | _ => s

/-! ### Atomics (R88, R89) -/

/-- An atomic of n bytes at G[ra], aligned. -/
def Pkg.atomic (s : Pkg) (h : Nat) (now : Bool) (ra : Reg) (d : Dest) (a : AtomOp) : Pkg :=
  let va := (s.thr h).rg ra.toNat
  if va.toNat % a.n ≠ 0 then s.alignFault h .atomic va
  else
    s.access h .atomic now va a.n true true (fun s p => s.pieceErr h .atomic p)
      (fun s ps => match ps with | p :: _ => s.atomPerform h d a p | [] => s)

def Pkg.opCas (s : Pkg) (h : Nat) (now : Bool) (i : Ins) : Pkg :=
  match i with
  | .amo _ _ rd ra rb =>
    let t := s.thr h
    s.atomic h now ra (.g rd.toNat 8 false) ⟨0, 8, (t.rg rb.toNat).toNat, (t.rg rd.toNat).toNat, 0⟩
  | _ => s

def Pkg.opCas128 (s : Pkg) (h : Nat) (now : Bool) (i : Ins) : Pkg :=
  match i with
  | .amo _ _ rd ra rb =>
    let t := s.thr h
    let w (r : Reg) := (t.rg r.toNat).toNat + (t.rg (r.toNat + 1)).toNat * 2 ^ 64
    s.atomic h now ra (.gg rd.toNat) ⟨1, 16, w rb, w rd, 0⟩
  | _ => s

def Pkg.opAmo (s : Pkg) (h : Nat) (now : Bool) (i : Ins) : Pkg :=
  match i with
  | .amo fn w32 rd ra rb =>
    let n := if w32 then 4 else 8
    s.atomic h now ra (.g rd.toNat n w32) ⟨fn.toNat, n, ((s.thr h).rg rb.toNat).toNat % 2 ^ (8 * n), 0, 0⟩
  | _ => s

def Pkg.opDamoadd (s : Pkg) (h : Nat) (now : Bool) (i : Ins) : Pkg :=
  match i with
  | .amo _ _ rd ra rb =>
    let t := s.thr h
    s.atomic h now ra (.f rd.toNat 8) ⟨10, 8, (t.rF rb.toNat).toNat, 0, bits t.fpcrV 6 4⟩
  | _ => s

/-! ### System registers (R94) -/

def Pkg.uread (s : Pkg) (h : Nat) : Bool := ((s.thr h).rs 0x511).getLsbD 0

def Pkg.opMfsr (s : Pkg) (h : Nat) (i : Ins) : Pkg :=
  match i with
  | .mfsr rd n =>
    match srFault n.toNat (s.thr h).lvl (s.uread h) false with
    | some v => s.fault h v (s.thr h).pc 0#64 0
    | none =>
      s.watchX h (fun s =>
        if srTiming n.toNat then
          if s.replaying then
            match s.replayInput 7 with
            | some x => (s.updThr h (fun t => t.wg rd.toNat (BitVec.ofNat 64 x.value))).retire h
            | none => s
          else
            let x := s.srRead h n.toNat
            ((s.updThr h (fun t => t.wg rd.toNat x)).retire h).stepEnd h 7 0 0 0 x.toNat 8
        else
          let x := s.srRead h n.toNat
          s.done h (fun t => t.wg rd.toNat x))
  | _ => s

/-- MTSR: its effect applies from the next instruction (R94). -/
def Pkg.opMtsr (s : Pkg) (h : Nat) (i : Ins) : Pkg :=
  match i with
  | .mtsr ra n =>
    match srFault n.toNat (s.thr h).lvl (s.uread h) true with
    | some v => s.fault h v (s.thr h).pc 0#64 0
    | none => s.watchX h (fun s => (((s.srWrite h n.toNat ((s.thr h).rg ra.toNat)).retire h).stepEnd h 0))
  | _ => s

/-! ### Calls, returns (04 R113, R119 to R122; 03 R90) -/

/-- A call through the vector table: the frame's PC is the next instruction (04 R112). -/
def Pkg.callVec (s : Pkg) (h v lowest : Nat) : Pkg :=
  s.priv h lowest (fun s => s.watchX h (fun s => s.fault h v ((s.thr h).pc + 4#64) 0#64 0))

/-- SCALL (04 R120, R122). -/
def Pkg.opScall (s : Pkg) (h : Nat) : Pkg :=
  let t := s.thr h
  let ctl := t.rs 0x302
  if ctl.getLsbD 0 && !(t.rs 0x304).getLsbD 7 && decide (bits ctl 2 1 ≥ t.lvl) then
    s.watchX h (fun s =>
      let ps := (s.thr h).ps
      let s := s.retire h
      let s := s.updThr h (fun t =>
        let t := ((t.ws 0x303 t.pc).ws 0x304 (ps ||| 0x80#64))
        let sp := t.rs 0x301
        ((t.ws 0x301 (t.rg 31)).wg 31 sp).setPs (setBits (setBits ps 4 2 (bits ctl 3 3)) 1 0 (bits ctl 2 1)))
      (s.redirect h ((s.thr h).rs 0x300)).stepEnd h 0)
  else s.callVec h 16 0

def Pkg.opHcall (s : Pkg) (h : Nat) : Pkg := s.callVec h 17 1
def Pkg.opMcall (s : Pkg) (h : Nat) : Pkg := s.callVec h 18 1
def Pkg.opTrap (s : Pkg) (h : Nat) (i : Ins) : Pkg :=
  match i with
  | .trap n => s.callVec h (128 + n.toNat) 0
  | _ => s
/-- BRK: the frame's PC is the BRK itself. -/
def Pkg.opBrk (s : Pkg) (h : Nat) : Pkg := s.watchX h (fun s => s.fault h 14 (s.thr h).pc 0#64 0)

/-- SRET (04 R121). PC bits [1:0] are 0 (03 R68): those of SCR_PC are dropped (DESIGN CHOICE, log entry 41: R121 names no check of them). -/
def Pkg.opSret (s : Pkg) (h : Nat) : Pkg :=
  s.priv h 1 (fun s =>
    let t := s.thr h
    let sp := t.rs 0x304
    if !sp.getLsbD 7 then s.fault h 0 t.pc 0#64 0
    else if bits sp 1 0 > t.lvl then s.fault h 1 t.pc 0#64 0
    else
      s.watchX h (fun s =>
        let s := s.retire h
        let s := s.updThr h (fun t =>
          let x := t.rs 0x301
          (((t.ws 0x301 (t.rg 31)).wg 31 x).setPs (restorePs sp)).ws 0x304 (setBits sp 7 7 0))
        (s.redirect h (t.rs 0x303 &&& ~~~3#64)).stepEnd h 0))

/-- ERET (04 R113): the frame at SP_L, read as level-L loads; the order of R124. A watchpoint on reads does not match them (DESIGN CHOICE, log
entry 42: R127 names loads, and R113 reads the frame "as level-L loads"). -/
def Pkg.opEret (s : Pkg) (h : Nat) : Pkg :=
  s.priv h 1 (fun s =>
    if !s.quiet h then s
    else
      let t := s.thr h
      let b := lvlBase t.lvl
      match s.sysLoad h t.lvl (t.rs (b + 1)) 64 with
      | (s, .wait) => s
      | (s, .err v fa fin) =>
        if s.boot.stop.isSome then s
        else if v = 11 then s.watchX h (fun s => s.fault h v t.pc (BitVec.ofNat 64 fa) fin)
        else s.fault h v t.pc (BitVec.ofNat 64 fa) fin
      | (s, .ok f) =>
        let d (i : Nat) : Word := BitVec.ofNat 64 (f / 2 ^ (64 * i))
        if bits (d 1) 1 0 > t.lvl then s.fault h 1 t.pc 0#64 0
        else if (d 0).toNat % 4 ≠ 0 then s.alignFault h .fetch (d 0)
        else
          s.watchX h (fun s =>
            let s := s.retire h
            let s := s.updThr h (fun t => ((t.wg 31 (d 5)).setPs (restorePs (d 1))).ws (b + 1) (t.rs (b + 1) + 64#64))
            (s.redirect h (d 0)).stepEnd h 0))

/-! ### Waiting and time (R92, R93) -/

/-- PARK: completion disarms the monitor. -/
def Pkg.opPark (s : Pkg) (h : Nat) : Pkg :=
  s.watchX h (fun s =>
    if (if s.replaying then (s.replayInput 11).isNone else (s.thr h).monWake) then s.done h (fun t => { t with mon := none, monWake := false })
    else ((s.retire h).updThr h (fun t => { t with st := .parked })).stepEnd h 11)

/-- MONITOR: a 1-byte load's translation; outside AI 0 and 1 a BUS_ERR with SRC 8. -/
def Pkg.opMonitor (s : Pkg) (h : Nat) (now : Bool) (i : Ins) : Pkg :=
  match i with
  | .sys _ _ ra =>
    let err (s : Pkg) (p : Piece) : Option Nat :=
      match s.regionErr p.pa p.ai with | some e => some e | none => if p.ai ≤ 1 then none else some 8
    s.access h .load now ((s.thr h).rg ra.toNat) 1 true false err (fun s ps =>
      match ps with
      | p :: _ => s.done h (fun t => { t with mon := some (p.pa / 64), monWake := false })
      | [] => s)
  | _ => s

/-- WAITT: completes with reason 0 if the time has come, else TIMEWAIT. -/
def Pkg.opWaitt (s : Pkg) (h : Nat) (i : Ins) : Pkg :=
  match i with
  | .sys _ rd ra =>
    s.watchX h (fun s =>
      let w := (s.thr h).rg ra.toNat
      let enter (s : Pkg) : Pkg := (s.retire h).updThr h (fun t => { t with st := .timewait, waitt := some (w, rd.toNat) })
      if s.replaying then
        match s.replayInput 5, s.replayInput 11 with
        | some x, _ => (s.updThr h (fun t => t.wg rd.toNat (BitVec.ofNat 64 x.arg))).retire h
        | none, some _ => enter s
        | none, none => s
      else if s.timeNs % 2 ^ 64 ≥ w.toNat then ((s.updThr h (fun t => t.wg rd.toNat 0#64)).retire h).stepEnd h 5 0 0 0 0 8
      else (enter s).stepEnd h 11)
  | _ => s

def Pkg.opRdtime (s : Pkg) (h : Nat) (i : Ins) : Pkg :=
  match i with
  | .sys _ rd _ =>
    s.watchX h (fun s =>
      if s.replaying then
        match s.replayInput 5 with
        | some x => (s.updThr h (fun t => t.wg rd.toNat (BitVec.ofNat 64 x.value))).retire h
        | none => s
      else
        let x := BitVec.ofNat 64 s.timeNs
        ((s.updThr h (fun t => t.wg rd.toNat x)).retire h).stepEnd h 5 0 0 0 x.toNat 8)
  | _ => s

def Pkg.opHtid (s : Pkg) (h : Nat) (i : Ins) : Pkg :=
  match i with
  | .sys _ rd _ => s.watchX h (fun s => s.done h (fun t => t.wg rd.toNat (BitVec.ofNat 64 h)))
  | _ => s

/-! ### Fences (R91; 07 R197) -/

/-- A fence completes: what was fetched beyond it is discarded. -/
def Pkg.fenced (s : Pkg) (h cause : Nat) : Pkg :=
  let s := (s.pmu h 0x1D).retire h
  (s.redirect h (s.thr h).pc).stepEnd h cause

def Pkg.opFence (s : Pkg) (h : Nat) : Pkg := s.watchX h (fun s => if s.quiet h then s.fenced h 0 else s)

/-- Whether a device-posted, device-ordered or write-combined write of the thread has still to leave. -/
def Pkg.ioOut (s : Pkg) (h : Nat) : Bool :=
  !s.replaying && (s.devq.any (fun r => r.wr && (r.h == h || (r.h / 8 == h / 8 && r.wc.getLsbD (h % 8))))
    || s.tdm.hold.any (fun o => o.h == some h))

/-- FENCE.IO: the core's write-combining buffers are flushed first (07 R201). -/
def Pkg.opFenceIo (s : Pkg) (h : Nat) : Pkg :=
  s.watchX h (fun s =>
    if !s.quiet h then s
    else
      let s := s.wcFlush (h / 8) (fun _ => true)
      if s.ioOut h then s else s.fenced h 10)

/-- Whether a global write, atomic or write-back of the thread is unacknowledged. -/
def Pkg.remoteOut (s : Pkg) (h : Nat) : Bool :=
  !s.replaying && (s.fab.unacked h || s.tdm.hold.any (fun o => o.h == some h))

def Pkg.opFenceG (s : Pkg) (h : Nat) : Pkg :=
  s.watchX h (fun s => if !s.quiet h then s else if s.remoteOut h then s.askFlush h else s.fenced h 10)

/-! ### Cache maintenance by address (R95, R96; 06 R172, R173) -/

/-- Clean a line everywhere: its backing store, the slice and every copy hold its current data, so the target and every level beyond it
do, whichever the target is (R96; log entry 27). Its write-backs are the thread's (R91; 08 R233). -/
def Pkg.cleanLine (s : Pkg) (line h : Nat) : Pkg :=
  let s := (s.owners line).foldl (fun s t => s.releaseTile t line (some h)) s
  let (d, p) := s.curLine line
  let l2d := (s.holders line).any (fun u => s.stL2 u line == .M || s.stL2 u line == .O)
  let l3d := match s.findL3 line with | some k => (s.getL3 k).st == .M | none => false
  let s := (s.holders line).foldl (fun s t =>
    match s.findL2 t line with
    | some k =>
      let c := s.getL2 k
      s.putL2 k { c with st := if c.st = .M then .E else if c.st = .O then .S else c.st }
    | none => s) s
  let s := s.dirSync line
  let s := match s.findL3 line with
    | some k => s.putL3 k { s.getL3 k with data := d, poison := p, st := .E }
    | none => s
  if l2d || l3d then (s.stReq (stCore (h / 8)) 64).toStore line d p (some h) else s

/-- Remove every copy down to the target, discarding dirty data. -/
def Pkg.dropLine (s : Pkg) (line tgt : Nat) : Pkg :=
  let s := s.purgeOthers none line
  if tgt = 0 then s else match s.findL3 line with | some k => s.putL3 k {} | none => s

/-- Remove a line from the L1I of every core (the I bit). -/
def Pkg.dropL1i (s : Pkg) (line : Nat) : Pkg :=
  { s with l1i := s.l1i.filter (fun p => p.2.line != line) }

/-- A maintenance instruction by address; AI 2, 3 and 4 have no effect. -/
def Pkg.maintain (s : Pkg) (h : Nat) (now : Bool) (i : Ins) (k : AccKind) (f : Pkg → Nat → Nat → Pkg) : Pkg :=
  match i with
  | .cma cs ra =>
    let err (s : Pkg) (p : Piece) : Option Nat := if 2 ≤ p.ai ∧ p.ai ≤ 4 then none else s.regionErr p.pa p.ai
    s.access h k now ((s.thr h).rg ra.toNat) 1 (k == .load) (k == .store) err (fun s ps =>
      match ps with
      | [] => s
      | p :: _ =>
        let line := p.pa / 64
        if !s.quiet h then s
        else if s.sigWait (some h) line true || (s.trkOf line).isSome || s.cores.any (fun q => s.owing (q.1 / 2) line) then s
        else
          let s := if 2 ≤ p.ai ∧ p.ai ≤ 4 then s
            else
              let s := f s line (cs.toNat / 4 % 4)
              if cs.getLsbD 4 then s.dropL1i line else s
          (s.retire h).stepEnd h 0)
  | _ => s

def Pkg.opCva (s : Pkg) (h : Nat) (now : Bool) (i : Ins) : Pkg :=
  s.maintain h now i .load (fun s line _ => s.cleanLine line h)
def Pkg.opIva (s : Pkg) (h : Nat) (now : Bool) (i : Ins) : Pkg :=
  s.priv h 1 (fun s => s.maintain h now i .store (fun s line tgt => s.dropLine line tgt))
def Pkg.opCiva (s : Pkg) (h : Nat) (now : Bool) (i : Ins) : Pkg :=
  s.maintain h now i .load (fun s line tgt => (s.cleanLine line h).dropLine line tgt)

/-! ### Set and way (R97; 06 R174, R186) -/

/-- The operand of CSW, ISW and CISW: the cache, set and way, if it is legal. -/
def swOperand (v : Word) : Option (Nat × Nat × Nat) :=
  let c := bits v 2 0
  let set := bits v 14 4
  let way := bits v 23 20
  if v.getLsbD 3 || bits v 19 15 != 0 || bits v 63 24 != 0 then none
  else
    match c with
    | 0 => if set < 256 ∧ way < 4 then some (c, set, way) else none
    | 1 => if set < 128 ∧ way < 8 then some (c, set, way) else none
    | 2 => if set < 1024 then some (c, set, way) else none
    | 3 => some (c, set, way)
    | _ => none

/-- The L3 entry that a set and way names in slice n: an evacuated slice's is in the buddy's spare ways; the spare ways
that a slice lends are not its own. -/
def Pkg.swL3 (s : Pkg) (n set way : Nat) : Option Nat :=
  let b := Nat.xor n 1
  if s.evacd n then (if (s.spareOf b).getLsbD way && !s.ret3 b way then some (b * 32768 + set * 16 + way) else none)
  else if s.ret3 n way || ((s.spareOf n).getLsbD way && s.evacd b) then none
  else some (n * 32768 + set * 16 + way)

/-- Clean one line by set and way. -/
def Pkg.cleanSw (s : Pkg) (h c set way : Nat) : Pkg :=
  let t := h / 16
  match c with
  | 2 => if s.ret2 t way then s else s.cleanL2 t (t * 16384 + set * 16 + way) (some (h / 8))
  | 3 =>
    match s.swL3 t set way with
    | some k => (if (s.getL3 k).st = .M then s.stReq (stCore (h / 8)) 64 else s).cleanL3 k
    | none => s
  | _ => s
/-- Remove one line by set and way. -/
def Pkg.dropSw (s : Pkg) (h c set way : Nat) : Pkg :=
  let t := h / 16
  match c with
  | 0 => { s with l1i := Map.set line0 s.l1i (h / 8 * 1024 + set * 4 + way) {} }
  | 1 => { s with l1d := Map.set line0 s.l1d (h / 8 * 1024 + set * 8 + way) {} }
  | 2 =>
    let l := s.getL2 (t * 16384 + set * 16 + way)
    if s.ret2 t way || l.st == .I then s else (s.purgeTile t l.line).dirSync l.line
  | _ => match s.swL3 t set way with | some k => s.putL3 k {} | none => s

/-- A set and way instruction: PRIV below H, ILLEGAL for its operand (R97, R124). -/
def Pkg.setWay (s : Pkg) (h : Nat) (i : Ins) (f : Pkg → Nat → Nat → Nat → Pkg) : Pkg :=
  match i with
  | .csw _ ra =>
    s.priv h 2 (fun s =>
      match swOperand ((s.thr h).rg ra.toNat) with
      | none => s.fault h 0 (s.thr h).pc 0#64 0
      | some (c, set, way) =>
        s.watchX h (fun s => if s.quiet h then ((f s c set way).retire h).stepEnd h 0 else s))
  | _ => s

def Pkg.opCsw (s : Pkg) (h : Nat) (i : Ins) : Pkg := s.setWay h i (fun s c set way => s.cleanSw h c set way)
def Pkg.opIsw (s : Pkg) (h : Nat) (i : Ins) : Pkg := s.setWay h i (fun s c set way => s.dropSw h c set way)
def Pkg.opCisw (s : Pkg) (h : Nat) (i : Ins) : Pkg :=
  s.setWay h i (fun s c set way => (s.cleanSw h c set way).dropSw h c set way)

/-- TLBI (R98): types 3 and 5 from H up. -/
def Pkg.opTlbi (s : Pkg) (h : Nat) (i : Ins) : Pkg :=
  match i with
  | .tlbi ty ra =>
    s.priv h (if ty = 3#3 ∨ ty = 5#3 then 2 else 1) (fun s =>
      let t := s.thr h
      let v := t.rg ra.toNat
      if !tlbiOperandOk ty.toNat v then s.fault h 0 t.pc 0#64 0
      else s.watchX h (fun s =>
        if s.quiet h then ((s.tlbi ty.toNat v (bits (t.rs 0x210) 31 16) t.lvl).retire h).stepEnd h 0 else s))
  | _ => s

/-! ### Long resumable instructions (R99 to R101, R481) -/

/-- The sides of a granule: the piece, how it is accessed, and FINFO.ACCESS's kind. -/
structure Side where
  p : Piece
  k : AccKind
deriving DecidableEq, Repr

/-- The length of the next granule from G[ra] with a count (R100). -/
def granLen (a cnt : Word) : Nat := min cnt.toNat (64 - a.toNat % 64)

/-- What a long instruction touches in its next granule. -/
def Thread.granSides (t : Thread) : Ins → List Side
  | .block fn _ ra rb rc =>
    let a := t.rg ra.toNat
    let n := granLen a (t.rg rc.toNat)
    let one (r : Reg) (k : AccKind) : List Side := (split (t.rg r.toNat) n).map (fun p => ⟨p, k⟩)
    match fn.toNat with
    | 0 => one ra .store ++ one rb .load
    | 1 => one ra .store
    | 2 => one ra .load ++ one rb .load
    | _ => one ra .load
  | _ => []

/-- A granule's BUS_ERR (R100, R112). One that the address map forbids as well has the map's SRC (DESIGN CHOICE, log entry 40). -/
def Pkg.granErr (s : Pkg) (p : Piece) : Option Nat :=
  match s.regionErr p.pa p.ai with
  | some e => some e
  | none => if p.ai = 2 ∨ p.ai = 3 then some 9 else none

/-- What a side of a granule needs from outside the package's DRAM: bytes of another node or a device that it reads, or a cached global
line that the package does not hold. A replaying member asks for nothing (12 R322). -/
def Pkg.granNeed (s : Pkg) (h : Nat) (q : Side) : List Part :=
  let p := q.p
  let l : List Part :=
    if s.replaying then []
    else if p.ai = 6 then (if s.uncopied (p.pa / 64) && !(q.k == .store && p.n == 64) then [⟨p.pa / 64 * 64, 6, 64, none⟩] else [])
    else if q.k == .load && region p.pa != 0 then [⟨p.pa, p.ai, p.n, none⟩]
    else []
  l.filter (fun x => ((s.thr h).bufGet x.pa x.n).isNone)

/-- A side reads a poisoned line that the package holds (06 R180). -/
def Pkg.granPoison (s : Pkg) (q : Side) : Bool :=
  q.k == .load && (region q.p.pa == 0 || (q.p.ai == 6 && !s.uncopied (q.p.pa / 64))) && (s.homeRead q.p.pa q.p.n).2

/-- A granule's read of one piece, as a load reads it (R481): through the caches, at the home, or the bytes that have come from outside. A
replaying member, whose log holds no input for it, reads free bytes there (log entries 2, 25). -/
def Pkg.granRead (s : Pkg) (h : Nat) (p : Piece) : Pkg × List (BitVec 8) :=
  if p.ai ≤ 1 then
    let (s, x, _) := s.coreRead (h / 8) p.ai p.pa p.n true
    (s, leBytes p.n x)
  else if p.ai = 6 then
    match s.takeGlobal h .load p.va p.pa p.n true with
    | (s, some (x, _)) => (s, leBytes p.n x)
    | (s, none) => (s, leBytes p.n 0)
  else if region p.pa = 0 then
    let (s, x, _) := s.homeTake p.pa p.n
    (s, leBytes p.n x)
  else
    match (s.thr h).bufGet p.pa p.n with
    | some x => (s, leBytes p.n x)
    | none => ({ s with fresh := s.fresh + 1 }, (List.range p.n).map (fun k => Config.remoteByte s.fresh (p.pa + k)))

/-- A granule's write of one piece (R481). -/
def Pkg.granWrite (s : Pkg) (h : Nat) (p : Piece) (x : Nat) : Pkg :=
  if p.ai = 6 then
    let s := if p.n = 64 then s else (s.takeGlobal h .store p.va p.pa p.n true).1
    s.coreWrite (h / 8) 6 p.pa p.n x true
  else if p.ai ≤ 1 then (s.chunkWrite h (p.pa / 64)).coreWrite (h / 8) p.ai p.pa p.n x true
  else if p.ai = 5 then (s.stReq (stCore (h / 8)) p.n).sendGlobal .wr p.pa p.n x 0 (.store h)
  else if region p.pa = 0 then (s.chunkWrite h (p.pa / 64)).homeWrite p.pa p.n x
  else s.emitDev h { h := h, pa := p.pa, n := p.n, data := x, be := 2 ^ p.n - 1, wr := true, wait := false }

/-- The bytes that MOVB writes: each byte is read after the ones before it have been written. -/
def movBytes (dst src : List Nat) (old : List (BitVec 8)) : List (BitVec 8) :=
  (dst.zip (src.zip old)).foldl (fun (a : List (BitVec 8) × List (Nat × BitVec 8)) q =>
    let v := match a.2.find? (fun e => e.1 == q.2.1) with | some e => e.2 | none => q.2.2
    (a.1 ++ [v], (q.1, v) :: a.2)) ([], []) |>.1

/-- The chunk cause of a granule (12 R314): LOCAL for AI 4 accesses to DRAM, OUTPUT for stores that leave the package. -/
def granCause (l : List Side) : Nat :=
  let c := (l.map (fun q => if q.k == .store then drainCause q.p.pa q.p.ai else if region q.p.pa = 0 ∧ q.p.ai = 4 then 9 else 0)).filter (· ≠ 0)
  (c.min?).getD 0

/-- A granule's reads, in the order of its sides: what each side that is read holds. -/
def Pkg.granLoads (s : Pkg) (h : Nat) (sides : List Side) : Pkg × List (Side × List (BitVec 8)) :=
  sides.foldl (fun (a : Pkg × List (Side × List (BitVec 8))) q =>
    if q.k == .load then let (s, x) := a.1.granRead h q.p; (s, a.2 ++ [(q, x)]) else a) (s, [])

/-- One granule whose sides have passed every check (R100). -/
def Pkg.granPerform (s : Pkg) (h : Nat) (i : Ins) (sides : List Side) : Pkg :=
  match i with
  | .block fn rd ra rb rc =>
    let t := s.thr h
    let a := t.rg ra.toNat
    let cnt := t.rg rc.toNat
    let n := granLen a cnt
    let addrs (l : List Side) : List Nat := l.flatMap (fun q => (List.range q.p.n).map (q.p.pa + ·))
    let reads := sides.filter (fun q => q.k == .load)
    let s := reads.foldl (fun s q => if q.p.ai ≤ 1 then s.chunkRead h (q.p.pa / 64) else s) s
    let (s, vals) := s.granLoads h sides
    let bytes (l : List (Side × List (BitVec 8))) : List (BitVec 8) := l.flatMap (·.2)
    let adv (t : Thread) (k : Nat) (both : Bool) : Thread :=
      let t := (t.wg ra.toNat (a + BitVec.ofNat 64 k)).wg rc.toNat (cnt - BitVec.ofNat 64 k)
      if both then t.wg rb.toNat (t.rg rb.toNat + BitVec.ofNat 64 k) else t
    let cause := granCause sides
    let next (s : Pkg) (k : Nat) (both : Bool) (f : Thread → Thread) : Pkg :=
      let s := (s.updThr h (fun t => f { (adv t k both) with ebuf := [] })).pmu h 0x20
      if cnt.toNat = k then (s.retire h).stepEnd h cause
      else ((s.updThr h (fun t => t.setPs (setBits t.ps 4 3 1))).chunkStep h).stepEnd h cause
    match fn.toNat with
    | 0 =>
      let x := movBytes (addrs (sides.take 1)) (addrs reads) (bytes vals)
      next ((sides.take 1).foldl (fun s q => s.granWrite h q.p (leNat x)) s) n true id
    | 1 =>
      let pat := (t.rg rb.toNat).toNat
      let x := (List.range n).map (fun k => BitVec.ofNat 8 (pat / 256 ^ ((a.toNat + k) % 8)))
      next ((sides.take 1).foldl (fun s q => s.granWrite h q.p (leNat x)) s) n false id
    | 2 =>
      let x := bytes (vals.take 1)
      let y := bytes (vals.drop 1)
      match (x.zip y).findIdx? (fun q => q.1 != q.2) with
      | some k =>
        let less := ((x.getD k 0#8).toNat < (y.getD k 0#8).toNat)
        ((((s.updThr h (fun t => (adv t k true).wg rd.toNat (if less then BitVec.allOnes 64 else 1#64))).pmu h 0x20).retire h)).stepEnd h cause
      | none => next s n true (fun t => if cnt.toNat = n then t.wg rd.toNat 0#64 else t)
    | _ =>
      let c := (bytes vals).foldl crcByte ((t.rg rd.toNat).setWidth 32)
      next s n false (fun t => t.wg rd.toNat (c.setWidth 64))
  | _ => s

/-- What a granule waits for: transactions for its lines and stores ready to drain into them, other threads' open chunks, the bytes
that the core's write-combining buffers hold of its lines, and room for its outputs. -/
def Pkg.granWaits (s : Pkg) (h : Nat) (l : List Side) : Bool :=
  l.any (fun q =>
    let line := q.p.pa / 64
    (q.p.ai ≤ 1 && ((s.trkOf line).isSome || s.cores.any (fun c => s.owing (c.1 / 2) line) || s.sigWait (some h) line (q.k == .store)))
      || (q.p.ai == 6 && ((s.trkOf line).isSome || s.cores.any (fun c => s.owing (c.1 / 2) line)))
      || (q.p.ai == 4 && (s.devq.any (fun r => r.wr && r.h / 8 == h / 8 && r.pa / 64 == line) || (region q.p.pa == 0 && s.sigWait (some h) line (q.k == .store)))))
    || (granCause l == 8 && s.holdFull)

/-- A granule whose translations are permitted, `ok` being its sides: WATCH, then BUS_ERR, the lowest address of either side first (R101,
R124); what it needs from outside is asked for in the order of addresses, and its answer may be a BUS_ERR. -/
def Pkg.granGo (s : Pkg) (h : Nat) (i : Ins) (seen : List (Bool × Bool × Bool)) (ok : List Side) : Pkg :=
  let t := s.thr h
  match t.watch (ok.map (fun q => ⟨q.p.va, q.p.n, q.k == .load, q.k == .store, q.k.code, false⟩)) with
  | some (a, fin) => s.fault h 15 t.pc a fin
  | none =>
    let errs : List (Side × Nat) := ok.filterMap (fun q => match s.granErr q.p with
      | some e => some (q, e)
      | none => if s.granPoison { q with p := { q.p with ai := s.effAi q.p.ai } } then some (q, 3) else none)
    let bad := lowest (fun (q : Side × Nat) => q.1.p.va.toNat) errs
    let ok := (ok.filter (fun q => (s.granErr q.p).isNone)).map (fun q => { q with p := { q.p with ai := s.effAi q.p.ai } })
    let s := (ok.filter (·.p.ai == 4)).foldl (fun s q => s.wcFlush (h / 8) (fun b => b.line == q.p.pa / 64)) s
    let need := (ok.flatMap (fun q => (s.granNeed h q).map (fun x => (q, x)))).filter (fun x => match bad with | some b => decide (x.1.p.va.toNat < b.1.p.va.toNat) | none => true)
    if s.granWaits h ok then s
    else
      match lowest (fun (x : Side × Part) => x.1.p.va.toNat) need with
      | some (q, x) => s.askBuf h q.k q.p.va [x]
      | none =>
        match bad with
        | some (q, 3) => (s.seen (q.p.pa / 64)).poisonNow h q.p.pa .load false
        | some (q, e) => s.busErr h e q.k false t.pc q.p.va
        | none => (s.tlbCount h 0x15 seen).granPerform h i ok

/-- GRANULE: the checks of R101 over every side, in the order of R124, then the granule. One that has begun to read is not interrupted. -/
def Pkg.granule (s : Pkg) (h : Nat) (now : Bool) (i : Ins) : Pkg :=
  let t := s.thr h
  let sides := t.granSides i
  let seen := sides.map (fun q => s.tlbSeen h t.lvl q.p.va q.k)
  if t.ebuf.isEmpty && !s.startable h then s
  else
    let (s, rs) := sides.foldl (fun (a : Pkg × List (Side × XRes)) q =>
      let (s, r) := a.1.xl1 h t.lvl q.k now q.p.va
      (s, a.2 ++ [(q, r)])) (s, [])
    match rs.find? (fun q => q.2 == .miss) with
    | some (q, _) => s.updThr h (fun t => { t with walk := some ⟨q.p.va, q.p.n, q.k⟩ })
    | none =>
      let bad := rs.filterMap (fun q => match q.2 with | .fault f => some (q.1, f) | _ => none)
      let addr (q : Side × XFault) : Nat := q.1.p.va.toNat
      let first := match lowest addr (bad.filter (fun q => !q.2.isPerm)) with
        | some q => some q
        | none => lowest addr bad
      match first with
      | some (q, f) => s.xfault h f q.k false t.pc q.p.va
      | none =>
        s.granGo h i seen (rs.filterMap (fun q => match q.2 with | .ok pa ai => some { q.1 with p := { q.1.p with pa := pa, ai := ai } } | _ => none))

/-- The start of a long instruction: the store buffer drains first (R481); a count of 0 completes with no access. -/
def Pkg.longStart (s : Pkg) (h : Nat) (i : Ins) : Pkg :=
  match i with
  | .block fn rd _ _ rc =>
    if (s.thr h).long || !s.quiet h then s
    else if (s.thr h).rg rc.toNat = 0#64 then
      s.watchX h (fun s => ((if fn = 2#5 then s.updThr h (fun t => t.wg rd.toNat 0#64) else s)).retireQ h)
    else s.updThr h (fun t => { t with long := true })
  | _ => s

/-! ### The head, whatever it is -/

/-- Execute a decoded head instruction. -/
def Pkg.execIns (s : Pkg) (h : Nat) (now : Bool) (i : Ins) : Pkg :=
  match i.grp with
  | .intOp => s.opInteger h i
  | .branch => s.opBranch h i
  | .bal => s.opBal h i
  | .balr => s.opBalr h i
  | .load => s.opLoad h now i
  | .store => s.opStore h now i
  | .fp => s.opFp h i
  | .fma => s.opFma h i
  | .dec => s.opDec h i
  | .vec => s.opVec h i
  | .cas => s.opCas h now i
  | .cas128 => s.opCas128 h now i
  | .amo => s.opAmo h now i
  | .damoadd => s.opDamoadd h now i
  | .mfsr => s.opMfsr h i
  | .mtsr => s.opMtsr h i
  | .scall => s.opScall h
  | .hcall => s.opHcall h
  | .mcall => s.opMcall h
  | .sret => s.opSret h
  | .eret => s.opEret h
  | .brk => s.opBrk h
  | .trap => s.opTrap h i
  | .park => s.opPark h
  | .monitor => s.opMonitor h now i
  | .waitt => s.opWaitt h i
  | .rdtime => s.opRdtime h i
  | .htid => s.opHtid h i
  | .fence => s.opFence h
  | .fenceIo => s.opFenceIo h
  | .fenceG => s.opFenceG h
  | .cva => s.opCva h now i
  | .iva => s.opIva h now i
  | .civa => s.opCiva h now i
  | .csw => s.opCsw h i
  | .isw => s.opIsw h i
  | .cisw => s.opCisw h i
  | .tlbi => s.opTlbi h i
  | .movb | .fillb | .cmpb | .crcb => if (s.thr h).long then s.granule h now i else s.longStart h i

end Sys2Proof.Machine
end

