-- ==== Sys2Proof/Machine/Thread.lean ====
section
/-!
DEFINITION. Machine/Thread.lean: what threads and cores do beside executing instructions: fetch (02 R34, R35, R43 to R45),
fills, drains, table walks (05 R146), interrupts (04 R126, R128), idle releases (02 R51, 07 R201), thread commands, the
TIC's inputs; and the commands of chapters 02 to 04.
-/
namespace Sys2Proof.Machine

/-! ### Fetch (02 R34, R35, R43 to R45) -/

/-- What DE makes of a block's words from `pc` on (R33, R43, R44): the queue entries, the next fetch address, and whether
fetch stalls. Instructions after a direct branch are discarded. -/
def deBlock (pc : Word) : List Word32 → List (Word × Word32) × Word × Bool
  | [] => ([], pc, false)
  | w :: t =>
    match insDecode w with
    | some (.bal _ imm) => ([(pc, w)], pc + ((imm.signExtend 64) <<< 2), false)
    | _ =>
      let (q, n, st) := deBlock (pc + 4#64) t
      ((pc, w) :: q, n, st || stallsFetch w)

/-- A block's words, from the fetch address to the end of the aligned 32 bytes. -/
def blockWords (d : BitVec 512) (o : Nat) : List Word32 :=
  (List.range ((32 - o % 32) / 4)).map (fun k => BitVec.ofNat 32 (lineGet d (o + 4 * k) 4))

/-- A fetched block enters the thread's queue. -/
def Pkg.pushBlock (s : Pkg) (h : Nat) (d : BitVec 512) : Pkg :=
  s.updThr h (fun t =>
    let (q, n, st) := deBlock t.fpc (blockWords d (t.fpc.toNat % 64))
    { t with queue := t.queue ++ q, fpc := n, fstall := t.fstall || st, redirect := false })

/-- A thread eligible for fetch (R34), which waits for no block and no fetch's walk. -/
def Pkg.fetchable (s : Pkg) (h : Nat) : Bool :=
  let t := s.thr h
  s.threadsRun && t.st == .run && !t.halting && s.coreP (h / 8) == 0 && !t.fstall && decide (t.queue.length ≤ 8)
    && !t.walk.any (·.kind == .fetch) && t.ent.isNone && !(s.core (h / 8)).miss.any (fun m => m.kind == .ifetch && m.thr == h % 8)

/-- The thread that the fetch port of core c serves next (R34): those with a pending redirect first, round-robin in each group (one
pointer for both, log entry 3). -/
def Pkg.fetchTurn (s : Pkg) (c : Nat) : Option Nat :=
  let l := ((List.range 8).map (fun i => ((s.core c).rrFetch + 1 + i) % 8)).filter (fun t => s.fetchable (8 * c + t))
  match l.find? (fun t => (s.thr (8 * c + t)).redirect) with
  | some t => some t
  | none => l.head?

/-- The next-line prefetch of R35. One that finds no free miss entry, or another miss on the line, is dropped (DESIGN CHOICE, log entry 16:
R35 does not say whether it waits). -/
def Pkg.nextLine (s : Pkg) (h pa ai : Nat) : Pkg :=
  let c := h / 8
  let line := pa / 64 + 1
  if !s.rb (coreBase c) 0 || pa % 64 < 32 || line % 64 == 0 || (s.findL1i c line).isSome || (s.regionErr (64 * line) ai).isSome
      || (s.core c).miss.any (·.line == line) || !s.missRoom h then s
  else (s.addMiss h line .prefetch ai true).pmu h 0x0C

/-- What the fetch of the thread's next instruction meets: only when nothing of the thread is before it (R45, R124), and
no interrupt is (04 R126). -/
def Pkg.fetchMeets (s : Pkg) (h : Nat) (f : Pkg → Pkg) : Pkg :=
  let t := s.thr h
  if t.queue.isEmpty && t.await.isNone && t.fpc == t.pc && (s.pickVector h).isNone && !t.lagged then f s else s

/-- FETCH_BLOCK (R34): the port serves thread h, if it comes to it. `par`: the L1I's copy of the line has a parity error (R60). A walk
starts only for the thread's next instruction (R45). -/
def Pkg.fetch (s : Pkg) (h : Nat) (par : Bool) : Pkg :=
  let c := h / 8
  if s.fetchTurn c ≠ some (h % 8) then s
  else
    let t := s.thr h
    let s := (s.updCore c (fun k => { k with rrFetch := h % 8 })).updThr h (fun t => { t with redirect := false })
    let seen := s.tlbSeen h t.lvl t.fpc .fetch
    match s.xlate h t.lvl t.fpc .fetch with
    | (s, .miss) => s.fetchMeets h (fun s => s.updThr h (fun t => { t with walk := some ⟨t.fpc, 4, .fetch⟩ }))
    | (s, .fault f) => s.fetchMeets h (fun s => s.xfault h f .fetch false t.pc t.pc)
    | (s, .ok pa ai) =>
      match s.regionErr pa ai with
      | some src => s.fetchMeets h (fun s => s.busErr h src .fetch false t.pc t.pc)
      | none =>
        let line := pa / 64
        let s := if par then s.l1Parity h 8 line else s
        match s.findL1i c line with
        | some k =>
          let l := Map.get line0 s.l1i k
          if l.poison then s.fetchMeets h (fun s => s.poisonNow h pa .fetch false)
          else
            let s := { s with l1i := Map.set line0 s.l1i k { l with age := 0 } }.tlbCount h 0x16 [seen]
            (s.pushBlock h l.data).nextLine h pa ai
        | none =>
          if !s.missRoom h then s
          else (((s.tlbCount h 0x16 [seen]).addMiss h line .ifetch ai false).pmu h 0x0B).nextLine h pa ai

/-- The line of an instruction fetch arrives; a thread that still wants it takes its block. An error of a remote home is that of the
fetch (11 R300). -/
def Pkg.fillFetch (s : Pkg) (h : Nat) (m : Miss) (r : Option (BitVec 512 × Bool)) : Pkg :=
  let t := s.thr h
  if !s.fetchable h then s
  else
    match s.xlate h t.lvl t.fpc .fetch with
    | (s, .ok pa _) =>
      if pa / 64 ≠ m.line then s
      else
        match m.err, r with
        | some src, _ => s.fetchMeets h (fun s => s.busErr h src .fetch false t.pc (BitVec.ofNat 64 pa))
        | none, some (_, true) => s.fetchMeets h (fun s => s.poisonNow h pa .fetch false)
        | none, some (d, false) => s.pushBlock h d
        | none, none => s
    | (s, _) => s

/-- FILL_ARRIVAL (R52, R53): miss entry i of core c is answered once the tile's L2 holds its line, or the home has delivered it without a
copy or in error; permission requests end with PERMISSION_GRANT. `ns`: the latency that the statistics record (08 R233); `e`: an
error that the lookup of the L2 meets (06 R179). -/
def Pkg.fillArrival (s : Pkg) (c i ns : Nat) (e : ArrErr) : Pkg :=
  match (s.core c).miss[i]? with
  | none => s
  | some m =>
    if m.kind == .perm || (s.trkOf m.line).isSome then s
    else if m.data.isNone && m.err.isNone && s.stL2 (c / 2) m.line == .I then s
    else if m.kind == .load then s.fillLoad c i ns e m
    else
      let s := s.updCore c (fun k => { k with miss := k.miss.eraseIdx i })
      let s := match m.asked with | some n => s.stRd (stCore c) n ns | none => s
      let s := if m.data.isNone then s.arrayErr false (c / 2) m.line (s.findL2 (c / 2) m.line) e else s
      let (s, r) : Pkg × Option (BitVec 512 × Bool) := match s.findL2 (c / 2) m.line with
        | some k =>
          let l := s.getL2 k
          ((s.putL2 k { l with age := 0 }).fillL1i c m.line l.data l.poison (m.kind == .prefetch), some (l.data, l.poison))
        | none => (s, m.data)
      if m.kind == .ifetch then s.fillFetch (8 * c + m.thr) m r else s

/-! ### Walks, interrupts, selection -/

/-- TABLE_WALK (05 R146): for a fetch the translation is made, or its fault taken; for data the head instruction, which has been selected,
makes its access again, walking. A walk that must write A or D waits for the thread's earlier accesses. -/
def Pkg.tableWalk (s : Pkg) (h : Nat) : Pkg :=
  let t := s.thr h
  match t.walk with
  | none => s
  | some w =>
    let s0 := s.updThr h (fun t => { t with walk := none })
    if !s0.mayGo h then s
    else if w.kind = .fetch then
      s.fetchMeets h (fun s =>
        match s.xlateNow h t.lvl t.fpc .fetch with
        | (s1, .ok _) => (s1.updThr h (fun t => { t with walk := none })).tlbCount h 0x16 [s.tlbSeen h t.lvl t.fpc .fetch]
        | (s1, .error f) => if f.kind = 9 then s else s1.xfault h f .fetch false t.pc t.pc)
    else
      match t.head.bind insDecode with
      | none => s0
      | some i => s0.execIns h true i

/-- INTERRUPT_TAKE (04 R126, R128): at a boundary, with nothing of the thread outstanding (R42, R110). -/
def Pkg.interruptTake (s : Pkg) (h : Nat) : Pkg :=
  let t := s.thr h
  if s.threadsRun && t.st == .run && !t.halting && !t.lagged && s.coreP (h / 8) == 0 && s.quiet h && (!t.sel || t.long)
      && t.ebuf.isEmpty && t.ent.isNone then
    match s.pickVector h with
    | some v => (s.flushWake h).takeVector h v
    | none => s
  else s

/-- 256 core cycles of a core at its course's clock, in ps (02 R31, R51; log entry 29). -/
def Pkg.idleLimit (s : Pkg) (c : Nat) : Nat := 256000000 / s.coreMhz c

/-- MERGE_IDLE_RELEASE (02 R51); a line whose store has still to drain keeps it until then (07 R191). -/
def Pkg.mergeIdle (s : Pkg) (c line : Nat) : Pkg :=
  match s.mergeOf c line with
  | some m => if m.perm && !s.owing (c / 2) line && decide (s.now - m.last ≥ s.idleLimit c) then s.releaseMerge c line else s
  | none => s

/-- WC_IDLE_FLUSH (07 R201). -/
def Pkg.wcIdle (s : Pkg) (c line : Nat) : Pkg :=
  s.wcFlush c (fun b => b.line == line && decide (s.now - b.last ≥ s.idleLimit c))

/-- A thread command from outside reaches its core, unless the proxy answers (01 R29). -/
def Pkg.thrCmd (s : Pkg) (h : Nat) (f : Pkg → Pkg) : Pkg := if s.coreUp h then f s else s

/-- TIMER follows the time (13 R348); a stoker takes it from the log. -/
def Pkg.timerDue (s : Pkg) (h : Nat) : Pkg := if s.replaying then s else s.timerLevel h

/-! ### Commands -/

/-- INTEGER_OP (R75). -/
def execIntegerOp (h : Htid) (chk : Option CoreChk) (s : State) : Out :=
  s.run (fun p => match chk with | some k => (match p.coreCheck h k with | (p, true) => p.issue h .intOp (fun p i => p.opInteger h i) | (p, false) => p) | none => p.issue h .intOp (fun p i => p.opInteger h i))
/-- BRANCH (R43). -/
def execBranch (h : Htid) (s : State) : Out :=
  s.run (·.issue h .branch (fun p i => p.opBranch h i))
/-- BAL (R44). -/
def execBal (h : Htid) (s : State) : Out :=
  s.run (·.issue h .bal (fun p i => p.opBal h i))
/-- BALR (R75). -/
def execBalr (h : Htid) (s : State) : Out :=
  s.run (·.issue h .balr (fun p i => p.opBalr h i))
/-- LOAD (R76). -/
def execLoad (h : Htid) (chk : Option CoreChk) (s : State) : Out :=
  s.run (fun p => match chk with | some k => (match p.coreCheck h k with | (p, true) => p.issue h .load (fun p i => p.opLoad h false i) | (p, false) => p) | none => p.issue h .load (fun p i => p.opLoad h false i))
/-- STORE (R76). -/
def execStore (h : Htid) (s : State) : Out :=
  s.run (·.issue h .store (fun p i => p.opStore h false i))
/-- FP_OP (R78). -/
def execFpOp (h : Htid) (s : State) : Out :=
  s.run (·.issue h .fp (fun p i => p.opFp h i))
/-- FMA (R78). -/
def execFma (h : Htid) (s : State) : Out :=
  s.run (·.issue h .fma (fun p i => p.opFma h i))
/-- DEC_OP (R83). -/
def execDecOp (h : Htid) (s : State) : Out :=
  s.run (·.issue h .dec (fun p i => p.opDec h i))
/-- VEC_OP (R86). -/
def execVecOp (h : Htid) (s : State) : Out :=
  s.run (·.issue h .vec (fun p i => p.opVec h i))
/-- CAS (R88). -/
def execCas (h : Htid) (s : State) : Out :=
  s.run (·.issue h .cas (fun p i => p.opCas h false i))
/-- CAS128 (R88). -/
def execCas128 (h : Htid) (s : State) : Out :=
  s.run (·.issue h .cas128 (fun p i => p.opCas128 h false i))
/-- AMO (R88). -/
def execAmo (h : Htid) (s : State) : Out :=
  s.run (·.issue h .amo (fun p i => p.opAmo h false i))
/-- DAMOADD (R88). -/
def execDamoadd (h : Htid) (s : State) : Out :=
  s.run (·.issue h .damoadd (fun p i => p.opDamoadd h false i))
/-- MFSR (R94). -/
def execMfsr (h : Htid) (s : State) : Out :=
  s.run (·.issue h .mfsr (fun p i => p.opMfsr h i))
/-- MTSR (R94). -/
def execMtsr (h : Htid) (s : State) : Out :=
  s.run (·.issue h .mtsr (fun p i => p.opMtsr h i))
/-- SCALL (R120). -/
def execScall (h : Htid) (s : State) : Out :=
  s.run (·.issue h .scall (fun p _ => p.opScall h))
/-- HCALL (R90). -/
def execHcall (h : Htid) (s : State) : Out :=
  s.run (·.issue h .hcall (fun p _ => p.opHcall h))
/-- MCALL (R90). -/
def execMcall (h : Htid) (s : State) : Out :=
  s.run (·.issue h .mcall (fun p _ => p.opMcall h))
/-- SRET (R121). -/
def execSret (h : Htid) (s : State) : Out :=
  s.run (·.issue h .sret (fun p _ => p.opSret h))
/-- ERET (R113). -/
def execEret (h : Htid) (s : State) : Out :=
  s.run (·.issue h .eret (fun p _ => p.opEret h))
/-- BRK (R90). -/
def execBrk (h : Htid) (s : State) : Out :=
  s.run (·.issue h .brk (fun p _ => p.opBrk h))
/-- TRAP (R90). -/
def execTrap (h : Htid) (s : State) : Out :=
  s.run (·.issue h .trap (fun p i => p.opTrap h i))
/-- PARK (R93). -/
def execPark (h : Htid) (s : State) : Out :=
  s.run (·.issue h .park (fun p _ => p.opPark h))
/-- MONITOR (R93). -/
def execMonitor (h : Htid) (s : State) : Out :=
  s.run (·.issue h .monitor (fun p i => p.opMonitor h false i))
/-- WAITT (R92). -/
def execWaitt (h : Htid) (s : State) : Out :=
  s.run (·.issue h .waitt (fun p i => p.opWaitt h i))
/-- RDTIME (R92). -/
def execRdtime (h : Htid) (s : State) : Out :=
  s.run (·.issue h .rdtime (fun p i => p.opRdtime h i))
/-- HTID (R90). -/
def execHtid (h : Htid) (s : State) : Out :=
  s.run (·.issue h .htid (fun p i => p.opHtid h i))
/-- FENCE (R91). -/
def execFence (h : Htid) (s : State) : Out :=
  s.run (·.issue h .fence (fun p _ => p.opFence h))
/-- FENCE_IO (R91). -/
def execFenceIo (h : Htid) (s : State) : Out :=
  s.run (·.issue h .fenceIo (fun p _ => p.opFenceIo h))
/-- FENCE_G (R91). -/
def execFenceG (h : Htid) (s : State) : Out :=
  s.run (·.issue h .fenceG (fun p _ => p.opFenceG h))
/-- CVA (R96). -/
def execCva (h : Htid) (s : State) : Out :=
  s.run (·.issue h .cva (fun p i => p.opCva h false i))
/-- IVA (R96). -/
def execIva (h : Htid) (s : State) : Out :=
  s.run (·.issue h .iva (fun p i => p.opIva h false i))
/-- CIVA (R96). -/
def execCiva (h : Htid) (s : State) : Out :=
  s.run (·.issue h .civa (fun p i => p.opCiva h false i))
/-- CSW (R97). -/
def execCsw (h : Htid) (s : State) : Out :=
  s.run (·.issue h .csw (fun p i => p.opCsw h i))
/-- ISW (R97). -/
def execIsw (h : Htid) (s : State) : Out :=
  s.run (·.issue h .isw (fun p i => p.opIsw h i))
/-- CISW (R97). -/
def execCisw (h : Htid) (s : State) : Out :=
  s.run (·.issue h .cisw (fun p i => p.opCisw h i))
/-- TLBI (R98). -/
def execTlbi (h : Htid) (s : State) : Out :=
  s.run (·.issue h .tlbi (fun p i => p.opTlbi h i))
/-- MOVB (R99). -/
def execMovb (h : Htid) (s : State) : Out :=
  s.run (·.issue h .movb (fun p i => p.longStart h i))
/-- FILLB (R99). -/
def execFillb (h : Htid) (s : State) : Out :=
  s.run (·.issue h .fillb (fun p i => p.longStart h i))
/-- CMPB (R99). -/
def execCmpb (h : Htid) (s : State) : Out :=
  s.run (·.issue h .cmpb (fun p i => p.longStart h i))
/-- CRCB (R99). -/
def execCrcb (h : Htid) (s : State) : Out :=
  s.run (·.issue h .crcb (fun p i => p.longStart h i))
/-- GRANULE (R100). -/
def execGranule (h : Htid) (s : State) : Out :=
  s.run (fun p => match (p.thr h).head with | some w => p.issue h (wordGrp w) (fun p i => if (p.thr h).long then p.granule h false i else p) | none => p)
/-- FETCH_BLOCK (R34). -/
def execFetchBlock (f : FetchOp) (s : State) : Out :=
  s.run (·.fetch f.h f.par)
/-- STARVATION_PROMOTION (R36). -/
def execStarvationPromotion (h : Htid) (s : State) : Out :=
  s.run (·.promote h)
/-- LOAD_REISSUE (R47). -/
def execLoadReissue (h : Htid) (s : State) : Out :=
  s.run (·.loadReissue h)
/-- FILL_ARRIVAL (R53). -/
def execFillArrival (c : CoreN) (i : Fin 32) (a : FillAns) (s : State) : Out :=
  s.run (·.fillArrival c i a.ns a.e)
/-- STORE_DRAIN (R49). -/
def execStoreDrain (h : Htid) (s : State) : Out :=
  s.run (·.storeDrain h)
/-- PERMISSION_GRANT (R49). -/
def execPermissionGrant (c : CoreN) (g : LineAns) (s : State) : Out :=
  s.run (·.permGrant c g.line g.ns g.e)
/-- MERGE_IDLE_RELEASE (R51). -/
def execMergeIdleRelease (c : CoreN) (line : Nat) (dt : Nat) (s : State) : Out :=
  s.runAt dt (·.mergeIdle c line)
/-- WC_IDLE_FLUSH (R201). -/
def execWcIdleFlush (c : CoreN) (line : Nat) (dt : Nat) (s : State) : Out :=
  s.runAt dt (·.wcIdle c line)
/-- INTERRUPT_TAKE (R128). -/
def execInterruptTake (h : Htid) (s : State) : Out :=
  s.run (·.interruptTake h)
/-- WAITT_TIME_REACHED (R348). -/
def execWaittTimeReached (h : Htid) (dt : Nat) (s : State) : Out :=
  s.runAt dt (·.waittDue h)
/-- TIMER_PENDING (R348). -/
def execTimerPending (h : Htid) (dt : Nat) (s : State) : Out :=
  s.runAt dt (·.timerDue h)
/-- PMC_WRAP (R66). -/
def execPmcWrap (h : Htid) (i : Fin 16) (s : State) : Out :=
  s.run (·.pmcWraps h i)
/-- THREAD_START (R55). -/
def execThreadStart (h : Htid) (s : State) : Out :=
  s.run (·.thrCmd h (·.thrStart h))
/-- THREAD_HALT (R56). -/
def execThreadHalt (h : Htid) (s : State) : Out :=
  s.run (·.thrCmd h (·.thrHalt h))
/-- HALT_COMPLETE (R56). -/
def execHaltComplete (h : Htid) (s : State) : Out :=
  s.run (·.thrHalted h)
/-- THREAD_RESUME (R55). -/
def execThreadResume (h : Htid) (s : State) : Out :=
  s.run (·.thrCmd h (·.thrResume h))
/-- THREAD_STOP (R55). -/
def execThreadStop (h : Htid) (s : State) : Out :=
  s.run (·.thrCmd h (·.thrStop h))
/-- TIC_MSI_WRITE (R131). -/
def execTicMsiWrite (h : Htid) (v : Word32) (s : State) : Out :=
  s.run (·.msiIn h v.toNat)
/-- TIC_IPI_SEND (R132). -/
def execTicIpiSend (h : Htid) (s : State) : Out :=
  s.run (·.ticSet h 36)
/-- TABLE_WALK (R146). -/
def execTableWalk (h : Htid) (s : State) : Out :=
  s.run (·.tableWalk h)
/-- UNCACHED_HOME_ACCESS (R192). -/
def execUncachedHomeAccess (u : HomeAns) (s : State) : Out :=
  s.run (·.uncachedHome u.h u.ns u.e)
/-- RDSHARED (R188). -/
def execRdshared (t : TileN) (line : Nat) (e : ArrErr) (s : State) : Out :=
  s.run (fun p => if p.owing t line then p else p.rdShared t line e)
/-- SNOOP (R190). -/
def execSnoop (t : TileN) (line : Nat) (e : ArrErr) (s : State) : Out :=
  s.run (fun p => if p.owing t line then p else p.snoop t line e)

end Sys2Proof.Machine
end

