-- ==== Sys2Proof/Machine/Replay.lean ====
section
/-!
DEFINITION. Machine/Replay.lean: the stoker's replay of the log (12 R322 to R324): chunks and INB records. A record is replayed whole
in one command, so no two records are ever replayed at the same time.
-/
namespace Sys2Proof.Machine

/-- The record with GSN g is complete. -/
def Pkg.recDone (s : Pkg) (g : Nat) : Bool := decide (g ≤ s.tdm.doneTo) || s.tdm.done.contains g
/-- Every record up to `pred` is complete. -/
def Pkg.predDone (s : Pkg) (pred : Nat) : Bool := (List.range (pred - s.tdm.doneTo)).all (fun k => s.recDone (s.tdm.doneTo + 1 + k))
/-- Replay goes on. -/
def Pkg.replayable (s : Pkg) (pred : Nat) : Bool := s.replaying && !s.tdm.report && s.trackers.isEmpty && s.predDone pred

/-- The records that follow g without a gap. -/
def runOn (g : Nat) (l : List Nat) : Nat → Nat
  | 0 => g
  | f + 1 => if l.contains (g + 1) then runOn (g + 1) l f else g
/-- The record with GSN g has been replayed. -/
def Pkg.recComplete (s : Pkg) (g : Nat) : Pkg :=
  let l := g :: s.tdm.done
  let upTo := runOn s.tdm.doneTo l l.length
  let s := if upTo > s.tdm.doneTo then s.tell (.progress upTo) else s
  { s with tdm := { s.tdm with
    inp := none, steps := 0, doneTo := upTo, done := l.filter (fun x => decide (upTo < x))
    inlog := s.tdm.inlog.filter (fun r => recGsn r != some g) } }
/-- The stoker reports a divergence (R322, R338). -/
def Pkg.replayFail (s : Pkg) : Pkg := ({ s with tdm := { s.tdm with report := true, inp := none } }).tell .report

/-! ### Chunks -/

/-- The thread's next instruction is fetched and executed, walking at once. -/
def Pkg.replayOne (s : Pkg) (h : Nat) : Pkg :=
  let t := s.thr h
  match s.xlateNow h t.lvl t.pc .fetch with
  | (s1, .error f) => if f.kind = 9 then s else s1.xfault h f .fetch false t.pc t.pc
  | (s1, .ok (pa, ai)) =>
    match s1.regionErr pa ai with
    | some src => s1.busErr h src .fetch false t.pc t.pc
    | none =>
      let (x, p) := s1.homeRead pa 4
      let s1 := s1.seenBytes pa 4
      if p then s1.poisonNow h pa .fetch false
      else
        let w : Word32 := BitVec.ofNat 32 x
        let s2 := s1.updThr h (fun t => { t with queue := [(t.pc, w)] })
        match insDecode w with
        | none => s2.fault h 0 t.pc 0#64 0
        | some i => s2.execIns h true i

/-- What trying the next instruction came to. -/
inductive Tried where
  | step | entered | more | stuck
deriving DecidableEq, Repr

/-- Try the next instruction: it makes a step; it raises an exception, whose entry is no step; it completes, or starts, without a
step (a long instruction: R313); or it cannot go on. -/
def Pkg.replayTry (s : Pkg) (h : Nat) (inp : Option ReplayIn) : Pkg × Tried :=
  let s0 : Pkg := { s with tdm := { s.tdm with inp := inp } }.updThr h (fun t => { t with redirect := false, walk := none })
  let t0 := s0.thr h
  let s1 := s0.replayOne h
  let t1 := s1.thr h
  if s1.tdm.steps > s.tdm.steps then (s1, .step)
  else if t1.redirect || t1.st == .faulted then (s1, .entered)
  else if t1.pc != t0.pc || t1.long != t0.long then (s1, .more)
  else (s, .stuck)

/-- The oldest entry of the store buffer drains. -/
def Pkg.replayDrain (s : Pkg) (h : Nat) : Option Pkg :=
  match (s.thr h).sb with
  | [] => none
  | e :: rest => some ((s.updThr h (fun t => { t with sb := rest })).drainEnt h e)
/-- Entries drain until `n` more have. -/
def Pkg.replayDrains (s : Pkg) (h : Nat) : Nat → Option Pkg
  | 0 => some s
  | n + 1 => match s.replayDrain h with | some s => s.replayDrains h n | none => none

/-- The input of a chunk's last step. -/
def chunkInput (c : ChunkRec) : Option ReplayIn :=
  if [4, 5, 6, 7, 11].contains c.cause then some ⟨c.cause, leNat c.value, c.fault, c.dfl, c.arg⟩ else none

/-- The steps of a chunk, `n` drains being left; a step that must consume an input does not complete without it. -/
def Pkg.replaySteps (s : Pkg) (h : Nat) (c : ChunkRec) (n : Nat) : Nat → Option (Pkg × Nat)
  | 0 => none
  | f + 1 =>
    if s.tdm.steps ≥ c.steps then some (s, n)
    else
      let s := if (s.thr h).st == .parked then s.updThr h (·.wake 0) else s
      if (s.thr h).st != .run then none
      else
        let last : Bool := s.tdm.steps + 1 == c.steps
        let early : Bool := last && (chunkInput c).isSome && c.cause != 11 && (s.replayTry h none).2 == .step
        match s.replayTry h (if last then (chunkInput c) else none) with
        | (s1, .step) => if early then none else s1.replaySteps h c n f
        | (s1, .more) => s1.replaySteps h c n f
        | (_, .entered) => none
        | (_, .stuck) =>
          match n, s.replayDrain h with
          | n + 1, some s => s.replaySteps h c n f
          | _, _ => none

/-- The exception that ends a chunk: what comes before it makes no step. -/
def Pkg.replayEnter (s : Pkg) (h : Nat) : Nat → Option Pkg
  | 0 => none
  | f + 1 =>
    match s.replayTry h none with
    | (s1, .entered) => some s1
    | (s1, .more) => s1.replayEnter h f
    | _ => none

/-- What ends a chunk (R322): its vector, exception, command, reason or digest; none: another outcome than the one recorded. -/
def Pkg.replayEnd (s : Pkg) (h : Nat) (c : ChunkRec) : Option Pkg :=
  match c.cause with
  | 1 => if (s.thr h).st == .run then s.replayEnter h 65536 else none
  | 2 =>
    let s := if (s.thr h).st == .parked then s.updThr h (·.wake 0) else s
    if (s.thr h).st == .run && (s.thr h).sb.isEmpty then some (s.takeVector h c.arg) else none
  | 3 =>
    if c.arg = 2 then
      let s := (s.updThr h (fun t => { t with halting := true })).thrHalted h
      if (s.thr h).st == .halted then some s else none
    else
      let s := s.thrStop h
      if (s.thr h).st == .off then some s else none
  | 5 =>
    if c.steps > 0 then some s
    else if (s.thr h).st == .timewait then some (s.updThr h (·.wake c.arg))
    else none
  | 11 => if (s.thr h).st == .parked || (s.thr h).st == .timewait then some s else none
  | 13 => if (s.thr h).digest.toNat = leNat c.value then some s else none
  | _ => some s

/-- The chunk is complete: TCHUNK counts it (R345), its times raise the floor of R336. -/
def Pkg.chunkReplayed (s : Pkg) (h : Nat) (c : ChunkRec) : Pkg :=
  let s := s.updThr h (fun t => t.ws 0x600 (BitVec.ofNat 64 (((t.rs 0x600).toNat + 1) % 2 ^ 48)))
  let t := max c.tCommit (if c.cause = 5 then leNat c.value else 0)
  ({ s with tdm := { s.tdm with tlast := max s.tdm.tlast t } }).recComplete c.gsn

/-- CHUNK_REPLAY: thread h's next chunk. -/
def Pkg.chunkReplay (s : Pkg) (h : Nat) : Pkg :=
  match s.tdm.inlog.findSome? (fun r => match r with | .chunk c => if c.htid.val = h then some c else none | _ => none) with
  | none => s
  | some c =>
    if !s.replayable c.pred then s
    else
      let s : Pkg := { s with tdm := { s.tdm with gsn := c.gsn - 1, steps := 0 } }
      match s.replaySteps h c c.drn (65536 * (c.steps + 1) + c.drn) with
      | none => s.replayFail
      | some (s, n) =>
        match s.replayDrains h n with
        | none => s.replayFail
        | some s =>
          match s.replayEnd h c with
          | none => s.replayFail
          | some s => s.chunkReplayed h c

/-! ### INB records -/

/-- The TYPE and CLASS of a fabric record's request. -/
def inbTyp (kind : Nat) : Nat × Nat := match kind with | 5 => (0, 2) | 6 => (3, 0) | k => (k - 2, 0)

/-- The event of an INB record (R320). -/
def Pkg.inbPerform (s : Pkg) (r : InbRec) : Pkg :=
  let n := r.nbytes + 1
  match r.kind with
  | 0 => s.dmaPut r.addr (r.data.take n) (r.be % 16) (r.be / 16 % 16)
  | 1 =>
    let x := leNat r.data
    let a : AtomOp := if r.atop ≤ 1 then ⟨r.atop, n, x / 2 ^ (8 * n), x % 2 ^ (8 * n), r.rm⟩ else ⟨r.atop, n, x, 0, r.rm⟩
    match (a.apply (s.homeRead r.addr n).1).1 with
    | some y => s.homeWrite r.addr n y
    | none => s
  | 7 => s.raiseVec (r.addr % 2048) (bits (BitVec.ofNat 64 r.addr) 23 16)
  | 8 =>
    (linesOf r.addr n).foldl (fun s l =>
      ((s.purgeOthers none l).writeHome l (BitVec.ofNat 512 (leNat ((r.data.drop (64 * l - r.addr)).take 64))) r.poison).monHit l) s
  | k =>
    let (typ, cls) := inbTyp k
    s.homeReq r.source typ cls 0 r.ts (r.slot1 :: slotsOf r.data.length (leNat r.data)) (some r.gsn)

/-- INB_REPLAY: the record with GSN g. -/
def Pkg.inbReplay (s : Pkg) (g : Nat) : Pkg :=
  match s.tdm.inlog.findSome? (fun r => match r with | .inb c => if c.gsn = g then some c else none | _ => none) with
  | none => s
  | some r => if s.replayable r.pred then (({ s with tdm := { s.tdm with gsn := g - 1 } }).inbPerform r).recComplete g else s

/-! ### Commands -/

/-- CHUNK_REPLAY (R322). -/
def execChunkReplay (h : Htid) (s : State) : Out :=
  s.run (·.chunkReplay h.val)
/-- INB_REPLAY (R322). -/
def execInbReplay (g : Nat) (s : State) : Out :=
  s.run (·.inbReplay g)

end Sys2Proof.Machine
end

