-- ==== Sys2Proof/Machine/Dispatch.lean ====
section
/-!
DEFINITION. Machine/Dispatch.lean: the meaning of every command, one arm per row of spec/opcode_table.json.
-/
namespace Sys2Proof.Machine

def exec (i : Instr) (s : State) : Host.Outcome State Fault Refusal :=
  match i with
  | .integerOp h chk => Sys2Proof.Machine.execIntegerOp h chk s
  | .branch h => Sys2Proof.Machine.execBranch h s
  | .bal h => Sys2Proof.Machine.execBal h s
  | .balr h => Sys2Proof.Machine.execBalr h s
  | .load h chk => Sys2Proof.Machine.execLoad h chk s
  | .store h => Sys2Proof.Machine.execStore h s
  | .fpOp h => Sys2Proof.Machine.execFpOp h s
  | .fma h => Sys2Proof.Machine.execFma h s
  | .decOp h => Sys2Proof.Machine.execDecOp h s
  | .vecOp h => Sys2Proof.Machine.execVecOp h s
  | .cas h => Sys2Proof.Machine.execCas h s
  | .cas128 h => Sys2Proof.Machine.execCas128 h s
  | .amo h => Sys2Proof.Machine.execAmo h s
  | .damoadd h => Sys2Proof.Machine.execDamoadd h s
  | .mfsr h => Sys2Proof.Machine.execMfsr h s
  | .mtsr h => Sys2Proof.Machine.execMtsr h s
  | .scall h => Sys2Proof.Machine.execScall h s
  | .hcall h => Sys2Proof.Machine.execHcall h s
  | .mcall h => Sys2Proof.Machine.execMcall h s
  | .sret h => Sys2Proof.Machine.execSret h s
  | .eret h => Sys2Proof.Machine.execEret h s
  | .brk h => Sys2Proof.Machine.execBrk h s
  | .trap h => Sys2Proof.Machine.execTrap h s
  | .park h => Sys2Proof.Machine.execPark h s
  | .monitor h => Sys2Proof.Machine.execMonitor h s
  | .waitt h => Sys2Proof.Machine.execWaitt h s
  | .rdtime h => Sys2Proof.Machine.execRdtime h s
  | .htid h => Sys2Proof.Machine.execHtid h s
  | .fence h => Sys2Proof.Machine.execFence h s
  | .fenceIo h => Sys2Proof.Machine.execFenceIo h s
  | .fenceG h => Sys2Proof.Machine.execFenceG h s
  | .cva h => Sys2Proof.Machine.execCva h s
  | .iva h => Sys2Proof.Machine.execIva h s
  | .civa h => Sys2Proof.Machine.execCiva h s
  | .csw h => Sys2Proof.Machine.execCsw h s
  | .isw h => Sys2Proof.Machine.execIsw h s
  | .cisw h => Sys2Proof.Machine.execCisw h s
  | .tlbi h => Sys2Proof.Machine.execTlbi h s
  | .movb h => Sys2Proof.Machine.execMovb h s
  | .fillb h => Sys2Proof.Machine.execFillb h s
  | .cmpb h => Sys2Proof.Machine.execCmpb h s
  | .crcb h => Sys2Proof.Machine.execCrcb h s
  | .granule h => Sys2Proof.Machine.execGranule h s
  | .fetchBlock f => Sys2Proof.Machine.execFetchBlock f s
  | .starvationPromotion h => Sys2Proof.Machine.execStarvationPromotion h s
  | .loadReissue h => Sys2Proof.Machine.execLoadReissue h s
  | .fillArrival c ix a => Sys2Proof.Machine.execFillArrival c ix a s
  | .storeDrain h => Sys2Proof.Machine.execStoreDrain h s
  | .permissionGrant c g => Sys2Proof.Machine.execPermissionGrant c g s
  | .mergeIdleRelease c line dt => Sys2Proof.Machine.execMergeIdleRelease c line dt s
  | .wcIdleFlush c line dt => Sys2Proof.Machine.execWcIdleFlush c line dt s
  | .interruptTake h => Sys2Proof.Machine.execInterruptTake h s
  | .waittTimeReached h dt => Sys2Proof.Machine.execWaittTimeReached h dt s
  | .timerPending h dt => Sys2Proof.Machine.execTimerPending h dt s
  | .pmcWrap h ix => Sys2Proof.Machine.execPmcWrap h ix s
  | .threadStart h => Sys2Proof.Machine.execThreadStart h s
  | .threadHalt h => Sys2Proof.Machine.execThreadHalt h s
  | .haltComplete h => Sys2Proof.Machine.execHaltComplete h s
  | .threadResume h => Sys2Proof.Machine.execThreadResume h s
  | .threadStop h => Sys2Proof.Machine.execThreadStop h s
  | .ticMsiWrite h v => Sys2Proof.Machine.execTicMsiWrite h v s
  | .ticIpiSend h => Sys2Proof.Machine.execTicIpiSend h s
  | .tableWalk h => Sys2Proof.Machine.execTableWalk h s
  | .iotuInvAll u v => Sys2Proof.Machine.execIotuInvAll u v s
  | .iotuInvSrc u v => Sys2Proof.Machine.execIotuInvSrc u v s
  | .iotuInvPasid u v => Sys2Proof.Machine.execIotuInvPasid u v s
  | .iotuInvPage u v => Sys2Proof.Machine.execIotuInvPage u v s
  | .iotuInvVmid u v => Sys2Proof.Machine.execIotuInvVmid u v s
  | .iotuInvComplete u => Sys2Proof.Machine.execIotuInvComplete u s
  | .atsInvalidateTimeout u dt => Sys2Proof.Machine.execAtsInvalidateTimeout u dt s
  | .iotuFqbaseWrite u v => Sys2Proof.Machine.execIotuFqbaseWrite u v s
  | .rdshared t line e => Sys2Proof.Machine.execRdshared t line e s
  | .rdunique t line e => Sys2Proof.Machine.execRdunique t line e s
  | .upgrade t line e => Sys2Proof.Machine.execUpgrade t line e s
  | .wrback t l => Sys2Proof.Machine.execWrback t l s
  | .drop t l => Sys2Proof.Machine.execDrop t l s
  | .snoop t line e => Sys2Proof.Machine.execSnoop t line e s
  | .uncachedHomeAccess u => Sys2Proof.Machine.execUncachedHomeAccess u s
  | .wayRetireComplete l3 n w => Sys2Proof.Machine.execWayRetireComplete l3 n w s
  | .wayRetireWrite l3 n w v => Sys2Proof.Machine.execWayRetireWrite l3 n w v s
  | .l2CleanAll n => Sys2Proof.Machine.execL2CleanAll n s
  | .l2CleanInvalidateAll n => Sys2Proof.Machine.execL2CleanInvalidateAll n s
  | .l3sCleanAll n => Sys2Proof.Machine.execL3sCleanAll n s
  | .l3sCleanInvalidateAll n => Sys2Proof.Machine.execL3sCleanInvalidateAll n s
  | .cacheCmdComplete l3 n => Sys2Proof.Machine.execCacheCmdComplete l3 n s
  | .cacheModeWrite v => Sys2Proof.Machine.execCacheModeWrite v s
  | .cacheModeSettled => Sys2Proof.Machine.execCacheModeSettled s
  | .spareReserve n => Sys2Proof.Machine.execSpareReserve n s
  | .spareClear n => Sys2Proof.Machine.execSpareClear n s
  | .spareReady n => Sys2Proof.Machine.execSpareReady n s
  | .sliceEvacuate n => Sys2Proof.Machine.execSliceEvacuate n s
  | .evacuationComplete n => Sys2Proof.Machine.execEvacuationComplete n s
  | .l2Gate n => Sys2Proof.Machine.execL2Gate n s
  | .meshFlitArrival stop inp f e => Sys2Proof.Machine.execMeshFlitArrival stop inp f e s
  | .bridgeRetrainComplete stop e => Sys2Proof.Machine.execBridgeRetrainComplete stop e s
  | .coreGate c => Sys2Proof.Machine.execCoreGate c s
  | .coreGateComplete c => Sys2Proof.Machine.execCoreGateComplete c s
  | .coreWake c => Sys2Proof.Machine.execCoreWake c s
  | .coreWakeComplete c => Sys2Proof.Machine.execCoreWakeComplete c s
  | .statsSample dt => Sys2Proof.Machine.execStatsSample dt s
  | .dramRead ix line => Sys2Proof.Machine.execDramRead ix line s
  | .dramReadReturn ix line err => Sys2Proof.Machine.execDramReadReturn ix line err s
  | .dramWrite ix line => Sys2Proof.Machine.execDramWrite ix line s
  | .pprGo ix v => Sys2Proof.Machine.execPprGo ix v s
  | .spprStart ix dt => Sys2Proof.Machine.execSpprStart ix dt s
  | .spprComplete ix ok ues => Sys2Proof.Machine.execSpprComplete ix ok ues s
  | .trwStart ix => Sys2Proof.Machine.execTrwStart ix s
  | .trwAbort ix => Sys2Proof.Machine.execTrwAbort ix s
  | .trowelRead ix dt => Sys2Proof.Machine.execTrowelRead ix dt s
  | .trowelLineResult ix err => Sys2Proof.Machine.execTrowelLineResult ix err s
  | .trowelPassEnd ix => Sys2Proof.Machine.execTrowelPassEnd ix s
  | .linkEnable ix => Sys2Proof.Machine.execLinkEnable ix s
  | .linkDrain ix => Sys2Proof.Machine.execLinkDrain ix s
  | .linkDisable ix => Sys2Proof.Machine.execLinkDisable ix s
  | .linkTrainingStep ix ok m n => Sys2Proof.Machine.execLinkTrainingStep ix ok m n s
  | .linkTrainRetry ix dt => Sys2Proof.Machine.execLinkTrainRetry ix dt s
  | .dataFlitReceive ix w => Sys2Proof.Machine.execDataFlitReceive ix w s
  | .idleFlitReceive ix w down => Sys2Proof.Machine.execIdleFlitReceive ix w down s
  | .nakReceive ix w => Sys2Proof.Machine.execNakReceive ix w s
  | .replayTimeout ix dt => Sys2Proof.Machine.execReplayTimeout ix dt s
  | .checkFlitReceive ix w => Sys2Proof.Machine.execCheckFlitReceive ix w s
  | .laneRepairComplete ix r => Sys2Proof.Machine.execLaneRepairComplete ix r s
  | .lossOfLock ix => Sys2Proof.Machine.execLossOfLock ix s
  | .linkDrainComplete ix dt => Sys2Proof.Machine.execLinkDrainComplete ix dt s
  | .switchFlitReceive ix w down => Sys2Proof.Machine.execSwitchFlitReceive ix w down s
  | .takeoverTimeout ix dt => Sys2Proof.Machine.execTakeoverTimeout ix dt s
  | .fabricRoute q => Sys2Proof.Machine.execFabricRoute q s
  | .routeFlip => Sys2Proof.Machine.execRouteFlip s
  | .globalRequestInject d => Sys2Proof.Machine.execGlobalRequestInject d s
  | .fabRd => Sys2Proof.Machine.execFabRd s
  | .fabWr => Sys2Proof.Machine.execFabWr s
  | .fabAtom => Sys2Proof.Machine.execFabAtom s
  | .fabFlush => Sys2Proof.Machine.execFabFlush s
  | .fabRelease => Sys2Proof.Machine.execFabRelease s
  | .fabMsg => Sys2Proof.Machine.execFabMsg s
  | .fabResponse => Sys2Proof.Machine.execFabResponse s
  | .cumulativeAck d dt => Sys2Proof.Machine.execCumulativeAck d dt s
  | .streamIdleRelease d dt => Sys2Proof.Machine.execStreamIdleRelease d dt s
  | .streamResendTimeout d dt => Sys2Proof.Machine.execStreamResendTimeout d dt s
  | .streamAbsentTimeout d dt => Sys2Proof.Machine.execStreamAbsentTimeout d dt s
  | .busyResend d dt => Sys2Proof.Machine.execBusyResend d dt s
  | .fabSendGo h v => Sys2Proof.Machine.execFabSendGo h v s
  | .memTable => Sys2Proof.Machine.execMemTable s
  | .memFlip => Sys2Proof.Machine.execMemFlip s
  | .mapupd => Sys2Proof.Machine.execMapupd s
  | .memDone => Sys2Proof.Machine.execMemDone s
  | .memJoin => Sys2Proof.Machine.execMemJoin s
  | .joinOk => Sys2Proof.Machine.execJoinOk s
  | .memLeave => Sys2Proof.Machine.execMemLeave s
  | .memLeft => Sys2Proof.Machine.execMemLeft s
  | .linkev => Sys2Proof.Machine.execLinkev s
  | .memProbe => Sys2Proof.Machine.execMemProbe s
  | .probeAck => Sys2Proof.Machine.execProbeAck s
  | .probeTimeout dt => Sys2Proof.Machine.execProbeTimeout dt s
  | .membershipResend dt => Sys2Proof.Machine.execMembershipResend dt s
  | .joinResend dt => Sys2Proof.Machine.execJoinResend dt s
  | .leadSilent dt => Sys2Proof.Machine.execLeadSilent dt s
  | .leadFlipPhase => Sys2Proof.Machine.execLeadFlipPhase s
  | .leadMapupdPhase dt => Sys2Proof.Machine.execLeadMapupdPhase dt s
  | .fabJoinCmd => Sys2Proof.Machine.execFabJoinCmd s
  | .fabLeaveCmd => Sys2Proof.Machine.execFabLeaveCmd s
  | .fabLeadWrite v => Sys2Proof.Machine.execFabLeadWrite v s
  | .fabRqCfgWrite q v => Sys2Proof.Machine.execFabRqCfgWrite q v s
  | .tandemHandshake m => Sys2Proof.Machine.execTandemHandshake m s
  | .handshakeTimeout dt => Sys2Proof.Machine.execHandshakeTimeout dt s
  | .chunkConflictCommit h line write => Sys2Proof.Machine.execChunkConflictCommit h line write s
  | .chunkTimeLimit h dt => Sys2Proof.Machine.execChunkTimeLimit h dt s
  | .logChunk w => Sys2Proof.Machine.execLogChunk w s
  | .logInb w => Sys2Proof.Machine.execLogInb w s
  | .logOutmap w => Sys2Proof.Machine.execLogOutmap w s
  | .logReleased w => Sys2Proof.Machine.execLogReleased w s
  | .logMark w => Sys2Proof.Machine.execLogMark w s
  | .chunkReplay h => Sys2Proof.Machine.execChunkReplay h s
  | .inbReplay g => Sys2Proof.Machine.execInbReplay g s
  | .digest osn dg => Sys2Proof.Machine.execDigest osn dg s
  | .progress g => Sys2Proof.Machine.execProgress g s
  | .stokerFailstopCommand => Sys2Proof.Machine.execStokerFailstopCommand s
  | .tdmFsInAssert alive => Sys2Proof.Machine.execTdmFsInAssert alive s
  | .partnerSilenceTimeout dt => Sys2Proof.Machine.execPartnerSilenceTimeout dt s
  | .stokerIsolationTimeout dt => Sys2Proof.Machine.execStokerIsolationTimeout dt s
  | .promotionReplayDone dt low whole => Sys2Proof.Machine.execPromotionReplayDone dt low whole s
  | .promotionComplete dt => Sys2Proof.Machine.execPromotionComplete dt s
  | .rejoin peer => Sys2Proof.Machine.execRejoin peer s
  | .resilverPassEnd pages => Sys2Proof.Machine.execResilverPassEnd pages s
  | .cutoverStart dt => Sys2Proof.Machine.execCutoverStart dt s
  | .cutoverComplete dt m => Sys2Proof.Machine.execCutoverComplete dt m s
  | .swap peer => Sys2Proof.Machine.execSwap peer s
  | .swapComplete dt => Sys2Proof.Machine.execSwapComplete dt s
  | .releaseHeld => Sys2Proof.Machine.execReleaseHeld s
  | .discardHeld => Sys2Proof.Machine.execDiscardHeld s
  | .openIo => Sys2Proof.Machine.execOpenIo s
  | .checkpoint => Sys2Proof.Machine.execCheckpoint s
  | .tdmRepairGo v => Sys2Proof.Machine.execTdmRepairGo v s
  | .tdmRepairComplete dt => Sys2Proof.Machine.execTdmRepairComplete dt s
  | .ppsEdge dt rising => Sys2Proof.Machine.execPpsEdge dt rising s
  | .todFrame dt bytes => Sys2Proof.Machine.execTodFrame dt bytes s
  | .todGapTimeout dt bytes => Sys2Proof.Machine.execTodGapTimeout dt bytes s
  | .ppsLossTimeout dt => Sys2Proof.Machine.execPpsLossTimeout dt s
  | .slewComplete dt => Sys2Proof.Machine.execSlewComplete dt s
  | .todvalidExpire dt => Sys2Proof.Machine.execTodvalidExpire dt s
  | .holdoverDay dt => Sys2Proof.Machine.execHoldoverDay dt s
  | .scheduleFire dt ix => Sys2Proof.Machine.execScheduleFire dt ix s
  | .scheduleEntryWrite ix j v => Sys2Proof.Machine.execScheduleEntryWrite ix j v s
  | .cadCfgWrite v => Sys2Proof.Machine.execCadCfgWrite v s
  | .cadTimeNsRead dt => Sys2Proof.Machine.execCadTimeNsRead dt s
  | .ecamAccess h a => Sys2Proof.Machine.execEcamAccess h a s
  | .crsRetry h dt a => Sys2Proof.Machine.execCrsRetry h dt a s
  | .mmioAccess h => Sys2Proof.Machine.execMmioAccess h s
  | .pcieCompletion h a => Sys2Proof.Machine.execPcieCompletion h a s
  | .completionTimeout h dt => Sys2Proof.Machine.execCompletionTimeout h dt s
  | .inboundRequest r p q => Sys2Proof.Machine.execInboundRequest r p q s
  | .atsTranslationRequest r p q => Sys2Proof.Machine.execAtsTranslationRequest r p q s
  | .intxMessage r p => Sys2Proof.Machine.execIntxMessage r p s
  | .pcieLinkUp r p speed width flit => Sys2Proof.Machine.execPcieLinkUp r p speed width flit s
  | .pcieLinkDown r p => Sys2Proof.Machine.execPcieLinkDown r p s
  | .bmeClear k n => Sys2Proof.Machine.execBmeClear k n s
  | .bmeDrainEnd k n dt => Sys2Proof.Machine.execBmeDrainEnd k n dt s
  | .flr k n => Sys2Proof.Machine.execFlr k n s
  | .flrComplete k n dt => Sys2Proof.Machine.execFlrComplete k n dt s
  | .vfEnableChange k on => Sys2Proof.Machine.execVfEnableChange k on s
  | .cxDoorbell k n j v => Sys2Proof.Machine.execCxDoorbell k n j v s
  | .descriptorFetch k q => Sys2Proof.Machine.execDescriptorFetch k q s
  | .descriptorDispatch k comp p => Sys2Proof.Machine.execDescriptorDispatch k comp p s
  | .nop k ix => Sys2Proof.Machine.execNop k ix s
  | .compress k p chk => Sys2Proof.Machine.execCompress k p chk s
  | .decompress k p => Sys2Proof.Machine.execDecompress k p s
  | .checksum k p => Sys2Proof.Machine.execChecksum k p s
  | .descriptorComplete k ix => Sys2Proof.Machine.execDescriptorComplete k ix s
  | .cxQueueEnable k n j on => Sys2Proof.Machine.execCxQueueEnable k n j on s
  | .cxInstanceEnable k n => Sys2Proof.Machine.execCxInstanceEnable k n s
  | .cxInstanceDisable k n => Sys2Proof.Machine.execCxInstanceDisable k n s
  | .cxInstanceReset k n => Sys2Proof.Machine.execCxInstanceReset k n s
  | .instanceResetComplete k n dt => Sys2Proof.Machine.execInstanceResetComplete k n dt s
  | .pwrgoodRise addr => Sys2Proof.Machine.execPwrgoodRise addr s
  | .bootAuth dt aOk bOk => Sys2Proof.Machine.execBootAuth dt aOk bOk s
  | .bootMesh dt ok => Sys2Proof.Machine.execBootMesh dt ok s
  | .bootMemtrain dt pop => Sys2Proof.Machine.execBootMemtrain dt pop s
  | .bootLinks dt => Sys2Proof.Machine.execBootLinks dt s
  | .bootFwload dt fail => Sys2Proof.Machine.execBootFwload dt fail s
  | .bootRelease dt => Sys2Proof.Machine.execBootRelease dt s
  | .meminitComplete dt => Sys2Proof.Machine.execMeminitComplete dt s
  | .pwrgoodFall => Sys2Proof.Machine.execPwrgoodFall s
  | .warmRstN refclk => Sys2Proof.Machine.execWarmRstN refclk s
  | .scResetWrite v => Sys2Proof.Machine.execScResetWrite v s
  | .stopSequenceEnd dt => Sys2Proof.Machine.execStopSequenceEnd dt s
  | .refclkLoss => Sys2Proof.Machine.execRefclkLoss s
  | .vauxLoss => Sys2Proof.Machine.execVauxLoss s
  | .machineCheckPending dt => Sys2Proof.Machine.execMachineCheckPending dt s
  | .odometerSecond dt => Sys2Proof.Machine.execOdometerSecond dt s
  | .odometerHourly dt => Sys2Proof.Machine.execOdometerHourly dt s
  | .odometerWriteComplete dt ok => Sys2Proof.Machine.execOdometerWriteComplete dt ok s
  | .odoCmdSnap => Sys2Proof.Machine.execOdoCmdSnap s
  | .odoEvcodeWrite v => Sys2Proof.Machine.execOdoEvcodeWrite v s
  | .mgtWriteTransfer o l bad => Sys2Proof.Machine.execMgtWriteTransfer o l bad s
  | .mgtReadTransfer o n => Sys2Proof.Machine.execMgtReadTransfer o n s
  | .entdaa a => Sys2Proof.Machine.execEntdaa a s
  | .setdasa st a => Sys2Proof.Machine.execSetdasa st a s
  | .rstdaa => Sys2Proof.Machine.execRstdaa s
  | .enec => Sys2Proof.Machine.execEnec s
  | .disec => Sys2Proof.Machine.execDisec s
  | .getpid => Sys2Proof.Machine.execGetpid s
  | .getbcr => Sys2Proof.Machine.execGetbcr s
  | .getdcr => Sys2Proof.Machine.execGetdcr s
  | .getstatus => Sys2Proof.Machine.execGetstatus s
  | .getmxds => Sys2Proof.Machine.execGetmxds s
  | .ibiRepeat dt => Sys2Proof.Machine.execIbiRepeat dt s
  | .mgtBusTimeout dt => Sys2Proof.Machine.execMgtBusTimeout dt s
  | .mbxGo port v => Sys2Proof.Machine.execMbxGo port v s
  | .getInfo dt => Sys2Proof.Machine.execGetInfo dt s
  | .readReg dt a => Sys2Proof.Machine.execReadReg dt a s
  | .writeReg dt a => Sys2Proof.Machine.execWriteReg dt a s
  | .readOdo dt => Sys2Proof.Machine.execReadOdo dt s
  | .odoSnap dt => Sys2Proof.Machine.execOdoSnap dt s
  | .flashRead dt ok => Sys2Proof.Machine.execFlashRead dt ok s
  | .flashWrite dt ok => Sys2Proof.Machine.execFlashWrite dt ok s
  | .provision dt => Sys2Proof.Machine.execProvision dt s
  | .dbgChallenge dt => Sys2Proof.Machine.execDbgChallenge dt s
  | .dbgResponse dt => Sys2Proof.Machine.execDbgResponse dt s
  | .mbxReset dt => Sys2Proof.Machine.execMbxReset dt s
  | .resetDelayExpiry dt => Sys2Proof.Machine.execResetDelayExpiry dt s
  | .setLead dt => Sys2Proof.Machine.execSetLead dt s
  | .forwardedCommand dt => Sys2Proof.Machine.execForwardedCommand dt s
  | .mgtFwdoneWrite v => Sys2Proof.Machine.execMgtFwdoneWrite v s
  | .forwardTimeout dt => Sys2Proof.Machine.execForwardTimeout dt s
  | .telemetrySample dt t => Sys2Proof.Machine.execTelemetrySample dt t s
  | .dvfsStep dt k ok => Sys2Proof.Machine.execDvfsStep dt k ok s
  | .shmArm => Sys2Proof.Machine.execShmArm s
  | .shmDisarm => Sys2Proof.Machine.execShmDisarm s
  | .shmStartReached dt => Sys2Proof.Machine.execShmStartReached dt s
  | .bypass => Sys2Proof.Machine.execBypass s
  | .idcode => Sys2Proof.Machine.execIdcode s
  | .samplePreload => Sys2Proof.Machine.execSamplePreload s
  | .extest => Sys2Proof.Machine.execExtest s
  | .dbgAccess v a => Sys2Proof.Machine.execDbgAccess v a s
  | .scChalStore seg data => Sys2Proof.Machine.execScChalStore seg data s
  | .scChalNewChallenge => Sys2Proof.Machine.execScChalNewChallenge s
  | .scChalSubmit => Sys2Proof.Machine.execScChalSubmit s
  | .debugCheckComplete dt => Sys2Proof.Machine.execDebugCheckComplete dt s
  | .trst low => Sys2Proof.Machine.execTrst low s
  | .registerWrite off v => Sys2Proof.Machine.execRegisterWrite off v s
  | .warmRstNRelease => Sys2Proof.Machine.execWarmRstNRelease s
  | .vauxPowerUp => Sys2Proof.Machine.execVauxPowerUp s
  | .todFramingError dt bytes => Sys2Proof.Machine.execTodFramingError dt bytes s
  | .todFrameUnclaimed dt => Sys2Proof.Machine.execTodFrameUnclaimed dt s
  | .ptmRequest r p dt => Sys2Proof.Machine.execPtmRequest r p dt s
  | .pcieErrorReport r p e => Sys2Proof.Machine.execPcieErrorReport r p e s
  | .divergenceReport => Sys2Proof.Machine.execDivergenceReport s
  | .membershipChangeStart dt tabs => Sys2Proof.Machine.execMembershipChangeStart dt tabs s
  | .perturbationDelayEnd dt ix => Sys2Proof.Machine.execPerturbationDelayEnd dt ix s

end Sys2Proof.Machine
end

