-- ==== Sys2Proof/Safety.lean ====
section
/-!
DEFINITION. Safety.lean: the conditions in which statements are made, and what they say of the state after a command: which
parts of it may differ.
-/
namespace Sys2Proof.Machine

/-! ### What a command may change -/

/-- The state after a command of the package: the fuses, the flash and the queue are as before. -/
def State.withPkg (s : State) (q : Pkg) : State := { s with pkg := q }

/-- Thread h becomes t; every other thread, and everything outside the threads, is as before. -/
def Pkg.Moves (p q : Pkg) (h : Nat) (t : Thread) : Prop :=
  q.thr h = t ∧ (∀ k, k ≠ h → q.thr k = p.thr k) ∧ q = { p with threads := q.threads }

/-- Registers of the DRS named in `l` may differ; the others read as before. -/
def Pkg.DrsBut (p q : Pkg) (l : List Nat) : Prop := ∀ o, o ∉ l → q.rd o = p.rd o

/-! ### A thread that executes its head instruction -/

/-- A head instruction has completed and the next one follows (04 R127: RI and WS clear). -/
def Thread.stepped (t : Thread) : Thread :=
  { (t.setPs (setBits t.ps 4 3 0)) with
    pc := t.pc + 4#64, queue := t.queue.drop 1, held := false, hparts := [], long := false, sel := false, ebuf := [] }

/-- The thread goes on from another address: what it had fetched is discarded (02 R43). -/
def Thread.sentTo (t : Thread) (pc : Word) : Thread :=
  { t with pc := pc, queue := [], fpc := pc, redirect := true, fstall := false, held := false, hparts := [], walk := none, long := false, sel := false, ebuf := [] }

/-- No performance counter that thread h could advance is enabled (02 R66). -/
def Pkg.Uncounted (p : Pkg) (h : Nat) : Prop :=
  (∀ i, i < 8 → ((p.thr h).rs (0x508 + i)).getLsbD 13 = false)
    ∧ (∀ i, i < 8 → (Map.get w0 (p.core (h / 8)).csr (0x528 + i)).getLsbD 13 = false)

/-- No watchpoint of the thread is enabled (04 R127). -/
def Thread.Unwatched (t : Thread) : Prop := ∀ i, i < 4 → (t.rs (0x181 + 2 * i)).getLsbD 0 = false

/-- Thread h executes its head, which is the instruction i: the package runs, alone (TDM_STAT.STATE = OFF); the selector has picked the head
(02 R38) and nothing that it has asked for is missing; no load is awaited; no counter and no watchpoint of its own is enabled. -/
def Pkg.Ready (p : Pkg) (h : Nat) (i : Ins) : Prop :=
  p.live = true ∧ p.tdmState = 0 ∧ p.mayGo h = true ∧ (p.thr h).sel = true ∧ (p.thr h).await = none
    ∧ (p.thr h).wreason = none ∧ (∃ w, (p.thr h).head = some w ∧ insDecode w = some i)
    ∧ p.Uncounted h ∧ (p.thr h).Unwatched

/-- The bytes va … va + n − 1 are reached by thread h without a fault, a walk or a bus error: the pieces are where they
lie (04 R124, R125). -/
def Pkg.Reaches (p : Pkg) (h : Nat) (k : AccKind) (va : Word) (n : Nat) (err : Pkg → Piece → Option Nat) (ps : List Piece) : Prop :=
  ∃ l, p.xlAll h (p.thr h).lvl k false (split va n) = (p, l) ∧ judge l = .ok ps ∧ ∀ q ∈ ps, p.badPiece err ps q = none

/-- The packet x has been sent, where `ej` were the packets that waited for the home agents: to this node's own home agents, or
into its switch (10 R283). -/
def Pkg.Sent (p q : Pkg) (ej : List FPkt) (x : FPkt) : Prop :=
  if p.isSelf (pkDst x) = true then q.fab.ejq = ej ++ [x]
  else q.fab.ejq = ej ∧ ∃ e, q.fab.inj = p.fab.inj ++ [(e, x)]

/-- The membership message x waits first for the member's home agents (11 R303, R304): its sender has had no answer to it. -/
def Pkg.Hears (p : Pkg) (x : FPkt) (typ : Nat) : Prop :=
  p.live = true ∧ p.homeLive = true ∧ p.ejected 2 typ = some (0, x) ∧ p.answerOf (pkSrc x) (pk x 1 31 0) = 0
    ∧ (typ ≤ 3 → pkSrc x = p.leadId)

/-! ### Commands that execute the head instruction -/

/-- The thread whose head instruction a command executes, and the group of instructions that the command is for. One that carries a
self-check of the core is not among them. -/
def headOf : Instr → Option (Htid × Grp)
  | .integerOp h none => some (h, .intOp)
  | .branch h => some (h, .branch)
  | .bal h => some (h, .bal)
  | .balr h => some (h, .balr)
  | .load h none => some (h, .load)
  | .store h => some (h, .store)
  | .fpOp h => some (h, .fp)
  | .fma h => some (h, .fma)
  | .decOp h => some (h, .dec)
  | .vecOp h => some (h, .vec)
  | .cas h => some (h, .cas)
  | .cas128 h => some (h, .cas128)
  | .amo h => some (h, .amo)
  | .damoadd h => some (h, .damoadd)
  | .mfsr h => some (h, .mfsr)
  | .mtsr h => some (h, .mtsr)
  | .scall h => some (h, .scall)
  | .hcall h => some (h, .hcall)
  | .mcall h => some (h, .mcall)
  | .sret h => some (h, .sret)
  | .eret h => some (h, .eret)
  | .brk h => some (h, .brk)
  | .trap h => some (h, .trap)
  | .park h => some (h, .park)
  | .monitor h => some (h, .monitor)
  | .waitt h => some (h, .waitt)
  | .rdtime h => some (h, .rdtime)
  | .htid h => some (h, .htid)
  | .fence h => some (h, .fence)
  | .fenceIo h => some (h, .fenceIo)
  | .fenceG h => some (h, .fenceG)
  | .cva h => some (h, .cva)
  | .iva h => some (h, .iva)
  | .civa h => some (h, .civa)
  | .csw h => some (h, .csw)
  | .isw h => some (h, .isw)
  | .cisw h => some (h, .cisw)
  | .tlbi h => some (h, .tlbi)
  | .movb h => some (h, .movb)
  | .fillb h => some (h, .fillb)
  | .cmpb h => some (h, .cmpb)
  | .crcb h => some (h, .crcb)
  | _ => none

/-! ### Rules of the whole machine -/

/-- The commands that a stop sequence does not stop (16 R421): those of power, pins, the system controller, its flash and fuses,
Cadence, the management mailbox and the test access port. Every other command acts only while the package runs. -/
def ofController : Instr → Bool
  | .vauxPowerUp | .vauxLoss | .pwrgoodRise _ | .pwrgoodFall | .refclkLoss | .warmRstN _ | .warmRstNRelease | .bypass | .idcode
  | .samplePreload | .extest | .scChalStore _ _ | .scChalNewChallenge | .scChalSubmit | .trst _ | .dbgAccess _ _ => true
  | .bootAuth .. | .bootMesh .. | .bootFwload .. | .bootRelease .. | .stopSequenceEnd .. | .ppsEdge .. | .todFrame .. | .todGapTimeout ..
  | .todFramingError .. | .todFrameUnclaimed .. | .ppsLossTimeout .. | .slewComplete .. | .todvalidExpire .. | .holdoverDay ..
  | .cadTimeNsRead .. | .debugCheckComplete .. | .spprComplete .. | .getInfo .. | .readOdo .. | .odoSnap .. | .flashRead ..
  | .flashWrite .. | .provision .. | .dbgChallenge .. | .dbgResponse .. | .mbxReset .. | .setLead .. | .telemetrySample .. | .dvfsStep ..
  | .odometerSecond .. | .odometerHourly .. | .odometerWriteComplete .. | .odoCmdSnap .. | .odoEvcodeWrite .. | .readReg ..
  | .writeReg .. | .mgtWriteTransfer .. | .mgtReadTransfer .. | .entdaa .. | .setdasa .. | .rstdaa .. | .enec .. | .disec .. | .getpid ..
  | .getbcr .. | .getdcr .. | .getstatus .. | .getmxds .. | .ibiRepeat .. | .mgtBusTimeout .. | .mbxGo .. | .resetDelayExpiry ..
  | .mgtFwdoneWrite .. | .forwardTimeout .. => true
  | _ => false

/-- The commands that may program or erase flash, or blow a fuse (16 R409, R413, 17 R443, R444). -/
def ofFlash : Instr → Bool
  | .flashWrite .. | .provision .. | .odometerWriteComplete .. | .odometerSecond .. => true
  | _ => false

/-- The flash is in its canonical form, and a fused key hash has its 48 bytes (16 R409, R413). -/
def State.Inv (s : State) : Prop :=
  Map.wf ff0 s.nv.flash = true ∧ ∀ k, s.nv.keyHash = some k → k.length = 48

end Sys2Proof.Machine
end

