-- ==== Sys2Proof/Certificates/Slice0/Obligations.lean ====
section
/-!
DEFINITION. Certificates/Slice0/Obligations.lean: the statements about the model, for the provers. Every exec that a
statement names answers a next state under hypotheses on the state and the operands alone.
-/
open Sys2Proof
open Sys2Proof.Machine

/-- A step takes the command at the front of the queue and executes it with the rest; on an empty queue it answers a next state (95_what_each_step_holds). -/
def Obligations.StepRunsTheFrontCommand : Prop :=
  ∀ (c : Instr) (s : State) (rest : List Instr),
    step { s with pending := c :: rest } = exec c { s with pending := rest }

/-- INTEGER_OP, HTID, RDTIME and MFSR write one register of their thread, advance its PC by 4 and change nothing else (R75, R90, R92, R94, R38, 03_instruction_set). -/
def Obligations.RegisterInstructionsComplete : Prop :=
  ∀ (s : State) (h : Htid) (i : Ins), s.pkg.Ready h i →
    (i.grp = .intOp → ∃ q, exec (.integerOp h none) s = .next (s.withPkg q)
      ∧ s.pkg.Moves q h ((s.pkg.thr h).wg ((s.pkg.thr h).intResult i).1.toNat ((s.pkg.thr h).intResult i).2).stepped)
    ∧ (∀ rd ra, i = .sys 0xC#12 rd ra → ∃ q, exec (.htid h) s = .next (s.withPkg q)
      ∧ s.pkg.Moves q h ((s.pkg.thr h).wg rd.toNat (BitVec.ofNat 64 h)).stepped)
    ∧ (∀ rd ra, i = .sys 0xB#12 rd ra → ∃ q, exec (.rdtime h) s = .next (s.withPkg q)
      ∧ s.pkg.Moves q h ((s.pkg.thr h).wg rd.toNat (BitVec.ofNat 64 s.pkg.timeNs)).stepped)
    ∧ (∀ rd n, i = .mfsr rd n → srFault n.toNat (s.pkg.thr h).lvl (s.pkg.uread h) false = none →
      ∃ q, exec (.mfsr h) s = .next (s.withPkg q)
        ∧ s.pkg.Moves q h ((s.pkg.thr h).wg rd.toNat (s.pkg.srRead h n.toNat)).stepped)

/-- The result of every integer register and immediate instruction, through INTEGER_OP (R75, R40, 03_instruction_set). -/
def Obligations.IntegerResultsAreThoseOfTheTable : Prop :=
  (∀ (s : State) (h : Htid) (fn rd ra rb rc : BitVec 5), s.pkg.Ready h (.op fn rd ra rb rc) →
    let a := (s.pkg.thr h).rg ra.toNat
    let b := (s.pkg.thr h).rg rb.toNat
    ∃ q x, exec (.integerOp h none) s = .next (s.withPkg q) ∧ s.pkg.Moves q h ((s.pkg.thr h).wg rd.toNat x).stepped
      ∧ (fn = 0#5 → x = a + b) ∧ (fn = 1#5 → x = a - b)
      ∧ (fn = 2#5 → x = a &&& b) ∧ (fn = 3#5 → x = a ||| b) ∧ (fn = 4#5 → x = a ^^^ b)
      ∧ (fn = 5#5 → x = a <<< (b.toNat % 64)) ∧ (fn = 6#5 → x = a >>> (b.toNat % 64))
      ∧ (fn = 7#5 → x = a.sshiftRight (b.toNat % 64))
      ∧ (fn = 8#5 → x = if a.toInt < b.toInt then 1#64 else 0#64) ∧ (fn = 9#5 → x = if a.toNat < b.toNat then 1#64 else 0#64)
      ∧ (fn = 10#5 → x = a * b)
      ∧ (fn = 11#5 → x.toInt = a.toInt * b.toInt / 2 ^ 64) ∧ (fn = 12#5 → x.toNat = a.toNat * b.toNat / 2 ^ 64)
      ∧ (fn = 13#5 → x = if b = 0#64 then BitVec.allOnes 64 else a.sdiv b)
      ∧ (fn = 14#5 → x = if b = 0#64 then BitVec.allOnes 64 else a / b)
      ∧ (fn = 15#5 → x = if b = 0#64 then a else a.srem b) ∧ (fn = 16#5 → x = if b = 0#64 then a else a % b)
      ∧ (fn = 17#5 → x.toInt = min a.toInt b.toInt) ∧ (fn = 18#5 → x.toInt = max a.toInt b.toInt)
      ∧ (fn = 19#5 → x.toNat = min a.toNat b.toNat) ∧ (fn = 20#5 → x.toNat = max a.toNat b.toNat)
      ∧ (fn = 21#5 → a = 0#64 → x = 64#64)
      ∧ (fn = 21#5 → a ≠ 0#64 → 2 ^ (63 - x.toNat) ≤ a.toNat ∧ a.toNat < 2 ^ (64 - x.toNat) ∧ x.toNat < 64)
      ∧ (fn = 22#5 → a = 0#64 → x = 64#64)
      ∧ (fn = 22#5 → a ≠ 0#64 → x.toNat < 64 ∧ a.getLsbD x.toNat = true ∧ ∀ k, k < x.toNat → a.getLsbD k = false)
      ∧ (fn = 23#5 → x.toNat = ((List.range 64).filter (fun k => a.getLsbD k)).length)
      ∧ (fn = 24#5 → x.toNat = (crcBytes (a.setWidth 32) (2 ^ rc.toNat) b.toNat).toNat))
  ∧ (∀ (s : State) (h : Htid) (fn : BitVec 3) (rd ra : BitVec 5) (imm : BitVec 12), s.pkg.Ready h (.opi fn rd ra imm) →
    let a := (s.pkg.thr h).rg ra.toNat
    let b := imm.signExtend 64
    ∃ q x, exec (.integerOp h none) s = .next (s.withPkg q) ∧ s.pkg.Moves q h ((s.pkg.thr h).wg rd.toNat x).stepped
      ∧ (fn = 0#3 → x = a + b) ∧ (fn = 1#3 → x = if a.toInt < b.toInt then 1#64 else 0#64)
      ∧ (fn = 2#3 → x = if a.toNat < b.toNat then 1#64 else 0#64)
      ∧ (fn = 3#3 → x = a &&& b) ∧ (fn = 4#3 → x = a ||| b) ∧ (fn = 5#3 → x = a ^^^ b)
      ∧ (fn = 6#3 → imm.toNat / 64 = 0 → x = a <<< (imm.toNat % 64))
      ∧ (fn = 6#3 → imm.toNat / 64 = 1 → x = a >>> (imm.toNat % 64))
      ∧ (fn = 6#3 → imm.toNat / 64 = 2 → x = a.sshiftRight (imm.toNat % 64)))
  ∧ (∀ (s : State) (h : Htid) (rd : BitVec 5) (imm : BitVec 20),
    (s.pkg.Ready h (.ldih rd imm) → ∃ q, exec (.integerOp h none) s = .next (s.withPkg q)
      ∧ s.pkg.Moves q h ((s.pkg.thr h).wg rd.toNat ((imm.signExtend 64) <<< 12)).stepped)
    ∧ (s.pkg.Ready h (.addpch rd imm) → ∃ q, exec (.integerOp h none) s = .next (s.withPkg q)
      ∧ s.pkg.Moves q h ((s.pkg.thr h).wg rd.toNat ((s.pkg.thr h).pc + ((imm.signExtend 64) <<< 12))).stepped))

/-- BRANCH, BAL and BALR: the target, the link register and what the thread had fetched (R75, R43, R44, 03_instruction_set, 02_skevy_core). -/
def Obligations.BranchesGoWhereTheySay : Prop :=
  ∀ (s : State) (h : Htid) (i : Ins), s.pkg.Ready h i →
    (∀ fn ra rb off, i = .branch fn ra rb off →
      let a := (s.pkg.thr h).rg ra.toNat
      let b := (s.pkg.thr h).rg rb.toNat
      let taken : Prop := (fn = 0#3 ∧ a = b) ∨ (fn = 1#3 ∧ a ≠ b) ∨ (fn = 2#3 ∧ a.toInt < b.toInt) ∨ (fn = 3#3 ∧ b.toInt ≤ a.toInt)
        ∨ (fn = 4#3 ∧ a.toNat < b.toNat) ∨ (fn = 5#3 ∧ b.toNat ≤ a.toNat)
      ∃ q t, exec (.branch h) s = .next (s.withPkg q) ∧ s.pkg.Moves q h t
        ∧ (taken → t = (s.pkg.thr h).stepped.sentTo ((s.pkg.thr h).pc + ((off.signExtend 64) <<< 2)))
        ∧ (¬ taken → t = { (s.pkg.thr h).stepped with fstall := ((s.pkg.thr h).queue.drop 1).any (fun e => stallsFetch e.2) }))
    ∧ (∀ rd imm, i = .bal rd imm →
      let tgt := (s.pkg.thr h).pc + ((imm.signExtend 64) <<< 2)
      let u := ((s.pkg.thr h).wg rd.toNat ((s.pkg.thr h).pc + 4#64)).stepped
      ∃ q t, exec (.bal h) s = .next (s.withPkg q) ∧ s.pkg.Moves q h t
        ∧ (t = { u with pc := tgt } ∨ t = u.sentTo tgt)
        ∧ (∀ w l, u.queue = (tgt, w) :: l → t = { u with pc := tgt }))
    ∧ (∀ rd ra imm, i = .balr rd ra imm →
      let tgt := (s.pkg.thr h).rg ra.toNat + imm.signExtend 64
      tgt.toNat % 4 = 0 →
        ∃ q, exec (.balr h) s = .next (s.withPkg q)
          ∧ s.pkg.Moves q h (((s.pkg.thr h).wg rd.toNat ((s.pkg.thr h).pc + 4#64)).stepped.sentTo tgt))

/-- FP_OP, FMA, DEC_OP and VEC_OP write their result and OR its flags into FPCR; with the trap of a flag enabled they raise vector 13 (R78, R80, R83, R86, R79, 03_instruction_set). -/
def Obligations.FloatingPointInstructionsComplete : Prop :=
  ∀ (s : State) (h : Htid) (i : Ins), s.pkg.Ready h i →
    let t := s.pkg.thr h
    (∀ fn rm p rd ra rb, i = .fp fn rm p rd ra rb →
      ∀ d x e, fpOp fn.toNat p (t.rmode rm false) t.trapUf (t.rF ra.toNat) (t.rF rb.toNat) (t.rg ra.toNat) = (d, x, e) →
        (e &&& bits t.fpcrV 28 24 = 0 → ∃ q, exec (.fpOp h) s = .next (s.withPkg q) ∧ s.pkg.Moves q h
          ((match d with | .f => t.wF rd.toNat x | .g => t.wg rd.toNat x).ws 0x018 (t.fpcrV ||| BitVec.ofNat 64 (e * 256))).stepped)
        ∧ (e &&& bits t.fpcrV 28 24 ≠ 0 → exec (.fpOp h) s = .next (s.withPkg (s.pkg.fault h 13 t.pc 0#64 e))))
    ∧ (∀ fn p rd ra rb rc, i = .fma fn p rd ra rb rc →
      ∀ x e, fmaB p (bits t.fpcrV 2 0) t.trapUf (unpackB p (t.rF ra.toNat)) (unpackB p (t.rF rb.toNat)) (unpackB p (t.rF rc.toNat))
          (decide (fn.toNat ≥ 2)) (decide (fn = 1#2 ∨ fn = 2#2)) = (x, e) →
        (e &&& bits t.fpcrV 28 24 = 0 → ∃ q, exec (.fma h) s = .next (s.withPkg q) ∧ s.pkg.Moves q h
          ((t.wF rd.toNat x).ws 0x018 (t.fpcrV ||| BitVec.ofNat 64 (e * 256))).stepped)
        ∧ (e &&& bits t.fpcrV 28 24 ≠ 0 → exec (.fma h) s = .next (s.withPkg (s.pkg.fault h 13 t.pc 0#64 e))))
    ∧ (∀ fn rm p rd ra rb, i = .dec fn rm p rd ra rb →
      ∀ d x e, decOp fn.toNat p (t.rmode rm true) t.trapUf (t.rFw (if fn = 14#5 then !p else p) ra) (t.rFw p rb) (t.rg ra.toNat) = (d, x, e) →
        (e &&& bits t.fpcrV 28 24 = 0 → ∃ q y n, exec (.decOp h) s = .next (s.withPkg q)
          ∧ Pkg.Moves { s.pkg with fresh := s.pkg.fresh + n } q h
            ((match d with | .f => t.wFw p rd x | .g => t.wg rd.toNat (BitVec.ofNat 64 x) | .free _ _ => t.wFw p rd y).ws 0x018
              (t.fpcrV ||| BitVec.ofNat 64 (e * 65536))).stepped
          ∧ (d = .f ∨ d = .g → n = 0)
          ∧ (∀ nan neg, d = .free nan neg →
            n = 2 ∧ y = freeD p nan neg ((Config.free s.pkg.fresh).toNat + (Config.free (s.pkg.fresh + 1)).toNat * 2 ^ 64)))
        ∧ (e &&& bits t.fpcrV 28 24 ≠ 0 → d = .f ∨ d = .g → exec (.decOp h) s = .next (s.withPkg (s.pkg.fault h 13 t.pc 0#64 (e + 32))))
        ∧ (e &&& bits t.fpcrV 28 24 ≠ 0 → ∀ nan neg, d = .free nan neg →
          exec (.decOp h) s = .next (s.withPkg (Pkg.fault { s.pkg with fresh := s.pkg.fresh + 2 } h 13 t.pc 0#64 (e + 32)))))
    ∧ (∀ fn rd ra rb rc, i = .vec fn rd ra rb rc →
      let o := vecOp fn.toNat { a := t.rV ra.toNat, a1 := t.rV (ra + 1#5).toNat, b := t.rV rb.toNat, b1 := t.rV (rb + 1#5).toNat
                                c := t.rV rc.toNat, d := t.rV rd.toNat, g := t.rg ra.toNat, rc := rc.toNat, rm := bits t.fpcrV 2 0, tu := t.trapUf }
      let v1 := match o.v with | some x => t.wV rd.toNat x | none => t
      let v2 := match o.v1 with | some x => v1.wV (rd + 1#5).toNat x | none => v1
      let v3 := match o.g with | some x => v2.wg rd.toNat x | none => v2
      (o.fl &&& bits t.fpcrV 28 24 = 0 → ∃ q, exec (.vecOp h) s = .next (s.withPkg q) ∧ s.pkg.Moves q h
        (v3.ws 0x018 (t.fpcrV ||| BitVec.ofNat 64 (o.fl * 256))).stepped)
      ∧ (o.fl &&& bits t.fpcrV 28 24 ≠ 0 → exec (.vecOp h) s = .next (s.withPkg (s.pkg.fault h 13 t.pc 0#64 o.fl))))

/-- SCALL without its fast path, HCALL, MCALL, TRAP and BRK enter their vector with the frame's PC that R112 gives (R90, R112, R120, R108, 03_instruction_set, 04_privilege_exceptions_interrupts). -/
def Obligations.CallsEnterTheirVector : Prop :=
  ∀ (s : State) (h : Htid) (i : Ins), s.pkg.Ready h i → (s.pkg.thr h).sb = [] →
    let t := s.pkg.thr h
    (i = .sys 0#12 0#5 0#5 → ((t.rs 0x302).getLsbD 0 = false ∨ (t.rs 0x304).getLsbD 7 = true ∨ bits (t.rs 0x302) 2 1 < t.lvl) →
      exec (.scall h) s = .next (s.withPkg (s.pkg.enterAt h 16 (t.pc + 4#64) 0#64 0#64 false)))
    ∧ (i = .sys 1#12 0#5 0#5 → 1 ≤ t.lvl → exec (.hcall h) s = .next (s.withPkg (s.pkg.enterAt h 17 (t.pc + 4#64) 0#64 0#64 false)))
    ∧ (i = .sys 2#12 0#5 0#5 → 1 ≤ t.lvl → exec (.mcall h) s = .next (s.withPkg (s.pkg.enterAt h 18 (t.pc + 4#64) 0#64 0#64 false)))
    ∧ (∀ n, i = .trap n → exec (.trap h) s = .next (s.withPkg (s.pkg.enterAt h (128 + n.toNat) (t.pc + 4#64) 0#64 0#64 false)))
    ∧ (i = .sys 5#12 0#5 0#5 → exec (.brk h) s = .next (s.withPkg (s.pkg.enterAt h 14 t.pc 0#64 0#64 false)))

/-- SCALL's fast path, SRET and ERET: what they save, restore and where they go (R120, R121, R113, R119, 04_privilege_exceptions_interrupts). -/
def Obligations.ReturnsRestoreWhatWasSaved : Prop :=
  ∀ (s : State) (h : Htid) (i : Ins), s.pkg.Ready h i →
    let t := s.pkg.thr h
    let u := t.stepped
    (i = .sys 0#12 0#5 0#5 → (t.rs 0x302).getLsbD 0 = true → (t.rs 0x304).getLsbD 7 = false → t.lvl ≤ bits (t.rs 0x302) 2 1 →
      ∃ q, exec (.scall h) s = .next (s.withPkg q) ∧ s.pkg.Moves q h
        (((((((u.ws 0x303 (t.pc + 4#64)).ws 0x304 (t.ps ||| 0x80#64)).ws 0x301 (t.rg 31)).wg 31 (t.rs 0x301)).setPs
          (setBits (setBits t.ps 4 2 (bits (t.rs 0x302) 3 3)) 1 0 (bits (t.rs 0x302) 2 1))).sentTo (t.rs 0x300))))
    ∧ (i = .sys 3#12 0#5 0#5 → 1 ≤ t.lvl → (t.rs 0x304).getLsbD 7 = true → bits (t.rs 0x304) 1 0 ≤ t.lvl →
      ∃ q, exec (.sret h) s = .next (s.withPkg q) ∧ s.pkg.Moves q h
        (((((u.ws 0x301 (t.rg 31)).wg 31 (t.rs 0x301)).setPs (t.rs 0x304 &&& 0x1F#64)).ws 0x304 (setBits (t.rs 0x304) 7 7 0)).sentTo (t.rs 0x303 &&& ~~~3#64)))
    ∧ (i = .sys 4#12 0#5 0#5 → 1 ≤ t.lvl → t.sb = [] → ∀ p1 f, s.pkg.sysLoad h t.lvl (t.rs (0x101 + 0x20 * t.lvl)) 64 = (p1, .ok f) →
      p1.thr h = t → p1.tdmState = 0 → p1.Uncounted h →
      let d (k : Nat) : Word := BitVec.ofNat 64 (f / 2 ^ (64 * k))
      bits (d 1) 1 0 ≤ t.lvl → (d 0).toNat % 4 = 0 →
      ∃ q, exec (.eret h) s = .next (s.withPkg q) ∧ p1.Moves q h
        ((((u.wg 31 (d 5)).setPs (d 1 &&& 0x1F#64)).ws (0x101 + 0x20 * t.lvl) (t.rs (0x101 + 0x20 * t.lvl) + 64#64)).sentTo (d 0)))

/-- Exception entry: the frame, the target level, PS and SP, the handler from the vector table; the emergency frame; STACK_EXHAUSTED (R108, R110, R111, R112, R115, R118, 04_privilege_exceptions_interrupts). -/
def Obligations.ExceptionEntrySavesAndRedirects : Prop :=
  ∀ (p : Pkg) (h : Htid) (v : Nat) (pc fa fi : Word) (async : Bool), p.tdmState = 0 → p.boot.stop = none → p.Uncounted h → (p.thr h).st = .run →
    let t := p.thr h
    let lvl := if async then t.target v else max (t.target v) t.lvl
    let b := 0x100 + 0x20 * lvl
    let a := t.rs (b + 1) - 64#64
    let cause := BitVec.ofNat 64 (v + t.lvl * 256 + (if async then 1024 else 0))
    let frame := pc.toNat + t.ps.toNat * 2 ^ 64 + cause.toNat * 2 ^ 128 + fa.toNat * 2 ^ 192 + fi.toNat * 2 ^ 256 + (t.rg 31).toNat * 2 ^ 320
    let p1 := p.updThr h (fun t => { t with queue := [], walk := none, mon := none, monWake := false, sel := false, ebuf := [] })
    let q := p.enterAt h v pc fa fi async
    (¬ a.ult (t.rs (b + 2)) = true → ∀ p2 p3 npc, p1.frameStore h lvl a frame = (p2, some true) → p2.thr h = p1.thr h →
      let p2' := p2.updThr h (fun t' => ((t'.ws (b + 1) a).wg 31 a).setPs (setBits (setBits t.ps 4 2 0) 1 0 lvl))
      p2'.handler h lvl v = (p3, .pc npc) → p3.thr h = p2'.thr h →
      (q.thr h).pc = npc ∧ (q.thr h).fpc = npc ∧ (q.thr h).queue = [] ∧ (q.thr h).ent = none ∧ (q.thr h).ps = setBits (setBits t.ps 4 2 0) 1 0 lvl
        ∧ (q.thr h).rs (b + 1) = a ∧ ∀ r, r < 32 → (q.thr h).rg r = if r = 31 then a else t.rg r)
    ∧ (a.ult (t.rs (b + 2)) = true → (t.rs (b + 3)).getLsbD 0 = false → ∀ p3 npc,
      let p1' := p1.updThr h (fun t' =>
        (((List.range 8).foldl (fun (t' : Thread) k => t'.ws (b + 8 + k)
          (if k = 2 then cause ||| 0x800#64 else BitVec.ofNat 64 (frame / 2 ^ (64 * k)))) t').ws (b + 3) 1#64).setPs
          (setBits (setBits t.ps 4 2 0) 1 0 lvl))
      p1'.handler h lvl 12 = (p3, .pc npc) → p3.thr h = p1'.thr h →
      (q.thr h).pc = npc ∧ (q.thr h).ps = setBits (setBits t.ps 4 2 0) 1 0 lvl ∧ (q.thr h).rs (b + 3) = 1#64
        ∧ (q.thr h).rs (b + 8) = pc ∧ (q.thr h).rs (b + 9) = t.ps ∧ (q.thr h).rs (b + 10) = cause ||| 0x800#64
        ∧ (q.thr h).rs (b + 11) = fa ∧ (q.thr h).rs (b + 12) = fi ∧ (q.thr h).rs (b + 13) = t.rg 31
        ∧ ∀ r, r < 32 → (q.thr h).rg r = t.rg r)
    ∧ (a.ult (t.rs (b + 2)) = true → (t.rs (b + 3)).getLsbD 0 = true →
      (q.thr h).st = .faulted ∧ q.pendv (p.rf (coreBase (h / 8) + 8) 10 0) 32 = true)

/-- Illegal encodings, instructions below their lowest level and misaligned targets enter their exception and do nothing else (R73, R75, R89, R90, R94, R97, R98, R113, R124, 04_privilege_exceptions_interrupts). -/
def Obligations.FaultsTakeTheirVector : Prop :=
  (∀ (s : State) (h : Htid) (w : Word32), s.pkg.live = true → s.pkg.tdmState = 0 → s.pkg.mayGo h = true → (s.pkg.thr h).sel = true →
    (s.pkg.thr h).await = none → (s.pkg.thr h).wreason = none → (s.pkg.thr h).sb = [] → (s.pkg.thr h).head = some w → insDecode w = none →
    exec (.integerOp h none) s = .next (s.withPkg (s.pkg.enterAt h 0 (s.pkg.thr h).pc 0#64 0#64 false)))
  ∧ ∀ (s : State) (h : Htid) (i : Ins), s.pkg.Ready h i → (s.pkg.thr h).sb = [] →
    let t := s.pkg.thr h
    let enters (v : Nat) (fa fi : Word) := s.withPkg (s.pkg.enterAt h v t.pc fa fi false)
    (i = .sys 1#12 0#5 0#5 → t.lvl < 1 → exec (.hcall h) s = .next (enters 1 0#64 0#64))
    ∧ (i = .sys 2#12 0#5 0#5 → t.lvl < 1 → exec (.mcall h) s = .next (enters 1 0#64 0#64))
    ∧ (i = .sys 3#12 0#5 0#5 → t.lvl < 1 → exec (.sret h) s = .next (enters 1 0#64 0#64))
    ∧ (i = .sys 3#12 0#5 0#5 → 1 ≤ t.lvl → (t.rs 0x304).getLsbD 7 = false → exec (.sret h) s = .next (enters 0 0#64 0#64))
    ∧ (i = .sys 4#12 0#5 0#5 → t.lvl < 1 → exec (.eret h) s = .next (enters 1 0#64 0#64))
    ∧ (∀ cs ra, i = .cma cs ra → cs.toNat % 4 = 1 → t.lvl < 1 → exec (.iva h) s = .next (enters 1 0#64 0#64))
    ∧ (∀ ty ra, i = .tlbi ty ra → (t.lvl < 1 ∨ ((ty = 3#3 ∨ ty = 5#3) ∧ t.lvl < 2)) → exec (.tlbi h) s = .next (enters 1 0#64 0#64))
    ∧ (∀ ra, t.lvl < 2 → (i = .csw 0#2 ra → exec (.csw h) s = .next (enters 1 0#64 0#64))
      ∧ (i = .csw 1#2 ra → exec (.isw h) s = .next (enters 1 0#64 0#64))
      ∧ (i = .csw 2#2 ra → exec (.cisw h) s = .next (enters 1 0#64 0#64)))
    ∧ (∀ rd n v, i = .mfsr rd n → srFault n.toNat t.lvl (s.pkg.uread h) false = some v → exec (.mfsr h) s = .next (enters v 0#64 0#64))
    ∧ (∀ ra n v, i = .mtsr ra n → srFault n.toNat t.lvl (s.pkg.uread h) true = some v → exec (.mtsr h) s = .next (enters v 0#64 0#64))
    ∧ (∀ rd ra imm, i = .balr rd ra imm → (t.rg ra.toNat + imm.signExtend 64).toNat % 4 ≠ 0 →
      exec (.balr h) s = .next (enters 2 (t.rg ra.toNat + imm.signExtend 64) 0#64))
    ∧ (∀ w32 rd ra rb, i = .amo 0#5 w32 rd ra rb → (t.rg ra.toNat).toNat % 8 ≠ 0 → exec (.cas h) s = .next (enters 2 (t.rg ra.toNat) 3072#64))
    ∧ (∀ w32 rd ra rb, i = .amo 1#5 w32 rd ra rb → (t.rg ra.toNat).toNat % 16 ≠ 0 → exec (.cas128 h) s = .next (enters 2 (t.rg ra.toNat) 3072#64))
    ∧ (∀ w32 rd ra rb, i = .amo 10#5 w32 rd ra rb → (t.rg ra.toNat).toNat % 8 ≠ 0 → exec (.damoadd h) s = .next (enters 2 (t.rg ra.toNat) 3072#64))
    ∧ (∀ fn w32 rd ra rb, i = .amo fn w32 rd ra rb → 2 ≤ fn.toNat → fn.toNat ≤ 9 → (t.rg ra.toNat).toNat % (if w32 then 4 else 8) ≠ 0 →
      exec (.amo h) s = .next (enters 2 (t.rg ra.toNat) 3072#64))

/-- PARK, MONITOR, WAITT, FENCE, FENCE.IO and FENCE.G: when they complete, what they do and what they wait for (R91, R92, R93, R55, 03_instruction_set, 07_coherence_and_ordering). -/
def Obligations.WaitsAndFencesComplete : Prop :=
  ∀ (s : State) (h : Htid) (i : Ins), s.pkg.Ready h i →
    let t := s.pkg.thr h
    (i = .sys 8#12 0#5 0#5 →
      (t.monWake = true → ∃ q, exec (.park h) s = .next (s.withPkg q) ∧ s.pkg.Moves q h (Thread.stepped { t with mon := none, monWake := false }))
      ∧ (t.monWake = false → ∃ q, exec (.park h) s = .next (s.withPkg q) ∧ s.pkg.Moves q h { t.stepped with st := .parked }))
    ∧ (∀ ra ps, i = .sys 9#12 0#5 ra → s.pkg.Reaches h .load (t.rg ra.toNat) 1
        (fun p x => match p.regionErr x.pa x.ai with | some e => some e | none => if x.ai ≤ 1 then none else some 8) ps →
      ∀ x l, ps = x :: l →
      ∃ q, exec (.monitor h) s = .next (s.withPkg q) ∧ s.pkg.Moves q h (Thread.stepped { t with mon := some (x.pa / 64), monWake := false }))
    ∧ (∀ rd ra, i = .sys 0xA#12 rd ra →
      ((t.rg ra.toNat).toNat ≤ s.pkg.timeNs % 2 ^ 64 → ∃ q, exec (.waitt h) s = .next (s.withPkg q) ∧ s.pkg.Moves q h (t.wg rd.toNat 0#64).stepped)
      ∧ (s.pkg.timeNs % 2 ^ 64 < (t.rg ra.toNat).toNat → ∃ q, exec (.waitt h) s = .next (s.withPkg q)
        ∧ s.pkg.Moves q h { t.stepped with st := .timewait, waitt := some (t.rg ra.toNat, rd.toNat) }))
    ∧ (i = .sys 0x10#12 0#5 0#5 →
      (t.sb = [] → ∃ q, exec (.fence h) s = .next (s.withPkg q) ∧ s.pkg.Moves q h (t.stepped.sentTo (t.pc + 4#64)))
      ∧ (t.sb ≠ [] → exec (.fence h) s = .next s))
    ∧ (i = .sys 0x11#12 0#5 0#5 →
      (t.sb = [] → (s.pkg.core (h / 8)).wc = [] → s.pkg.ioOut h = false →
        ∃ q, exec (.fenceIo h) s = .next (s.withPkg q) ∧ s.pkg.Moves q h (t.stepped.sentTo (t.pc + 4#64)))
      ∧ (t.sb ≠ [] → exec (.fenceIo h) s = .next s))
    ∧ (i = .sys 0x12#12 0#5 0#5 →
      (t.sb = [] → s.pkg.remoteOut h = false → ∃ q, exec (.fenceG h) s = .next (s.withPkg q) ∧ s.pkg.Moves q h (t.stepped.sentTo (t.pc + 4#64)))
      ∧ (t.sb = [] → s.pkg.remoteOut h = true → exec (.fenceG h) s = .next (s.withPkg (s.pkg.askFlush h)))
      ∧ (t.sb ≠ [] → exec (.fenceG h) s = .next s))

/-- MTSR gives each system register the bits that it keeps of the value; TLBI removes the matching entries of every core (R94, R98, R79, R102, R103, R104, R127, R136, R157, 03_instruction_set, 04_privilege_exceptions_interrupts, 05_address_translation). -/
def Obligations.MtsrAndTlbiWriteWhatTheyName : Prop :=
  ∀ (s : State) (h : Htid) (i : Ins), s.pkg.Ready h i →
    let t := s.pkg.thr h
    (∀ ra n, i = .mtsr ra n → srFault n.toNat t.lvl (s.pkg.uread h) true = none →
      let v := t.rg ra.toNat
      let old := t.rs n.toNat
      let m := n.toNat
      (m < 0x400 ∨ (0x500 ≤ m ∧ m ≤ 0x507) ∨ m = 0x511 →
        ∃ q x, exec (.mtsr h) s = .next (s.withPkg q) ∧ s.pkg.Moves q h (t.ws m x).stepped
          ∧ (m = 0x010 → x = BitVec.ofNat 64 (if t.lvl = 1 ∧ bits v 1 0 = 3 then 2 else bits v 1 0))
          ∧ (m = 0x018 → bits x 2 0 = (if 5 ≤ bits v 2 0 then bits old 2 0 else bits v 2 0)
            ∧ bits x 6 4 = (if 5 ≤ bits v 6 4 then bits old 6 4 else bits v 6 4) ∧ x &&& ~~~0x77#64 = v &&& 0x1F1F1F00#64)
          ∧ (m = 0x100 → x = setBits t.ps 2 2 (bits v 2 2))
          ∧ (m = 0x104 → x = v &&& 0x03FFFFFFFFFFF000#64)
          ∧ (0x108 ≤ m ∧ m ≤ 0x10B → ∀ k, k < 64 → x.getLsbD k = (v.getLsbD k && !mdelegFixed (64 * (m - 0x108) + k)))
          ∧ (0x10C ≤ m ∧ m ≤ 0x10F → ∀ k, k < 64 → x.getLsbD k = (v.getLsbD k && !hdelegFixed (64 * (m - 0x10C) + k)))
          ∧ (0x120 ≤ m ∧ m < 0x180 → (m % 32 = 0 → x = v &&& 0xFFFFFFFFFFFFF800#64) ∧ (m % 32 = 1 ∨ m % 32 = 2 → x = v &&& 0xFFFFFFFFFFFFFFC0#64)
            ∧ (m % 32 = 3 → x = if v.getLsbD 0 then 0#64 else old) ∧ (8 ≤ m % 32 → x = v))
          ∧ (0x180 ≤ m ∧ m ≤ 0x187 → (m % 2 = 0 → x = v &&& 0x01FFFFFFFFFFFFFF#64)
            ∧ (m % 2 = 1 → bits x 3 0 = bits v 3 0 ∧ bits x 9 4 = min (bits v 9 4) 56 ∧ bits x 63 14 = 0
              ∧ ∀ k, k < 4 → x.getLsbD (10 + k) = if k ≤ t.lvl then v.getLsbD (10 + k) else old.getLsbD (10 + k)))
          ∧ (0x200 ≤ m ∧ m ≤ 0x202 → x = v &&& 0x03FFFFFFFFFFF000#64) ∧ (m = 0x204 → x = v &&& 0xFFFF#64)
          ∧ (m = 0x208 → x = v &&& 7#64) ∧ (m = 0x209 ∨ m = 0x20A → x = v &&& 3#64)
          ∧ (m = 0x210 → x = v &&& 0xFFFF0003#64) ∧ (m = 0x211 → x = v &&& 0x03FFFFFFFFFFE000#64)
          ∧ (m = 0x300 → x = v &&& 0xFFFFFFFFFFFFFFFC#64) ∧ (m = 0x301 ∨ m = 0x303 → x = v)
          ∧ (m = 0x302 → x = setBits (v &&& 0xF#64) 2 1 (if bits v 2 1 = 0 ∨ t.lvl < bits v 2 1 then bits old 2 1 else bits v 2 1))
          ∧ (m = 0x304 → x = v &&& 0x9F#64)
          ∧ (0x500 ≤ m ∧ m ≤ 0x507 → x = v &&& 0xFFFFFFFFFFFF#64) ∧ (m = 0x511 → x = v &&& 3#64))
      ∧ (m = 0x401 → s.pkg.shm.on = false → s.pkg.shm.acts = [] →
        ∃ q, exec (.mtsr h) s = .next (s.withPkg q) ∧ q.thr h = (t.ws 0x401 v).stepped ∧ (∀ k, k ≠ (h : Nat) → q.thr k = s.pkg.thr k)
          ∧ q.pendv h 34 = decide (v.toNat ≤ s.pkg.timeNs % 2 ^ 64) ∧ s.pkg.DrsBut q [ticSyspend h])
      ∧ (0x508 ≤ m ∧ m ≤ 0x50F → ∃ q, exec (.mtsr h) s = .next (s.withPkg q) ∧ (q.thr h).rs m = v &&& 0x3FFF#64
        ∧ (q.thr h).pc = t.pc + 4#64 ∧ (q.thr h).g = t.g)
      ∧ (m = 0x510 → ∃ q, exec (.mtsr h) s = .next (s.withPkg q) ∧ (q.thr h).rs 0x510 = old &&& ~~~(v &&& 0xFF#64)
        ∧ Map.get w0 (q.core (h / 8)).csr 0x510 = Map.get w0 (s.pkg.core (h / 8)).csr 0x510 &&& ~~~(v &&& 0xFF00#64)
        ∧ (q.thr h).pc = t.pc + 4#64 ∧ (q.thr h).g = t.g)
      ∧ (0x520 ≤ m ∧ m ≤ 0x52F → ∃ q, exec (.mtsr h) s = .next (s.withPkg q)
        ∧ Map.get w0 (q.core (h / 8)).csr m = (if m ≤ 0x527 then v &&& 0xFFFFFFFFFFFF#64 else v &&& 0xFF3FFF#64)
        ∧ (q.thr h).pc = t.pc + 4#64 ∧ (q.thr h).g = t.g))
    ∧ (∀ ty ra, i = .tlbi ty ra → (if ty = 3#3 ∨ ty = 5#3 then 2 else 1) ≤ t.lvl → tlbiOperandOk ty.toNat (t.rg ra.toNat) = true → t.sb = [] →
      ∃ q, exec (.tlbi h) s = .next (s.withPkg q) ∧ q.thr h = t.stepped ∧ (∀ k, k ≠ (h : Nat) → q.thr k = s.pkg.thr k)
        ∧ q = { s.pkg with threads := q.threads, cores := q.cores }
        ∧ ∀ c, let k := s.pkg.core c
          let stay (e : TlbE) : Bool := !tlbiHits ty.toNat (t.rg ra.toNat) (bits (t.rs 0x210) 31 16) t.lvl e
          (q.core c).itlb = k.itlb.filter stay ∧ (q.core c).dtlb = k.dtlb.filter stay ∧ (q.core c).tlb2 = k.tlb2.filter stay
          ∧ (q.core c).walkc = k.walkc.filter (fun w => !tlbiHitsWalk ty.toNat (t.rg ra.toNat) (bits (t.rs 0x210) 31 16) t.lvl w)
          ∧ { q.core c with ptr := [], itlb := [], dtlb := [], tlb2 := [], walkc := [] } = { k with ptr := [], itlb := [], dtlb := [], tlb2 := [], walkc := [] })

/-- LOAD from the L1D, from the store buffer and on a miss; STORE into the store buffer (R76, R46, R47, R50, R52, R124, 02_skevy_core, 03_instruction_set). -/
def Obligations.LoadsAndStoresComplete : Prop :=
  (∀ (s : State) (h : Htid) (i : Ins), s.pkg.Ready h i →
    let t := s.pkg.thr h
    (∀ d n ra imm x, i.loadForm = some (d, n, ra, imm) →
      s.pkg.Reaches h .load (t.rg ra.toNat + imm.signExtend 64) n (fun p y => p.pieceErr h .load y) [x] → (x.ai ≤ 1 ∨ x.ai = 6) →
      (∀ k, t.forward x.pa x.n = .none → s.pkg.findL1d (h / 8) (x.pa / 64) = some k → (Map.get line0 s.pkg.l1d k).poison = false →
        ∃ q, exec (.load h none) s = .next (s.withPkg q)
          ∧ Pkg.Moves { s.pkg with l1d := Map.set line0 s.pkg.l1d k { Map.get line0 s.pkg.l1d k with age := 0 } } q h
            (t.stepped.deliver d (lineGet (Map.get line0 s.pkg.l1d k).data (x.pa % 64) x.n)))
      ∧ (∀ v, t.forward x.pa x.n = .data v →
        ∃ q, exec (.load h none) s = .next (s.withPkg q) ∧ s.pkg.Moves q h (t.stepped.deliver d (v % 2 ^ (8 * x.n))))
      ∧ (t.forward x.pa x.n = .none → s.pkg.inCore (h / 8) (x.pa / 64) = false → s.pkg.missRoom h = true →
        (∀ m ∈ (s.pkg.core (h / 8)).miss, ¬ (m.line = x.pa / 64 ∧ m.kind = .load ∧ m.thr = h % 8)) →
        ∃ q, exec (.load h none) s = .next (s.withPkg q)
          ∧ q.thr h = { t.stepped with await := some { dest := d, parts := [⟨x.pa, x.ai, x.n, none⟩], va := t.rg ra.toNat + imm.signExtend 64, pc := t.pc, nsb := t.sb.length, t0 := s.pkg.now
                                                       snap := some { g := t.g, f := t.f, v := t.v, sr := t.sr, chunk := t.chunk } } }
          ∧ (∀ k, k ≠ (h : Nat) → q.thr k = s.pkg.thr k) ∧ q = { s.pkg with threads := q.threads, cores := q.cores }
          ∧ ∃ m ∈ (q.core (h / 8)).miss, m.line = x.pa / 64 ∧ m.kind = .load ∧ m.thr = h % 8))
    ∧ (∀ n ra imm x, t.storeForm i = some (n, ra, imm, x) →
        ∀ ps, s.pkg.Reaches h .store (t.rg ra.toNat + imm.signExtend 64) n (fun p y => p.pieceErr h .store y) ps →
          ∃ q, exec (.store h) s = .next (s.withPkg q) ∧ s.pkg.Moves q h (Thread.stepped { t with sb := t.sb ++ sbOf ps x })))
  ∧ ∀ (s : State) (h : Htid) (w : Word32) (i : Ins), (s.pkg.thr h).head = some w → insDecode w = some i → (s.pkg.thr h).sel = false →
    ∀ n ra imm x, (s.pkg.thr h).storeForm i = some (n, ra, imm, x) →
      16 < (s.pkg.thr h).sb.length + (split ((s.pkg.thr h).rg ra.toNat + imm.signExtend 64) n).length → exec (.store h) s = .next s

/-- CAS, CAS128, AMO and DAMOADD on a line that the core may write: the old value, the new value, the flags (R88, R89, R49, 07_coherence_and_ordering). -/
def Obligations.AtomicsReadModifyAndWrite : Prop :=
  ∀ (s : State) (h : Htid) (i : Ins), s.pkg.Ready h i → (s.pkg.thr h).sb = [] → (s.pkg.core (h / 8)).wc = [] →
    let t := s.pkg.thr h
    ∀ (rd ra rb : Reg) (fn : BitVec 5) (w32 : Bool) (x : Piece) (m : MergeLine), i = .amo fn w32 rd ra rb →
      let n := if fn = 1#5 then 16 else if w32 then 4 else 8
      (t.rg ra.toNat).toNat % n = 0 → s.pkg.Reaches h .atomic (t.rg ra.toNat) n (fun p y => p.pieceErr h .atomic y) [x] → x.ai = 0 →
      s.pkg.mergeOf (h / 8) (x.pa / 64) = some m → m.perm = true → m.poison = false → s.pkg.trkOf (x.pa / 64) = none →
      s.pkg.cores.any (fun q => s.pkg.owing (q.1 / 2) (x.pa / 64)) = false →
      let old := lineGet m.data (x.pa % 64) n
      let wide (r : Reg) : Nat := (t.rg r.toNat).toNat + (t.rg (r.toNat + 1)).toNat * 2 ^ 64
      let go (c : Instr) (nw : Option Nat) (d : Dest) (fpcr : Word) : Prop :=
        ∃ q, exec c s = .next (s.withPkg q)
          ∧ (q.thr h).pc = t.pc + 4#64 ∧ (∀ r, r < 32 → (q.thr h).rg r = (t.deliver d old).rg r ∧ (q.thr h).rF r = (t.deliver d old).rF r)
          ∧ (q.thr h).rs 0x018 = fpcr ∧ (∀ k, k ≠ (h : Nat) → (q.thr k).g = (s.pkg.thr k).g ∧ (q.thr k).pc = (s.pkg.thr k).pc)
          ∧ (∃ m', (q.core (h / 8)).merge.find? (fun e => e.line == x.pa / 64 && e.perm) = some m'
            ∧ m'.data = match nw with | some y => linePut m.data (x.pa % 64) n y | none => m.data)
          ∧ q = { s.pkg with threads := q.threads, cores := q.cores, l1d := q.l1d, l2 := q.l2 } ∧ ∀ k, (q.getL2 k).data = (s.pkg.getL2 k).data
      (fn = 0#5 → go (.cas h) (if old = (t.rg rd.toNat).toNat then some (t.rg rb.toNat).toNat else none) (.g rd.toNat 8 false) t.fpcrV)
      ∧ (fn = 1#5 → go (.cas128 h) (if old = wide rd then some (wide rb) else none) (.gg rd.toNat) t.fpcrV)
      ∧ (2 ≤ fn.toNat → fn.toNat ≤ 9 → go (.amo h) (some (amoOp fn.toNat n old ((t.rg rb.toNat).toNat % 2 ^ (8 * n)))) (.g rd.toNat n w32) t.fpcrV)
      ∧ (fn = 10#5 → go (.damoadd h) ((AtomOp.apply ⟨10, 8, (t.rF rb.toNat).toNat, 0, bits t.fpcrV 6 4⟩ old).1) (.f rd.toNat 8)
        (t.fpcrV ||| BitVec.ofNat 64 ((AtomOp.apply ⟨10, 8, (t.rF rb.toNat).toNat, 0, bits t.fpcrV 6 4⟩ old).2 * 65536)))

/-- CVA, IVA, CIVA, CSW, ISW and CISW complete on every legal operand, and what they leave in the caches (R95, R96, R97, R172, R174, 03_instruction_set, 06_cache_hierarchy). -/
def Obligations.CacheMaintenanceCompletes : Prop :=
  ∀ (s : State) (h : Htid) (i : Ins), s.pkg.Ready h i → (s.pkg.thr h).sb = [] →
    let t := s.pkg.thr h
    let once (line : Nat) : Prop := ∀ u a b, a < 16 → b < 16 →
      (s.pkg.getL2 (l2Key u line a)).line = line → (s.pkg.getL2 (l2Key u line a)).st ≠ .I →
      (s.pkg.getL2 (l2Key u line b)).line = line → (s.pkg.getL2 (l2Key u line b)).st ≠ .I → a = b
    (∀ cs ra (x : Piece), i = .cma cs ra →
      let err (p : Pkg) (y : Piece) : Option Nat := if 2 ≤ y.ai ∧ y.ai ≤ 4 then none else p.regionErr y.pa y.ai
      let line := x.pa / 64
      let tgt := cs.toNat / 4 % 4
      let done (c : Instr) (f : Pkg → Pkg) (post : Pkg → Prop) : Prop :=
        let p1 := if x.ai ≤ 1 ∨ x.ai = 6 then f s.pkg else s.pkg
        let p2 := if cs.getLsbD 4 then p1.dropL1i line else p1
        ∃ q, exec c s = .next (s.withPkg q) ∧ p2.Moves q h t.stepped ∧ (x.ai ≤ 1 ∨ x.ai = 6 → isGlobal line = false → post q)
          ∧ (∀ k, q.thr k = if k = h then t.stepped else s.pkg.thr k) ∧ q.drs = s.pkg.drs ∧ q.mem = s.pkg.mem
      s.pkg.trkOf line = none → s.pkg.cores.any (fun q => s.pkg.owing (q.1 / 2) line) = false →
      (cs.toNat % 4 = 0 → s.pkg.Reaches h .load (t.rg ra.toNat) 1 err [x] →
        done (.cva h) (fun p => p.cleanLine line h) (fun q => ∀ u, q.stL2 u line ≠ .M ∧ q.stL2 u line ≠ .O))
      ∧ (cs.toNat % 4 = 1 → 1 ≤ t.lvl → s.pkg.Reaches h .store (t.rg ra.toNat) 1 err [x] →
        done (.iva h) (fun p => p.dropLine line tgt) (fun q => once line → ∀ u, q.stL2 u line = .I))
      ∧ (cs.toNat % 4 = 2 → s.pkg.Reaches h .load (t.rg ra.toNat) 1 err [x] →
        done (.civa h) (fun p => (p.cleanLine line h).dropLine line tgt) (fun q => once line → ∀ u, q.stL2 u line = .I)))
    ∧ (∀ ra c set way, 2 ≤ t.lvl → swOperand (t.rg ra.toNat) = some (c, set, way) →
      let k1i := h / 8 * 1024 + set * 4 + way
      let k1d := h / 8 * 1024 + set * 8 + way
      let k2 := h / 16 * 16384 + set * 16 + way
      let frame (q : Pkg) : Prop := (∀ k, q.thr k = if k = h then t.stepped else s.pkg.thr k) ∧ q.drs = s.pkg.drs ∧ q.mem = s.pkg.mem
      let gone (q : Pkg) : Prop := (c = 0 → Map.get line0 q.l1i k1i = {}) ∧ (c = 1 → Map.get line0 q.l1d k1d = {})
        ∧ (c = 3 → ∀ k, s.pkg.swL3 (h / 16) set way = some k → q.getL3 k = {})
      (i = .csw 0#2 ra → ∃ q, exec (.csw h) s = .next (s.withPkg q) ∧ (s.pkg.cleanSw h c set way).Moves q h t.stepped ∧ frame q
        ∧ (c = 2 → s.pkg.ret2 (h / 16) way = false → (q.getL2 k2).st ≠ .M ∧ (q.getL2 k2).st ≠ .O)
        ∧ (c = 3 → ∀ k, s.pkg.swL3 (h / 16) set way = some k → (q.getL3 k).st ≠ .M)
        ∧ (c ≤ 1 → q.l1i = s.pkg.l1i ∧ q.l1d = s.pkg.l1d))
      ∧ (i = .csw 1#2 ra → ∃ q, exec (.isw h) s = .next (s.withPkg q) ∧ (s.pkg.dropSw h c set way).Moves q h t.stepped ∧ frame q ∧ gone q)
      ∧ (i = .csw 2#2 ra → ∃ q, exec (.cisw h) s = .next (s.withPkg q) ∧ ((s.pkg.cleanSw h c set way).dropSw h c set way).Moves q h t.stepped ∧ frame q ∧ gone q))

/-- MOVB, FILLB, CMPB and CRCB start, end on a count of 0, and GRANULE advances their registers granule by granule (R99, R100, R101, R481, R127, 03_instruction_set). -/
def Obligations.LongInstructionsRunByGranules : Prop :=
  ∀ (s : State) (h : Htid) (fn rd ra rb rc : BitVec 5), s.pkg.Ready h (.block fn rd ra rb rc) →
    let t := s.pkg.thr h
    let i : Ins := .block fn rd ra rb rc
    let cmd : Instr := if fn = 0#5 then .movb h else if fn = 1#5 then .fillb h else if fn = 2#5 then .cmpb h else .crcb h
    let a := t.rg ra.toNat
    let cnt := t.rg rc.toNat
    let n := min cnt.toNat (64 - a.toNat % 64)
    let x1 (l : List (Side × List (BitVec 8))) : List (BitVec 8) := (l.take 1).flatMap (·.2)
    let x2 (l : List (Side × List (BitVec 8))) : List (BitVec 8) := (l.drop 1).flatMap (·.2)
    (t.long = false → t.sb = [] → cnt ≠ 0#64 → ∃ q, exec cmd s = .next (s.withPkg q) ∧ s.pkg.Moves q h { t with long := true })
    ∧ (t.long = false → t.sb = [] → cnt = 0#64 → ∃ q, exec cmd s = .next (s.withPkg q)
      ∧ s.pkg.Moves q h (if fn = 2#5 then (t.wg rd.toNat 0#64).stepped else t.stepped))
    ∧ (t.long = true → cnt ≠ 0#64 → s.pkg.startable h = true → ∀ ok : List Side,
      ok.length = (t.granSides i).length →
      (∀ e ∈ (t.granSides i).zip ok, s.pkg.xl1 h t.lvl e.1.k false e.1.p.va = (s.pkg, .ok e.2.p.pa e.2.p.ai)
        ∧ e.2 = { e.1 with p := { e.1.p with pa := e.2.p.pa, ai := e.2.p.ai } }) →
      (∀ q ∈ ok, s.pkg.granErr q.p = none ∧ s.pkg.granPoison q = false) →
      let p0 := (ok.filter (·.p.ai == 4)).foldl (fun p q => p.wcFlush (h / 8) (fun b => b.line == q.p.pa / 64)) s.pkg
      p0.granWaits h ok = false → (∀ q ∈ ok, p0.granNeed h q = []) →
      let vals := (p0.granLoads h ok).2
      ∃ q, exec (.granule h) s = .next (s.withPkg q)
        ∧ (∀ r, r < 32 → r ≠ rd.toNat → r ≠ ra.toNat → r ≠ rb.toNat → r ≠ rc.toNat → (q.thr h).rg r = t.rg r)
        ∧ ((fn ≠ 2#5 ∨ x1 vals = x2 vals) →
          (q.thr h).rg ra.toNat = a + BitVec.ofNat 64 n ∧ (q.thr h).rg rc.toNat = cnt - BitVec.ofNat 64 n
          ∧ (q.thr h).rg rb.toNat = (if fn = 0#5 ∨ fn = 2#5 then t.rg rb.toNat + BitVec.ofNat 64 n else t.rg rb.toNat)
          ∧ (q.thr h).pc = (if cnt.toNat = n then t.pc + 4#64 else t.pc)
          ∧ (q.thr h).ps = (if cnt.toNat = n then setBits t.ps 4 3 0 else setBits t.ps 4 3 1))
        ∧ (fn = 0#5 ∨ fn = 1#5 → (q.thr h).rg rd.toNat = t.rg rd.toNat)
        ∧ (fn = 3#5 → (q.thr h).rg rd.toNat = ((vals.flatMap (·.2)).foldl crcByte ((t.rg rd.toNat).setWidth 32)).setWidth 64)
        ∧ (fn = 2#5 → x1 vals = x2 vals → (q.thr h).rg rd.toNat = if cnt.toNat = n then 0#64 else t.rg rd.toNat)
        ∧ (fn = 2#5 → ∀ k, ((x1 vals).zip (x2 vals)).findIdx? (fun e => e.1 != e.2) = some k →
          (q.thr h).rg ra.toNat = a + BitVec.ofNat 64 k ∧ (q.thr h).rg rb.toNat = t.rg rb.toNat + BitVec.ofNat 64 k
          ∧ (q.thr h).rg rc.toNat = cnt - BitVec.ofNat 64 k ∧ (q.thr h).pc = t.pc + 4#64
          ∧ (q.thr h).rg rd.toNat = if ((x1 vals).getD k 0#8).toNat < ((x2 vals).getD k 0#8).toNat then BitVec.allOnes 64 else 1#64))

/-- The selector's pick: the highest level, round-robin within it, never against a unit in use; executing a head that is not yet selected selects it first (R36, R37, R38, R41, 02_skevy_core). -/
def Obligations.SelectionIsStrictAndFair : Prop :=
  (∀ (k : Sched) (ptr : List Nat) (l : List Cand), (∀ x ∈ l, x.t < 8 ∧ x.lev < 4) → (∀ x ∈ l, ∀ y ∈ l, x.t = y.t → x = y) →
    (∀ x, k.pick ptr l = some x → x ∈ l ∧ x.from' ≤ k.cyc ∧ k.divFree x ≤ k.cyc ∧ unitFree k.slots x.unit = true ∧ (∀ q ∈ k.slots, q.1 ≠ x.t)
      ∧ ∀ y ∈ l, k.open k.slots y = true → k.eff y ≤ k.eff x
        ∧ (k.eff y = k.eff x → (x.t + 7 - k.from_ ptr (k.eff x) % 8) % 8 ≤ (y.t + 7 - k.from_ ptr (k.eff x) % 8) % 8))
    ∧ (k.pick ptr l = none → ∀ y ∈ l, k.open k.slots y = false))
  ∧ ∀ (s : State), s.pkg.live = true →
    (∀ (c : Instr) (h : Htid) (g : Grp) (w : Word32), headOf c = some (h, g) → (s.pkg.thr h).sel = false → s.pkg.mayGo h = true →
      (s.pkg.thr h).head = some w → wordGrp w = g →
      (∀ p, s.pkg.select h = some p → exec c s = exec c (s.withPkg p))
      ∧ (s.pkg.select h = none → exec c s = .next s))
    ∧ (∀ (h : Htid), let k := (s.pkg.core (h / 8)).sched
      64 ≤ Map.get n0 k.starve (h % 8) → ((h : Nat) % 8) ∉ k.noted → s.pkg.Uncounted h →
      exec (.starvationPromotion h) s
        = .next (s.withPkg (s.pkg.updCore (h / 8) (fun q => { q with sched := { q.sched with noted := (h : Nat) % 8 :: q.sched.noted } }))))

/-- FETCH_BLOCK, LOAD_REISSUE, FILL_ARRIVAL and TABLE_WALK: the block, the held load, the value, the translation (R34, R47, R52, R53, R146, 02_skevy_core, 05_address_translation). -/
def Obligations.FetchWalkAndFillGiveThreadsWhatTheyWaitFor : Prop :=
  ∀ (s : State), s.pkg.live = true → s.pkg.tdmState = 0 →
    (∀ (h : Htid) (pa ai k : Nat), let t := s.pkg.thr h
      let p1 := (s.pkg.updCore (h / 8) (fun q => { q with rrFetch := h % 8 })).updThr h (fun t => { t with redirect := false })
      s.pkg.fetchTurn (h / 8) = some ((h : Nat) % 8) → p1.xlate h t.lvl t.fpc .fetch = (p1, .ok pa ai) → p1.regionErr pa ai = none →
      s.pkg.findL1i (h / 8) (pa / 64) = some k → (Map.get line0 s.pkg.l1i k).poison = false → s.pkg.rb (coreBase (h / 8)) 0 = false → s.pkg.Uncounted h →
      ∃ q, exec (.fetchBlock ⟨h, false⟩) s = .next (s.withPkg q)
        ∧ (let b := deBlock t.fpc (blockWords (Map.get line0 s.pkg.l1i k).data (t.fpc.toNat % 64))
           q.thr h = { t with queue := t.queue ++ b.1, fpc := b.2.1, fstall := t.fstall || b.2.2, redirect := false })
        ∧ (∀ j, j ≠ (h : Nat) → q.thr j = s.pkg.thr j)
        ∧ q = { s.pkg with threads := q.threads, cores := q.cores, l1i := q.l1i } ∧ (q.core (h / 8)).rrFetch = h % 8)
    ∧ (∀ (h : Htid) (par : Bool), s.pkg.fetchTurn (h / 8) ≠ some ((h : Nat) % 8) → exec (.fetchBlock ⟨h, par⟩) s = .next s)
    ∧ (∀ (h : Htid), (s.pkg.thr h).held = true → s.pkg.loadHeld h (s.pkg.thr h).hparts = false →
      exec (.loadReissue h) s = .next (s.withPkg (s.pkg.updThr h (fun t => { t with held := false, hparts := [] }))))
    ∧ (∀ (c : CoreN) (j : Fin 32) (ns : Nat) (m : Miss) (a : Await) (pa ai n : Nat) (d : BitVec 512),
      (s.pkg.core c).miss[(j : Nat)]? = some m → m.kind = .load → m.err = none → m.data = some (d, false) → m.asked = none → s.pkg.trkOf m.line = none →
      let h := 8 * (c : Nat) + m.thr
      (s.pkg.thr h).await = some a → a.parts = [⟨pa, ai, n, none⟩] → a.dest ≠ .buf → a.blk = false → a.dflags = false → pa / 64 = m.line → m.thr < 8 →
      forwardOf ((s.pkg.thr h).sb.take a.nsb) pa n = .none →
      s.pkg.findL1d c m.line = none → s.pkg.mergeOf c m.line = none → s.pkg.mergeOf (sibling c) m.line = none → s.pkg.findL2 (c / 2) m.line = none →
      ∃ q, exec (.fillArrival c j ⟨ns, .none⟩) s = .next (s.withPkg q)
        ∧ q.thr h = Thread.deliver { s.pkg.thr h with await := none } a.dest (lineGet d (pa % 64) n)
        ∧ (∀ k, k ≠ h → q.thr k = s.pkg.thr k) ∧ (q.core c).miss = (s.pkg.core c).miss.eraseIdx j ∧ q.drs = s.pkg.drs ∧ q.mem = s.pkg.mem)
    ∧ (∀ (h : Htid) (p1 : Pkg) (x : Nat × Nat) (w : WalkReq), (s.pkg.thr h).walk = some w → w.kind = .fetch →
      (s.pkg.updThr h (fun t => { t with walk := none })).mayGo h = true → (s.pkg.thr h).queue = [] → (s.pkg.thr h).await = none →
      (s.pkg.thr h).fpc = (s.pkg.thr h).pc → (s.pkg.thr h).lagged = false → s.pkg.pickVector h = none →
      s.pkg.xlateNow h (s.pkg.thr h).lvl (s.pkg.thr h).fpc .fetch = (p1, .ok x) → p1.Uncounted h →
      exec (.tableWalk h) s = .next (s.withPkg (p1.updThr h (fun t => { t with walk := none }))))
    ∧ (∀ (h : Htid) (w : WalkReq) (e : Word32) (i : Ins), (s.pkg.thr h).walk = some w → w.kind ≠ .fetch →
      (s.pkg.updThr h (fun t => { t with walk := none })).mayGo h = true → (s.pkg.thr h).head = some e → insDecode e = some i →
      exec (.tableWalk h) s = .next (s.withPkg ((s.pkg.updThr h (fun t => { t with walk := none })).execIns h true i)))

/-- STORE_DRAIN, PERMISSION_GRANT, MERGE_IDLE_RELEASE, WC_IDLE_FLUSH and UNCACHED_HOME_ACCESS: where a store's bytes go (R46, R49, R51, R187, R191, R192, R201, 02_skevy_core, 07_coherence_and_ordering). -/
def Obligations.StoresAndBuffersReachTheirLines : Prop :=
  ∀ (s : State), s.pkg.live = true → s.pkg.tdmState = 0 →
    (∀ (h : Htid) (e : SbEnt) (rest : List SbEnt) (m : MergeLine), (s.pkg.thr h).sb = e :: rest → s.pkg.threadsRun = true →
      (s.pkg.thr h).await = none → region e.pa = 0 → e.ai = 0 → s.pkg.mergeOf (h / 8) (e.pa / 64) = some m → m.perm = true →
      s.pkg.drainTurn (h / 8) = some ((h : Nat) % 8) →
      ∃ q, exec (.storeDrain h) s = .next (s.withPkg q) ∧ (q.thr h).sb = rest ∧ (q.thr h).g = (s.pkg.thr h).g ∧ (q.thr h).pc = (s.pkg.thr h).pc
        ∧ (∃ m', (q.core (h / 8)).merge.find? (fun x => x.line == e.pa / 64 && x.perm) = some m' ∧ m'.data = linePut m.data (e.pa % 64) e.n e.data ∧ m'.dirty = true)
        ∧ (∀ k, s.pkg.findL2 (h / 8 / 2) (e.pa / 64) = some k → m.ai ≠ 1 → s.pkg.noalloc = false → q.l2 = Map.set line0 s.pkg.l2 k { s.pkg.getL2 k with st := .M })
        ∧ (q.core (h / 8)).rrDrain = h % 8 ∧ q = { s.pkg with threads := q.threads, cores := q.cores, l1d := q.l1d, l2 := q.l2 })
    ∧ (∀ (h : Htid) (e : SbEnt) (rest : List SbEnt), (s.pkg.thr h).sb = e :: rest → s.pkg.threadsRun = true → e.ai = 0 →
      (s.pkg.core (h / 8)).merge.any (fun x => x.line == e.pa / 64) = false → (s.pkg.core (h / 8)).merge.length < 15 → s.pkg.missRoom h = true →
      ∃ q, exec (.storeDrain h) s = .next (s.withPkg q) ∧ (q.thr h).sb = e :: rest
        ∧ (q.core (h / 8)).miss.any (fun x => x.line == e.pa / 64 && x.kind == .perm) = true
        ∧ (q.core (h / 8)).merge.any (fun x => x.line == e.pa / 64 && !x.perm) = true)
    ∧ (∀ (h : Htid) (e : SbEnt) (rest : List SbEnt), (s.pkg.thr h).sb = e :: rest → s.pkg.drainable h = true →
      s.pkg.drainTurn (h / 8) ≠ some ((h : Nat) % 8) → exec (.storeDrain h) s = .next s)
    ∧ (∀ (c : CoreN) (line k ns : Nat) (m : Miss) (w : MergeLine), (s.pkg.core c).miss.find? (fun x => x.line == line && x.kind == .perm) = some m →
      s.pkg.trkOf line = none → m.err = none → m.asked = none → s.pkg.findL2 (c / 2) line = some k → ((s.pkg.getL2 k).st = .M ∨ (s.pkg.getL2 k).st = .E) →
      s.pkg.mergeOf c line = some w → w.perm = false → s.pkg.mergeOf (sibling c) line = none →
      ∃ q, exec (.permissionGrant c ⟨line, ns, .none⟩) s = .next (s.withPkg q)
        ∧ (q.core c).merge.find? (fun x => x.line == line) = some ⟨line, true, m.ai, (s.pkg.getL2 k).data, (s.pkg.getL2 k).poison, s.pkg.now, false, w.owe⟩
        ∧ (q.core c).miss = (s.pkg.core c).miss.filter (fun x => !(x.line == line && x.kind == .perm))
        ∧ q.threads = s.pkg.threads ∧ q.drs = s.pkg.drs ∧ q.mem = s.pkg.mem)
    ∧ (∀ (c : CoreN) (line dt : Nat) (m : MergeLine), let p := s.pkg.elapse dt
      p.mergeOf c line = some m → m.perm = true → p.owing (c / 2) line = false →
      ∃ q, exec (.mergeIdleRelease c line dt) s = .next (s.withPkg q)
        ∧ (p.idleLimit c ≤ p.now - m.last → q.mergeOf c line = none)
        ∧ (p.now - m.last < p.idleLimit c → q.mergeOf c line = some m)
        ∧ q.threads = s.pkg.threads ∧ q.mem = s.pkg.mem ∧ q.now = s.pkg.now + dt)
    ∧ (∀ (c : CoreN) (dt : Nat) (b : WcBuf), (s.pkg.core c).wc = [b] → (s.pkg.elapse dt).idleLimit c ≤ s.pkg.now + dt - b.last →
      ∃ q, exec (.wcIdleFlush c b.line dt) s = .next (s.withPkg q) ∧ (q.core c).wc = []
        ∧ (∃ r : DevReq, q.devq = s.pkg.devq ++ [r] ∧ r.pa = 64 * b.line ∧ r.data = b.data.toNat ∧ r.be = b.mask.toNat ∧ r.wr = true ∧ r.wc = b.owners)
        ∧ q.threads = s.pkg.threads ∧ q.mem = s.pkg.mem)
    ∧ (∀ (h : Htid) (ns : Nat) (r : DevReq), s.pkg.devq.find? (fun r => r.h == (h : Nat) && region r.pa == 0) = some r → r.wr = true →
      let line := r.pa / 64
      s.pkg.trkOf line = none → (s.pkg.devq.takeWhile (· != r)).any (fun q => q.wr && q.h / 8 == (h : Nat) / 8 && q.pa / 64 == line) = false →
      s.pkg.uncopied line = true → isGlobal line = false → (Map.get sym0 s.pkg.dsym line).isEmpty = true → s.pkg.tdm.track = false →
      ∃ q, exec (.uncachedHomeAccess ⟨h, ns, .none⟩) s = .next (s.withPkg q) ∧ q.devq = s.pkg.devq.erase r
        ∧ (∃ w : McWr, (q.mc (mcOf line)).wq = (s.pkg.mc (mcOf line)).wq ++ [w] ∧ w.line = line
          ∧ w.data = (let m := byteMask (BitVec.ofNat 64 (r.be * 2 ^ (r.pa % 64)))
                      ((s.pkg.curLine line).1 &&& ~~~m) ||| (BitVec.ofNat 512 (r.data * 2 ^ (8 * (r.pa % 64))) &&& m)))
        ∧ q.drs = s.pkg.drs ∧ q.mem = s.pkg.mem)

/-- The thread commands, WAITT and TIMER, PMC_WRAP, INTERRUPT_TAKE, TIC_MSI_WRITE and TIC_IPI_SEND (R54, R55, R56, R57, R58, R66, R92, R128, R130, R131, R132, R348). -/
def Obligations.ThreadsStartHaltWakeAndTakeInterrupts : Prop :=
  ∀ (s : State), s.pkg.live = true → s.pkg.tdmState = 0 → s.pkg.shm.on = false → s.pkg.shm.acts = [] →
    (∀ (h : Htid), s.pkg.coreUp h = true → let t := s.pkg.thr h
      let pc := ((s.pkg.rd (coreBase (h / 8) + 0x140 + 8 * (h % 8))).setWidth 57).signExtend 64
      let err := s.withPkg (s.pkg.wb (coreBase (h / 8) + 0x100 + 8 * (h % 8)) 3 true)
      (t.st = .off → ∃ q, exec (.threadStart h) s = .next (s.withPkg q) ∧ (q.thr h).st = .run ∧ (q.thr h).pc = pc ∧ (q.thr h).fpc = pc
        ∧ (q.thr h).queue = [] ∧ (q.thr h).ps = 3#64 ∧ (q.thr h).g = t.g ∧ (∀ k, k ≠ (h : Nat) → q.thr k = s.pkg.thr k))
      ∧ (t.st ≠ .off → exec (.threadStart h) s = .next err)
      ∧ (t.st = .run ∨ t.st = .parked ∨ t.st = .timewait → exec (.threadHalt h) s = .next (s.withPkg (s.pkg.updThr h (fun t => { t with halting := true }))))
      ∧ (¬ (t.st = .run ∨ t.st = .parked ∨ t.st = .timewait) → exec (.threadHalt h) s = .next err)
      ∧ (t.st = .halted → t.prior = .run → ∃ q, exec (.threadResume h) s = .next (s.withPkg q)
        ∧ q.thr h = { t with st := .run, prior := .off, redirect := true } ∧ (∀ k, k ≠ (h : Nat) → q.thr k = s.pkg.thr k))
      ∧ (t.st ≠ .halted → exec (.threadResume h) s = .next err)
      ∧ (t.st = .halted ∨ t.st = .faulted → ∃ q, exec (.threadStop h) s = .next (s.withPkg q)
        ∧ q.thr h = { t with st := .off, prior := .off, chunk := none, mon := none, monWake := false, waitt := none } ∧ (∀ k, k ≠ (h : Nat) → q.thr k = s.pkg.thr k))
      ∧ (t.st ≠ .halted → t.st ≠ .faulted → exec (.threadStop h) s = .next err))
    ∧ (∀ (h : Htid), let t := s.pkg.thr h
      t.halting = true → t.await = none → t.sb = [] → t.ent = none → t.sel = false → t.ebuf = [] → t.wreason = none → ∃ q, exec (.haltComplete h) s = .next (s.withPkg q)
        ∧ q.thr h = { t with st := .halted, prior := t.st, halting := false, queue := [], fpc := t.pc, fstall := false, walk := none, long := false, held := false, hparts := [], sel := false, chunk := none }
        ∧ (∀ k, k ≠ (h : Nat) → q.thr k = s.pkg.thr k) ∧ q.drs = s.pkg.drs ∧ q.mem = s.pkg.mem)
    ∧ (∀ (h : Htid) (dt rd : Nat) (w : Word), (s.pkg.thr h).st = .timewait → (s.pkg.thr h).waitt = some (w, rd) →
      w.toNat ≤ (s.pkg.elapse dt).timeNs % 2 ^ 64 → ∃ q, exec (.waittTimeReached h dt) s = .next (s.withPkg q)
        ∧ q.thr h = Thread.wg { s.pkg.thr h with st := .run, waitt := none } rd 0#64 ∧ (∀ k, k ≠ (h : Nat) → q.thr k = s.pkg.thr k))
    ∧ (∀ (h : Htid) (dt : Nat), ∃ q, exec (.timerPending h dt) s = .next (s.withPkg q)
      ∧ (q.pendv h 34 = true ↔ ((s.pkg.thr h).rs 0x401).toNat ≤ (s.pkg.elapse dt).timeNs % 2 ^ 64))
    ∧ (∀ (h : Htid) (i : Fin 16), s.pkg.coreP (h / 8) = 0 →
      ((i : Nat) < 8 → (s.pkg.thr h).cycles ((s.pkg.thr h).rs (0x508 + i)) false = true → (s.pkg.thr h).frozen = false →
        ∃ q, exec (.pmcWrap h i) s = .next (s.withPkg q) ∧ (q.thr h).rs (0x500 + i) = 0#64 ∧ ((q.thr h).rs 0x510).getLsbD i = true)
      ∧ (8 ≤ (i : Nat) → (let sel := Map.get w0 (s.pkg.core (h / 8)).csr (0x528 + i - 8)
          ∃ u < 8, sel.getLsbD (16 + u) = true ∧ (s.pkg.thr (8 * (h / 8) + u)).cycles sel true = true) →
        ∃ q, exec (.pmcWrap h i) s = .next (s.withPkg q) ∧ Map.get w0 (q.core (h / 8)).csr (0x520 + i - 8) = 0#64
          ∧ (Map.get w0 (q.core (h / 8)).csr 0x510).getLsbD i = true))
    ∧ (∀ (h : Htid) (v : Nat), s.pkg.threadsRun = true → let t := s.pkg.thr h
      t.st = .run → t.halting = false → t.lagged = false → s.pkg.coreP (h / 8) = 0 → t.await = none → t.sb = [] → t.sel = false → t.ebuf = [] → t.ent = none → t.wreason = none → s.pkg.pickVector h = some v →
      exec (.interruptTake h) s = .next (s.withPkg ((if v = 34 ∨ v = 37 then s.pkg else s.pkg.putPend h v false).enterAt h v t.pc 0#64
        (if v = 32 then t.fin32 else if v = 33 then t.fin33 else 0#64) true)))
    ∧ (∀ (h : Htid) (v : Word32),
      (64 ≤ v.toNat ∧ v.toNat ≤ 127 → ∃ q, exec (.ticMsiWrite h v) s = .next (s.withPkg q) ∧ q.pendv h v.toNat = true)
      ∧ (¬ (64 ≤ v.toNat ∧ v.toNat ≤ 127) → ∃ q, exec (.ticMsiWrite h v) s = .next (s.withPkg q) ∧ q.rb (ticStatus h) 0 = true
        ∧ q.rf (ticStatus h) 15 8 = min (s.pkg.rf (ticStatus h) 15 8 + 1) 255 ∧ s.pkg.DrsBut q [ticStatus h] ∧ q = { s.pkg with drs := q.drs })
      ∧ ∃ q, exec (.ticIpiSend h) s = .next (s.withPkg q) ∧ q.pendv h 36 = true)

/-- RDSHARED, RDUNIQUE, UPGRADE and SNOOP: who waits, whom the home asks, when it reads DRAM, what the tile is granted (R167, R187, R188, R189, R190, 06_cache_hierarchy, 07_coherence_and_ordering). -/
def Obligations.HomeRequestsSnoopReadOrGrant : Prop :=
  ∀ (s : State) (t : TileN) (line : Nat), s.pkg.live = true → s.pkg.permitted (2 * t) line = false → s.pkg.permitted (2 * t + 1) line = false →
    (∀ r, s.pkg.trkOf line = some r → r.tile ≠ t → r.wait.all (fun q => q.1 != (t : Nat)) = true → s.pkg.trkUsed (homeOf line) < 256 → s.pkg.l2P t = 0 →
      let st := s.pkg.stL2 t line
      let waits (c : Instr) (perm : Bool) (req : HomeReq) : Prop := s.pkg.tileMiss t line perm = true →
        ∃ q, exec c s = .next (s.withPkg q) ∧ q.trkOf line = some { r with wait := r.wait ++ [((t : Nat), req, .none)] }
          ∧ q = { s.pkg with trackers := q.trackers, noc := q.noc, cores := q.cores }
      (st = .I → waits (.rdshared t line .none) false .rdShared ∧ waits (.rdunique t line .none) true .rdUnique)
      ∧ (st ≠ .M → st ≠ .E → waits (.upgrade t line .none) true .upgrade))
    ∧ (s.pkg.trkOf line = none → s.pkg.trkUsed (homeOf line) < 256 → s.pkg.l2P t = 0 →
      let st := s.pkg.stL2 t line
      let asks (c : Instr) (perm : Bool) (req : HomeReq) : Prop :=
        let tgt := (s.pkg.owners line).filter (fun (u : Nat) => u != (t : Nat) && (perm || s.pkg.supplies u line))
        s.pkg.tileMiss t line perm = true →
        (tgt ≠ [] → ∃ q r, exec c s = .next (s.withPkg q) ∧ q.trkOf line = some r ∧ r.req = req ∧ r.tile = t ∧ r.dram = false ∧ r.data = none
          ∧ (∀ u, u < 128 → r.snoops.getLsbD u = decide (u ∈ tgt)) ∧ q = { s.pkg with trackers := q.trackers, noc := q.noc, cores := q.cores })
        ∧ (s.pkg.owners line = [] → s.pkg.findL3 line = none → ∃ q r, exec c s = .next (s.withPkg q) ∧ q.trkOf line = some r
          ∧ r.req = req ∧ r.tile = t ∧ r.dram = true
          ∧ (isGlobal line = false → (q.mc (mcOf line)).rq = (s.pkg.mc (mcOf line)).rq ++ [⟨line, .home (homeOf line), false, false⟩]
            ∧ q = { s.pkg with trackers := q.trackers, noc := q.noc, cores := q.cores, mcs := q.mcs })
          ∧ (isGlobal line = true → q.fab.gq = s.pkg.fab.gq ++ [{ kind := .rd, pa := 64 * line, n := 64, data := 0, op := 0, who := .fill (homeOf line) line, gsn := 0 }]
            ∧ q = { s.pkg with trackers := q.trackers, noc := q.noc, cores := q.cores, fab := q.fab }))
      (st = .I → asks (.rdshared t line .none) false .rdShared ∧ asks (.rdunique t line .none) true .rdUnique ∧ asks (.upgrade t line .none) true .rdUnique)
      ∧ (st = .S ∨ st = .O → asks (.upgrade t line .none) true .upgrade)
      ∧ (∀ k, st = .I → s.pkg.tileMiss t line false = true → s.pkg.owners line = [] → s.pkg.mergeAny line = none → s.pkg.holders line = [] →
        s.pkg.findL3 line = some k → s.pkg.alloc2 t = true →
        (∃ w, w < 16 ∧ s.pkg.ret2 t w = false) → ∃ q k', exec (.rdshared t line .none) s = .next (s.withPkg q) ∧ q.trkOf line = none
          ∧ q.findL2 t line = some k' ∧ (q.getL2 k').data = (s.pkg.getL3 k).data ∧ (q.getL2 k').poison = (s.pkg.getL3 k).poison
          ∧ ((q.getL2 k').st = .M ∨ (q.getL2 k').st = .E) ∧ ((s.pkg.getL3 k).st ≠ .M → (q.getL2 k').st = .E)
          ∧ q.threads = s.pkg.threads ∧ q.drs = s.pkg.drs)
      ∧ (st = .S ∨ st = .O → s.pkg.tileMiss t line true = true → s.pkg.owners line = [(t : Nat)] →
        ∃ q, exec (.upgrade t line .none) s = .next (s.withPkg q) ∧ q.trkOf line = none ∧ (q.stL2 t line = .M ∨ q.stL2 t line = .E)
          ∧ q.threads = s.pkg.threads ∧ q.drs = s.pkg.drs))
    ∧ (∀ r, s.pkg.trkOf line = some r → r.snoops.getLsbD t = true → r.dram = false →
      let st := s.pkg.stL2 t line
      let left := r.snoops &&& ~~~(BitVec.ofNat 128 (2 ^ (t : Nat)))
      let data := if s.pkg.supplies t line ∧ r.data = none then some (s.pkg.curLine line) else r.data
      let after := if st = .M then Moesi.O else if st = .E then Moesi.S else st
      (left ≠ 0#128 → ∃ q, exec (.snoop t line .none) s = .next (s.withPkg q) ∧ q.trkOf line = some { r with snoops := left, data := data }
        ∧ (r.req = .rdShared → q.stL2 t line = after) ∧ q.threads = s.pkg.threads ∧ q.drs = s.pkg.drs)
      ∧ (left = 0#128 → data.isSome = true → r.req = .rdShared → r.wait = [] → st ≠ .I → (t : Nat) ≠ r.tile → s.pkg.mergeAny line = none →
        s.pkg.alloc2 r.tile = true → s.pkg.stL2 r.tile line = .I →
        (∃ w, w < 16 ∧ s.pkg.ret2 r.tile w = false) → ∃ q k', exec (.snoop t line .none) s = .next (s.withPkg q) ∧ q.trkOf line = none
          ∧ q.findL2 r.tile line = some k' ∧ q.getL2 k' = ⟨line, .S, (s.pkg.curLine line).1, (q.getL2 k').age, (s.pkg.curLine line).2⟩ ∧ q.stL2 t line = after
          ∧ q.threads = s.pkg.threads ∧ q.drs = s.pkg.drs))
    ∧ (∀ r, s.pkg.trkOf line = some r → r.snoops.getLsbD t = false → exec (.snoop t line .none) s = .next s)

/-- WRBACK, DROP, DRAM_READ, DRAM_READ_RETURN and DRAM_WRITE, and what the DRAM code delivers (R167, R174, R188, R243, R245, R246, R437, 09_dram_ecc_trowel). -/
def Obligations.LinesReachDramAndComeBack : Prop :=
  (∀ (s : State) (t : TileN) (line : Nat), s.pkg.live = true → s.pkg.trkOf line = none →
    s.pkg.mergeOf (2 * t) line = none → s.pkg.mergeOf (2 * t + 1) line = none → ∀ k, s.pkg.findL2 t line = some k →
    let c := s.pkg.getL2 k
    ((c.st = .M ∨ c.st = .O) →
      (∃ q, exec (.wrback t ⟨line, .none⟩) s = .next (s.withPkg q) ∧ q.threads = s.pkg.threads ∧ q.drs = s.pkg.drs ∧ q.mem = s.pkg.mem ∧ q.getL2 k = {}
        ∧ (∀ j, s.pkg.findL3 line = some j → s.pkg.noalloc = false → (q.getL3 j).data = c.data ∧ (q.getL3 j).st = .M)
        ∧ (s.pkg.findL3 line = none → s.pkg.alloc3 (homeOf line) = false → isGlobal line = false →
          (q.mc (mcOf line)).wq = (s.pkg.mc (mcOf line)).wq ++ [⟨line, c.data, c.poison⟩]))
      ∧ exec (.drop t ⟨line, .none⟩) s = .next s)
    ∧ ((c.st = .S ∨ c.st = .E) → (∃ q, exec (.drop t ⟨line, .none⟩) s = .next (s.withPkg q) ∧ q.getL2 k = {} ∧ q.l3 = s.pkg.l3 ∧ q.mcs = s.pkg.mcs
        ∧ q.threads = s.pkg.threads ∧ q.drs = s.pkg.drs ∧ q.mem = s.pkg.mem)
      ∧ exec (.wrback t ⟨line, .none⟩) s = .next s))
  ∧ (∀ (s : State) (i : McN) (line : Nat), s.pkg.live = true →
    (s.pkg.rankBusy i line = true → exec (.dramRead i line) s = .next s ∧ exec (.dramWrite i line) s = .next s)
    ∧ (s.pkg.rankBusy i line = false →
      exec (.dramRead i line) s = .next (s.withPkg (s.pkg.updMc i (fun m => { m with rq := m.rq.map (fun r => if r.line = line then { r with sched := true } else r) })))
      ∧ (∀ w, (s.pkg.mc i).wq.find? (fun x => x.line == line) = some w → ∃ q, exec (.dramWrite i line) s = .next (s.withPkg q)
        ∧ (∀ k, k < 64 → q.memByte (64 * line + k) = BitVec.ofNat 8 (lineGet w.data k 1))
        ∧ (∀ a, a < 64 * line ∨ 64 * line + 64 ≤ a → q.memByte a = s.pkg.memByte a)
        ∧ Map.get flag0 q.dpoison line = w.poison ∧ (∀ l, l ≠ line → Map.get flag0 q.dpoison l = Map.get flag0 s.pkg.dpoison l)
        ∧ Map.get sym0 q.dsym line = []
        ∧ (q.mc i).wq = (s.pkg.mc i).wq.eraseIdx ((s.pkg.mc i).wq.findIdx (fun x => x.line == line))
        ∧ (∀ j, j ≠ (i : Nat) → q.mc j = s.pkg.mc j) ∧ q = { s.pkg with mem := q.mem, dpoison := q.dpoison, dsym := q.dsym, mcs := q.mcs }))
    ∧ (∀ (x : McReq) (r : Tracker), s.pkg.shm.on = false → s.pkg.shm.acts = [] → (s.pkg.mc i).rq = [x] → x.line = line → x.sched = true → x.purpose ≠ .trowel →
      s.pkg.trkOf line = some r → r.dram = true → r.req = .rdShared → r.wait = [] → s.pkg.uncopied line = true → isGlobal line = false →
      mcOf line = i → Map.get sym0 s.pkg.dsym line = [] →
      s.pkg.stL2 r.tile line = .I → s.pkg.alloc2 r.tile = true → (∃ w, w < 16 ∧ s.pkg.ret2 r.tile w = false) →
      ∃ q k, exec (.dramReadReturn i line []) s = .next (s.withPkg q) ∧ (q.mc i).rq = [] ∧ q.trkOf line = none ∧ q.findL2 r.tile line = some k
        ∧ (q.getL2 k).data = (s.pkg.dramLine line).1 ∧ (q.getL2 k).poison = (s.pkg.dramLine line).2 ∧ (q.getL2 k).st = .E
        ∧ q.threads = s.pkg.threads ∧ q.drs = s.pkg.drs))
  ∧ (∀ (d : BitVec 512) (p : Bool),
    decodeLine d p [] = ⟨if p then 4 else 0, none, d, p⟩
    ∧ (∀ err : List SymErr, err ≠ [] → (∃ dev, ∀ e ∈ err, e.x ≠ 0#8 ∧ symDev e.sym.val = dev) → (err.map (·.sym)).Nodup →
      (decodeLine d p err).data = d ∧ (decodeLine d p err).poison = p ∧ (decodeLine d p err).cls ≠ 5)
    ∧ (∀ a b : SymErr, a.x ≠ 0#8 → b.x ≠ 0#8 → symDev a.sym.val ≠ symDev b.sym.val → decodeLine d p [a, b] = ⟨5, none, d, true⟩))

/-- Whole-cache commands, retirement of ways and SC_CACHE_MODE complete, and what they refuse (R174, R176, R178, R182, R183, R430, 06_cache_hierarchy). -/
def Obligations.CacheCommandsAndRetirement : Prop :=
  ∀ (s : State) (n : TileN), s.pkg.live = true →
    (∀ (l3 inv : Bool),
      let c : Instr := if l3 then (if inv then .l3sCleanInvalidateAll n else .l3sCleanAll n) else (if inv then .l2CleanInvalidateAll n else .l2CleanAll n)
      (s.pkg.cacheBusy l3 n = false → exec c s = .next (s.withPkg { s.pkg with cops := s.pkg.cops ++ [.clean l3 n inv] }))
      ∧ (s.pkg.cacheBusy l3 n = true → exec c s = .next (s.withPkg (s.pkg.wb (cacheStat l3 n) 5 true)))
      ∧ (s.pkg.cops.find? (fun o => o == .clean l3 n true || o == .clean l3 n false) = some (.clean l3 n inv) →
        ∃ q, exec (.cacheCmdComplete l3 ⟨n, []⟩) s = .next (s.withPkg q) ∧ q.cops = s.pkg.cops.filter (fun o => o != .clean l3 n inv)
          ∧ (l3 = true → ∀ k ∈ s.pkg.keysL3 n, if inv then q.getL3 k = {} else (q.getL3 k).st ≠ .M)
          ∧ (l3 = false → ∀ k ∈ s.pkg.keysL2 n, (q.getL2 k).st ≠ .M ∧ (q.getL2 k).st ≠ .O)
          ∧ q.threads = s.pkg.threads ∧ q.drs = s.pkg.drs ∧ q.mem = s.pkg.mem))
    ∧ (∀ (l3 : Bool) (w : Fin 16) (v : Word),
      let r := cacheWay l3 n w
      let new := v.getLsbD 8 = true ∧ s.pkg.rb r 8 = false
      (new → s.pkg.nret l3 n < 4 → ∃ q, exec (.wayRetireWrite l3 n w v) s = .next (s.withPkg q)
        ∧ q.rb r 8 = true ∧ q.rf r 7 0 = bits v 7 0 ∧ q.rb (cacheStat l3 n) (16 + w) = true ∧ q.rf (cacheStat l3 n) 34 32 = s.pkg.nret l3 n + 1
        ∧ q.cops = s.pkg.cops ++ [.retire l3 n w] ∧ s.pkg.DrsBut q [r, cacheStat l3 n] ∧ q = { s.pkg with drs := q.drs, cops := q.cops })
      ∧ (new → 4 ≤ s.pkg.nret l3 n → exec (.wayRetireWrite l3 n w v) s = .next (s.withPkg (s.pkg.wb (cacheStat l3 n) 5 true)))
      ∧ (¬ new → exec (.wayRetireWrite l3 n w v) s = .next (s.withPkg (s.pkg.wf r 7 0 (bits v 7 0))))
      ∧ (CacheOp.retire l3 n w ∈ s.pkg.cops → ∃ q, exec (.wayRetireComplete l3 n ⟨w, []⟩) s = .next (s.withPkg q)
        ∧ q.cops = s.pkg.cops.filter (fun o => o != .retire l3 n w)
        ∧ (l3 = true → ∀ set, set < 2048 → (q.getL3 (n * 32768 + set * 16 + w)).st = .I)
        ∧ q.rf ((cacheWin l3 n).err + 0x20) 31 0 = (s.pkg.rf ((cacheWin l3 n).err + 0x20) 31 0 + 1) % 2 ^ 32 ∧ q.mem = s.pkg.mem))
    ∧ (∀ v : Word,
      let r := scBase + 0x100
      (s.pkg.rb r 1 = true → exec (.cacheModeWrite v) s = .next (s.withPkg (s.pkg.wb r 2 true)))
      ∧ (s.pkg.rb r 1 = false → ∃ q, exec (.cacheModeWrite v) s = .next (s.withPkg q) ∧ q.rb r 0 = v.getLsbD 0
        ∧ q.rb r 1 = decide (v.getLsbD 0 ≠ s.pkg.rb r 0) ∧ q.rb r 2 = (s.pkg.rb r 2 && !v.getLsbD 2)
        ∧ s.pkg.DrsBut q [r] ∧ q = { s.pkg with drs := q.drs })
      ∧ exec .cacheModeSettled s = .next (s.withPkg (s.pkg.wb r 1 false)))

/-- Spare ways, slice evacuation, L2 gating, core gating and waking: what each leaves, and when it is refused (R184, R185, R186, R219, R220, R221, R223, R225, 06_cache_hierarchy, 08_mortar_mesh). -/
def Obligations.EvacuationAndPowerChangesComplete : Prop :=
  ∀ (s : State), s.pkg.live = true →
    (∀ n : TileN,
      let cfg := l3sBase n
      let stat := l3sBase n + 0x10
      let bud := l3sBase (Nat.xor n 1) + 0x10
      let ways := (List.range 16).filter (fun w => !s.pkg.ret3 n w)
      let err := s.withPkg (s.pkg.wb stat 5 true)
      (s.pkg.rb cfg 4 = false → 8 ≤ ways.length → s.pkg.rb stat 4 = false → ∃ q, exec (.spareReserve n) s = .next (s.withPkg q)
        ∧ (∀ w, w < 16 → (q.spareOf n).getLsbD w = (ways.reverse.take 4).contains w) ∧ (∀ m, m ≠ (n : Nat) → q.spareOf m = s.pkg.spareOf m)
        ∧ q.rb cfg 4 = true ∧ q.cops = s.pkg.cops ++ [.reserve n] ∧ s.pkg.DrsBut q [cfg] ∧ q = { s.pkg with drs := q.drs, spare := q.spare, cops := q.cops })
      ∧ (s.pkg.rb cfg 4 = false → (ways.length < 8 ∨ s.pkg.rb stat 4 = true) → exec (.spareReserve n) s = .next err)
      ∧ (s.pkg.rb cfg 4 = true → s.pkg.rb stat 3 = true → exec (.spareClear n) s = .next err)
      ∧ (s.pkg.rb cfg 4 = true → s.pkg.rb stat 3 = false → ∃ q, exec (.spareClear n) s = .next (s.withPkg q) ∧ q.spareOf n = 0#16
        ∧ q.rb cfg 4 = false ∧ q.rb stat 2 = false ∧ q.cops = s.pkg.cops.filter (fun o => o != CacheOp.reserve n) ∧ s.pkg.DrsBut q [cfg, stat]
        ∧ q = { s.pkg with drs := q.drs, spare := q.spare, cops := q.cops })
      ∧ (CacheOp.reserve n ∈ s.pkg.cops → ∃ q, exec (.spareReady ⟨n, []⟩) s = .next (s.withPkg q) ∧ q.rb stat 2 = true
        ∧ q.cops = s.pkg.cops.filter (fun o => o != CacheOp.reserve n) ∧ s.pkg.DrsBut q [stat] ∧ q.threads = s.pkg.threads ∧ q.mem = s.pkg.mem
        ∧ ∀ set w, set < 2048 → w < 16 → (s.pkg.spareOf n).getLsbD w = true → (q.getL3 (n * 32768 + set * 16 + w)).st = .I)
      ∧ (let ok := s.pkg.rb bud 2 = true ∧ s.pkg.rb bud 3 = false ∧ s.pkg.rb stat 4 = false ∧ s.pkg.cacheBusy true n = false
        (ok → exec (.sliceEvacuate n) s = .next (s.withPkg { s.pkg with evac := (n : Nat) :: s.pkg.evac, cops := s.pkg.cops ++ [.evac n] }))
        ∧ (¬ ok → exec (.sliceEvacuate n) s = .next err))
      ∧ (CacheOp.evac n ∈ s.pkg.cops → ∃ q, exec (.evacuationComplete ⟨n, []⟩) s = .next (s.withPkg q) ∧ q.rb stat 4 = true ∧ q.rb bud 3 = true
        ∧ q.cops = s.pkg.cops.filter (fun o => o != CacheOp.evac n) ∧ q.threads = s.pkg.threads ∧ q.mem = s.pkg.mem
        ∧ ∀ k, k / 32768 = (n : Nat) → (q.getL3 k).st ≠ .I → homeOf (q.getL3 k).line ≠ (n : Nat))
      ∧ (let ok := s.pkg.rb (meshL2pwr n) 0 = true ∧ s.pkg.gateOk n = true ∧ s.pkg.l2P n = 0
        (ok → ∃ q, exec (.l2Gate n) s = .next (s.withPkg q) ∧ q.l2P n = 2 ∧ s.pkg.DrsBut q [meshL2pwr n] ∧ q.threads = s.pkg.threads ∧ q.mem = s.pkg.mem)
        ∧ (¬ ok → exec (.l2Gate n) s = .next s)))
    ∧ (∀ c : CoreN,
      let r := meshCpwr c
      (s.pkg.coreOff c = true → s.pkg.coreP c = 0 → ∃ q, exec (.coreGate c) s = .next (s.withPkg q) ∧ q.coreP c = 1
        ∧ (q.core c).wc = [] ∧ (∀ m ∈ (q.core c).merge, m.perm = false) ∧ s.pkg.DrsBut q [r] ∧ q.threads = s.pkg.threads ∧ q.mem = s.pkg.mem)
      ∧ ((s.pkg.coreOff c = false ∨ s.pkg.coreP c ≠ 0) → exec (.coreGate c) s = .next (s.withPkg (s.pkg.wb r 2 true)))
      ∧ (let quiet := s.pkg.coreOff c = true ∧ (s.pkg.core c).miss = [] ∧ (s.pkg.core c).merge = [] ∧ (s.pkg.core c).wc = []
            ∧ ∀ u, u < 8 → (s.pkg.thr (8 * (c : Nat) + u)).sb = []
        (s.pkg.coreP c = 1 → quiet → ∃ q, exec (.coreGateComplete c) s = .next (s.withPkg q) ∧ q.coreP c = 2
          ∧ (∀ h, q.thr h = if h / 8 = (c : Nat) then { fin32 := (s.pkg.thr h).fin32, fin33 := (s.pkg.thr h).fin33 } else s.pkg.thr h)
          ∧ (∀ u, u < 8 → q.pendv (8 * (c : Nat) + u) 34 = false ∧ q.pendv (8 * (c : Nat) + u) 37 = false)
          ∧ (∀ o, o ≠ r → (∀ u, u < 8 → o ≠ ticSyspend (8 * (c : Nat) + u)) →
            q.rd o = if coreBase c ≤ o ∧ o < coreBase c + 0xC00 then regReset o else s.pkg.rd o) ∧ q.mem = s.pkg.mem)
        ∧ (s.pkg.coreP c = 1 → ¬ quiet → exec (.coreGateComplete c) s = .next s))
      ∧ (s.pkg.coreP c = 1 → exec (.coreWake c) s = .next (s.withPkg (s.pkg.wf r 5 4 0)))
      ∧ (s.pkg.coreP c = 2 → ∃ q, exec (.coreWake c) s = .next (s.withPkg q) ∧ q.coreP c = 3
        ∧ q.l2P (c / 2) = (if s.pkg.l2P (c / 2) = 2 then 3 else s.pkg.l2P (c / 2)) ∧ s.pkg.DrsBut q [r, meshL2pwr (c / 2)] ∧ q = { s.pkg with drs := q.drs })
      ∧ (s.pkg.coreP c = 3 → s.pkg.rb r 7 = false → ∃ q, exec (.coreWakeComplete c) s = .next (s.withPkg q) ∧ q.coreP c = 0 ∧ q.l2P (c / 2) = 0
        ∧ q.rb r 6 = s.pkg.noc.wokeInt.contains (c : Nat) ∧ s.pkg.DrsBut q [r, meshL2pwr (c / 2)] ∧ q = { s.pkg with drs := q.drs, noc := q.noc }))

/-- PPR_GO, SPPR_START, SPPR_COMPLETE and Trowel's start, abort, reads, results and end (R254, R255, R256, R257, R258, R259, R260, R262, 09_dram_ecc_trowel). -/
def Obligations.RepairsAndPatrolPassesRun : Prop :=
  ∀ (s : State) (i : McN), s.pkg.live = true → s.pkg.scLive = true →
    (∀ v : Word,
      let r := mcBase i + 0x28
      let p := if v.getLsbD 6 then s.pkg.wb r 6 false else s.pkg
      let e := bits v 3 0
      (v.getLsbD 4 = false → exec (.pprGo i v) s = .next (s.withPkg p))
      ∧ (v.getLsbD 4 = true → (s.pkg.rb r 5 = true ∨ s.pkg.rb (mcCe i e) 0 = false) → exec (.pprGo i v) s = .next (s.withPkg (p.wb r 6 true)))
      ∧ (v.getLsbD 4 = true → s.pkg.rb r 5 = false → s.pkg.rb (mcCe i e) 0 = true → ∃ q, exec (.pprGo i v) s = .next (s.withPkg q)
        ∧ (q.mc i).due = (if (s.pkg.mc i).due.any (fun x => x.1 == e) then (s.pkg.mc i).due else (s.pkg.mc i).due ++ [(e, s.pkg.now)])
        ∧ q = { p with mcs := q.mcs }))
    ∧ (∀ (dt e t : Nat) (rest : List (Nat × Nat)), let p := s.pkg.elapse dt
      (s.pkg.mc i).rep = none → (s.pkg.mc i).due = (e, t) :: rest →
      let ready := ((s.pkg.mc i).rq = [] ∧ (s.pkg.mc i).wq = [] ∧ (s.pkg.mc i).idleSince + 2000000 ≤ p.now) ∨ t + 1000000000000 ≤ p.now
      (ready → exec (.spprStart i dt) s = .next (s.withPkg ((p.updMc i (fun m => { m with rep := some e, due := rest })).wb (mcBase i + 0x28) 5 true)))
      ∧ (¬ ready → exec (.spprStart i dt) s = .next (s.withPkg p)))
    ∧ (∀ (e : Nat) (ok : Bool) (ues : List (Fin 128)), (s.pkg.mc i).rep = some e → e < 16 →
      let p := s.pkg.elapse 0
      (ues = [] → ∃ q, exec (.spprComplete i ok ues) s = .next (s.withPkg q) ∧ (q.mc i).rep = none ∧ (q.mc i).due = (s.pkg.mc i).due
        ∧ q.rb (mcCe i e) (if ok then 2 else 3) = true ∧ q.rb (mcBase i + 0x28) 5 = false
        ∧ q.rf ((Win.mc i).err + 0x20) 31 0 = (s.pkg.rf ((Win.mc i).err + 0x20) 31 0 + 1) % 2 ^ 32 ∧ q.mem = s.pkg.mem)
      ∧ (∀ j, ues = [j] → ∃ q, exec (.spprComplete i ok ues) s = .next (s.withPkg q) ∧ (q.mc i).rep = none
        ∧ Map.get flag0 q.dpoison (p.rowLine i (p.rf (mcCe i e) 37 10) j) = true))
    ∧ (let b := trwBase i
      let st := s.pkg.rf (b + 0x10) 51 6
      let en := min (s.pkg.rf (b + 0x18) 51 6) (s.pkg.memLimit / 64)
      ((s.pkg.mc i).trw = none → st < en → ∃ q t, exec (.trwStart i) s = .next (s.withPkg q) ∧ (q.mc i).trw = some t ∧ t.start = st ∧ t.stop = en
        ∧ t.pos = nextLine i st ∧ t.lines = 0 ∧ t.abort = false ∧ q.rb (b + 0x20) 0 = true ∧ s.pkg.DrsBut q [b + 0x20, b + 0x28]
        ∧ q = { s.pkg with drs := q.drs, mcs := q.mcs })
      ∧ ((s.pkg.mc i).trw = none → en ≤ st → s.pkg.rb (b + 0x38) 0 = false → s.pkg.rb (b + 8) 2 = false → ∃ q, exec (.trwStart i) s = .next (s.withPkg q)
        ∧ (q.mc i).trw = none ∧ (q.mc i).trwSeq = (s.pkg.mc i).trwSeq + 1 ∧ q.rb (b + 0x20) 1 = true ∧ q.rb (b + 0x20) 0 = false
        ∧ q = { s.pkg with drs := q.drs, mcs := q.mcs })
      ∧ (∀ t, (s.pkg.mc i).trw = some t →
        exec (.trwStart i) s = .next (s.withPkg (s.pkg.wb (b + 0x20) 3 true))
        ∧ exec (.trwAbort i) s = .next (s.withPkg (s.pkg.updMc i (fun m => { m with trw := some { t with abort := true } })))
        ∧ (∀ dt, let p := s.pkg.elapse dt
          let n := if p.cadNs / 1000000 = t.ms then t.inMs else 0
          t.abort = false → t.pos < t.stop → (s.pkg.mc i).trowelOut = false → (s.pkg.mc i).rq.length < 4 → p.rankBusy i t.pos = false →
          (t.rate = 0 ∨ (n + 1) * 64000 ≤ t.rate * 1048576) → ∃ q, exec (.trowelRead i dt) s = .next (s.withPkg q)
            ∧ (q.mc i).rq = (s.pkg.mc i).rq ++ [⟨t.pos, .trowel, true, false⟩] ∧ (∃ t', (q.mc i).trw = some t' ∧ t'.inMs = n + 1 ∧ t'.pos = t.pos ∧ t'.lines = t.lines)
            ∧ q = { p with mcs := q.mcs })
        ∧ (∀ r, (s.pkg.mc i).rq = [r] → r.purpose = .trowel →
          ((s.pkg.dramLine r.line).2 = false → mcOf r.line = i → Map.get sym0 s.pkg.dsym r.line = [] → ∃ q, exec (.trowelLineResult i []) s = .next (s.withPkg q)
            ∧ (q.mc i).trw = some { t with lines := t.lines + 1, pos := nextLine i (r.line + 1) } ∧ (q.mc i).rq = [] ∧ q.mem = s.pkg.mem ∧ q.threads = s.pkg.threads)
          ∧ (∀ a c : SymErr, a.x ≠ 0#8 → c.x ≠ 0#8 → symDev a.sym.val ≠ symDev c.sym.val → ∃ q t', exec (.trowelLineResult i [a, c]) s = .next (s.withPkg q)
            ∧ (q.mc i).trw = some t' ∧ t'.ue = t.ue + 1 ∧ t'.lines = t.lines + 1 ∧ t'.ueAddr = (if t.ueAddr.length < 8 then t.ueAddr ++ [r.line] else t.ueAddr)))
        ∧ (((t.abort = true ∨ t.stop ≤ t.pos) ∧ (s.pkg.mc i).trowelOut = false) → ∃ q, exec (.trowelPassEnd i) s = .next (s.withPkg q)
          ∧ (q.mc i).trw = none ∧ (q.mc i).trwSeq = (s.pkg.mc i).trwSeq + 1 ∧ q.rb (b + 0x20) 1 = true ∧ q.rb (b + 0x20) 0 = false)
        ∧ (¬ ((t.abort = true ∨ t.stop ≤ t.pos) ∧ (s.pkg.mc i).trowelOut = false) → exec (.trowelPassEnd i) s = .next s)))

/-- PPS_EDGE, time-of-day frames, loss of the pulse, the end of a slew and of TODVALID (R349, R350, R351, R352, R353, R354, R359, 13_cadence_time). -/
def Obligations.PulseAndTimeOfDayDiscipline : Prop :=
  ∀ (s : State) (dt : Nat), s.pkg.scLive = true →
    let p := s.pkg.elapse dt
    let only (c : Instr) : Prop := exec c s = .next (s.withPkg p)
    (∀ rising : Bool,
      let t := p.stamp
      let r := (t + 500000000) / 1000000000
      let e : Int := (t : Int) - (r * 1000000000 : Nat)
      (rising = s.pkg.rb cadCfg 1 → only (.ppsEdge dt rising))
      ∧ (rising ≠ s.pkg.rb cadCfg 1 →
        (∀ x, s.pkg.cad.lastEdge = some x → p.now < x + 500000000000 → exec (.ppsEdge dt rising) s = .next (s.withPkg (p.sat cadCnt 15 0)))
        ∧ ((∀ x, s.pkg.cad.lastEdge = some x → x + 500000000000 ≤ p.now) →
          (s.pkg.cadState = 2 → 1000 * s.pkg.rf cadCfg 15 8 < e.natAbs → exec (.ppsEdge dt rising) s = .next (s.withPkg (p.sat cadCnt 31 16)))
          ∧ (s.pkg.cadState = 2 → e.natAbs ≤ 1000 * s.pkg.rf cadCfg 15 8 → s.pkg.rb cadCfg 0 = true → s.pkg.cad.frames = [] →
            ∃ q, exec (.ppsEdge dt rising) s = .next (s.withPkg q) ∧ q.cadState = 2 ∧ q.cad.lastEdge = some p.now ∧ q.cad.t = p.cad.t
              ∧ q.rf (cadBase + 0x10) 31 0 = sat32 e
              ∧ q.adjF = max (-2147483648) (min 2147483647 (s.pkg.adjF - (e * nsUnit).tdiv 6400000000))
              ∧ q.adj = max (-adjLim) (min adjLim (q.adjF - (e * nsUnit).tdiv 800000000))
              ∧ s.pkg.DrsBut q [cadBase + 0x10, cadBase + 0x28] ∧ q = { p with drs := q.drs, cad := q.cad })
          ∧ (∀ f : List Byte, s.pkg.cadState = 0 → s.pkg.rb cadCfg 0 = true → p.claim.2 = some f → frameNat f 2 6 * 1000000000 ≤ t →
            ∃ q, exec (.ppsEdge dt rising) s = .next (s.withPkg q) ∧ q.cadState = 1 ∧ q.cad.lastEdge = some p.now
              ∧ (frameNat f 2 6 * 1000000000 < t → q.rb cadStat 2 = true ∧ q.cad.slew = (t - frameNat f 2 6 * 1000000000) * nsUnit)))))
    ∧ (∀ b : List Byte, frameByte b 0 = 0xA7 → b.length = 16 →
      (frameOk b = true → exec (.todFrame dt b) s = .next (s.withPkg { p with cad := { p.cad with frames := s.pkg.cad.frames ++ [(p.now, b)] } }))
      ∧ (frameOk b = false → exec (.todFrame dt b) s = .next (s.withPkg (p.sat cadCnt 47 32))))
    ∧ (∀ b : List Byte,
      (b.any (fun x => x == 0xA7#8) = true → exec (.todGapTimeout dt b) s = .next (s.withPkg (p.sat cadCnt 47 32))
        ∧ exec (.todFramingError dt b) s = .next (s.withPkg (p.sat cadCnt 47 32)))
      ∧ (b.any (fun x => x == 0xA7#8) = false → only (.todGapTimeout dt b) ∧ only (.todFramingError dt b)))
    ∧ (∃ q, exec (.todFrameUnclaimed dt) s = .next (s.withPkg q)
      ∧ q.cad.frames = s.pkg.cad.frames.filter (fun f => decide (p.now ≤ f.1 + 1000000000000))
      ∧ q.rf cadCnt 47 32 = min (s.pkg.rf cadCnt 47 32 + (s.pkg.cad.frames.length - q.cad.frames.length)) 65535
      ∧ q = { p with drs := q.drs, cad := q.cad })
    ∧ (∀ x, s.pkg.cad.lastEdge = some x →
      (p.now < x + 1500000000000 → only (.ppsLossTimeout dt))
      ∧ (x + 1500000000000 ≤ p.now →
        (s.pkg.cadState = 2 → ∃ q, exec (.ppsLossTimeout dt) s = .next (s.withPkg q) ∧ q.cadState = 3 ∧ q.cad.holdAt = some p.now ∧ q.adj = clampAdj s.pkg.adjF)
        ∧ (s.pkg.cadState = 1 → s.pkg.cad.locked = false → ∃ q, exec (.ppsLossTimeout dt) s = .next (s.withPkg q) ∧ q.cadState = 0)
        ∧ (s.pkg.cadState = 0 ∨ s.pkg.cadState = 3 → only (.ppsLossTimeout dt))))
    ∧ (s.pkg.rb cadStat 2 = true → p.cad.slew = 0 → exec (.slewComplete dt) s = .next (s.withPkg (p.wb cadStat 2 false)))
    ∧ (p.cad.slew ≠ 0 → only (.slewComplete dt))
    ∧ (∀ x, s.pkg.cad.assoc = some x →
      (x + 2000000000000 < p.now → exec (.todvalidExpire dt) s = .next (s.withPkg (p.wb cadStat 3 false)))
      ∧ (p.now ≤ x + 2000000000000 → only (.todvalidExpire dt)))

/-- HOLDOVER_DAY, the schedule table, CAD_CFG, CAD_TIME_NS, and the mesh's flits, retrains and samples (R211, R214, R217, R226, R234, R353, R356, R357, R359, R360, 08_mortar_mesh, 13_cadence_time). -/
def Obligations.ScheduleCadenceRegistersMeshAndStatistics : Prop :=
  ∀ (s : State), s.pkg.live = true → s.pkg.scLive = true → s.pkg.shm.on = false → s.pkg.shm.acts = [] → s.pkg.replaying = false →
    (∀ dt t, let p := s.pkg.elapse dt
      s.pkg.cad.holdAt = some t → s.pkg.cadState = 3 →
      (s.pkg.cad.day = false → t + 86400 * 1000000000000 ≤ p.now → ∃ q, exec (.holdoverDay dt) s = .next (s.withPkg q) ∧ q.cad.day = true ∧ q.cadState = 3
        ∧ q.rf (Win.cad.err + 0x20) 31 0 = (s.pkg.rf (Win.cad.err + 0x20) 31 0 + 1) % 2 ^ 32)
      ∧ ((s.pkg.cad.day = true ∨ p.now < t + 86400 * 1000000000000) → exec (.holdoverDay dt) s = .next (s.withPkg p)))
    ∧ (∀ (i : Fin 256) (dt : Nat), let p := s.pkg.elapse dt
      let dw := s.pkg.rd (sched i 0)
      let nx := (s.pkg.rd (sched i 3)).toNat
      s.pkg.boot.ended = true → dw.getLsbD 0 = true →
      (p.rdtime.toNat < nx → exec (.scheduleFire dt i) s = .next (s.withPkg p))
      ∧ (nx ≤ p.rdtime.toNat → bits dw 4 2 ≤ 1 → ∃ q, exec (.scheduleFire dt i) s = .next (s.withPkg q) ∧ q.rb (sched i 0) 6 = true
        ∧ (bits dw 4 2 = 1 → q.pendv (bits dw 26 16) 35 = true)
        ∧ (dw.getLsbD 1 = false → q.rb (sched i 0) 0 = false)
        ∧ (dw.getLsbD 1 = true → let k := (p.rdtime.toNat - nx) / p.schedPer i
          q.rb (sched i 0) 0 = true ∧ q.rd (sched i 3) = BitVec.ofNat 64 (nx + (k + 1) * p.schedPer i) ∧ q.rf (sched i 0) 15 8 = min (bits dw 15 8 + k) 255)))
    ∧ (∀ (i : Fin 256) (v : Word), let dw := s.pkg.rd (sched i 0)
      (dw.getLsbD 0 = true → exec (.scheduleEntryWrite i 1 v) s = .next (s.withPkg (s.pkg.wb cadStat 5 true))
        ∧ exec (.scheduleEntryWrite i 2 v) s = .next (s.withPkg (s.pkg.wb cadStat 5 true)))
      ∧ (dw.getLsbD 0 = false → exec (.scheduleEntryWrite i 1 v) s = .next (s.withPkg (s.pkg.wr (sched i 1) v))
        ∧ exec (.scheduleEntryWrite i 2 v) s = .next (s.withPkg (s.pkg.wr (sched i 2) (if v.toNat < 1000 then 1000#64 else v)))
        ∧ (v.getLsbD 0 = true → ∃ q, exec (.scheduleEntryWrite i 0 v) s = .next (s.withPkg q) ∧ q.rb (sched i 0) 0 = true ∧ q.rb (sched i 0) 1 = v.getLsbD 1
          ∧ (v.getLsbD 1 = false → q.rd (sched i 3) = s.pkg.rd (sched i 1))
          ∧ s.pkg.DrsBut q [sched i 0, sched i 3] ∧ q = { s.pkg with drs := q.drs })))
    ∧ (∀ v : Word,
      (s.pkg.rb cadCfg 63 = true → exec (.cadCfgWrite v) s = .next s)
      ∧ (s.pkg.rb cadCfg 63 = false → ∃ q, exec (.cadCfgWrite v) s = .next (s.withPkg q) ∧ q.rb cadCfg 0 = v.getLsbD 0 ∧ q.rb cadCfg 1 = v.getLsbD 1
        ∧ q.rf cadCfg 15 8 = max 1 (bits v 15 8) ∧ q.rf cadCfg 19 16 = max 2 (bits v 19 16) ∧ q.rb cadCfg 63 = v.getLsbD 63
        ∧ q.cadState = if v.getLsbD 0 then s.pkg.cadState else 0))
    ∧ (∀ dt, let p := s.pkg.elapse dt
      ∃ q, exec (.cadTimeNsRead dt) s = .next (s.withPkg q) ∧ q.rf (cadBase + 0x20) 47 0 = p.cadSec % 2 ^ 48
        ∧ q.rf (cadBase + 0x18) 45 16 = p.cadNs % 1000000000 ∧ p.DrsBut q [cadBase + 0x18, cadBase + 0x20] ∧ q = { p with drs := q.drs })
    ∧ (∀ (stop : StopN) (inp : Fin 7) (f : FlitOp), 4 ≤ (inp : Nat) → (∀ x, x < 56 → s.pkg.buf (bufKey stop (x / 8) (x % 8)) = []) →
      let vn := meshVn f.msg
      let chk := Config.flitCheck f.hdr f.pay
      let out := routeOut stop f.dst
      let nx := routeNext stop out
      let k := bufKey stop inp vn
      let k2 := bufKey nx.1 nx.2 vn
      (out = 4 → ∃ q, exec (.meshFlitArrival stop inp f .none) s = .next (s.withPkg q) ∧ (∀ j, q.buf j = s.pkg.buf j) ∧ q = { s.pkg with noc := q.noc })
      ∧ (∀ e p0, (e = .none ∧ p0 = false ∨ e = .payUe ∧ p0 = true) → out ≠ 4 → (s.pkg.buf k2).length < vnDepth vn → s.pkg.retraining nx.1 nx.2 = false →
        ∃ q, exec (.meshFlitArrival stop inp f e) s = .next (s.withPkg q) ∧ q.buf k2 = s.pkg.buf k2 ++ [⟨f, chk, p0, false, s.pkg.noc.tick + 1⟩]
          ∧ (∀ j, j ≠ k2 → q.buf j = s.pkg.buf j) ∧ (e = .none → q = { s.pkg with noc := q.noc }))
      ∧ (out ≠ 4 → (vnDepth vn ≤ (s.pkg.buf k2).length ∨ s.pkg.retraining nx.1 nx.2 = true) → ∃ q, exec (.meshFlitArrival stop inp f .none) s = .next (s.withPkg q)
          ∧ q.buf k = [⟨f, chk, false, true, s.pkg.noc.tick⟩] ∧ (∀ j, j ≠ k → q.buf j = s.pkg.buf j))
      ∧ ∃ q, exec (.meshFlitArrival stop inp f .hdrUe) s = .next (s.withPkg q) ∧ q.boot.stop.isSome = true)
    ∧ (∀ (n : StopN) (e : Fin 2), s.pkg.rf (meshBrstat n e) 1 0 = 2 → ∃ q, exec (.bridgeRetrainComplete n e) s = .next (s.withPkg q)
      ∧ q.rf (meshBrstat n e) 1 0 = 1 ∧ q.noc.repairing = s.pkg.noc.repairing.filter (fun k => k / 256 != (n : Nat) * 2 + (e : Nat))
      ∧ q.noc.mapped = s.pkg.noc.mapped ++ s.pkg.noc.repairing.filter (fun k => k / 256 == (n : Nat) * 2 + (e : Nat)))
    ∧ (∀ (dt : Nat) (stop : StopN) (x : Fin 2), let p := s.pkg.elapse dt
      let b := meshBase stop + 0x1000 + 0x200 * x
      let l := Map.get st0 s.pkg.noc.live (2 * stop + x)
      statBlock stop x = true → s.pkg.rf (meshBase stop + 0x800) 1 0 = 1 → l.seen ≠ p.cadNs / 1000000 →
      ∃ q, exec (.statsSample dt) s = .next (s.withPkg q) ∧ q.rd (b + 8) = l.start ∧ q.rd (b + 0x10) = p.rdtime
        ∧ q.rd (b + 0x18) = BitVec.ofNat 64 l.rd ∧ q.rd (b + 0x20) = BitVec.ofNat 64 l.wr ∧ q.rd (b + 0x28) = BitVec.ofNat 64 l.reqs
        ∧ Map.get st0 q.noc.live (2 * stop + x) = { start := p.rdtime, seen := p.cadNs / 1000000 } ∧ q.threads = s.pkg.threads ∧ q.mem = s.pkg.mem)

/-- Power up and loss, PWRGOOD, REFCLK, WARM_RST_N, SC_RESET and the end of a stop sequence (R421, R422, R423, R473, R476, R477, R478, R479, 16_boot_configuration, 20_signals_package_electrical). -/
def Obligations.PowerAndResetsLeaveWhatTheyKeep : Prop :=
  (∀ s : State,
    (s.pkg.pins.vaux = false → ∃ q, exec .vauxPowerUp s = .next (s.withPkg q)
      ∧ q = { ({} : Pkg) with now := s.pkg.now, fresh := s.pkg.fresh, pins := { vaux := true }, drs := q.drs }
      ∧ q.rd (scBase + 0x10) = BitVec.ofNat 64 s.nv.uid ∧ q.rd (scBase + 0x18) = BitVec.ofNat 64 (s.nv.uid / 2 ^ 64)
      ∧ q.rf scBase 59 56 = s.nv.stepping ∧ q.rf mgtBase 59 56 = s.nv.stepping ∧ q.rf (scBase + 0x228) 31 0 = s.nv.odofuse.toNat
      ∧ (∀ o, o ∉ [scBase, scBase + 0x10, scBase + 0x18, scBase + 0x228, mgtBase] → q.rd o = regReset o))
    ∧ (s.pkg.pins.vaux = true → exec .vauxPowerUp s = .next s)
    ∧ exec .vauxLoss s = .next (s.withPkg { now := s.pkg.now, fresh := s.pkg.fresh })
    ∧ (∀ a : BitVec 2,
      (s.pkg.pins.vaux = true → s.pkg.pins.pwrgood = false → ∃ q, exec (.pwrgoodRise a) s = .next (s.withPkg q)
        ∧ q.pins = { s.pkg.pins with pwrgood := true, refclk := true, thermtripN := true } ∧ q.cad = {} ∧ q.boot = { s.pkg.boot with cold := true }
        ∧ q.mgt = { s.pkg.mgt with addr := a } ∧ q = { s.pkg with pins := q.pins, mgt := q.mgt, boot := q.boot, cad := q.cad, odo := q.odo })
      ∧ ((s.pkg.pins.vaux = false ∨ s.pkg.pins.pwrgood = true) → exec (.pwrgoodRise a) s = .next s))
    ∧ (s.pkg.pins.pwrgood = true → ∃ q, exec .pwrgoodFall s = .next (s.withPkg q) ∧ q.pins.pwrgood = false ∧ q.pins.vaux = s.pkg.pins.vaux
      ∧ (∀ h, q.thr h = {}) ∧ (∀ a, q.memByte a = byte0 a) ∧ q.boot = {} ∧ q.cad = {} ∧ q.odo = { s.pkg.odo with bad := [] }
      ∧ (∀ o, odoBase + 0x1000 ≤ o → o < odoBase + 0x2000 → s.pkg.rd o ≠ regReset o → q.rd o = s.pkg.rd o)
      ∧ (∀ o, (o < odoBase + 0x1000 ∨ odoBase + 0x2000 ≤ o) → o ∉ [scBase, mgtBase, scBase + 0x10, scBase + 0x18, scBase + 0x228, mgtBase + 0x208, odoBase] → q.rd o = regReset o))
    ∧ (s.pkg.pins.pwrgood = false → exec .pwrgoodFall s = .next s)
    ∧ (s.pkg.pins.vaux = true → s.pkg.pins.pwrgood = true → s.pkg.boot.stop = none → exec .refclkLoss s = .next (s.withPkg { s.pkg with
        boot := { s.pkg.boot with stop := some ⟨5, s.pkg.now⟩ }, pins := { s.pkg.pins with refclk := false, fsOut := true, alive := false } }))
    ∧ (∀ r : Bool, s.pkg.pins.vaux = true → s.pkg.pins.pwrgood = true →
      let pins := { s.pkg.pins with warmRstN := false, refclk := r || s.pkg.pins.refclk }
      let down (q : Pkg) : Prop := q.boot = { s.pkg.boot with stop := some ⟨1, s.pkg.now⟩ } ∧ q.pins = { pins with fsOut := true, alive := false }
        ∧ q.rd (scBase + 0x208) = 1#64 ∧ s.pkg.DrsBut q [scBase + 0x208] ∧ q = { s.pkg with drs := q.drs, boot := q.boot, pins := q.pins }
      (s.pkg.boot.stop = none → ∃ q, exec (.warmRstN r) s = .next (s.withPkg q) ∧ down q)
      ∧ (∀ t, s.pkg.boot.stop = some ⟨5, t⟩ → pins.refclk = true → ∃ q, exec (.warmRstN r) s = .next (s.withPkg q) ∧ down q)
      ∧ (∀ x, s.pkg.boot.stop = some x → x.cause ≠ 5 → exec (.warmRstN r) s = .next (s.withPkg { s.pkg with pins := pins })))
    ∧ exec .warmRstNRelease s = .next (s.withPkg { s.pkg with pins := { s.pkg.pins with warmRstN := true } }))
  ∧ (∀ (s : State) (v : Word), s.pkg.live = true →
    (v.getLsbD 0 = true → bits v 15 8 = 0x5A → ∃ q, exec (.scResetWrite v) s = .next (s.withPkg q) ∧ q.boot.stop = some ⟨2, s.pkg.now⟩
      ∧ q.rd (scBase + 0x208) = 2#64 ∧ s.pkg.DrsBut q [scBase + 0x208] ∧ q.pins.fsOut = true ∧ q.pins.alive = false)
    ∧ (¬ (v.getLsbD 0 = true ∧ bits v 15 8 = 0x5A) → exec (.scResetWrite v) s = .next s))
  ∧ (∀ (s : State) (dt : Nat) (x : Stop), s.pkg.scLive = true → s.pkg.boot.stop = some x → 1 ≤ x.cause → x.cause ≤ 4 →
    (s.pkg.mcs.any (fun e => e.2.rep.isSome) = true → exec (.stopSequenceEnd dt) s = .next (s.withPkg (s.pkg.elapse dt)))
    ∧ (s.pkg.mcs.any (fun e => e.2.rep.isSome) = false → (x.cause = 4 → s.pkg.rf bootstat 55 48 = 0) →
      ∃ q, exec (.stopSequenceEnd dt) s = .next (s.withPkg q) ∧ q.phase = 1 ∧ q.boot.stop = none ∧ (∀ h, q.thr h = {})
        ∧ q.mem = s.pkg.mem ∧ q.pins = { s.pkg.pins with fsOut := true, alive := false }
        ∧ (let o := if x.cause = 4 then 0x48 else 0x44
           q.liveGet o 4 = min (s.pkg.liveGet o 4 + 1) (2 ^ 32 - 1))))

/-- BOOT_AUTH to BOOT_RELEASE, MEMINIT_COMPLETE and MACHINE_CHECK_PENDING: each phase completes and what it leaves (R414, R415, R416, R417, R418, R419, R420, R435, R469, R238, 16_boot_configuration). -/
def Obligations.BootPhasesFollowOneAnother : Prop :=
  ∀ (s : State) (dt : Nat), s.pkg.live = true → s.pkg.scLive = true →
    let p := s.pkg.elapse dt
    let b := s.pkg.boot.bci
    (∀ ao bo : Bool, s.pkg.pins.warmRstN = true → (s.pkg.phase = 0 ∨ s.pkg.phase = 1) →
      let step := s.pkg.rf scBase 59 56
      let x := s.nv.copy 0
      let y := s.nv.copy 0x10000
      let av := ao && bciValid x s.nv step
      let bv := bo && bciValid y s.nv step
      let c := if bv && (!av || decide (bciSeq x < bciSeq y)) then y else x
      let auth := s.nv.keyHash ≠ none ∧ (av = true ∨ bv = true)
      (auth → ∃ q, exec (.bootAuth dt ao bo) s = .next (s.withPkg q) ∧ q.phase = 2
        ∧ q.boot.bci = c.take (bciLen c) ∧ q.boot.compat = (bciPolicy (c.take (bciLen c)) == 1) ∧ q.threads = s.pkg.threads ∧ q.mem = s.pkg.mem)
      ∧ (¬ auth → b = [] → (∀ i, i < 256 → s.pkg.rb (sched i 0) 0 = false) → ∃ q, exec (.bootAuth dt ao bo) s = .next (s.withPkg q) ∧ q.phase = 15
        ∧ q.rf bootstat 7 4 = (if s.nv.keyHash = none then 2 else 1) ∧ q.boot.ended = true ∧ q.pins.fsOut = true ∧ q.pins.alive = false
        ∧ q.threads = s.pkg.threads ∧ q.mem = s.pkg.mem))
    ∧ (s.pkg.phase = 2 → ∃ q, exec (.bootMesh dt true) s = .next (s.withPkg q) ∧ q.phase = 3 ∧ q.odo.part = some (bciOdo b) ∧ q.boot = s.pkg.boot ∧ q.mem = s.pkg.mem)
    ∧ (∀ pop : List ChanPop, s.pkg.phase = 3 →
      let c0 := pop.getD 0 chan0
      let speed := bciF b 0x60 2
      (∀ i, i < 16 → chanFault (pop.getD i chan0) c0 speed (bciExpect b) = none) → ∃ q, exec (.bootMemtrain dt pop) s = .next (s.withPkg q)
        ∧ q.phase = 4 ∧ q.boot.capacity = 16 * chanGiB c0 * 2 ^ 30 ∧ q.boot.t0 = p.now
        ∧ (∀ i, i < 16 → (q.rf (mcBase i + 8) 1 0 = c0.dimms ∧ 2 ^ q.rf (mcBase i + 8) 3 2 = c0.ranks))
        ∧ (∀ r x, r < 4 → x < 8 → q.perstN r x = q.portUp r x) ∧ q.threads = s.pkg.threads ∧ q.mem = s.pkg.mem)
    ∧ (s.pkg.phase = 4 →
      let settled := (List.range 12).all (fun i => !s.pkg.roleLive (s.pkg.lkTrains i) || [5, 7, 9].contains (s.pkg.lkState i))
      (settled = false → p.now < s.pkg.boot.t0 + 100000000000 → exec (.bootLinks dt) s = .next (s.withPkg p))
      ∧ ((settled = true ∨ s.pkg.boot.t0 + 100000000000 ≤ p.now) → ∃ q, exec (.bootLinks dt) s = .next (s.withPkg q)
        ∧ (s.pkg.fabMode = 0 → q = p.setPhase 6)
        ∧ (s.pkg.fabMode ≠ 0 → q.phase = 5 ∧ q.pins = { s.pkg.pins with fsOut := false, alive := true } ∧ q.boot.t0 = p.now)))
    ∧ (s.pkg.phase = 6 → s.pkg.boot.loaded = false →
      let n := bciFwLen b
      let img := s.nv.read (bciFwFlash b) n
      bciFwLoad b + n ≤ s.pkg.boot.capacity → sha384 img = (b.drop 0x1A8).take 48 → bciFwLoad b % 64 = 0 →
      ∃ q, exec (.bootFwload dt none) s = .next (s.withPkg q) ∧ q.boot = { s.pkg.boot with loaded := true }
        ∧ (∀ j, j < n → q.memByte (bciFwLoad b + j) = img.getD j 0#8) ∧ q.threads = s.pkg.threads ∧ q.drs = p.drs)
    ∧ (s.pkg.phase = 6 → s.pkg.boot.loaded = true → s.pkg.fabMode = 0 → (∀ i, i < 256 → s.pkg.rb (sched i 0) 0 = false) →
      (∀ i, i < 32 → bciSched b i 0 % 2 = 0) →
      let a := bciFwLoad b - 0x100000
      let info := State.bib { s with pkg := (p.bciRw b).setPhase 7 }
      a % 64 = 0 → ∃ q, exec (.bootRelease dt) s = .next (s.withPkg q) ∧ q.phase = 7 ∧ q.boot.ended = true
        ∧ (q.thr 0).st = .run ∧ (q.thr 0).pc = BitVec.ofNat 64 (bciFwEntry b) ∧ (q.thr 0).rg 1 = BitVec.ofNat 64 a ∧ (q.thr 0).rg 2 = s.pkg.rd (scBase + 0x208)
        ∧ (∀ h, h ≠ 0 → q.thr h = s.pkg.thr h) ∧ (∀ j, j < info.length → q.memByte (a + j) = info.getD j 0#8))
    ∧ (s.pkg.boot.capacity ≠ 0 → exec (.meminitComplete dt) s = .next (s.withPkg ((p.wb (scBase + 0x218) 0 true).wf (scBase + 0x218) 51 12 (s.pkg.boot.capacity / 4096))))
    ∧ (∀ h f rest, s.pkg.boot.mcq = (h, f) :: rest → ∃ q, exec (.machineCheckPending dt) s = .next (s.withPkg q) ∧ q.boot.mcq = rest
      ∧ q.pendv h 32 = true ∧ (s.pkg.pendv h 32 = false → (q.thr h).fin32 = BitVec.ofNat 64 f))

/-- The Odometer's second, hour, records and codes; register writes, the management port's transfers and DBG_ACCESS (R8, R439, R441, R442, R443, R446, R465, 17_error_records_odometer, 18_management_power_thermal, 19_shimmy_debug). -/
def Obligations.OdometerAndRegisterPortsComplete : Prop :=
  ∀ (s : State), s.pkg.scLive = true →
    (∀ dt, let p := s.pkg.elapse dt
      s.pkg.odo.live = true → s.pkg.odo.sec < p.now / 1000000000000 → ∃ q n, exec (.odometerSecond dt) s = .next { s with pkg := q, nv := n }
        ∧ q.liveGet 0x30 8 = min (s.pkg.liveGet 0x30 8 + 1) (2 ^ 64 - 1) ∧ q.odo.sec = p.now / 1000000000000
        ∧ n = { s.nv with odofuse := n.odofuse } ∧ q.mem = s.pkg.mem ∧ q.threads = s.pkg.threads)
    ∧ (∀ dt, let p := s.pkg.elapse dt
      s.pkg.odo.writing = none → s.pkg.odo.part.isSome = true → s.pkg.rb odoBase 3 = false →
      (s.pkg.cadState ≠ 2 → s.pkg.odo.hourAt + 3600 * 1000000000000 ≤ p.now → ∃ q, exec (.odometerHourly dt) s = .next (s.withPkg q)
        ∧ q.odo.writing = some 0 ∧ q.rb odoBase 0 = true ∧ q.odo.snap.length = 512)
      ∧ (s.pkg.odo.lastUnsched = none → ∃ q, exec .odoCmdSnap s = .next (s.withPkg q) ∧ q.odo.writing = some 1 ∧ q.rb odoBase 0 = true
        ∧ q.odo.snap.length = 512 ∧ q.odo.lastUnsched = some s.pkg.now))
    ∧ (∀ dt w part k, s.pkg.odo.writing = some w → s.pkg.odo.part = some part → s.pkg.odo.next = some k → s.pkg.odo.again = none →
      ∃ q n, exec (.odometerWriteComplete dt true) s = .next { s with pkg := q, nv := n } ∧ q.odo.writing = none ∧ q.odo.sector = some k
        ∧ q.odo.seq = s.pkg.odo.seq + 1 ∧ q.rb odoBase 0 = false ∧ q.rd (odoBase + 8) = BitVec.ofNat 64 (s.pkg.odo.seq + 1)
        ∧ n = s.nv.program (part + 4096 * k) (odoBytes s.pkg.odo.snap (s.pkg.odo.seq + 1)))
    ∧ (∀ v : Word, let p := s.pkg.elapse 0
      (bits v 7 0 < 0x80 → exec (.odoEvcodeWrite v) s = .next (s.withPkg (p.wb odoBase 4 true)))
      ∧ (0x80 ≤ bits v 7 0 → ∃ q, exec (.odoEvcodeWrite v) s = .next (s.withPkg q) ∧ q.liveGet 0x340 4 = (s.pkg.liveGet 0x340 4 + 1) % 2 ^ 32
        ∧ q = { p with drs := q.drs }))
    ∧ (s.pkg.live = true →
      (∀ off v, off % 8 = 0 → regAt off = none → exec (.registerWrite off v) s = .next s)
      ∧ (∀ off v c o r, off % 8 = 0 → regAt off = some (.core c, o, r) → s.pkg.proxied (.core c) o = false → (o < 0x100 ∨ 0x140 ≤ o) → hasWindow (.core c) o = false →
        exec (.registerWrite off v) s = .next (s.withPkg (s.pkg.wr off (regWriteBits r.flds false (s.pkg.rd off) v)))))
    ∧ (let p := s.pkg.elapse 0
      (∀ (o : BitVec 16) (l : List Byte), l.length = 8 → o.toNat % 8 = 0 → (regAt (mgtBase + o.toNat)).isSome = true → portBuf o.toNat = false →
        exec (.mgtWriteTransfer o l false) s = .next (s.withPkg (({ p with mgt := { p.mgt with low := none } }).drsWrite false (mgtBase + o.toNat) (BitVec.ofNat 64 (leNat l)))))
      ∧ (∀ (o : BitVec 16), o.toNat % 8 = 0 → ∃ q, exec (.mgtReadTransfer o 8) s = .next (s.withPkg q)
        ∧ q.reply = .bytes (natLe 8 (p.drsRead (mgtBase + o.toNat)).2.toNat)))
    ∧ (∀ (v : BitVec 128) (a : Cpl), s.pkg.tapOn = true →
      (s.pkg.jtagOpen = false → exec (.dbgAccess v a) s = .next (s.withPkg ((s.pkg.tap .dbgAccess).answerBytes (natLe 16 0))))
      ∧ (let pa := v.toNat / 2 ^ 6 % 2 ^ 58
         let n := 2 ^ (v.toNat / 4 % 4)
         s.pkg.jtagOpen = true → v.toNat % 4 = 0 → region pa = 3 → drsErr (pa - drsLo) n false = none → (pa - drsLo < shmBase ∨ shmBase + 0x1000000 ≤ pa - drsLo) →
         ∃ q, exec (.dbgAccess v a) s = .next (s.withPkg q) ∧ q.reply = .bytes (natLe 16 s.pkg.jtag.dbg.toNat)
          ∧ q.jtag = { s.pkg.jtag with ir := .dbgAccess, dbg := BitVec.ofNat 128 ((s.pkg.drsLoad (pa - drsLo) n).2 * 2 ^ 64 + 16) }
          ∧ q.mem = s.pkg.mem ∧ q.threads = s.pkg.threads))

/-- MBX_GO and the mailbox commands of the system controller: what each answers and changes (R413, R425, R426, R449, R450, R483, 16_boot_configuration, 18_management_power_thermal). -/
def Obligations.MailboxCommandsAnswer : Prop :=
  ∀ (s : State) (dt : Nat) (port : Bool), s.pkg.scLive = true →
    let p := s.pkg.elapse dt
    let r := mbxBase port + 0x10
    let ends (q : Pkg) (result : Nat) (resp : List Byte) : Prop := q.rb r 0 = false ∧ q.rb r 1 = true ∧ q.rf r 15 8 = result
      ∧ q.rf r 28 16 = resp.length ∧ q.bufGet (mbxData port) resp.length = resp ∧ q.mgt.q = [] ∧ q.threads = s.pkg.threads
    let takes (op : Nat) : Prop := s.pkg.mgt.q = [port] ∧ s.pkg.mgt.fwdAt = none ∧ s.pkg.mbxOp port = op ∧ mbxRefusal port op = none
    let arg := s.pkg.mbxArg port
    let n := s.pkg.mbxLen port
    let data := s.pkg.bufGet (mbxData port)
    (∀ v : Word,
      (s.pkg.rb r 0 = true → exec (.mbxGo port v) s = .next (s.withPkg ((s.pkg.elapse 0).wb r 2 true)))
      ∧ (s.pkg.rb r 0 = false → s.pkg.mgt.q = [] → mbxRefusal port (bits v 7 0) = none → ∃ q, exec (.mbxGo port v) s = .next (s.withPkg q)
        ∧ q.mgt = { s.pkg.mgt with q := [port] } ∧ q.rb r 0 = true ∧ q.mbxOp port = bits v 7 0 ∧ q.rf (mbxBase port) 20 8 = bits v 20 8
        ∧ q = { s.pkg.elapse 0 with drs := q.drs, mgt := q.mgt }))
    ∧ (takes 0x01 → ∃ q, exec (.getInfo dt) s = .next (s.withPkg q)
      ∧ ends q 0 ([scBase, scBase + 0x10, scBase + 0x18, scBase + 0x200, scBase + 0x208].flatMap (fun o => natLe 8 (s.pkg.rd o).toNat)))
    ∧ (∀ a, takes 0x02 → n = 8 → region arg = 3 → drsErr (arg - drsLo) n false = none → ∃ q, exec (.readReg dt a) s = .next (s.withPkg q)
      ∧ ends q 0 (natLe 8 (p.drsLoad (arg - drsLo) n).2))
    ∧ (∀ a, takes 0x03 → n = 8 → region arg = 3 → (regAt ((arg - drsLo) / 8 * 8)).isSome = true →
      (portWrites (arg - drsLo) = false → ∃ q, exec (.writeReg dt a) s = .next (s.withPkg q) ∧ q = p.mbxDone port 3 [] ∧ ends q 3 [])
      ∧ (portWrites (arg - drsLo) = true → drsErr (arg - drsLo) n true = none → mgtBuf (arg - drsLo) = false →
        exec (.writeReg dt a) s = .next (s.withPkg ((p.drsWrite false ((arg - drsLo) / 8 * 8) (BitVec.ofNat 64 (leNat (data 8)))).mbxDone port 0 []))))
    ∧ (takes 0x04 → arg = 1 → ∃ q, exec (.readOdo dt) s = .next (s.withPkg q)
      ∧ ends q 0 ((List.range 512).flatMap (fun i => natLe 8 (s.pkg.rd (odoLive (8 * i))).toNat)))
    ∧ (takes 0x05 → s.pkg.odo.writing = none → s.pkg.odo.part.isSome = true → s.pkg.rb odoBase 3 = false → s.pkg.odo.lastUnsched = none →
      ∃ q, exec (.odoSnap dt) s = .next (s.withPkg q) ∧ ends q 0 [] ∧ q.odo.writing = some 1)
    ∧ (takes 0x06 → s.pkg.odo.writing = none → 0 < n → arg + n ≤ s.nv.size → ∃ q, exec (.flashRead dt true) s = .next (s.withPkg q) ∧ ends q 0 (s.nv.read arg n))
    ∧ (takes 0x07 → s.pkg.odo.writing = none → n = 4096 → arg % 4096 = 0 → arg + 4096 ≤ s.nv.size → s.pkg.flashKept arg = false → s.pkg.flashKept (arg + 4095) = false →
      ∃ q, exec (.flashWrite dt true) s = .next { s with pkg := q, nv := s.nv.program arg (data 4096) } ∧ ends q 0 [])
    ∧ (takes 0x08 → (s.nv.keyHash = none → n = 48 → ∃ q, exec (.provision dt) s = .next { s with pkg := q, nv := { s.nv with keyHash := some (data 48) } } ∧ ends q 0 [])
      ∧ (s.nv.keyHash ≠ none → ∃ q, exec (.provision dt) s = .next (s.withPkg q) ∧ ends q 3 []))
    ∧ (takes 0x09 → s.pkg.dbgFails < 3 → ∃ q l, exec (.dbgChallenge dt) s = .next (s.withPkg q) ∧ q.jtag.nonce = some l ∧ l.length = 32 ∧ ends q 0 l)
    ∧ (∀ x, takes 0x0A → s.pkg.jtag.nonce = some x → s.pkg.dbgFails < 3 → n = 192 →
      (s.pkg.debugOk x (some (data 192)) = true → ∃ q, exec (.dbgResponse dt) s = .next (s.withPkg q) ∧ ends q 0 [] ∧ q.rb dbgstat 0 = true ∧ q.jtag.nonce = none)
      ∧ (s.pkg.debugOk x (some (data 192)) = false → ∃ q, exec (.dbgResponse dt) s = .next (s.withPkg q) ∧ ends q 3 [] ∧ q.dbgFails = s.pkg.dbgFails + 1
        ∧ q.rb dbgstat 0 = s.pkg.rb dbgstat 0 ∧ q.jtag.nonce = none))
    ∧ (takes 0x0B → (arg = 0x5A → ∃ q, exec (.mbxReset dt) s = .next (s.withPkg q) ∧ ends q 0 [] ∧ q.mgt.resetAt = some p.now)
      ∧ (arg ≠ 0x5A → ∃ q, exec (.mbxReset dt) s = .next (s.withPkg q) ∧ ends q 2 []))
    ∧ (takes 0x0C → arg < 2 ^ 15 → ∃ q, exec (.setLead dt) s = .next (s.withPkg q) ∧ ends q 0 [] ∧ q.rf (fabBase + 0x120) 14 0 = arg)
    ∧ (∀ t, s.pkg.mgt.resetAt = some t →
      (p.now < t + 1000000000 → exec (.resetDelayExpiry dt) s = .next (s.withPkg p))
      ∧ (t + 1000000000 ≤ p.now → s.pkg.boot.stop = none → ∃ q, exec (.resetDelayExpiry dt) s = .next (s.withPkg q) ∧ q.boot.stop = some ⟨3, p.now⟩ ∧ q.mgt.resetAt = none
        ∧ q.rd (scBase + 0x208) = 3#64 ∧ q.threads = s.pkg.threads))

/-- The I3C common commands, IBI_REPEAT, MGT_BUS_TIMEOUT and forwarded commands (R445, R447, R449, R451, R479, 18_management_power_thermal, 20_signals_package_electrical). -/
def Obligations.ManagementBusAndForwardedCommands : Prop :=
  ∀ (s : State) (dt : Nat), s.pkg.scLive = true →
    let z := s.pkg.elapse 0
    let p := s.pkg.elapse dt
    let mgt (f : Mgt → Mgt) : Pkg := { z with mgt := f s.pkg.mgt }
    let tells (c : Instr) (l : List Byte) : Prop :=
      (s.pkg.mgt.dyn ≠ none → exec c s = .next (s.withPkg { z with reply := .bytes l })) ∧ (s.pkg.mgt.dyn = none → exec c s = .next (s.withPkg z))
    let tells2 (c : Instr) : Prop :=
      (s.pkg.mgt.dyn ≠ none → ∃ q l, exec c s = .next (s.withPkg q) ∧ q.reply = .bytes l ∧ l.length = 2 ∧ q = { z with reply := q.reply, fresh := q.fresh })
      ∧ (s.pkg.mgt.dyn = none → exec c s = .next (s.withPkg z))
    (∀ a st : BitVec 7, exec (.entdaa a) s = .next (s.withPkg (mgt (fun m => { m with dyn := some a })))
      ∧ exec (.setdasa st a) s = .next (s.withPkg (if st.toNat = 0x58 + s.pkg.mgt.addr.toNat then mgt (fun m => { m with dyn := some a }) else z)))
    ∧ exec .rstdaa s = .next (s.withPkg (mgt (fun m => { m with dyn := none })))
    ∧ exec .enec s = .next (s.withPkg (mgt (fun m => { m with ibi := true }))) ∧ exec .disec s = .next (s.withPkg (mgt (fun m => { m with ibi := false })))
    ∧ tells .getpid s.pkg.pidBytes ∧ tells .getbcr [0x26#8] ∧ tells .getdcr [0#8] ∧ tells2 .getstatus ∧ tells2 .getmxds
    ∧ (let due := s.pkg.alerting = true ∧ s.pkg.mgt.dyn ≠ none ∧ s.pkg.mgt.ibi = true ∧ ∀ t, s.pkg.mgt.ibiAt = some t → t + 10000000000 ≤ p.now
       (due → exec (.ibiRepeat dt) s = .next (s.withPkg { p with reply := .bytes [1#8], mgt := { s.pkg.mgt with ibiAt := some p.now } }))
       ∧ (¬ due → exec (.ibiRepeat dt) s = .next (s.withPkg p)))
    ∧ exec (.mgtBusTimeout dt) s = .next (s.withPkg p)
    ∧ (let r := mbxBase true + 0x10
       let req := mgtBase + 0x20000
       let ends (q : Pkg) (result len : Nat) : Prop := q.rb r 0 = false ∧ q.rb r 1 = true ∧ q.rf r 15 8 = result ∧ q.rf r 28 16 = len
         ∧ q.mgt.q = [] ∧ q.mgt.fwdAt = none ∧ q.rb (mgtBase + 0x210) 0 = true ∧ q.threads = s.pkg.threads
       let op := s.pkg.mbxOp true
       (s.pkg.live = true → s.pkg.mgt.q = [true] → 0x80 ≤ op → s.pkg.mgt.fwdAt = none →
         (s.pkg.rb (mgtBase + 0x20018) 31 = true → (s.pkg.tdmState < 6 ∨ 8 < s.pkg.tdmState) → ∃ q, exec (.forwardedCommand dt) s = .next (s.withPkg q)
           ∧ q.mgt = { s.pkg.mgt with fwdAt := some p.now } ∧ q.rb req 31 = true ∧ q.rf req 7 0 = op ∧ q.rf req 20 8 = s.pkg.mbxLen true
           ∧ q.rd (mgtBase + 0x20008) = s.pkg.rd (mbxBase true + 8) ∧ q.bufGet (mgtBase + 0x21000) (s.pkg.mbxLen true) = s.pkg.bufGet (mbxData true) (s.pkg.mbxLen true))
         ∧ (s.pkg.rb (mgtBase + 0x20018) 31 = false → ∃ q, exec (.forwardedCommand dt) s = .next (s.withPkg q) ∧ ends q 6 0))
       ∧ (∀ v : Word, v.getLsbD 31 = true →
         (s.pkg.rb req 31 = false → exec (.mgtFwdoneWrite v) s = .next (s.withPkg (z.wb (mgtBase + 0x20020) 0 true)))
         ∧ (s.pkg.rb req 31 = true → s.pkg.mgt.q = [true] → bits v 20 8 ≤ 4096 → ∃ q, exec (.mgtFwdoneWrite v) s = .next (s.withPkg q) ∧ ends q (bits v 7 0) (bits v 20 8)
           ∧ q.bufGet (mbxData true) (bits v 20 8) = s.pkg.bufGet (mgtBase + 0x22000) (bits v 20 8) ∧ q.rb req 31 = false))
       ∧ (∀ t, s.pkg.mgt.fwdAt = some t →
         (p.now < t + s.pkg.rf (mgtBase + 0x318) 15 0 * 1000000000 → exec (.forwardTimeout dt) s = .next (s.withPkg p))
         ∧ (t + s.pkg.rf (mgtBase + 0x318) 15 0 * 1000000000 ≤ p.now → s.pkg.mgt.q = [true] → ∃ q, exec (.forwardTimeout dt) s = .next (s.withPkg q) ∧ ends q 5 0 ∧ q.rb req 31 = false)))

/-- TELEMETRY_SAMPLE, DVFS_STEP, Shimmy's arming and delays, and the JTAG TAP (R452, R453, R455, R456, R457, R458, R461, R464, R465, R466, 18_management_power_thermal, 19_shimmy_debug). -/
def Obligations.PowerPointsShimmyAndTheTapComplete : Prop :=
  (∀ (s : State) (dt : Nat) (t : Telem), s.pkg.scLive = true → s.pkg.tdmState = 0 →
    let top := ((List.range 32).map (telemTj t)).foldl max (-128)
    0 ≤ top + 128 → top ≤ 127 → ∃ q, exec (.telemetrySample dt t) s = .next (s.withPkg q) ∧ q.tjMax = top
      ∧ (∀ r, r < 13 → (r = 12 ∨ r ∉ t.fails) → q.rf (mgtRail r) 15 0 = (t.rails.getD r (0, 0)).1 % 65536)
      ∧ (max top (max t.foot0 t.foot1) < 115 → q.pwr.hot = 0 ∧ q.pins = s.pkg.pins ∧ q.boot.stop = s.pkg.boot.stop)
      ∧ (115 ≤ max top (max t.foot0 t.foot1) → s.pkg.pwr.hot ≠ 0 → q.pins.thermtripN = false ∧ q.rb (mgtBase + 0x208) 8 = true ∧ q.boot.stop.isSome = true))
  ∧ (∀ (s : State) (dt : Nat) (k : Fin 32) (ok : Bool), s.pkg.scLive = true →
    let c := s.pkg.course k
    let p := s.pkg.elapse dt
    (c.want = c.point → exec (.dvfsStep dt k ok) s = .next (s.withPkg p))
    ∧ (c.want ≠ c.point →
      let c' := { c with point := if c.want < c.point then c.point - 1 else c.point + 1 }
      let old := p.railMv (brickRail k)
      let new := (p.setCourse k c').railMv (brickRail k)
      ∃ q, exec (.dvfsStep dt k ok) s = .next (s.withPkg q)
        ∧ q.course k = (if c.want < c.point ∨ ok = true ∨ new = old then c' else c) ∧ (∀ j, j ≠ (k : Nat) → q.course j = s.pkg.course j)
        ∧ (c.want < c.point → c.point ≤ 7 → q.rf (mgtCourse k) 10 8 = c.point - 1)
        ∧ q.reply = (if new = old then s.pkg.reply else .avs (brickRail k) new)
        ∧ q = { p with drs := q.drs, pwr := q.pwr, reply := q.reply }))
  ∧ (∀ (s : State) (dt : Nat), s.pkg.live = true →
    let p := s.pkg.elapse dt
    let armed (b q : Pkg) : Prop := q.shm = { s.pkg.shm with on := true, cyc := b.now, tries := [] } ∧ q.rb shmStat 0 = true
      ∧ (∀ i, i < 16 → s.pkg.rb (shmSlot i 0) 0 = true → q.rf (shmSlot i 6) 31 0 = s.pkg.rf (shmSlot i 1) 31 0 ∧ q.rf (shmSlot i 4) 47 0 = 0 ∧ q.rf (shmSlot i 5) 47 0 = 0)
      ∧ q = { b with drs := q.drs, shm := q.shm }
    (s.pkg.shmOpen = false → exec .shmArm s = .next s ∧ exec .shmDisarm s = .next s)
    ∧ (s.pkg.shmOpen = true →
      (s.pkg.rd (shmBase + 0x10) = 0#64 → ∃ q, exec .shmArm s = .next (s.withPkg q) ∧ armed s.pkg q)
      ∧ (s.pkg.rd (shmBase + 0x10) ≠ 0#64 → ∃ q, exec .shmArm s = .next (s.withPkg q) ∧ q.rb shmStat 0 = true ∧ q.shm = { s.pkg.shm with on := false } ∧ q = { s.pkg with drs := q.drs, shm := q.shm })
      ∧ exec .shmDisarm s = .next (s.withPkg (({ s.pkg with shm := { s.pkg.shm with on := false } }).wb shmStat 0 false)))
    ∧ (s.pkg.rb shmStat 0 = true → s.pkg.shm.on = false → (s.pkg.rd (shmBase + 0x10)).toNat ≤ p.rdtime.toNat →
      ∃ q, exec (.shmStartReached dt) s = .next (s.withPkg q) ∧ armed p q)
    ∧ (∀ (k : Nat) (a : ShmAct), s.pkg.shm.acts[k]? = some a → a.kind = 1 → a.cmd = none → (s.pkg.shm.acts.take k).any (fun b => b.kind == a.kind && b.what == a.what) = false →
      (a.due ≤ p.now → exec (.perturbationDelayEnd dt k) s = .next (s.withPkg { p with shm := { s.pkg.shm with acts := s.pkg.shm.acts.eraseIdx k } }))
      ∧ (p.now < a.due → exec (.perturbationDelayEnd dt k) s = .next (s.withPkg p))))
  ∧ (∀ (s : State), s.pkg.tapOn = true →
    let sel (i : Tap) : Pkg := { s.pkg with jtag := { s.pkg.jtag with ir := i } }
    let chal := (sel .scChal).answerBytes s.pkg.chalCapture
    let err : Pkg := { chal with jtag := { chal.jtag with segErr := true } }
    exec .bypass s = .next (s.withPkg (sel .bypass)) ∧ exec .samplePreload s = .next (s.withPkg (sel .sample))
    ∧ exec .idcode s = .next (s.withPkg ((sel .idcode).answerBytes (natLe 4 (s.pkg.rf scBase 59 56 * 2 ^ 28 + s.pkg.rf scBase 31 16 * 2 ^ 12 + 0x7AD))))
    ∧ (s.pkg.jtagOpen = false → exec .extest s = .next (s.withPkg (sel .bypass)))
    ∧ (s.pkg.jtagOpen = true → ∃ q, exec .extest s = .next (s.withPkg q) ∧ q.jtag.ir = .extest ∧ q.boot.stop.isSome = true)
    ∧ (s.pkg.pins.vaux = true → ∀ low, exec (.trst low) s = .next (s.withPkg { s.pkg with jtag := { s.pkg.jtag with trst := low, ir := if low then .idcode else s.pkg.jtag.ir } }))
    ∧ (s.pkg.scLive = true →
      (∀ (seg : BitVec 3) (d : BitVec 256),
        (6 ≤ seg.toNat → exec (.scChalStore seg d) s = .next (s.withPkg err))
        ∧ (seg.toNat < 6 → ∃ q, exec (.scChalStore seg d) s = .next (s.withPkg q) ∧ Map.get (fun _ => []) q.jtag.segs seg.toNat = natLe 32 d.toNat ∧ q.jtag.segErr = false
          ∧ q.reply = chal.reply))
      ∧ (3 ≤ s.pkg.dbgFails → exec .scChalNewChallenge s = .next (s.withPkg err) ∧ exec .scChalSubmit s = .next (s.withPkg err))
      ∧ (s.pkg.dbgFails < 3 → (∃ q l, exec .scChalNewChallenge s = .next (s.withPkg q) ∧ q.jtag.nonce = some l ∧ l.length = 32 ∧ q.jtag.segs = [] ∧ q.jtag.segErr = false)
        ∧ (∀ x, s.pkg.jtag.nonce = some x → ∃ q, exec .scChalSubmit s = .next (s.withPkg q) ∧ q.jtag.nonce = none ∧ q.jtag.done = false ∧ q.jtag.check.map (·.1) = some x))
      ∧ (∀ dt x r, s.pkg.jtag.check = some (x, r) → ∃ q, exec (.debugCheckComplete dt) s = .next (s.withPkg q) ∧ q.jtag.check = none ∧ q.jtag.done = true
        ∧ (s.pkg.debugOk x r = true → q.rb dbgstat 0 = true) ∧ (s.pkg.debugOk x r = false → q.dbgFails = min 3 (s.pkg.dbgFails + 1)))))

/-- Link commands, training, loss of lock, draining and takeover: the states a link goes through (R268, R271, R272, R273, R276, R277, 10_lerlora_links_routing). -/
def Obligations.LinksTrainGoDownAndTakeOver : Prop :=
  ∀ (s : State) (i : LkN), s.pkg.live = true →
    let st := s.pkg.lkState i
    let l := s.pkg.link i
    let set (p : Pkg) (x : Nat) (f : Link → Link) : State := s.withPkg ((p.setLk i x).updLink i f)
    let err := s.withPkg (s.pkg.wb (lkCtl i) 2 true)
    let same (q : Pkg) (j : Nat) : Prop := ∃ o r, q.link j = { s.pkg.link j with occ := o, ret := r }
    ((st = 0 ∨ st = 8 ∨ st = 9) → s.pkg.roleLive (s.pkg.lkTrains i) = true → exec (.linkEnable i) s = .next (set s.pkg 1 (fun _ => {})))
    ∧ (((st ≠ 0 ∧ st ≠ 8 ∧ st ≠ 9) ∨ s.pkg.roleLive (s.pkg.lkTrains i) = false) → exec (.linkEnable i) s = .next err)
    ∧ (st = 5 → exec (.linkDrain i) s = .next (s.withPkg (s.pkg.updLink i (fun k => { k with drain := some (4, s.pkg.now) }))))
    ∧ (st ≠ 5 → exec (.linkDrain i) s = .next err)
    ∧ (∃ q, exec (.linkDisable i) s = .next (s.withPkg q) ∧ q.lkState i = 0 ∧ q.link i = {} ∧ (∀ j, j ≠ (i : Nat) → same q j)
      ∧ ((∀ v ∈ l.vcq, ∀ e ∈ v.2, e.src = none) → ∀ j, j ≠ (i : Nat) → q.link j = s.pkg.link j)
      ∧ q.rf (fabBase + 0x10) 31 16 = min (s.pkg.rf (fabBase + 0x10) 31 16 + l.held) 65535 ∧ s.pkg.DrsBut q [lkBase i, fabBase + 0x10]
      ∧ q = { s.pkg with drs := q.drs, links := q.links })
    ∧ (∀ (ok : Bool) (m : LaneMap) (id : BitVec 15) (role : BitVec 4),
      (st = 1 → l.retryAt = none → exec (.linkTrainingStep i true m ⟨id, role⟩) s = .next (s.withPkg (s.pkg.setLk i 2)))
      ∧ (st = 2 → exec (.linkTrainingStep i true m ⟨id, role⟩) s = .next (s.withPkg (s.pkg.setLk i 3)))
      ∧ (st = 3 → exec (.linkTrainingStep i true m ⟨id, role⟩) s = .next (set s.pkg 4 (fun k =>
          { k with rmap := m.phys.map (·.val), rinv := m.inv, wire := k.wire ++ [.train s.pkg.selfId (s.pkg.lkTrains i)] })))
      ∧ (st = 2 ∨ st = 3 → exec (.linkTrainingStep i false m ⟨id, role⟩) s = .next (set s.pkg 1 (fun k => { k with retryAt := some (s.pkg.now + 100000000000) })))
      ∧ (st = 4 → s.pkg.expect (s.pkg.lkTrains i) = (id.toNat, role.toNat) →
        let kept : Link → Link := fun k => { rmap := k.rmap, rinv := k.rinv, wire := k.wire, chk := s.pkg.now / 4096000 }
        (s.pkg.lkRole i ≠ 0 → (∀ j, j < 12 → s.pkg.lkAct j = false) → exec (.linkTrainingStep i ok m ⟨id, role⟩) s = .next (set s.pkg 5 kept))
        ∧ (s.pkg.lkRole i = 0 → exec (.linkTrainingStep i ok m ⟨id, role⟩) s = .next (set s.pkg 7 kept)))
      ∧ (st = 4 → s.pkg.expect (s.pkg.lkTrains i) ≠ (id.toNat, role.toNat) → ∃ q, exec (.linkTrainingStep i ok m ⟨id, role⟩) s = .next (s.withPkg q)
        ∧ q.lkState i = 9 ∧ q.rd (lkBase i + 0x10) = BitVec.ofNat 64 (id.toNat + role.toNat * 2 ^ 15 + 2 ^ 19) ∧ q.link i = l))
    ∧ (∀ dt t, st = 1 → l.retryAt = some t →
      (s.pkg.now + dt < t → exec (.linkTrainRetry i dt) s = .next (s.withPkg (s.pkg.elapse dt)))
      ∧ (t ≤ s.pkg.now + dt → exec (.linkTrainRetry i dt) s = .next (set (s.pkg.elapse dt) 2 (fun k => { k with retryAt := none }))))
    ∧ (2 ≤ st → st ≤ 4 → exec (.lossOfLock i) s = .next (s.withPkg (s.pkg.setLk i 1)))
    ∧ (let down (q : Pkg) (cause : Nat) : Prop := q.lkState i = 8 ∧ q.rf (lkBase i) 34 32 = cause ∧ q.lkAct i = false
          ∧ (q.link i).replay = [] ∧ (q.link i).vcq = [] ∧ (q.link i).drain = none
       let role := s.pkg.lkCarries i
       (5 ≤ st → st ≤ 7 → ∃ q, exec (.lossOfLock i) s = .next (s.withPkg q) ∧ down q 3
        ∧ (∀ j, j < 12 → j ≠ (i : Nat) → role ≠ 0 → s.pkg.lkState j = 7 → (s.pkg.lkStby j = role ∨ s.pkg.lkRole j = role) →
          (∀ k, k < 12 → k ≠ (i : Nat) → k ≠ j → s.pkg.lkState k ≠ 7) →
          (q.link j).take = some ((i : Nat), s.pkg.now) ∧ (q.link j).replay = l.replay ∧ (q.link j).vcq = l.vcq ∧ (q.link j).tx = l.tx ∧ (q.link j).rx = l.rx))
       ∧ ((∀ j, j < 12 → s.pkg.lkState j ≠ 7 ∨ j = (i : Nat)) →
        (5 ≤ st → st ≤ 7 → ∃ q, exec (.lossOfLock i) s = .next (s.withPkg q) ∧ down q 3 ∧ (∀ j, j ≠ (i : Nat) → same q j))
        ∧ (∀ dt cause t, cause < 8 → l.drain = some (cause, t) →
          ((l.replay = [] ∨ t + 2000000 ≤ s.pkg.now + dt) → ∃ q, exec (.linkDrainComplete i dt) s = .next (s.withPkg q) ∧ down q cause ∧ (∀ j, j ≠ (i : Nat) → same q j))
          ∧ (l.replay ≠ [] → s.pkg.now + dt < t + 2000000 → exec (.linkDrainComplete i dt) s = .next (s.withPkg (s.pkg.elapse dt))))))
    ∧ (∀ p t, st = 7 → l.take = some (p, t) →
      (∀ w : LaneBits, let x := l.flit w
        (flitHdr x).ok = true → flitF x 3 0 = 5 → l.vcq = [] → ∃ q, exec (.switchFlitReceive i w false) s = .next (s.withPkg q)
        ∧ q.lkState i = 5 ∧ (q.link i).take = none ∧ (q.link i).ackAt = s.pkg.now
        ∧ (∀ a k, (flitHdr x).ack = some a → l.replay.findIdx? (fun y => y.seq == a.toNat) = some k →
            (q.link i).replay = (l.replay.drop (k + 1)).map (fun y => { y with tries := y.tries + 1 }))
        ∧ ((flitHdr x).ack = none → (q.link i).replay = l.replay.map (fun y => { y with tries := y.tries + 1 }))
        ∧ (∀ j, j ≠ (i : Nat) → q.link j = s.pkg.link j) ∧ q = { s.pkg with drs := q.drs, links := q.links })
      ∧ (∀ dt, (s.pkg.now + dt < t + 100000000 → exec (.takeoverTimeout i dt) s = .next (s.withPkg (s.pkg.elapse dt)))
        ∧ (t + 100000000 ≤ s.pkg.now + dt → ∃ q, exec (.takeoverTimeout i dt) s = .next (s.withPkg q) ∧ q.lkState i = 7 ∧ (q.link i).take = none
          ∧ (q.link i).replay = [] ∧ (∀ j, j ≠ (i : Nat) → same q j))))
    ∧ (∀ (w : LaneBits) (d : Bool), st = 7 → (flitHdr (l.flit w)).ok = false →
      exec (.switchFlitReceive i w d) s = .next (s.withPkg (s.pkg.inc (lkBase i + 0x20) 31 0)))

/-- DATA, IDLE, NAK and CHECK flits, the replay timeout, lane repair, FABRIC_ROUTE and ROUTE_FLIP (R264, R265, R266, R268, R269, R270, R272, R281, R283, R286, R287, 10_lerlora_links_routing). -/
def Obligations.FlitsArePassedOnAcknowledgedAndRouted : Prop :=
  ∀ (s : State) (i : LkN), s.pkg.live = true → s.pkg.shm.on = false → s.pkg.shm.acts = [] →
    let l := s.pkg.link i
    let again (r : List LFlit) : List LFlit := r.map (fun y => { y with tries := y.tries + 1 })
    (s.pkg.lkState i = 5 → l.vcq = [] →
      (∀ w : LaneBits, let x := l.flit w
        let f := flitData x
        (f.hdr.ok = false → (∃ q, exec (.dataFlitReceive i w) s = .next (s.withPkg q) ∧ q.link i = (if l.nak then l else { l.ctl 2 with nak := true })
            ∧ q.rf (lkBase i + 0x20) 31 0 = (s.pkg.rf (lkBase i + 0x20) 31 0 + 1) % 2 ^ 32 ∧ s.pkg.DrsBut q [lkBase i + 0x20] ∧ q.fab = s.pkg.fab)
          ∧ (∀ d : Bool, exec (.idleFlitReceive i w d) s = .next (s.withPkg (s.pkg.inc (lkBase i + 0x20) 31 0)))
          ∧ exec (.nakReceive i w) s = .next (s.withPkg (s.pkg.inc (lkBase i + 0x20) 31 0)))
        ∧ (f.hdr.ok = true → flitF x 3 0 = 1 → f.hdr.ack = none → f.seq.toNat ≠ l.rx → ∃ q, exec (.dataFlitReceive i w) s = .next (s.withPkg q)
          ∧ (q.link i).nak = true ∧ (q.link i).rx = l.rx ∧ (q.link i).replay = l.replay ∧ q.fab = s.pkg.fab ∧ q.drs = s.pkg.drs)
        ∧ (∀ p : FPkt, f.hdr.ok = true → flitF x 3 0 = 1 → f.hdr.ack = none → f.seq.toNat = l.rx → 1 ≤ p.length → p.length ≤ 15 → pkLen p = p.length →
          f.slots.take p.length = p → (∀ k, k < 15 → f.fill.getLsbD k = decide (p.length ≤ k) ∧ f.sop.getLsbD k = decide (k = 0)) →
          (∀ n ∈ l.occ, n + p.length ≤ 256) →
          ∃ q, exec (.dataFlitReceive i w) s = .next (s.withPkg q) ∧ (q.link i).rx = (l.rx + 1) % 4096 ∧ (q.link i).nak = false ∧ (q.link i).part = []
            ∧ Map.get (fun _ => []) q.fab.inq (6 * i + s.pkg.vcIn i p) = Map.get (fun _ => []) s.pkg.fab.inq (6 * i + s.pkg.vcIn i p) ++ [p]
            ∧ q.drs = s.pkg.drs ∧ (∀ j, j ≠ (i : Nat) → q.link j = s.pkg.link j))
        ∧ (∀ a k, f.hdr.ok = true → flitF x 3 0 = 0 → f.hdr.ack = some a → l.replay.findIdx? (fun y => y.seq == a.toNat) = some k →
          ∃ q, exec (.idleFlitReceive i w false) s = .next (s.withPkg q) ∧ (q.link i).replay = l.replay.drop (k + 1)
            ∧ (q.link i).ackAt = s.pkg.now ∧ q = { s.pkg with links := q.links } ∧ (∀ j, j ≠ (i : Nat) → q.link j = s.pkg.link j))
        ∧ (f.hdr.ok = true → flitF x 3 0 = 2 → f.hdr.ack = none → (∀ y ∈ l.replay, y.tries < 8) → ∃ q, exec (.nakReceive i w) s = .next (s.withPkg q)
          ∧ (q.link i).replay = again l.replay ∧ (q.link i).ackAt = s.pkg.now
          ∧ q.rf (lkBase i + 0x20) 63 32 = (s.pkg.rf (lkBase i + 0x20) 63 32 + l.replay.length) % 2 ^ 32 ∧ s.pkg.DrsBut q [lkBase i + 0x20]))
      ∧ (∀ dt, (∀ y ∈ l.replay, y.tries < 8) → l.replay ≠ [] → l.ackAt + 1000000 ≤ s.pkg.now + dt → ∃ q, exec (.replayTimeout i dt) s = .next (s.withPkg q)
        ∧ (q.link i).replay = again l.replay ∧ (q.link i).ackAt = s.pkg.now + dt
        ∧ q.rf (lkBase i + 0x20) 63 32 = (s.pkg.rf (lkBase i + 0x20) 63 32 + l.replay.length) % 2 ^ 32)
      ∧ (∀ dt, s.pkg.now + dt < l.ackAt + 1000000 → exec (.replayTimeout i dt) s = .next (s.withPkg (s.pkg.elapse dt)))
      ∧ (∀ (w : LaneBits) (n : Nat), n < 8 → (∀ j, j < 8 → j ≠ n → l.lane w j = checkLane j) → l.lane w n ≠ checkLane n →
        let m := l.rmap.getD n n
        let v := winCountN (Map.get (fun _ => 0#64) l.lanes m) (s.pkg.rf (lkBase i + 0x18) 63 32) s.pkg.cadSec (lanePop (l.lane w n ^^^ checkLane n))
        let th := s.pkg.rf (lkBase i + 0x18) 7 0
        th ≠ 0 → l.repair = none → s.pkg.rb (lkBase i) 14 = false →
        ∃ q, exec (.checkFlitReceive i w) s = .next (s.withPkg q) ∧ Map.get (fun _ => 0#64) (q.link i).lanes m = v
          ∧ (th ≤ bits v 7 0 → (q.link i).repair = some m ∧ q.lkState i = 6) ∧ (bits v 7 0 < th → (q.link i).repair = none ∧ q.drs = s.pkg.drs)))
    ∧ (∀ n, s.pkg.lkState i = 6 → l.repair = some n → l.vcq = [] → ∃ q, exec (.laneRepairComplete i .rx) s = .next (s.withPkg q)
      ∧ q.lkState i = (if l.farRep then 6 else 5) ∧ (q.link i).bad = some n ∧ (q.link i).repair = none ∧ q.rb (lkBase i) 14 = true
      ∧ (q.link i).replay = (if l.farRep then l.replay else again l.replay) ∧ ∀ j, l.rmap.getD j n ≠ n → (q.link i).rmap.getD j n = l.rmap.getD j n)
    ∧ (∀ (inp : Fin 24) (vc : Fin 6) (p : FPkt) (p0 : Pkg), s.pkg.tdmState = 0 →
      (((inp : Nat) < 12 ∧ ∃ rest, Map.get (fun _ => []) s.pkg.fab.inq (6 * inp + vc) = p :: rest
          ∧ p0 = { s.pkg with fab := { s.pkg.fab with inq := Map.set (fun _ => []) s.pkg.fab.inq (6 * inp + vc) rest } })
        ∨ (12 ≤ (inp : Nat) ∧ 2 * pkClass p = vc ∧ ∃ a b, s.pkg.fab.inj = a ++ ((inp : Nat) - 12, p) :: b ∧ (∀ x ∈ a, x.1 ≠ (inp : Nat) - 12 ∧ pkDst x.2 ≠ pkDst p)
          ∧ p0 = { s.pkg with fab := { s.pkg.fab with inj := a ++ b } })) →
      let cnt := fabBase + 0x10
      let gone : Pkg := if (inp : Nat) < 12 then p0.freed (some (inp, vc)) p.length else p0
      let bad := pkClass p = 3 ∨ pkLen p = 0 ∨ 20 < pkLen p ∨ ∃ d, d < 4 ∧ s.pkg.dimK d ≤ coord (pkDst p) d
      (bad → exec (.fabricRoute ⟨inp, vc⟩) s = .next (s.withPkg (gone.sat cnt 63 48)))
      ∧ (¬ bad → s.pkg.rtGen s.pkg.rtActive = pkGen p →
        let e := s.pkg.rtEntry s.pkg.rtActive (pkDst p / 2)
        (pkDst p = s.pkg.selfId → s.pkg.fabMode = 0 → pkKnown p = true →
          exec (.fabricRoute ⟨inp, vc⟩) s = .next (s.withPkg { gone with fab := { gone.fab with ejq := s.pkg.fab.ejq ++ [p], via := s.pkg.fab.via ++ [((inp : Nat), s.pkg.now)] } }))
        ∧ (pkDst p / 2 ≠ s.pkg.selfId / 2 → e / 32 % 2 = 1 → exec (.fabricRoute ⟨inp, vc⟩) s = .next (s.withPkg (gone.sat cnt 15 0)))
        ∧ (pkDst p / 2 ≠ s.pkg.selfId / 2 → e / 32 % 2 = 0 → (12 ≤ (inp : Nat) → e / 16 % 2 = pk p 0 37 37) →
          ∀ d, (List.range 4).find? (fun d => coord (pkDst p) d != coord s.pkg.selfId d) = some d →
          let r := s.pkg.lkCarries inp
          let dir := if (inp : Nat) < 12 ∧ (r = 1 + 2 * d ∨ r = 2 + 2 * d) then pk p 0 (33 + d) (33 + d) else e / 2 ^ d % 2
          (s.pkg.roleLink (1 + 2 * d + dir) = none → exec (.fabricRoute ⟨inp, vc⟩) s = .next (s.withPkg (gone.sat cnt 31 16)))
          ∧ (∀ o, s.pkg.roleLink (1 + 2 * d + dir) = some o → s.pkg.lkState o = 5 → (s.pkg.link o).drain = none → (s.pkg.link o).vcq = [] →
            (s.pkg.link o).replay.length + 2 ≤ 256 → (∀ v, v < 6 → p.length ≤ (s.pkg.link o).credit.getD v 0) → 1 ≤ p.length → p.length ≤ 20 →
            ∃ q p', exec (.fabricRoute ⟨inp, vc⟩) s = .next (s.withPkg q) ∧ p'.drop 1 = p.drop 1 ∧ p'.length = p.length ∧ pkDst p' = pkDst p ∧ pk p' 0 (33 + d) (33 + d) = dir
              ∧ (q.link o).replay = (s.pkg.link o).replay ++ pktFlits p' (s.pkg.link o).tx ∧ (q.link o).vcq = [] ∧ q.drs = s.pkg.drs
              ∧ q.fab = p0.fab ∧ (∀ j, j ≠ o → j ≠ (inp : Nat) → q.link j = s.pkg.link j)))))
    ∧ (s.pkg.rtGen 0 = s.pkg.rtGen 1 → exec .routeFlip s = .next (s.withPkg (s.pkg.wb (fabBase + 8) 2 true)))
    ∧ (s.pkg.rtGen 0 ≠ s.pkg.rtGen 1 → exec .routeFlip s = .next (s.withPkg (s.pkg.wf (fabBase + 8) 0 0 (1 - s.pkg.rtActive))))

/-- The source and acknowledgement sides of fabric streams: injection, responses, timeouts, FAB_SEND and the receive queues' CFG (R291, R294, R297, R298, R299, R300, R301, R302, 11_global_memory_membership). -/
def Obligations.StreamsSendAnswerAndGiveUp : Prop :=
  ∀ (s : State), s.pkg.live = true → s.pkg.tdmState = 0 → s.pkg.shm.on = false → s.pkg.homeLive = true → s.pkg.rf (fabBase + 0x128) 2 0 ≠ 3 →
    let cnt := fabBase + 0x138
    (∀ (d : BitVec 15) (r : GReq) (rest : List GReq), s.pkg.fab.gq = r :: rest → r.dst = d.toNat →
      let p0 : Pkg := { s.pkg with fab := { s.pkg.fab with gq := rest } }
      let st := s.pkg.srcS d.toNat
      (∀ h, s.pkg.inMap d.toNat = false → r.who = .store h → (s.pkg.thr h).ent = none → exec (.globalRequestInject d) s = .next (s.withPkg ((p0.sat cnt 31 16).werr h 7 r.pa)))
      ∧ (s.pkg.inMap d.toNat = true → s.pkg.streamRoom d.toNat r = false → exec (.globalRequestInject d) s = .next s)
      ∧ (s.pkg.inMap d.toNat = true → s.pkg.streamRoom d.toNat r = true → ∃ q o x, exec (.globalRequestInject d) s = .next (s.withPkg q)
        ∧ q.fab.gq = rest ∧ (q.srcS d.toNat).out = st.out ++ [o] ∧ (q.srcS d.toNat).next = (st.next + 1) % 65536
        ∧ o.seq = st.next ∧ o.typ = r.kind.typ ∧ o.cls = r.kind.cls ∧ o.who = r.who ∧ o.pa = r.pa ∧ o.n = r.n ∧ o.t = some s.pkg.now
        ∧ s.pkg.Sent q s.pkg.fab.ejq x ∧ pkDst x = d.toNat ∧ x.drop 1 = o.body ∧ (∀ e, e ≠ d.toNat → q.srcS e = s.pkg.srcS e) ∧ q.drs = s.pkg.drs ∧ q.threads = s.pkg.threads))
    ∧ (∀ (p : FPkt) (o : FOut), s.pkg.ejected 1 0 = some (0, p) →
      let d := pkSrc p
      let st := s.pkg.srcS d
      (pk p 1 19 16 ≠ st.epoch → exec .fabResponse s = .next (s.withPkg (s.pkg.unqueue 0)))
      ∧ (pk p 1 19 16 = st.epoch → st.out = [o] →
        (∀ h, o.cls = 0 → o.typ = 1 → o.who = .store h → seqBelow o.seq (pk p 1 35 20) = true → (pk p 1 15 0 = o.seq → pk p 1 38 36 < 2) → (s.pkg.thr h).ent = none →
          ∃ q, exec .fabResponse s = .next (s.withPkg q) ∧ (q.srcS d).out = [] ∧ q.fab.ejq = s.pkg.fab.ejq.drop 1 ∧ q.drs = s.pkg.drs ∧ q.threads = s.pkg.threads)
        ∧ (∀ h : Htid, o.cls = 2 → o.who = .msg h → pk p 1 15 0 = o.seq → pk p 1 38 36 ≠ 4 → pk p 1 38 36 ≠ 7 → ∃ q, exec .fabResponse s = .next (s.withPkg q)
          ∧ (q.srcS d).out = [] ∧ q.rb (sendStat h) 0 = false ∧ q.rb (sendStat h) 1 = true ∧ q.rf (sendStat h) 5 3 = sendResult (pk p 1 38 36)
          ∧ s.pkg.DrsBut q [sendStat h] ∧ q.threads = s.pkg.threads)))
    ∧ (∀ (d : BitVec 15) (dt : Nat), let p := s.pkg.elapse dt
      let h := s.pkg.homeS d.toNat
      let st := s.pkg.srcS d.toNat
      (0 < h.acks → h.epoch < 16 → (16 ≤ h.acks ∨ h.ackAt + 1000000 ≤ p.now) → ∃ q x, exec (.cumulativeAck d dt) s = .next (s.withPkg q) ∧ (q.homeS d.toNat).acks = 0
        ∧ s.pkg.Sent q s.pkg.fab.ejq x ∧ pkDst x = d.toNat ∧ pkClass x = 1 ∧ pk x 1 35 20 = h.exp % 65536 ∧ q.drs = p.drs ∧ q.threads = s.pkg.threads)
      ∧ ((h.acks = 0 ∨ (h.acks < 16 ∧ p.now < h.ackAt + 1000000)) → exec (.cumulativeAck d dt) s = .next (s.withPkg p))
      ∧ (∀ t, st.idle = some t → (p.now < t + 100000000 → exec (.streamIdleRelease d dt) s = .next (s.withPkg p))
        ∧ (t + 100000000 ≤ p.now → ∃ q x, exec (.streamIdleRelease d dt) s = .next (s.withPkg q) ∧ q.srcS d.toNat = { st with idle := none }
          ∧ s.pkg.Sent q s.pkg.fab.ejq x ∧ pkDst x = d.toNat ∧ pkClass x = 0 ∧ pkType x = 4 ∧ q.drs = p.drs))
      ∧ (∀ o rest t, st.out = o :: rest → o.t = some t →
        (p.now < t + fabWait → exec (.streamResendTimeout d dt) s = .next (s.withPkg p) ∧ exec (.streamAbsentTimeout d dt) s = .next (s.withPkg p))
        ∧ (t + fabWait ≤ p.now →
          (o.again = false → ∃ q, exec (.streamResendTimeout d dt) s = .next (s.withPkg q)
            ∧ (q.srcS d.toNat).out = st.out.map (fun x => { x with again := true, t := x.t.map (fun _ => p.now) })
            ∧ q.rf cnt 15 0 = min (s.pkg.rf cnt 15 0 + 1) 65535 ∧ q.threads = s.pkg.threads
            ∧ (s.pkg.isSelf d.toNat = false → rest = [] → ∃ x, s.pkg.Sent q s.pkg.fab.ejq x ∧ pkDst x = d.toNat ∧ x.drop 1 = o.body ∧ pk x 0 37 37 = 1))
          ∧ (∀ h, o.again = true → rest = [] → o.who = .store h → (s.pkg.thr h).ent = none → ∃ q, exec (.streamAbsentTimeout d dt) s = .next (s.withPkg q)
            ∧ (q.srcS d.toNat).out = [] ∧ (q.srcS d.toNat).epoch = (st.epoch + 1) % 16 ∧ (q.srcS d.toNat).next = 0
            ∧ q.drs = ((p.sat cnt 31 16).werr h 7 o.pa).drs ∧ q.threads = s.pkg.threads)))
      ∧ (∀ z t, st.busy = some (z, t) → (p.now < t + 2000000 → exec (.busyResend d dt) s = .next (s.withPkg p))
        ∧ (t + 2000000 ≤ p.now → ∃ q, exec (.busyResend d dt) s = .next (s.withPkg q) ∧ q.srcS d.toNat = { st with busy := none } ∧ q.drs = p.drs ∧ q.threads = s.pkg.threads)))
    ∧ (∀ (h : Htid) (v : Word),
      let b := fabBase + 0x100000 + 0x80 * (h : Nat)
      (s.pkg.rb (sendStat h) 0 = true → exec (.fabSendGo h v) s = .next (s.withPkg (s.pkg.wb (sendStat h) 2 true)))
      ∧ (s.pkg.rb (sendStat h) 0 = false → v.getLsbD 21 = true → ∃ q g, exec (.fabSendGo h v) s = .next (s.withPkg q) ∧ q.rb (sendStat h) 0 = true
        ∧ q.fab.gq = s.pkg.fab.gq ++ [g] ∧ g.kind = .msg ∧ g.dst = bits v 14 0 ∧ g.who = .msg h ∧ g.n = 64 ∧ g.op = bits v 20 15
        ∧ (∀ k, k < 8 → g.data / 2 ^ (64 * k) % 2 ^ 64 = (s.pkg.rd (b + 8 * k)).toNat) ∧ s.pkg.DrsBut q [sendStat h] ∧ q = { s.pkg with drs := q.drs, fab := q.fab }))
    ∧ (∀ (q : Fin 64) (v : Word),
      let r := fabBase + 0x40000 + 0x40 * (q : Nat)
      let n := if 6 ≤ bits v 5 1 ∧ bits v 5 1 ≤ 16 then bits v 5 1 else s.pkg.rf r 5 1
      let moved := n ≠ s.pkg.rf r 5 1 ∨ bits v 51 12 ≠ s.pkg.rf r 51 12
      ∃ t, exec (.fabRqCfgWrite q v) s = .next (s.withPkg t) ∧ t.rb r 0 = v.getLsbD 0 ∧ t.rf r 5 1 = n ∧ t.rf r 51 12 = bits v 51 12
        ∧ (moved → t.rf (r + 8) 15 0 = 0 ∧ t.rf (r + 0x10) 15 0 = 0) ∧ (¬ moved → t.rd (r + 8) = s.pkg.rd (r + 8) ∧ t.rd (r + 0x10) = s.pkg.rd (r + 0x10))
        ∧ s.pkg.DrsBut t [r, r + 8, r + 0x10] ∧ t = { s.pkg with drs := t.drs })

/-- FAB_RD, FAB_WR, FAB_ATOM, FAB_FLUSH, FAB_RELEASE and FAB_MSG: what a home accepts, performs, answers and discards (R292, R293, R295, R296, R297, R299, R302, 11_global_memory_membership). -/
def Obligations.HomesPerformRequestsOnce : Prop :=
  ∀ (s : State) (p : FPkt), s.pkg.live = true → s.pkg.tdmState = 0 → s.pkg.homeLive = true → s.pkg.rf (fabBase + 0x128) 2 0 ≠ 3 → s.pkg.tdm.track = false →
    let src := pkSrc p
    let h := s.pkg.homeS src
    let b := p.drop 1
    let seq := pk b 0 15 0
    let ep := pk b 0 19 16
    let d := (h.exp + 65536 - seq) % 65536
    let jrn := h.jrn.filter (fun e => !seqBelow e.seq (pk b 0 35 20))
    let o := (reqSpan b).1
    let n := (reqSpan b).2.1
    let en := (reqSpan b).2.2
    let pa := s.pkg.winPa o
    let p0 := s.pkg.unqueue 0
    let cmd (typ : Nat) : Instr := if typ = 0 then .fabRd else if typ = 1 then .fabWr else if typ = 2 then .fabAtom else .fabFlush
    let sent (q : Pkg) (status : Nat) : Prop := ∃ x, s.pkg.Sent q p0.fab.ejq x ∧ pkDst x = src ∧ pkClass x = 1 ∧ pk x 1 15 0 = seq ∧ pk x 1 38 36 = status
    let room := ((s.pkg.fab.home.filter (fun x => x.1 != src)).map (fun x => x.2.jrn.length)).sum + jrn.length < 2 ^ s.pkg.rf (fabBase + 0x110) 4 0
    (∀ typ, typ ≤ 3 → s.pkg.ejected 0 typ = some (0, p) →
      (ep = h.epoch → 1 ≤ d → d ≤ 4096 → ∃ q, exec (cmd typ) s = .next (s.withPkg q) ∧ (q.homeS src).exp = h.exp ∧ (q.homeS src).jrn = h.jrn
        ∧ q.mem = s.pkg.mem ∧ q.mcs = s.pkg.mcs ∧ q.drs = s.pkg.drs ∧ q.threads = s.pkg.threads)
      ∧ (ep ≠ (h.epoch + 1) % 16 → (ep ≠ h.epoch ∨ 4096 < d) → ∃ k, exec (cmd typ) s = .next (s.withPkg ((p0.setHome src { h with port := k }).sat (fabBase + 0x138) 47 32)))
      ∧ (ep = h.epoch → d = 0 →
        (typ = 0 → room → s.pkg.inWindow o n = false → ∃ q, exec .fabRd s = .next (s.withPkg q) ∧ (q.homeS src).exp = (seq + 1) % 65536
          ∧ (q.homeS src).jrn = jrn ++ [⟨seq, 2, 0, [], pkTag p, pk p 0 127 64⟩] ∧ sent q 2 ∧ q.drs = s.pkg.drs ∧ q.mem = s.pkg.mem)
        ∧ (typ = 0 → room → s.pkg.inWindow o n = true → s.pkg.dsym = [] → ∃ q, exec .fabRd s = .next (s.withPkg q) ∧ (q.homeS src).exp = (seq + 1) % 65536
          ∧ (q.homeS src).jrn = jrn ++ [⟨seq, if (s.pkg.readBytes pa n).2 then 1 else 0, 0, slotsOf n (maskBytes en (s.pkg.readBytes pa n).1), pkTag p, pk p 0 127 64⟩]
          ∧ sent q (if (s.pkg.readBytes pa n).2 then 1 else 0) ∧ q.drs = s.pkg.drs ∧ q.mem = s.pkg.mem)
        ∧ (typ = 1 → s.pkg.inWindow o n = true → pa % 64 + n ≤ 64 → n ≤ 64 → s.pkg.mergeAny (pa / 64) = none → s.pkg.holders (pa / 64) = [] →
          s.pkg.findL3 (pa / 64) = none → isGlobal (pa / 64) = false → s.pkg.dsym = [] → ∃ q, exec .fabWr s = .next (s.withPkg q) ∧ (q.homeS src).exp = (seq + 1) % 65536
            ∧ (q.homeS src).acks = h.acks + 1
            ∧ (let m := byteMask (BitVec.ofNat 64 (en * 2 ^ (pa % 64)))
               (q.curLine (pa / 64)).1 = ((s.pkg.curLine (pa / 64)).1 &&& ~~~m) ||| (BitVec.ofNat 512 (slotsNat (b.drop 1) * 256 ^ (pa % 64)) &&& m))
            ∧ q.drs = s.pkg.drs ∧ q.mem = s.pkg.mem)
        ∧ (typ = 2 → room → s.pkg.inWindow o n = true → s.pkg.dsym = [] →
          let w := atomSpan (pk b 0 100 97) (pk b 0 49 42)
          (s.pkg.homeRead (pa + w.2) w.1).2 = false → ∃ q e, exec .fabAtom s = .next (s.withPkg q) ∧ (q.homeS src).exp = (seq + 1) % 65536
            ∧ (q.homeS src).jrn = jrn ++ [e] ∧ e.seq = seq ∧ e.status = 0 ∧ e.data = slotsOf w.1 (s.pkg.homeRead (pa + w.2) w.1).1 ∧ sent q 0 ∧ q.drs = s.pkg.drs)
        ∧ (typ = 3 → ∃ q, exec .fabFlush s = .next (s.withPkg q) ∧ (q.homeS src).exp = (seq + 1) % 65536 ∧ (q.homeS src).acks = 0
          ∧ (∃ x, s.pkg.Sent q p0.fab.ejq x ∧ pkDst x = src ∧ pkClass x = 1 ∧ pk x 1 35 20 = (seq + 1) % 65536) ∧ q.drs = s.pkg.drs ∧ q.mem = s.pkg.mem)))
    ∧ (s.pkg.ejected 2 0 = some (0, p) → ep = h.epoch → d = 0 → room →
      let r := fabBase + 0x40000 + 0x40 * pk b 0 42 37
      let m := 2 ^ s.pkg.rf r 5 1
      let full := (s.pkg.rf (r + 0x10) 15 0 + 1) % m = s.pkg.rf (r + 8) 15 0 % m
      let st := if s.pkg.rb r 0 = false then 6 else if full then 5 else 0
      ∃ q, exec .fabMsg s = .next (s.withPkg q) ∧ (q.homeS src).exp = (seq + 1) % 65536 ∧ (q.homeS src).jrn = jrn ++ [⟨seq, st, 0, [], pkTag p, pk p 0 127 64⟩]
        ∧ q.rf (r + 0x10) 15 0 = (if st = 0 then (s.pkg.rf (r + 0x10) 15 0 + 1) % m % 65536 else s.pkg.rf (r + 0x10) 15 0) ∧ sent q st)
    ∧ (s.pkg.ejected 0 4 = some (0, p) →
      (pk p 1 19 16 ≠ h.epoch → exec .fabRelease s = .next (s.withPkg p0))
      ∧ (pk p 1 19 16 = h.epoch → exec .fabRelease s = .next (s.withPkg (p0.setHome src { h with jrn := h.jrn.filter (fun e => !seqBelow e.seq (pk p 1 35 20)) }))))

/-- TABLE, FLIP, MAPUPD, PROBE, JOIN_OK, LEFT, and a member's own JOIN, LEAVE, their resends and SILENT (R287, R303, R304, R305, R306, R307, 11_global_memory_membership). -/
def Obligations.MembersAnswerTheirLead : Prop :=
  ∀ (s : State), s.pkg.live = true →
    let p0 := s.pkg.unqueue 0
    let st := s.pkg.mState
    (∀ x : FPkt,
      let src := pkSrc x
      let mid := pk x 1 31 0
      let told (q : Pkg) (fields : Nat) : Prop := q.answerOf src mid = 5 + 16 * fields
        ∧ ∃ y, s.pkg.Sent q p0.fab.ejq y ∧ pkDst y = src ∧ pkClass y = 2 ∧ pkType y = 4 ∧ pk y 1 63 0 = mid + fields * 2 ^ 32
      (s.pkg.Hears x 1 → let b := 1 - s.pkg.rtActive
        ∃ q, exec .memTable s = .next (s.withPkg q) ∧ q.rtGen b = pk x 1 35 32 ∧ q.rtActive = s.pkg.rtActive
        ∧ (∀ j, j < (tableEntries x).length → pk x 1 49 36 + j < 16384 → q.rtEntry b (pk x 1 49 36 + j) = (tableEntries x).getD j 0 % 64)
        ∧ told q 1 ∧ q.threads = s.pkg.threads ∧ q.mem = s.pkg.mem)
      ∧ (s.pkg.Hears x 2 → let g := pk x 1 35 32
        (s.pkg.rtGen s.pkg.rtActive = g → ∃ q, exec .memFlip s = .next (s.withPkg q) ∧ told q 2 ∧ q.drs = s.pkg.drs)
        ∧ (s.pkg.rtGen s.pkg.rtActive ≠ g → s.pkg.rtGen (1 - s.pkg.rtActive) = g → ∃ q, exec .memFlip s = .next (s.withPkg q) ∧ told q 2
          ∧ q.rtActive = 1 - s.pkg.rtActive ∧ s.pkg.DrsBut q [fabBase + 8])
        ∧ (s.pkg.rtGen s.pkg.rtActive ≠ g → s.pkg.rtGen (1 - s.pkg.rtActive) ≠ g → ∃ q, exec .memFlip s = .next (s.withPkg q) ∧ told q 18
          ∧ q.rb (fabBase + 8) 2 = true ∧ q.rtActive = s.pkg.rtActive ∧ s.pkg.DrsBut q [fabBase + 8]))
      ∧ (s.pkg.Hears x 3 → let d := pk x 1 46 32
        let g := pk x 1 63 48
        pk x 1 47 47 = 1 → ∃ q, exec .mapupd s = .next (s.withPkg q) ∧ q.inMap d = true ∧ q.rf mstat 31 16 = g ∧ told q 3
          ∧ q.srcS d = { s.pkg.srcS d with epoch := g % 16, next := 0, busy := none } ∧ q.homeS d = { exp := 0, epoch := g % 16 }
          ∧ s.pkg.DrsBut q [fabBase + 0x30000 + 8 * (d / 64), mstat])
      ∧ (s.pkg.Hears x 10 → ∃ q y, exec .memProbe s = .next (s.withPkg q) ∧ s.pkg.Sent q p0.fab.ejq y ∧ pkDst y = src ∧ pkClass y = 2 ∧ pkType y = 11
        ∧ pk y 1 31 0 = mid ∧ q.drs = s.pkg.drs)
      ∧ (∀ typ, typ = 1 ∨ typ = 2 ∨ typ = 3 → s.pkg.homeLive = true → s.pkg.ejected 2 typ = some (0, x) → src ≠ s.pkg.leadId → s.pkg.isLead = false →
        exec (if typ = 1 then .memTable else if typ = 2 then .memFlip else .mapupd) s = .next (s.withPkg (p0.sat (fabBase + 0x138) 47 32)))
      ∧ (∀ t0 t, s.pkg.Hears x 6 → st = 1 → s.pkg.fab.asked = some (5, mid, t0, t) → ∃ q, exec .joinOk s = .next (s.withPkg q) ∧ q.mState = 2
        ∧ q.rf mstat 31 16 = pk x 1 47 32 ∧ q.rb mstat 3 = false ∧ q.fab.asked = none ∧ q.fab.base = pk x 1 47 32 % 16 ∧ s.pkg.DrsBut q [mstat])
      ∧ (∀ t0 t, s.pkg.Hears x 8 → st = 3 → s.pkg.fab.asked = some (7, mid, t0, t) → ∃ q, exec .memLeft s = .next (s.withPkg q) ∧ q.mState = 4
        ∧ q.rf mstat 31 16 = pk x 1 47 32 ∧ q.fab.asked = none ∧ s.pkg.DrsBut q [mstat]))
    ∧ (let asks (q : Pkg) (typ : Nat) : Prop := (∃ m, q.fab.asked = some (typ, m, s.pkg.now, s.pkg.now)) ∧ s.pkg.DrsBut q [mstat]
        ∧ (∃ y, s.pkg.Sent q s.pkg.fab.ejq y ∧ pkDst y = s.pkg.leadId ∧ pkClass y = 2 ∧ pkType y = typ)
       (st = 0 ∨ st = 4 → ∃ q, exec .fabJoinCmd s = .next (s.withPkg q) ∧ q.mState = 1 ∧ asks q 5)
       ∧ (st ≠ 0 → st ≠ 4 → exec .fabJoinCmd s = .next (s.withPkg (s.pkg.wb (fabBase + 0x130) 2 true)))
       ∧ (st = 2 → s.pkg.fab.src.all (fun x => x.2.out.isEmpty) = true → ∃ q, exec .fabLeaveCmd s = .next (s.withPkg q) ∧ q.mState = 3 ∧ asks q 7)
       ∧ (st ≠ 2 → exec .fabLeaveCmd s = .next (s.withPkg (s.pkg.wb (fabBase + 0x130) 2 true))))
    ∧ (∀ typ m t0 t dt, let p := s.pkg.elapse dt
      s.pkg.fab.asked = some (typ, m, t0, t) →
      (typ = 5 → st = 1 → t + 100000000000 ≤ p.now → ∃ q y, exec (.joinResend dt) s = .next (s.withPkg q) ∧ q.fab.asked = some (5, m, t0, p.now)
        ∧ s.pkg.Sent q s.pkg.fab.ejq y ∧ pkDst y = s.pkg.leadId ∧ pkType y = 5 ∧ q.drs = p.drs)
      ∧ (p.now < t + 100000000000 → exec (.joinResend dt) s = .next (s.withPkg p))
      ∧ (t0 + 1000000000000 ≤ p.now → exec (.leadSilent dt) s = .next (s.withPkg (p.wb mstat 3 true)))
      ∧ (p.now < t0 + 1000000000000 → exec (.leadSilent dt) s = .next (s.withPkg p)))

/-- The lead: JOIN, LEAVE, LINKEV, the three phases of a change, DONE, probes, resends and a new lead (R303, R304, R305, R306, R307, R288, 11_global_memory_membership). -/
def Obligations.LeadsCarryChangesThrough : Prop :=
  ∀ (s : State), s.pkg.live = true →
    let p0 := s.pkg.unqueue 0
    (∀ x : FPkt, let src := pkSrc x
      let mid := pk x 1 31 0
      (∀ typ, typ = 5 ∨ typ = 7 → s.pkg.Hears x typ → s.pkg.isLead = true → s.pkg.mState = 2 → s.pkg.fab.todo = [] → s.pkg.fab.run = none →
        exec (if typ = 5 then .memJoin else .memLeave) s = .next (s.withPkg { p0 with fab := { p0.fab with todo := [⟨some (src, typ == 5), some mid⟩] } }))
      ∧ (s.pkg.Hears x 9 → s.pkg.isLead = true → s.pkg.fab.todo = [] → s.pkg.fab.probes = [] → let d := pk x 1 46 32
        ∃ q, exec .linkev s = .next (s.withPkg q) ∧ q.fab.todo = [⟨none, none⟩] ∧ q.fab.probes = [(d, s.pkg.fab.mid, s.pkg.now)] ∧ q.drs = s.pkg.drs
          ∧ (s.pkg.isSelf d = false → ∃ y z, q.fab.inj = s.pkg.fab.inj ++ [(5, y), (5, z)] ∧ pkDst y = d ∧ pkDst z = d
            ∧ pkType y = 10 ∧ pkType z = 10 ∧ pk y 0 37 37 = 0 ∧ pk z 0 37 37 = 1))
      ∧ (∀ m d t, s.pkg.Hears x 11 → s.pkg.fab.probes = [(d, m, t)] → m = mid →
        exec .probeAck s = .next (s.withPkg { p0 with fab := { p0.fab with probes := [] } }))
      ∧ (∀ m r, s.pkg.Hears x 4 → s.pkg.fab.sent = [m] → m.dst = src → m.mid = mid → s.pkg.fab.run = some r →
        let p1 : Pkg := { p0 with fab := { p0.fab with sent := [] } }
        (r.phase = 1 → exec .memDone s = .next (s.withPkg p1))
        ∧ (r.phase = 2 → r.chg.dev ≠ none → exec .memDone s = .next (s.withPkg { p1 with fab := { p1.fab with flipAt := some s.pkg.now } }))
        ∧ (∀ d j a, r.phase = 3 → r.chg = ⟨some (d, j), some a⟩ → d < 2 ^ 15 → ∃ q y, exec .memDone s = .next (s.withPkg q) ∧ q.fab.run = none ∧ q.fab.sent = []
          ∧ s.pkg.Sent q p0.fab.ejq y ∧ pkDst y = d ∧ pkType y = (if j then 6 else 8) ∧ q.drs = s.pkg.drs)))
    ∧ (∀ c rest tabs dt, let p := s.pkg.elapse dt
      s.pkg.fab.run = none → s.pkg.fab.todo = c :: rest → s.pkg.isLead = true → s.pkg.mState = 2 →
      (∀ t, s.pkg.fab.flipAt = some t → p.now < t + leadWait → exec (.membershipChangeStart dt tabs) s = .next (s.withPkg p))
      ∧ ((∀ t, s.pkg.fab.flipAt = some t → t + leadWait ≤ p.now) → ∃ q, exec (.membershipChangeStart dt tabs) s = .next (s.withPkg q)
        ∧ q.fab.run = some ⟨c, 1, (s.pkg.rtGen s.pkg.rtActive + if s.pkg.fab.newLead then 2 else 1) % 16⟩ ∧ q.fab.todo = rest ∧ q.fab.newLead = false
        ∧ (∀ d ∈ s.pkg.audience c, ∃ m ∈ q.fab.sent, m.dst = d ∧ m.typ = 1) ∧ q.drs = p.drs))
    ∧ (∀ r, s.pkg.fab.run = some r → s.pkg.fab.sent = [] →
      (r.phase = 1 → ∃ q, exec .leadFlipPhase s = .next (s.withPkg q) ∧ q.fab.run = some { r with phase := 2 }
        ∧ q.fab.sent.map (fun m => (m.dst, m.typ, m.fields)) = (s.pkg.audience r.chg).map (fun d => (d, 2, r.gen)) ∧ q.drs = s.pkg.drs)
      ∧ (∀ d j t dt, let p := s.pkg.elapse dt
        r.phase = 2 → r.chg.dev = some (d, j) → s.pkg.fab.flipAt = some t →
        (p.now < t + leadWait → exec (.leadMapupdPhase dt) s = .next (s.withPkg p))
        ∧ (t + leadWait ≤ p.now → ∃ q, exec (.leadMapupdPhase dt) s = .next (s.withPkg q) ∧ q.fab.run = some { r with phase := 3 }
          ∧ q.fab.sent.map (fun m => (m.dst, m.typ)) = (s.pkg.audience r.chg).map (fun d => (d, 3)) ∧ q.drs = p.drs)))
    ∧ (∀ dt, let p := s.pkg.elapse dt
      exec (.probeTimeout dt) s = .next (s.withPkg { p with fab := { s.pkg.fab with
          probes := s.pkg.fab.probes.filter (fun x => decide (p.now < x.2.2 + leadWait))
          todo := s.pkg.fab.todo ++ (s.pkg.fab.probes.filter (fun x => decide (p.now ≥ x.2.2 + leadWait))).map (fun x => ⟨some (x.1, false), none⟩) } })
      ∧ (∀ m, s.pkg.fab.sent = [m] → m.dst < 2 ^ 15 → m.typ < 16 → m.more.length < 30 →
        (p.now < m.t + 100000000 → ∃ q, exec (.membershipResend dt) s = .next (s.withPkg q) ∧ q = p)
        ∧ (m.t + 100000000 ≤ p.now → ∃ q y, exec (.membershipResend dt) s = .next (s.withPkg q) ∧ q.fab.sent = [{ m with t := p.now }]
          ∧ s.pkg.Sent q s.pkg.fab.ejq y ∧ pkDst y = m.dst ∧ pkType y = m.typ ∧ q.drs = p.drs)))
    ∧ (∀ v : Word, let d := bits v 14 0
      ∃ q, exec (.fabLeadWrite v) s = .next (s.withPkg q) ∧ q.leadId = d ∧ q.isLead = s.pkg.isSelf d ∧ s.pkg.DrsBut q [fabBase + 0x120]
        ∧ (d = s.pkg.leadId → q.fab = s.pkg.fab)
        ∧ (d ≠ s.pkg.leadId → s.pkg.isSelf d = true → q.fab = { s.pkg.fab with newLead := true, flipAt := some s.pkg.now })
        ∧ (d ≠ s.pkg.leadId → s.pkg.isSelf d = false → q.fab = { s.pkg.fab with run := none, sent := [], todo := [], probes := [], newLead := false }))

/-- IOTU_INV of each TYPE, its completion and timeout, and a write of IOTU_FQBASE (R162, R163, R377, R156, 05_address_translation). -/
def Obligations.InvalidationsRemoveWhatMatches : Prop :=
  ∀ (s : State) (u : IotuN), s.pkg.live = true →
    let b := iotuBase (u : Nat)
    let r := b + 0x38
    let i := s.pkg.iotu (u : Nat)
    let cmd (ty : Nat) (v : Word) : Instr := if ty = 0 then .iotuInvAll u v else if ty = 1 then .iotuInvSrc u v else if ty = 2 then .iotuInvPasid u v
      else if ty = 3 then .iotuInvPage u v else .iotuInvVmid u v
    (∀ (v : Word) (ty : Nat), ty ≤ 4 →
      let page := s.pkg.rf (b + 0x30) 56 12 * 4096
      let pas (tag : Nat × Option Nat) : Prop := if v.getLsbD 3 then tag.2 = some (bits v 51 32) else tag.2 = none ∨ tag.2 = some 0
      let gone (tag : Nat × Option Nat) (vmid : Nat) (pg : Prop) : Prop := ty = 0 ∨ (ty = 1 ∧ tag.1 = bits v 31 16)
        ∨ (ty = 2 ∧ tag.1 = bits v 31 16 ∧ pas tag) ∨ (ty = 3 ∧ tag.1 = bits v 31 16 ∧ pas tag ∧ pg) ∨ (ty = 4 ∧ vmid = bits v 31 16)
      (s.pkg.rb r 0 = true → exec (cmd ty v) s = .next (s.withPkg (s.pkg.wb r 1 true)))
      ∧ (s.pkg.rb r 0 = false → ∃ q, exec (cmd ty v) s = .next (s.withPkg q) ∧ q.rb r 0 = true ∧ q.rb r 1 = s.pkg.rb r 1 ∧ s.pkg.DrsBut q [r]
        ∧ (∀ c, c ∈ (q.iotu u).ctx ↔ c ∈ i.ctx ∧ ¬ gone (c.src, c.pasid) c.vmid False)
        ∧ (∀ e, e ∈ (q.iotu u).tlb ↔ e ∈ i.tlb ∧ ¬ gone e.1 e.2.vmid (page / 2 ^ e.2.sz = e.2.va / 2 ^ e.2.sz))
        ∧ (∀ w, w ∈ (q.iotu u).walkc ↔ w ∈ i.walkc ∧ ¬ gone w.1 w.2.vmid (w.2.pre = walkPre page w.2.level))
        ∧ (q.iotu u).ats = (if v.getLsbD 4 = true ∧ (u : Nat) < 4 then
            some ⟨s.pkg.now, ty, bits v 31 16, if v.getLsbD 3 then some (bits v 51 32) else none, page⟩ else none)
        ∧ (∀ w, w ≠ (u : Nat) → q.iotu w = s.pkg.iotu w) ∧ q = { s.pkg with drs := q.drs, iotus := q.iotus }))
    ∧ (∃ q, exec (.iotuInvComplete u) s = .next (s.withPkg q) ∧ q.rb r 0 = false ∧ q.rb r 1 = s.pkg.rb r 1 ∧ q.rb r 2 = s.pkg.rb r 2
        ∧ q.iotu u = { i with ats := none } ∧ (∀ w, w ≠ (u : Nat) → q.iotu w = s.pkg.iotu w) ∧ s.pkg.DrsBut q [r] ∧ q = { s.pkg with drs := q.drs, iotus := q.iotus })
    ∧ (∀ (dt : Nat), let p := s.pkg.elapse dt
        (i.ats = none → exec (.atsInvalidateTimeout u dt) s = .next (s.withPkg p))
        ∧ (∀ t, i.ats = some t → p.now < t.t0 + p.rf (rcBase u + 0x18) 15 0 * 1000000000 → exec (.atsInvalidateTimeout u dt) s = .next (s.withPkg p))
        ∧ (∀ t, i.ats = some t → (u : Nat) < 4 → t.t0 + p.rf (rcBase u + 0x18) 15 0 * 1000000000 ≤ p.now → ∃ q, exec (.atsInvalidateTimeout u dt) s = .next (s.withPkg q)
          ∧ q.rb r 0 = false ∧ q.rb r 2 = true ∧ q.iotu u = { i with ats := none } ∧ p.DrsBut q [r] ∧ q = { p with drs := q.drs, iotus := q.iotus }))
    ∧ (∀ v : Word, ∃ q, exec (.iotuFqbaseWrite u v) s = .next (s.withPkg q)
        ∧ q.rf (b + 0x10) 4 0 = (if 4 ≤ bits v 4 0 ∧ bits v 4 0 ≤ 16 then bits v 4 0 else s.pkg.rf (b + 0x10) 4 0) ∧ q.rf (b + 0x10) 57 12 = bits v 57 12
        ∧ q.rf (b + 0x18) 15 0 = 0 ∧ q.rf (b + 0x18) 31 16 = 0 ∧ q.rf (b + 0x18) 63 32 = s.pkg.rf (b + 0x18) 63 32
        ∧ s.pkg.DrsBut q [b + 0x10, b + 0x18] ∧ q = { s.pkg with drs := q.drs })

/-- ECAM_ACCESS and CRS_RETRY complete: what a configuration access of a thread reads, writes, sends and waits for (R365, R366, 07_coherence_and_ordering, 08_mortar_mesh, 14_pcie_root_and_endpoint). -/
def Obligations.ThreadsReachConfigurationSpace : Prop :=
  ∀ (s : State) (h : Htid) (q : DevReq) (a : Cpl) (dt : Nat), s.pkg.live = true →
    let p := s.pkg.elapse dt
    let gone : Pkg := { s.pkg with devq := s.pkg.devq.erase q }
    let late : Pkg := { p with devq := s.pkg.devq.erase q }
    let o := q.pa % 2 ^ 36
    let rid := o / 4096 % 65536
    let off := o % 4096
    let all1 := 2 ^ (8 * q.n) - 1
    let ends (z : Pkg) (x : Nat) : State :=
      s.withPkg (if q.wr then z.stRd (stCore (q.h / 8)) 0 ((z.now - q.t0) / 1000) else (z.stAnswer q.h q.n).partDone q.h q.part x)
    (s.pkg.devq.find? (fun d => d.h == (h : Nat) && region d.pa == 2 && !d.sent) = some q →
      (q.wait = true → ∀ d ∈ s.pkg.devq, d.h = (h : Nat) → d.wait = true → d.sent = false) →
      (2 ^ 28 ≤ o → exec (.ecamAccess h a) s = .next (ends gone all1))
      ∧ (∀ f, o < 2 ^ 28 → cfnOf rid = some f →
        (s.pkg.cfnLive f = false → exec (.ecamAccess h a) s = .next (ends gone all1))
        ∧ (s.pkg.cfnLive f = true → q.wr = false → exec (.ecamAccess h a) s = .next (ends gone
            ((s.pkg.cfgRead f (off / 4 * 4)).toNat / 2 ^ (8 * (off % 4)) % 2 ^ (8 * q.n))))
        ∧ (∀ r k, f = .rp r k → s.pkg.cfnLive f = true → s.pkg.inFlr f = false → q.wr = true → off / 4 * 4 ≠ 0x44 → off / 4 * 4 ≠ 0x164 → off / 4 * 4 ≠ 0x168 →
          ∃ t, exec (.ecamAccess h a) s = .next (s.withPkg t) ∧ t = { s.pkg with pcie := t.pcie, noc := t.noc, devq := s.pkg.devq.erase q }
            ∧ t.cfg f (off / 4 * 4) = (f.reg (off / 4 * 4)).write (s.pkg.cfg f (off / 4 * 4)) (cfgBe off q.n) (BitVec.ofNat 32 (q.data * 2 ^ (8 * (off % 4))))
            ∧ (∀ g e, 1024 * g.rid + e / 4 ≠ 1024 * f.rid + off / 4 → t.cfg g e = s.pkg.cfg g e)))
      ∧ (o < 2 ^ 28 → cfnOf rid = none → s.pkg.busPort (rid / 256) = none → exec (.ecamAccess h a) s = .next (ends gone all1))
      ∧ (∀ port, o < 2 ^ 28 → cfnOf rid = none → s.pkg.busPort (rid / 256) = some port →
        (s.pkg.linkOk (port / 8) (port % 8) = false → exec (.ecamAccess h a) s = .next
          (ends ((gone.aerUncor (port / 8) (port % 8) 20 rid).rpPio (port / 8) (port % 8) 0) all1))
        ∧ (s.pkg.linkOk (port / 8) (port % 8) = true →
          (∀ x, a = .ok x → q.wr = false → exec (.ecamAccess h a) s = .next (ends { gone with reply := .tlp port true false o q.n q.data q.be false } (x % 2 ^ (8 * q.n))))
          ∧ (∀ x, a = .ok x → q.wr = true → s.pkg.bmeHeld = false → ∃ t, exec (.ecamAccess h a) s = .next (s.withPkg t)
            ∧ t.reply = .tlp port true true o q.n q.data q.be false ∧ t = { gone with reply := t.reply, pcie := t.pcie, noc := t.noc } ∧ t.pcie.cfg = s.pkg.pcie.cfg)
          ∧ (a = .crs → q.wr = false → (off ≠ 0 ∨ s.pkg.cfgB (.rp (port / 8) (port % 8)) 0x7C 4 = false) → exec (.ecamAccess h a) s = .next (s.withPkg
            { s.pkg with reply := .tlp port true false o q.n q.data q.be false
                         devq := s.pkg.devq.map (fun d => if d = q then { q with sent := true, port := port, t0 := s.pkg.now } else d) }))
          ∧ (a = .crs → q.wr = false → off = 0 → 2 ≤ q.n → s.pkg.cfgB (.rp (port / 8) (port % 8)) 0x7C 4 = true → exec (.ecamAccess h a) s = .next
            (ends { gone with reply := .tlp port true false o q.n q.data q.be false } (2 ^ (8 * q.n) - 2 ^ 16 + 1))))))
    ∧ (s.pkg.devq.find? (fun d => d.h == (h : Nat) && region d.pa == 2 && d.sent) = some q →
      let fails (bit pio : Nat) : State := ends ((late.aerUncor (q.port / 8) (q.port % 8) bit (q.pa / 4096 % 65536)).rpPio (q.port / 8) (q.port % 8) pio) all1
      (p.now < q.t0 + 1000000000 → exec (.crsRetry h dt a) s = .next (s.withPkg p))
      ∧ (q.t0 + 1000000000 ≤ p.now →
        (∀ x, a = .ok x → exec (.crsRetry h dt a) s = .next (ends late (x % 2 ^ (8 * q.n))))
        ∧ (a = .ur → exec (.crsRetry h dt a) s = .next (fails 20 0))
        ∧ (a = .ca → exec (.crsRetry h dt a) s = .next (fails 15 1))
        ∧ (a = .crs → (q.wr = true ∨ off ≠ 0) → p.now < q.t0 + 1000000000000 → exec (.crsRetry h dt a) s = .next (s.withPkg p))
        ∧ (a = .crs → (q.wr = true ∨ off ≠ 0) → q.t0 + 1000000000000 ≤ p.now → exec (.crsRetry h dt a) s = .next (fails 14 2))))

/-- MMIO_ACCESS, PCIE_COMPLETION and COMPLETION_TIMEOUT complete: what a thread's access to a device sends, reads and faults with (R372, R373, R379, R199, R201, 14_pcie_root_and_endpoint, 07_coherence_and_ordering). -/
def Obligations.ThreadsReachDevices : Prop :=
  ∀ (s : State) (h : Htid) (q : DevReq) (a : Cpl) (dt : Nat), s.pkg.live = true →
    let p := s.pkg.elapse dt
    let gone : Pkg := { s.pkg with devq := s.pkg.devq.erase q }
    (∀ lo k, s.pkg.devq.find? (fun d => d.h == (h : Nat) && region d.pa == 1 && !d.sent) = some q → runOf q.be q.n = some (lo, k) →
      (q.wait = true → ∀ d ∈ s.pkg.devq, d.h = (h : Nat) → d.wait = true → d.sent = false) →
      (q.wr = false → ∀ d ∈ s.pkg.devq.takeWhile (· != q), d.wr = true → d.h / 8 = (h : Nat) / 8 → d.pa / 64 ≠ q.pa / 64) →
      let x := q.data / 2 ^ (8 * lo) % 2 ^ (8 * k)
      let took (z : Pkg) : State := s.withPkg ((if q.wait then z.stRd (stCore (q.h / 8)) 0 ((z.now - q.t0) / 1000) else z).entGo q.h)
      let faults : State := s.withPkg ((gone.stAnswer q.h 0).partFault q.h q.part 2)
      (s.pkg.mmTarget (q.pa + lo) = none →
        (q.wr = false → exec (.mmioAccess h) s = .next faults)
        ∧ (q.wr = true → exec (.mmioAccess h) s = .next (s.withPkg ((gone.ioDiscard ((s.pkg.apertureOf q.pa).getD 0) none q.pa (some q.h)).entGo q.h))))
      ∧ (∀ r n, s.pkg.mmTarget (q.pa + lo) = some (.port r n) →
        (s.pkg.linkOk r n = true →
          (q.wr = true → exec (.mmioAccess h) s = .next (took { gone with reply := .tlp (8 * r + n) false true (q.pa + lo - 2 ^ 51) k x q.be false }))
          ∧ (q.wr = false → exec (.mmioAccess h) s = .next (s.withPkg
            { s.pkg with reply := .tlp (8 * r + n) false false (q.pa + lo - 2 ^ 51) k x q.be false
                         devq := s.pkg.devq.map (fun d => if d = q then { q with sent := true, port := 8 * r + n, t0 := s.pkg.now } else d) })))
        ∧ (s.pkg.linkOk r n = false → q.wr = false → exec (.mmioAccess h) s = .next faults)
        ∧ (s.pkg.linkOk r n = false → q.wr = true → n < 8 → exec (.mmioAccess h) s = .next (s.withPkg ((gone.ioDiscard r (some n) q.pa (some q.h)).entGo q.h))))
      ∧ (∀ t, s.pkg.mmTarget (q.pa + lo) = some t →
        (∀ y, q.wr = false → gone.barRead t k = some y → exec (.mmioAccess h) s = .next (s.withPkg ((gone.stAnswer h k).partDone h q.part y)))
        ∧ (∀ z, q.wr = true → gone.barPut t k x = some z → exec (.mmioAccess h) s = .next (took z))))
    ∧ (s.pkg.mmOut h = none → exec (.pcieCompletion h a) s = .next s ∧ exec (.completionTimeout h dt) s = .next (s.withPkg p))
    ∧ (s.pkg.mmOut h = some q →
      let r := q.port / 8
      let n := q.port % 8
      let fault := (gone.stAnswer h 0).partFault h q.part 2
      (∀ x, a = .ok x → exec (.pcieCompletion h a) s = .next (s.withPkg ((gone.stAnswer h q.n).partDone h q.part (x % 2 ^ (8 * q.n)))))
      ∧ (a = .ep → exec (.pcieCompletion h a) s = .next (s.withPkg (fault.aerUncor r n 12 0)))
      ∧ (a = .ca → exec (.pcieCompletion h a) s = .next (s.withPkg ((fault.aerUncor r n 15 0).rpPio r n 17)))
      ∧ (a = .ur → exec (.pcieCompletion h a) s = .next (s.withPkg ((fault.aerUncor r n 20 0).rpPio r n 16)))
      ∧ (p.now < q.t0 + p.cplTimeout r n → exec (.completionTimeout h dt) s = .next (s.withPkg p))
      ∧ (q.t0 + p.cplTimeout r n ≤ p.now → exec (.completionTimeout h dt) s = .next (s.withPkg
          (((({ p with devq := s.pkg.devq.erase q }.stAnswer h 0).partFault h q.part 2).aerUncor r n 14 0).rpPio r n 18))))

/-- Inbound requests, ATS translation requests, INTx, link up and down, error reports and PTM at a root port (R358, R361, R363, R364, R374, R375, R376, R377, R379, R320, 14_pcie_root_and_endpoint). -/
def Obligations.RootPortsTakeRequestsAndEvents : Prop :=
  ∀ (s : State) (r : RcN) (n : PortN) (q : PcieReq) (dt : Nat), s.pkg.live = true →
    let f : Cfn := .rp (r : Nat) (n : Nat)
    let st := rpStat r n
    let rid := q.rid.toNat
    let len := inbLen q.op
    let p := s.pkg.elapse dt
    let open_ := s.pkg.portUp r n = true ∧ s.pkg.linkOk r n = true ∧ s.pkg.inboundHeld = false
    let io (k : AccKind) (ats : Bool) : IoReq := { src := rid, pasid := q.pasid.map (·.toNat), priv := q.priv, addr := q.addr, kind := k, ats := ats }
    let fails (t : Pkg) (bit : Nat) : Pkg := match q.op with
      | .wr _ _ _ _ => t.aerUncor r n bit rid
      | _ => { t.aerUncor r n bit rid with reply := .cpl 1 0 0 }
    let k := 2 * (Win.rc r).stop
    ((s.pkg.portUp r n = false ∨ s.pkg.linkOk r n = false ∨ s.pkg.inboundHeld = true) →
      exec (.inboundRequest r n q) s = .next s ∧ exec (.atsTranslationRequest r n q) s = .next s)
    ∧ (open_ → (4096 < q.addr.toNat % 4096 + len ∨ len = 0) → exec (.inboundRequest r n q) s = .next (s.withPkg (s.pkg.aerUncor r n 18 rid)))
    ∧ (open_ → q.addr.toNat % 4096 + len ≤ 4096 → len ≠ 0 →
      (s.pkg.bme f = false → exec (.inboundRequest r n q) s = .next (s.withPkg (fails s.pkg 20)))
      ∧ (s.pkg.inbGate r n q = none → q.translated = false →
        (s.pkg.rb (iotuBase r) 0 = false → exec (.inboundRequest r n q) s = .next (s.withPkg (fails s.pkg 20)))
        ∧ (∀ t x, s.pkg.ioRequest r (io (inbKindOf q.op) false) = (t, .ok x) → t.regionErr x.pa x.ai = none →
          (∀ dw l, region x.pa = 0 → q.op = .rd dw → t.dmaWait x.pa len false = false → t.readBytes x.pa len = (l, false) → t.dsym = [] →
            exec (.inboundRequest r n q) s = .next (s.withPkg { (t.stReq k 0).stRd k len 0 with reply := .cpl 0 len (l.foldr (fun b y => b.toNat + 256 * y) 0) }))
          ∧ (∀ l fbe lbe, region x.pa = 0 → q.op = .wr l fbe lbe false → x.pa % 64 + len ≤ 64 → t.tdmState = 0 → t.tdm.track = false →
            t.mergeAny (x.pa / 64) = none → t.holders (x.pa / 64) = [] → t.findL3 (x.pa / 64) = none → t.dsym = [] →
            ∃ z, exec (.inboundRequest r n q) s = .next (s.withPkg z) ∧ z.drs = t.drs ∧ ∀ j, j < 64 →
              let old := ((t.curLine (x.pa / 64)).1).extractLsb' (8 * j) 8
              ((z.curLine (x.pa / 64)).1).extractLsb' (8 * j) 8
                = (if x.pa % 64 ≤ j ∧ j < x.pa % 64 + len ∧ dmaOn len fbe.toNat lbe.toNat (j - x.pa % 64) = true then l.getD (j - x.pa % 64) 0 else old))
          ∧ (∀ b0 b1 b2 b3 lbe h, region x.pa = 3 → x.ai = 2 → q.op = .wr [b0, b1, b2, b3] 15#4 lbe false → ticMsiAt x.pa = some h →
            exec (.inboundRequest r n q) s = .next (s.withPkg ((t.stReq k 4).msiIn h b0.toNat)))
          ∧ (∀ op w y c old, region x.pa = 0 → q.op = .atom op w y c → atomOk op w x.pa = true → t.dmaWait x.pa w true = false → t.homeRead x.pa w = (old, false) →
            ∃ z, exec (.inboundRequest r n q) s = .next (s.withPkg z) ∧ z.reply = .cpl 0 w old))))
    ∧ (open_ → s.pkg.inbGate r n q = none →
      (∀ t e, s.pkg.ioRequest r (io .load true) = (t, .error e) → exec (.atsTranslationRequest r n q) s = .next (s.withPkg
        (if e.kind ≤ 1 then { t with reply := .ats false false e.priv false 0 0 } else { t.aerUncor r n 20 rid with reply := .cpl 1 0 0 })))
      ∧ (∀ t x, s.pkg.ioRequest r (io .load true) = (t, .ok x) → x.e = none →
        exec (.atsTranslationRequest r n q) s = .next (s.withPkg { t with reply := .ats true true q.priv false x.pa 4096 }))
      ∧ (∀ t x e, s.pkg.ioRequest r (io .load true) = (t, .ok x) → x.e = some e → exec (.atsTranslationRequest r n q) s = .next (s.withPkg { t with
          reply := .ats (e.r && e.s2.all (·.r)) (e.w && e.s2.all (·.w)) (q.priv && !e.u) e.glob (x.pa / 2 ^ e.sz * 2 ^ e.sz) (2 ^ e.sz) })))
    ∧ (s.pkg.portUp r n = true → exec (.intxMessage r n) s = .next (s.withPkg (s.pkg.sat st 31 16)))
    ∧ (s.pkg.portUp r n = false → exec (.intxMessage r n) s = .next s)
    ∧ (p.portUp r n = true → p.linkOk r n = true → exec (.ptmRequest r n dt) s = .next (s.withPkg { p with reply := .cpl 0 8 p.rdtime.toNat }))
    ∧ ((p.portUp r n = false ∨ p.linkOk r n = false) → exec (.ptmRequest r n dt) s = .next (s.withPkg p))
    ∧ (∀ (speed : Fin 7) (width : BitVec 6) (flit : Bool),
      let ok := s.pkg.portUp r n = true ∧ s.pkg.perstN r n = true ∧ s.pkg.rb st 13 = false ∧ s.pkg.rb st 0 = false ∧ s.pkg.cfgB f 0x70 4 = false ∧ (speed : Nat) ≠ 0
        ∧ (speed : Nat) ≤ s.pkg.cfgF f 0x6C 3 0 ∧ width.toNat ∈ [1, 2, 4, 8, 16, 32] ∧ width.toNat ≤ s.pkg.cfgF f 0x6C 9 4
      (ok → ∃ z, exec (.pcieLinkUp r n speed width flit) s = .next (s.withPkg z) ∧ z.rb st 0 = true ∧ z.rf st 6 4 = speed ∧ z.rf st 12 7 = width.toNat
        ∧ z.rb st 3 = (flit || (speed : Nat) == 6) ∧ (s.pkg.cfgB f 0x60 24 = true → z.cfgB f 0x78 24 = true ∧ z.cfgB f 0x78 19 = true))
      ∧ (¬ ok → exec (.pcieLinkUp r n speed width flit) s = .next s))
    ∧ (s.pkg.rb st 0 = false → exec (.pcieLinkDown r n) s = .next s)
    ∧ (s.pkg.rb st 0 = true → s.pkg.cfgF f 0x164 17 16 = 0 → ∃ z : Pkg, exec (.pcieLinkDown r n) s = .next (s.withPkg (z.failPort r n)) ∧ z.rf st 12 0 = 0
        ∧ z.devq = s.pkg.devq ∧ (s.pkg.cfgB f 0x60 24 = true → z.cfgB f 0x78 24 = true ∧ z.cfgB f 0x78 19 = true) ∧ z.rb st 13 = s.pkg.rb st 13)
    ∧ (∀ e, s.pkg.portUp r n = false → exec (.pcieErrorReport r n e) s = .next s)
    ∧ (s.pkg.portUp r n = true →
      (∀ w : BitVec 16, s.pkg.cfgB f 0x130 0 = false → ∃ z, exec (.pcieErrorReport r n (.cor w)) s = .next (s.withPkg z)
        ∧ z.cfgB f 0x130 0 = true ∧ z.cfgF f 0x134 15 0 = w.toNat ∧ z.cfgB f 0x130 1 = s.pkg.cfgB f 0x130 1)
      ∧ (∀ w : BitVec 16, s.pkg.cfgB f 0x130 0 = true → ∃ z, exec (.pcieErrorReport r n (.cor w)) s = .next (s.withPkg z)
        ∧ z.cfgB f 0x130 1 = true ∧ z.cfgF f 0x134 15 0 = s.pkg.cfgF f 0x134 15 0)
      ∧ (∀ (w : BitVec 16) (fatal : Bool), s.pkg.cfgB f 0x130 2 = false → s.pkg.cfgF f 0x164 17 16 = 0 →
        ∃ z, exec (.pcieErrorReport r n (if fatal then .fatal w else .nonfatal w)) s = .next (s.withPkg z)
          ∧ z.cfgB f 0x130 2 = true ∧ z.cfgB f 0x130 4 = fatal ∧ z.cfgB f 0x130 (if fatal then 6 else 5) = true ∧ z.cfgF f 0x134 31 16 = w.toNat)
      ∧ (∀ b : Fin 32, s.pkg.cfgB f 0x114 b = true → exec (.pcieErrorReport r n (.ownCor b)) s = .next (s.withPkg (s.pkg.cfgSet f 0x110 b b 1)))
      ∧ (∀ b : Fin 32, s.pkg.cfgB f 0x108 b = true → exec (.pcieErrorReport r n (.ownUncor b)) s = .next (s.withPkg (s.pkg.cfgSet f 0x104 b b 1))))

/-- Doorbells, descriptor fetch, dispatch to a pipeline, NOP descriptors and the enabling of a queue (R389, R390, R391, R392, R399, R401, 15_compression_instances). -/
def Obligations.RingsAreFetchedAndDispatched : Prop :=
  ∀ (s : State) (k : CxN), s.pkg.live = true →
    let jobs := (s.pkg.cx k).jobs
    (∀ (n : InstN) (j : QueueN) (v : Word),
      let q := if (n : Nat) = 0 then (j : Nat) else s.pkg.instBase k n + (j : Nat)
      let r := cxQ k q
      let m := 2 ^ s.pkg.rf r 4 1
      let head := s.pkg.rf (r + 0x10) 15 0
      let tail := s.pkg.rf (r + 0x10) 31 16
      let good := v.toNat < 2 ^ 16 ∧ v.toNat < m ∧ (tail + m - head) % m ≤ (v.toNat + m - head) % m
      let inView := (n : Nat) = 0 ∨ (j : Nat) < s.pkg.instCount k n
      let up := s.pkg.fabMode ≠ 2 ∧ s.pkg.instEn k n = true ∧ s.pkg.ownsQ k n q = true ∧ s.pkg.resetting k n = false ∧ s.pkg.rb r 0 = true
      (inView → up → good → exec (.cxDoorbell k n j v) s = .next (s.withPkg (s.pkg.wf (r + 0x10) 31 16 v.toNat)))
      ∧ (inView → up → ¬ good → exec (.cxDoorbell k n j v) s = .next (s.withPkg (s.pkg.wb (r + 0x18) 1 true)))
      ∧ (¬ (inView ∧ up) → exec (.cxDoorbell k n j v) s = .next s)
      ∧ (inView → s.pkg.cxOwner k q = some (n : Nat) → s.pkg.resetting k n = false →
        (s.pkg.rb r 0 = false → ∃ z, exec (.cxQueueEnable k n j true) s = .next (s.withPkg z) ∧ z.rb r 0 = true ∧ z.rf r 4 1 = s.pkg.rf r 4 1
          ∧ z.rf r 25 16 = s.pkg.rf r 25 16 ∧ z.rb (r + 0x18) 0 = false ∧ s.pkg.DrsBut z [r, r + 0x18] ∧ z = { s.pkg with drs := z.drs })
        ∧ (s.pkg.rb r 0 = true → ∃ z, exec (.cxQueueEnable k n j false) s = .next (s.withPkg z) ∧ z.rb r 0 = false
          ∧ z.rb (r + 0x18) 0 = (s.pkg.rf (r + 0x18) 31 16 == 0) ∧ z.rf (r + 0x18) 63 16 = s.pkg.rf (r + 0x18) 63 16
          ∧ s.pkg.DrsBut z [r, r + 0x18] ∧ (z.cx k).jobs = jobs ∧ z = { s.pkg with drs := z.drs, cxs := z.cxs }))
      ∧ (∀ o on, inView → s.pkg.cxOwner k q = some o → o ≠ (n : Nat) → exec (.cxQueueEnable k n j on) s = .next s)
      ∧ (inView → s.pkg.cxOwner k q = none → s.pkg.rb r 0 = false → s.pkg.instEn k n = false → ∃ z, exec (.cxQueueEnable k n j true) s = .next (s.withPkg z)
          ∧ z.rb r 0 = false ∧ z.rb (r + 0x18) 4 = true ∧ s.pkg.DrsBut z [r, r + 0x18] ∧ z = { s.pkg with drs := z.drs }))
    ∧ (∀ (q : QueueN),
      let r := cxQ k q
      let head := s.pkg.rf (r + 0x10) 15 0
      (s.pkg.cxOwner k q = none → exec (.descriptorFetch k q) s = .next s)
      ∧ (∀ n, s.pkg.cxOwner k q = some n →
        let cr := cxInst k n + 8
        let ready := s.pkg.instEn k n = true ∧ s.pkg.resetting k n = false ∧ s.pkg.rb r 0 = true ∧ head ≠ s.pkg.rf (r + 0x10) 31 16 ∧ s.pkg.cxMaster k n = true
          ∧ s.pkg.rf cr 30 16 < s.pkg.instCred k n
        let a := BitVec.ofNat 64 (s.pkg.rf (r + 8) 63 12 * 4096 + 64 * head)
        let out := (s.pkg.cx k).fetches.find? (·.q == (q : Nat))
        (¬ ready → exec (.descriptorFetch k q) s = .next s)
        ∧ (∀ x, ready → out = some x → x.ask.ans = none → exec (.descriptorFetch k q) s = .next s)
        ∧ (∀ t x, ready → out = none → s.pkg.cxGet k n (s.pkg.instGen k n) a 64 = (t, .ask x) → (t.cx k).fetches = (s.pkg.cx k).fetches →
          exec (.descriptorFetch k q) s = .next (s.withPkg (t.updCx k (fun c => { c with fetches := c.fetches ++ [{ q := q, inst := n, ask := x }] }))))
        ∧ (∀ t l, ready → ((out = none ∧ s.pkg.cxGet k n (s.pkg.instGen k n) a 64 = (t, .bytes l))
            ∨ ∃ x y, out = some x ∧ x.ask.ans = some (0, y) ∧ l = leBytes 64 y
              ∧ t = (s.pkg.updCx k (fun c => { c with fetches := c.fetches.filter (·.q != (q : Nat)) })).stRd (cxStat k) 64 0) → ∃ z d, exec (.descriptorFetch k q) s = .next (s.withPkg z)
          ∧ (z.cx k).jobs = (t.cx k).jobs ++ [d] ∧ d.q = (q : Nat) ∧ d.inst = n ∧ d.gen = s.pkg.instGen k n ∧ d.j = (q : Nat) - t.instBase k n
          ∧ d.pipe = none ∧ d.started = false ∧ d.res = none
          ∧ (∀ i, i < 8 → d.d.getD i 0 = BitVec.ofNat 64 (leNat ((l.drop (8 * i)).take 8)))
          ∧ z.rf (r + 0x10) 15 0 = (head + 1) % 2 ^ t.rf r 4 1 % 65536 ∧ z.rf (r + 0x10) 31 16 = t.rf (r + 0x10) 31 16
          ∧ z.rf (r + 0x18) 31 16 = (t.rf (r + 0x18) 31 16 + 1) % 65536 ∧ z.rf cr 30 16 = (t.rf cr 30 16 + 1) % 32768 ∧ t.DrsBut z [r + 0x10, r + 0x18, cr])
        ∧ (∀ t e, ready → out = none → s.pkg.cxGet k n (s.pkg.instGen k n) a 64 = (t, .fail e) → e.status ≠ 6 → e.f = none → ∃ z, exec (.descriptorFetch k q) s = .next (s.withPkg z)
          ∧ z.rb r 0 = false ∧ z.rb (r + 0x18) 2 = true ∧ z.rb (r + 0x18) 0 = (t.rf (r + 0x18) 31 16 == 0) ∧ t.DrsBut z [r, r + 0x18] ∧ z = { t with drs := z.drs })))
    ∧ (∀ (comp : Bool) (p : Fin 4),
      let kind := if comp then 0 else 1
      let pipe := if comp then (p : Nat) else 4 + (p : Nat)
      let busy := jobs.any (fun j => j.pipe == some pipe && j.res.isNone)
      (busy = true → exec (.descriptorDispatch k comp p) s = .next s)
      ∧ ((∀ n, n < 257 → s.pkg.cxPick k kind n = none) → exec (.descriptorDispatch k comp p) s = .next s)
      ∧ (∀ n x, busy = false → n < 257 → s.pkg.cxPick k kind n = some x → ∃ z i j, exec (.descriptorDispatch k comp p) s = .next (s.withPkg z)
        ∧ jobs[i]? = some j ∧ j.kind = some kind ∧ mayStart jobs i = true ∧ (z.cx k).jobs[i]? = some { j with pipe := some pipe, started := true }
        ∧ (∀ y, y ≠ i → (z.cx k).jobs[y]? = jobs[y]?) ∧ z = { s.pkg with cxs := z.cxs }))
    ∧ (∀ (ix : Nat),
      (jobs[ix]? = none → exec (.nop k ix) s = .next s)
      ∧ (∀ j, jobs[ix]? = some j →
        ((j.bad = true ∨ j.op ≠ 0 ∨ mayStart jobs ix = false) → exec (.nop k ix) s = .next s)
        ∧ (j.bad = false → j.op = 0 → mayStart jobs ix = true → ∃ z, exec (.nop k ix) s = .next (s.withPkg z)
          ∧ (z.cx k).jobs[ix]? = some { j with started := true, res := some { status := 0 } } ∧ (∀ y, y ≠ ix → (z.cx k).jobs[y]? = jobs[y]?) ∧ z = { s.pkg with cxs := z.cxs })))

/-- COMPRESS, DECOMPRESS and CHECKSUM of a descriptor, and its completion with record, counters and IDLE (R382, R384, R386, R387, R388, R394, R395, R396, R397, R404, 15_compression_instances). -/
def Obligations.PipelinesCompressDecompressAndCheck : Prop :=
  ∀ (s : State) (k : CxN), s.pkg.live = true →
    let jobs := (s.pkg.cx k).jobs
    let fresh (j : CxJob) : Prop := s.pkg.cxMaster k j.inst = true ∧ j.out = none ∧ j.ask = none ∧ j.got = []
    let pull (j : CxJob) (more : List Byte → Bool) := s.pkg.cxPull k j.inst j.gen more (j.srcLen + 1) (j.d.getD 1 0) j.srcLen []
    let writes (c : Instr) (t : Pkg) (i : Nat) (j : CxJob) (out : List Byte) (r : CxRes) : Prop :=
      let o := out.take j.dstLen
      ∀ w n g, (t.updJob k i (fun x => { x with ask := none, out := some (o, 0, r) })).cxPush k j.inst j.gen (j.d.getD 2 0) o (o.length + 1) 0 = (w, n, g) →
        (g = none → exec c s = .next (s.withPkg (w.updJob k i (fun x => { x with ask := none, res := some { r with produced := n } }))))
        ∧ (∀ e, g = some (.fail e) → e.f = none → exec c s = .next (s.withPkg (w.updJob k i (fun x =>
            { x with ask := none, res := some { r with status := e.status, produced := n, check := 0, erroff := 0 } }))))
        ∧ (∀ x, g = some (.ask x) → exec c s = .next (s.withPkg (w.updJob k i (fun y => { y with out := some (o, n, r), ask := some x }))))
    (∀ (p : Fin 4) (chk : Option Nat),
      let q := 4 + (p : Nat)
      let idle (c : Instr) (pipe op : Nat) : Prop := (s.pkg.cxOn k pipe op = none → exec c s = .next s)
        ∧ (∀ i j, s.pkg.cxOn k pipe op = some (i, j) → (s.pkg.cxMaster k j.inst = false ∨ ∃ x, j.ask = some x ∧ x.ans = none) → exec c s = .next s)
      let asks (c : Instr) (pipe op : Nat) (more : CxJob → List Byte → Bool) : Prop := ∀ i j t acc x, s.pkg.cxOn k pipe op = some (i, j) → fresh j →
        pull j (more j) = (t, acc, some (.ask x)) → exec c s = .next (s.withPkg (t.updJob k i (fun y => { y with got := acc, ask := some x })))
      idle (.compress k p chk) p 1 ∧ idle (.decompress k p) q 2 ∧ idle (.checksum k p) q 3
      ∧ asks (.compress k p chk) p 1 (fun _ _ => true) ∧ asks (.checksum k p) q 3 (fun _ _ => true)
      ∧ asks (.decompress k p) q 2 (fun j l => (unframe j.frame j.adler l j.dstLen).more)
      ∧ (∀ i j t src, s.pkg.cxOn k p 1 = some (i, j) → fresh j → pull j (fun _ => true) = (t, src, none) → (t.cx k).jobs = jobs →
        let c := if j.frame = 1 ∨ (j.frame = 0 ∧ j.adler = true) then adler32 src else crc32 src
        let stored := (deflate j.level j.static src none).2
        let out := frameHead j.frame j.level ++ (deflate j.level j.static src none).1 ++ frameTail j.frame c (src.length % 2 ^ 32)
        let t1 := t.updJob k i (fun x => { x with got := src, ask := none })
        (chk = none → out.length ≤ j.dstLen → writes (.compress k p chk) t1 i j out { status := 0, stored := stored, consumed := src.length, check := c })
        ∧ (chk = none → j.dstLen < out.length →
          writes (.compress k p chk) t1.draw.2 i j out { status := 1, stored := stored, consumed := t1.draw.1.toNat % (src.length + 1) })
        ∧ (∀ b, chk = some b → s.pkg.boot.compat = false → t.boot.compat = false → exec (.compress k p chk) s = .next (s.withPkg
            (t1.ueError (.cx k) { cls := 2, code := 0x06, addr := some (j.d.getD 1 0).toNat, info := j.inst + j.q * 2 ^ 16 }))))
      ∧ (∀ i j t src, s.pkg.cxOn k q 2 = some (i, j) → fresh j → pull j (fun l => (unframe j.frame j.adler l j.dstLen).more) = (t, src, none) → (t.cx k).jobs = jobs →
        let u := unframe j.frame j.adler src j.dstLen
        writes (.decompress k p) (t.updJob k i (fun x => { x with got := src, ask := none })) i j u.out
          { status := u.status, consumed := u.consumed, check := u.check, erroff := u.erroff })
      ∧ (∀ i j t src fl, s.pkg.cxOn k q 3 = some (i, j) → fresh j → pull j (fun _ => true) = (t, src, fl) →
        let ends (r : CxRes) : State := s.withPkg ((t.updJob k i (fun x => { x with got := src, ask := none })).updJob k i (fun x => { x with res := some r }))
        (fl = none → exec (.checksum k p) s = .next (ends { status := 0, consumed := src.length, check := if j.adler then adler32 src else crc32 src }))
        ∧ (∀ e, fl = some (.fail e) → e.status ≠ 6 → e.f = none → exec (.checksum k p) s = .next (ends { status := e.status, consumed := src.length }))))
    ∧ (∀ (ix : Nat) (j : CxJob), jobs[ix]? = some j →
      let res : Option CxRes := if j.bad = true ∧ j.res = none then (if mayStart jobs ix = true then some { status := 3 } else none) else j.res
      let st := cxQ k j.q + 0x18
      let cr := cxInst k j.inst + 8
      let done (t z : Pkg) : Prop := (z.cx k).jobs = (t.cx k).jobs.eraseIdx ix ∧ z.rf st 31 16 = t.rf st 31 16 - 1 ∧ z.rf st 63 32 = (t.rf st 63 32 + 1) % 2 ^ 32
        ∧ z.rf cr 30 16 = t.rf cr 30 16 - 1 ∧ z.rb st 0 = (!t.rb (cxQ k j.q) 0 && t.rf st 31 16 - 1 == 0)
        ∧ t.DrsBut z [st, cr] ∧ z = { t with drs := z.drs, cxs := z.cxs }
      (res = none → exec (.descriptorComplete k ix) s = .next s)
      ∧ (s.pkg.cxMaster k j.inst = false → exec (.descriptorComplete k ix) s = .next s)
      ∧ (∀ r, res = some r → s.pkg.cxMaster k j.inst = true → j.irq = false →
        (j.cr = false → ∃ z, exec (.descriptorComplete k ix) s = .next (s.withPkg z) ∧ done s.pkg z)
        ∧ (∀ t g, j.cr = true → j.ask = none → s.pkg.cxPut k j.inst j.gen (BitVec.ofNat 64 (j.f 4 63 5 * 32)) (leBytes 32 (1 + (if r.stored then 2 else 0) + r.status * 2 ^ 8
            + j.f 0 31 16 * 2 ^ 16 + j.gen * 2 ^ 32 + j.j * 2 ^ 48 + r.consumed * 2 ^ 64 + r.produced * 2 ^ 96 + (if r.status = 0 then r.check else 0) * 2 ^ 128
            + r.erroff * 2 ^ 160 + s.pkg.rdtime.toNat * 2 ^ 192)) = (t, g) →
          (∀ n, g = .wrote n → ∃ z, exec (.descriptorComplete k ix) s = .next (s.withPkg z) ∧ done t z)
          ∧ (∀ e, g = .fail e → e.f = none → ∃ z, exec (.descriptorComplete k ix) s = .next (s.withPkg z) ∧ done (t.wb st 3 true) z)
          ∧ (∀ x, g = .ask x → exec (.descriptorComplete k ix) s = .next (s.withPkg (t.updJob k ix (fun y => { y with ask := some x, res := some r })))))))
    ∧ (∀ (ix : Nat), jobs[ix]? = none → exec (.descriptorComplete k ix) s = .next s)

/-- Enabling, disabling and resetting an instance, FLR, the Bus Master Enable drain and VF Enable (R371, R380, R400, R404, R405, 14_pcie_root_and_endpoint, 15_compression_instances). -/
def Obligations.InstancesAndFunctionsResetAndEnd : Prop :=
  ∀ (s : State) (k : CxN) (n : InstN) (dt : Nat), s.pkg.live = true → s.pkg.numVfs k ≤ 256 →
    let p := s.pkg.elapse dt
    let r := cxInst k n
    let st := r + 0x10
    let f := cxFn k n
    let base := s.pkg.instBase k n
    let count := s.pkg.instCount k n
    let others (m : Nat) : Prop := m < 257 ∧ m ≠ (n : Nat) ∧ (s.pkg.instEn k m = true ∨ s.pkg.resetting k m = true)
    let creds := ((List.range 257).filter (fun m => m != (n : Nat) && (s.pkg.instEn k m || s.pkg.resetting k m))).map (s.pkg.instCred k)
    let ok := base + count ≤ 1024 ∧ (∀ m, others m → base + count ≤ s.pkg.instBase k m ∨ s.pkg.instBase k m + s.pkg.instCount k m ≤ base ∨ count = 0 ∨ s.pkg.instCount k m = 0)
      ∧ ((n : Nat) ≠ 0 → count ≤ 64) ∧ s.pkg.rf r 55 48 ≠ 0 ∧ creds.sum + s.pkg.instCred k n ≤ 16384 ∧ ((n : Nat) ≠ 0 → s.pkg.cfnLive (.vf k n) = true)
      ∧ (s.pkg.rb r 1 = true → s.pkg.rf (r + 0x20) 51 12 * 4096 + (s.pkg.rf (r + 0x28) 51 12 + 63) / 64 * 8 ≤ s.pkg.boot.capacity)
    let resets (z : Pkg) (l : List Nat) : Prop := z.instGen k n = (s.pkg.instGen k n + 1) % 65536 ∧ z.resetting k n = true
      ∧ (z.cx k).jobs = (s.pkg.cx k).jobs.filter (fun j => j.inst != (n : Nat)) ∧ s.pkg.DrsBut z (st :: l)
    (s.pkg.instEn k n = false →
      (ok → ∃ z, exec (.cxInstanceEnable k n) s = .next (s.withPkg z) ∧ z.instEn k n = true ∧ z.rd st = s.pkg.rd st ∧ z.instBase k n = base ∧ z.instCount k n = count
        ∧ z.rf r 55 48 = s.pkg.rf r 55 48 ∧ z.rb r 1 = s.pkg.rb r 1 ∧ s.pkg.DrsBut z [r] ∧ z = { s.pkg with drs := z.drs })
      ∧ (¬ ok → ∃ z, exec (.cxInstanceEnable k n) s = .next (s.withPkg z) ∧ z.instEn k n = false ∧ z.rb st 17 = true ∧ s.pkg.DrsBut z [r, st] ∧ z = { s.pkg with drs := z.drs })
      ∧ (∃ z, exec (.cxInstanceDisable k n) s = .next (s.withPkg z) ∧ z.instEn k n = false ∧ z.instBase k n = base ∧ z.instCount k n = count
        ∧ s.pkg.DrsBut z [r] ∧ z = { s.pkg with drs := z.drs }))
    ∧ (s.pkg.instEn k n = true →
      (∃ z, exec (.cxInstanceEnable k n) s = .next (s.withPkg z) ∧ z.rd r = s.pkg.rd r ∧ s.pkg.DrsBut z [st] ∧ z = { s.pkg with drs := z.drs })
      ∧ (∃ z, exec (.cxInstanceDisable k n) s = .next (s.withPkg z) ∧ z.instEn k n = false ∧ resets z [r] ∧ z = { s.pkg with drs := z.drs, cxs := z.cxs }))
    ∧ (∃ z, exec (.cxInstanceReset k n) s = .next (s.withPkg z) ∧ resets z [] ∧ z = { s.pkg with drs := z.drs, cxs := z.cxs })
    ∧ (s.pkg.resetting k n = false → exec (.instanceResetComplete k n dt) s = .next (s.withPkg p))
    ∧ (s.pkg.resetting k n = true → ∃ z, exec (.instanceResetComplete k n dt) s = .next (s.withPkg z) ∧ z.resetting k n = false ∧ z.rf (r + 8) 30 16 = 0
        ∧ z.instGen k n = s.pkg.instGen k n ∧ z.instCred k n = s.pkg.instCred k n
        ∧ (∀ j, j < count → base + j < 1024 → ∀ o ∈ [0, 8, 0x10, 0x18], z.rd (cxQ k (base + j) + o) = regReset (cxQ k (base + j) + o))
        ∧ (∀ a, a ≠ r + 8 → a ≠ st → (∀ j, j < count → ∀ o ∈ [0, 8, 0x10, 0x18], a ≠ cxQ k ((base + j) % 1024) + o) → z.rd a = p.rd a) ∧ z = { p with drs := z.drs })
    ∧ (s.pkg.cfnLive f = false → exec (.bmeClear k n) s = .next s ∧ exec (.flr k n) s = .next s)
    ∧ (s.pkg.cfnLive f = true →
      (s.pkg.cfgB f 4 2 = false → exec (.bmeClear k n) s = .next s)
      ∧ (s.pkg.cfgB f 4 2 = true → ∃ z, exec (.bmeClear k n) s = .next (s.withPkg z) ∧ z.cfgB f 4 2 = false ∧ z.bme f = false ∧ z.draining f = true ∧ z = { s.pkg with pcie := z.pcie, cxs := z.cxs }
          ∧ (z.cx k).jobs.map (·.d) = (s.pkg.cx k).jobs.map (·.d))
      ∧ ((n : Nat) ≠ 0 → ∃ z, exec (.flr k n) s = .next (s.withPkg z) ∧ z.inFlr f = true ∧ z.draining f = false ∧ resets z []
        ∧ z = { s.pkg with drs := z.drs, cxs := z.cxs, pcie := z.pcie })
      ∧ ((n : Nat) = 0 → ∃ z, exec (.flr k n) s = .next (s.withPkg z) ∧ z.inFlr f = true ∧ z.draining f = false ∧ z.vfOn k = false
        ∧ (∀ m, m < 257 → z.instGen k m = (s.pkg.instGen k m + 1) % 65536) ∧ z = { s.pkg with drs := z.drs, cxs := z.cxs, pcie := z.pcie }))
    ∧ (∃ z, exec (.bmeDrainEnd k n dt) s = .next (s.withPkg z) ∧ z.draining f = false ∧ z.pcie.cfg = p.pcie.cfg ∧ z = { p with pcie := z.pcie })
    ∧ (s.pkg.inFlr f = false → exec (.flrComplete k n dt) s = .next (s.withPkg p))
    ∧ (s.pkg.inFlr f = true → ∃ z, exec (.flrComplete k n dt) s = .next (s.withPkg z) ∧ z.inFlr f = false ∧ z.resetting k n = false
        ∧ (∀ o, o < 4096 → z.cfg f o = BitVec.ofNat 32 (f.reg (4 * (o / 4))).rst) ∧ z.instGen k n = p.instGen k n
        ∧ ((n : Nat) = 0 → (∀ m, m < 257 → z.instGen k m = p.instGen k m) ∧ (∀ q : QueueN, ∀ o ∈ [0, 8, 0x10, 0x18], z.rd (cxQ k q + o) = regReset (cxQ k q + o))
          ∧ z.cx k = { seq := (s.pkg.cx k).seq }) ∧ z = { p with drs := z.drs, cxs := z.cxs, pcie := z.pcie })
    ∧ (∀ on, s.pkg.vfOn k = on → exec (.vfEnableChange k on) s = .next s)
    ∧ (s.pkg.vfOn k = false → ∃ z, exec (.vfEnableChange k true) s = .next (s.withPkg z) ∧ z.vfOn k = true ∧ z.numVfs k = s.pkg.numVfs k ∧ z = { s.pkg with pcie := z.pcie })
    ∧ (s.pkg.vfOn k = true → ∃ z, exec (.vfEnableChange k false) s = .next (s.withPkg z) ∧ z.vfOn k = false
        ∧ (∀ m, 1 ≤ m → m ≤ s.pkg.numVfs k → z.instGen k m = (s.pkg.instGen k m + 1) % 65536 ∧ z.resetting k m = true)
        ∧ (∀ j, j ∈ (z.cx k).jobs ↔ j ∈ (s.pkg.cx k).jobs ∧ ¬ (1 ≤ j.inst ∧ j.inst ≤ s.pkg.numVfs k))
        ∧ (∀ m, m = 0 ∨ s.pkg.numVfs k < m → z.instGen k m = s.pkg.instGen k m) ∧ z = { s.pkg with drs := z.drs, cxs := z.cxs, pcie := z.pcie })

/-- Chunks that end by conflict or time, LOG records, DIGEST, PROGRESS and DIVERGENCE_REPORT (R314, R315, R319, R321, R326, R327, R329, R338, R345, 12_tandem). -/
def Obligations.TheLogIsSentAndReceived : Prop :=
  ∀ (s : State), s.pkg.live = true →
    let tdm := s.pkg.tdm
    let commits (p q : Pkg) (h : Htid) (k : Chunk) (cause : Nat) : Prop := q.tdm.gsn = p.tdm.gsn + 1
      ∧ (∃ r : ChunkRec, q.tdm.log = p.tdm.log ++ [.chunk r] ∧ r.gsn = p.tdm.gsn + 1 ∧ r.htid = h ∧ r.steps = k.steps ∧ r.cause = cause ∧ r.drn = k.drn ∧ r.tCommit = p.cadNs)
      ∧ (q.thr h).chunk = some { t0 := p.cadNs } ∧ (q.thr h).rs 0x600 = BitVec.ofNat 64 ((((p.thr h).rs 0x600).toNat + 1) % 2 ^ 48)
      ∧ (∀ j, j ≠ (h : Nat) → q.thr j = p.thr j) ∧ p.DrsBut q [tdmBase + 0x20] ∧ q.mem = p.mem
    let parts (c : Instr) (go : Held → Bool) : Prop := ∃ a r : Pkg, exec c s = .next (s.withPkg r) ∧ a.tdmState = 3 ∧ (∀ h, (a.thr h).chunk = none)
      ∧ a.tdm.hold = tdm.hold.map (fun e => { e with go := e.go || go e }) ∧ r.tdmState = a.holdRun.tdmState ∧ r.rb tdmBase 9 = true ∧ r.rf tdmBase 23 16 = 3
      ∧ r.tdm.auto = true ∧ (∀ e ∈ r.tdm.hold, e.go = true → r.compares e.cls = false)
    (∀ (h : Htid) (line : Nat) (w : Bool) (dt : Nat), (s.pkg.thr h).await = none → s.pkg.Uncounted h →
      let p := s.pkg.elapse dt
      (s.pkg.paired = false → exec (.chunkConflictCommit h line w) s = .next s ∧ exec (.chunkTimeLimit h dt) s = .next (s.withPkg p))
      ∧ ((s.pkg.thr h).chunk = none → exec (.chunkConflictCommit h line w) s = .next s ∧ exec (.chunkTimeLimit h dt) s = .next (s.withPkg p))
      ∧ (∀ k, s.pkg.paired = true → (s.pkg.thr h).chunk = some k →
        ((k.due = false ∧ k.conflicts line w = false) → exec (.chunkConflictCommit h line w) s = .next s)
        ∧ ((k.due = true ∨ k.conflicts line w = true) → ∃ q, exec (.chunkConflictCommit h line w) s = .next (s.withPkg q) ∧ commits s.pkg q h k 12)
        ∧ ((k.steps = 0 ∨ p.cadNs < k.t0 + 1000 * p.rf tdmCfg 23 16) → exec (.chunkTimeLimit h dt) s = .next (s.withPkg p))
        ∧ (0 < k.steps → k.t0 + 1000 * p.rf tdmCfg 23 16 ≤ p.cadNs → ∃ q, exec (.chunkTimeLimit h dt) s = .next (s.withPkg q) ∧ commits p q h k 16)))
    ∧ (∀ (w : List Word),
      exec (.logMark w) s = .next s
      ∧ ((s.pkg.replaying = false ∨ logRec w = none) → ∀ c ∈ [Instr.logChunk w, .logInb w, .logOutmap w, .logReleased w], exec c s = .next s)
      ∧ (∀ c, logRec w = some (.chunk c) → (∀ x ∈ [Instr.logInb w, .logOutmap w, .logReleased w], exec x s = .next s)
        ∧ (s.pkg.replaying = true → exec (.logChunk w) s = .next (s.withPkg { s.pkg with tdm := { tdm with inlog := tdm.inlog ++ [.chunk c] } })))
      ∧ (∀ i, logRec w = some (.inb i) → (∀ x ∈ [Instr.logChunk w, .logOutmap w, .logReleased w], exec x s = .next s)
        ∧ (s.pkg.replaying = true → exec (.logInb w) s = .next (s.withPkg { s.pkg with tdm := { tdm with inlog := tdm.inlog ++ [.inb i] } })))
      ∧ (∀ o, logRec w = some (.outmap o) → (∀ x ∈ [Instr.logChunk w, .logInb w, .logReleased w], exec x s = .next s)
        ∧ (s.pkg.replaying = true → exec (.logOutmap w) s = .next (s.withPkg { s.pkg with tdm := { tdm with outmaps := tdm.outmaps ++ [o] } })))
      ∧ (∀ n, logRec w = some (.released n) → (∀ x ∈ [Instr.logChunk w, .logInb w, .logOutmap w], exec x s = .next s)
        ∧ (s.pkg.replaying = true →
          ((∀ e ∈ tdm.hold, n < e.osn ∨ e.osn = 0) → exec (.logReleased w) s = .next (s.withPkg { s.pkg with tdm := { tdm with released := max tdm.released n } }))
          ∧ (∀ e, tdm.hold = [e] → e.osn ≤ n → e.osn ≠ 0 →
            (e.cls ≠ 1 → exec (.logReleased w) s = .next (s.withPkg { s.pkg with tdm := { tdm with released := max tdm.released n, hold := [] } }))
            ∧ (∀ d, e.cls = 1 → e.what = .dev d → exec (.logReleased w) s = .next (s.withPkg
                { s.pkg with devq := s.pkg.devq ++ [d], tdm := { tdm with released := max tdm.released n, hold := [] } }))))))
    ∧ (∀ (osn : Nat) (dg : Word) (g : Nat),
      (s.pkg.logging = false → exec (.digest osn dg) s = .next s ∧ exec (.progress g) s = .next s ∧ exec .divergenceReport s = .next s)
      ∧ (s.pkg.logging = true →
        (∀ e, tdm.hold.find? (fun x => x.osn == osn) = some e →
          (e.digest = dg → exec (.digest osn dg) s = .next (s.withPkg
            ({ s.pkg with tdm := { tdm with hold := tdm.hold.map (fun x : Held => if x.osn = osn then { x with go := true } else x) } }.holdRun)))
          ∧ (e.digest ≠ dg → parts (.digest osn dg) (fun x => decide (x.osn < osn))))
        ∧ (∀ e, tdm.hold.find? (fun x => x.osn == osn) = none → tdm.left.find? (fun x => x.1 == osn) = some e → e.2 = dg →
          exec (.digest osn dg) s = .next (s.withPkg { s.pkg with tdm := { tdm with left := tdm.left.filter (fun x => x.1 != osn) } }))
        ∧ (∀ e, tdm.hold.find? (fun x => x.osn == osn) = none → tdm.left.find? (fun x => x.1 == osn) = some e → e.2 ≠ dg → parts (.digest osn dg) (fun x => decide (x.osn < osn)))
        ∧ (tdm.hold.find? (fun x => x.osn == osn) = none → tdm.left.find? (fun x => x.1 == osn) = none → exec (.digest osn dg) s = .next s)
        ∧ (∀ e rest, tdm.hold = e :: rest → parts .divergenceReport (fun x => decide (x.osn < e.osn)))
        ∧ (tdm.hold = [] → parts .divergenceReport (fun x => decide (x.osn < tdm.osn + 1)))
        ∧ (∃ q, exec (.progress g) s = .next (s.withPkg q) ∧ q.tdm.progress = max tdm.progress (min g tdm.gsn) ∧ q.tdm.gsn = tdm.gsn
          ∧ (∀ r, r ∈ q.tdm.log ↔ r ∈ tdm.log ∧ ∃ x, recGsn r = some x ∧ max tdm.progress (min g tdm.gsn) < x)
          ∧ q.rf (tdmBase + 0x20) 31 0 = min q.lag (2 ^ 32 - 1) ∧ (q.lagging = false → ∀ h, (q.thr h).lagged = false) ∧ s.pkg.DrsBut q [tdmBase + 0x20])))

/-- CHUNK_REPLAY and INB_REPLAY at a member that replays (R313, R316, R320, R322, R323, R324, R345, 12_tandem). -/
def Obligations.RecordsAreReplayedInOrder : Prop :=
  ∀ (s : State), s.pkg.live = true →
    let tdm := s.pkg.tdm
    let runs (pred : Nat) : Prop := s.pkg.replaying = true ∧ tdm.report = false ∧ s.pkg.trackers = [] ∧ (∀ k, tdm.doneTo < k → k ≤ pred → k ∈ tdm.done)
    let at_ (g : Nat) : Pkg := { s.pkg with tdm := { tdm with gsn := g - 1, steps := 0 } }
    let complete (q : Pkg) (g : Nat) : Prop := q.tdm.inlog = tdm.inlog.filter (fun r => recGsn r != some g)
      ∧ (g = tdm.doneTo + 1 → tdm.done = [] → q.tdm.doneTo = g ∧ q.tdm.done = []) ∧ (tdm.doneTo + 1 < g → tdm.doneTo + 1 ∉ tdm.done → q.tdm.doneTo = tdm.doneTo ∧ g ∈ q.tdm.done)
    (∀ (h : Htid),
      let rec? := tdm.inlog.findSome? (fun r => match r with | .chunk c => if c.htid.val = h.val then some c else none | _ => none)
      (rec? = none → exec (.chunkReplay h) s = .next s)
      ∧ (∀ c, rec? = some c → s.pkg.replayable c.pred = false → exec (.chunkReplay h) s = .next s)
      ∧ (∀ c, rec? = some c → runs c.pred →
        (c.steps = 0 → c.drn = 0 → c.cause ∉ [1, 2, 3, 5, 11, 13] → ∃ q, exec (.chunkReplay h) s = .next (s.withPkg q) ∧ complete q c.gsn
          ∧ (q.thr h).rs 0x600 = BitVec.ofNat 64 ((((s.pkg.thr h).rs 0x600).toNat + 1) % 2 ^ 48) ∧ (q.thr h).pc = (s.pkg.thr h).pc
          ∧ (∀ j, j ≠ (h : Nat) → q.thr j = s.pkg.thr j) ∧ q.drs = s.pkg.drs ∧ q.mem = s.pkg.mem)
        ∧ (∀ t, c.steps = 1 → c.drn = 0 → c.cause ∉ [1, 2, 3, 4, 5, 6, 7, 11, 13] → (s.pkg.thr h).st = .run → (at_ c.gsn).replayTry h none = (t, .step) → t.tdm.steps = 1 →
          exec (.chunkReplay h) s = .next (s.withPkg (t.chunkReplayed h c)))
        ∧ (∀ t x, 1 ≤ c.steps → (s.pkg.thr h).st = .run → (s.pkg.thr h).sb = [] → (2 ≤ c.steps ∨ c.cause ∉ [4, 5, 6, 7, 11]) → (at_ c.gsn).replayTry h none = (t, x) → (x = .entered ∨ x = .stuck) →
          exec (.chunkReplay h) s = .next (s.withPkg (at_ c.gsn).replayFail))
        ∧ (c.steps = 0 → c.drn = 0 → c.cause = 2 → (s.pkg.thr h).st = .run → (s.pkg.thr h).sb = [] →
          exec (.chunkReplay h) s = .next (s.withPkg (((at_ c.gsn).takeVector h c.arg).chunkReplayed h c)))
        ∧ (c.steps = 0 → c.drn = 0 → c.cause = 13 →
          ((s.pkg.thr h).digest.toNat = leNat c.value → exec (.chunkReplay h) s = .next (s.withPkg ((at_ c.gsn).chunkReplayed h c)))
          ∧ ((s.pkg.thr h).digest.toNat ≠ leNat c.value → exec (.chunkReplay h) s = .next (s.withPkg (at_ c.gsn).replayFail)))))
    ∧ (∀ (g : Nat),
      let rec? := tdm.inlog.findSome? (fun r => match r with | .inb c => if c.gsn = g then some c else none | _ => none)
      let t : Pkg := { s.pkg with tdm := { tdm with gsn := g - 1 } }
      (rec? = none → exec (.inbReplay g) s = .next s)
      ∧ (∀ r, rec? = some r → s.pkg.replayable r.pred = false → exec (.inbReplay g) s = .next s)
      ∧ (∀ r, rec? = some r → runs r.pred →
        (r.kind = 0 → exec (.inbReplay g) s = .next (s.withPkg ((t.dmaPut r.addr (r.data.take (r.nbytes + 1)) (r.be % 16) (r.be / 16 % 16)).recComplete g)))
        ∧ (r.kind = 7 → exec (.inbReplay g) s = .next (s.withPkg ((t.raiseVec (r.addr % 2048) (r.addr / 2 ^ 16 % 256)).recComplete g)))
        ∧ (∀ old, r.kind = 1 → r.atop = 2 → t.homeRead r.addr (r.nbytes + 1) = (old, false) → exec (.inbReplay g) s = .next (s.withPkg
            ((t.homeWrite r.addr (r.nbytes + 1) (amoOp 2 (r.nbytes + 1) old (leNat r.data))).recComplete g)))
        ∧ (r.kind = 7 → r.addr / 2 ^ 16 % 256 < 128 → ∃ q, exec (.inbReplay g) s = .next (s.withPkg q) ∧ complete q g ∧ q.pendv (r.addr % 2048) (r.addr / 2 ^ 16 % 256) = true)))

/-- The Tandem handshake and its timeout, lost partners, isolation, the fail-stop command and promotion (R308, R310, R312, R333, R334, R335, R337, R338, R480, 12_tandem, 20_signals_package_electrical). -/
def Obligations.PartnersMeetAreLostAndReplaced : Prop :=
  ∀ (s : State) (dt : Nat), s.pkg.live = true →
    let st := s.pkg.tdmState
    let p := s.pkg.elapse dt
    let role := s.pkg.fabMode
    let captain (q : Pkg) (refused waits : Bool) : Prop := q.tdmState = 3 ∧ q.fabMode = 1 ∧ q.phase = 6 ∧ q.tdm.refused = refused ∧ q.tdm.partnerWait = waits
    let solo (c : Instr) : Prop := ∃ a r : Pkg, exec c s = .next (s.withPkg r) ∧ a.tdmState = 3 ∧ a.rb tdmBase 8 = false ∧ (∀ h, (a.thr h).chunk = none) ∧ a.tdm.pause = false
      ∧ a.tdm.track = false ∧ (∀ e ∈ a.tdm.hold, e.go = true) ∧ r.tdmState = a.holdRun.tdmState ∧ r.rf tdmBase 23 16 = 2 ∧ r.pins.partner = a.holdRun.pins.partner
    (∀ (m : TduHello),
      let bad := m.id.toNat ≠ Nat.xor s.pkg.selfId 1 ∨ m.check ≠ BitVec.ofNat 64 (leNat ((s.pkg.boot.bci.drop 0x48).take 8)) ∨ m.part ≠ s.pkg.rd scBase ∨ m.geom ≠ s.pkg.hello.geom
      let stoker : Prop := ∃ q : Pkg, exec (.tandemHandshake m) s = .next (s.withPkg q.endBoot) ∧ q.tdmState = 6 ∧ q.fabMode = 2 ∧ q.phase = 8 ∧ q.pins.partner = true ∧ q.pins.fsIn = false
      (s.pkg.crossDown = true → exec (.tandemHandshake m) s = .next s)
      ∧ (s.pkg.crossDown = false → st ≠ 3 → (st ≠ 1 ∨ s.pkg.phase ≠ 5) → exec (.tandemHandshake m) s = .next s)
      ∧ (s.pkg.crossDown = false → st = 3 → s.pkg.tdm.auto = false → ∃ q, exec (.tandemHandshake m) s = .next (s.withPkg q) ∧ q.pins.partner = true ∧ q.pins.fsIn = false
          ∧ (bad → q.tdm.refused = true ∧ q.tdm.partnerWait = false) ∧ (¬ bad → q.tdm.refused = false ∧ q.tdm.partnerWait = true) ∧ q.drs = s.pkg.drs ∧ q.threads = s.pkg.threads)
      ∧ (s.pkg.crossDown = false → st = 1 → s.pkg.phase = 5 →
        (bad → (m.captain = true ∨ role = 2) → ∃ q : Pkg, exec (.tandemHandshake m) s = .next (s.withPkg q.endBoot) ∧ q.tdmState = 2 ∧ q.pins.fsOut = true)
        ∧ (bad → m.captain = false → role ≠ 2 → ∃ q, exec (.tandemHandshake m) s = .next (s.withPkg q) ∧ captain q true false)
        ∧ (¬ bad → m.captain = true → stoker)
        ∧ (¬ bad → m.captain = false → m.role ≠ role → role ≠ 1 → stoker)
        ∧ (¬ bad → m.captain = false → m.role ≠ role → role = 1 → ∃ q, exec (.tandemHandshake m) s = .next (s.withPkg q) ∧ captain q false true
          ∧ s.pkg.DrsBut q [tdmBase, fabBase, bootstat] ∧ q.threads = s.pkg.threads)
        ∧ (¬ bad → m.captain = false → m.role = role → s.pkg.selfId % 2 = 0 → ∃ q, exec (.tandemHandshake m) s = .next (s.withPkg q) ∧ captain q false true ∧ q.rf tdmBase 23 16 = 7)
        ∧ (¬ bad → m.captain = false → m.role = role → s.pkg.selfId % 2 = 1 → stoker)))
    ∧ (let due := st = 1 ∧ s.pkg.phase = 5 ∧ role = 1 ∧ s.pkg.boot.t0 + 1000000000000 ≤ p.now
       (due → ∃ q, exec (.handshakeTimeout dt) s = .next (s.withPkg q) ∧ captain q false false ∧ p.DrsBut q [tdmBase, fabBase, bootstat] ∧ q.threads = p.threads)
       ∧ (¬ due → exec (.handshakeTimeout dt) s = .next (s.withPkg p)))
    ∧ (∀ alive, (st = 4 ∨ st = 5) → solo (.tdmFsInAssert alive))
    ∧ (∀ alive, st = 7 → ∃ q, exec (.tdmFsInAssert alive) s = .next (s.withPkg q) ∧ q.tdmState = 6 ∧ q.pins.fsIn = true ∧ q.pins.partner = alive ∧ s.pkg.DrsBut q [tdmBase])
    ∧ (∀ alive, st = 8 → ∃ q, exec (.tdmFsInAssert alive) s = .next (s.withPkg q) ∧ q.tdmState = 9 ∧ q.tdm.live = false ∧ q.tdm.inlog = s.pkg.tdm.inlog
        ∧ q.pins.fsIn = true ∧ q.pins.partner = alive ∧ q.threads = s.pkg.threads ∧ (alive = false → s.pkg.DrsBut q [tdmBase]))
    ∧ (st ∉ [4, 5, 7, 8] → exec (.tdmFsInAssert false) s = .next (s.withPkg
        { s.pkg with pins := { s.pkg.pins with fsIn := true, partner := false }, tdm := { s.pkg.tdm with partnerWait := false } }))
    ∧ ((s.pkg.crossDown = false ∨ st ∉ [4, 5, 7, 8]) → exec (.partnerSilenceTimeout dt) s = .next (s.withPkg p))
    ∧ (s.pkg.crossDown = true → (st = 4 ∨ st = 5) → solo (.partnerSilenceTimeout dt))
    ∧ (s.pkg.crossDown = true → (st = 7 ∨ st = 8) → ∃ q, exec (.partnerSilenceTimeout dt) s = .next (s.withPkg q) ∧ q.tdmState = (if st = 7 then 6 else 9)
        ∧ q.pins.partner = false ∧ p.DrsBut q [tdmBase] ∧ q.threads = p.threads)
    ∧ ((s.pkg.crossDown = false ∨ (st ≠ 7 ∧ st ≠ 8)) → exec (.stokerIsolationTimeout dt) s = .next (s.withPkg p))
    ∧ (s.pkg.crossDown = true → (st = 7 ∨ st = 8) → ∃ q, exec (.stokerIsolationTimeout dt) s = .next (s.withPkg q) ∧ q.boot.stop = some { cause := 4, since := p.now }
        ∧ q.pins.fsOut = true ∧ q.threads = p.threads)
    ∧ (s.pkg.stoker = false → exec .stokerFailstopCommand s = .next s)
    ∧ (s.pkg.stoker = true → ∃ q, exec .stokerFailstopCommand s = .next (s.withPkg q) ∧ q.boot.stop = some { cause := 4, since := s.pkg.now } ∧ q.pins.fsOut = true)
    ∧ (∀ low whole : Bool,
      ((st ≠ 9 ∨ s.pkg.tdm.live = true ∨ s.pkg.tdm.inlog ≠ []) → exec (.promotionReplayDone dt low whole) s = .next (s.withPkg p))
      ∧ (st = 9 → s.pkg.tdm.live = false → s.pkg.tdm.inlog = [] →
        (low = false → s.pkg.pins.partner = true → ∃ q, exec (.promotionReplayDone dt low whole) s = .next (s.withPkg q) ∧ q.boot.stop = some { cause := 4, since := p.now })
        ∧ ((low = true ∨ s.pkg.pins.partner = false) → ∃ a r : Pkg, exec (.promotionReplayDone dt low whole) s = .next (s.withPkg r) ∧ a.tdmState = 9 ∧ a.fabMode = 1
          ∧ a.tdm.live = true ∧ a.pins.partner = false ∧ (∀ e ∈ a.tdm.hold, e.go = true) ∧ (s.pkg.rb tdmCfg 8 = false → a.rb tdmBase 10 = true)
          ∧ (s.pkg.rb tdmCfg 8 = true → a.pcie.shadow = []) ∧ r.tdmState = a.holdRun.tdmState ∧ r.rf tdmBase 23 16 = 1)))
    ∧ ((st ≠ 9 ∨ s.pkg.tdm.live = false) → exec (.promotionComplete dt) s = .next (s.withPkg p))
    ∧ (st = 9 → s.pkg.tdm.live = true →
      (s.pkg.tdm.hold = [] → ∃ q, exec (.promotionComplete dt) s = .next (s.withPkg q) ∧ q.tdmState = 3 ∧ q.tdm = { s.pkg.tdm with live := false } ∧ p.DrsBut q [tdmBase] ∧ q.threads = p.threads)
      ∧ ((∃ e ∈ s.pkg.tdm.hold, 1 < e.cls ∨ s.pkg.rb tdmBase 10 = false) → exec (.promotionComplete dt) s = .next (s.withPkg p)))

/-- REJOIN, resilver passes, cut-over, SWAP, held outputs, OPEN_IO, CHECKPOINT and page repair (R314, R323, R334, R338, R339, R340, R341, R342, R344, 12_tandem). -/
def Obligations.PairsRejoinSwapAndRepair : Prop :=
  ∀ (s : State) (dt : Nat), s.pkg.live = true →
    let tdm := s.pkg.tdm
    let st := s.pkg.tdmState
    let p := s.pkg.elapse dt
    let refused (c : Instr) : Prop := exec c s = .next (s.withPkg (s.pkg.wb (tdmBase + 0x10) 4 true))
    let can := st = 3 ∧ tdm.partnerWait = true ∧ tdm.refused = false ∧ s.pkg.pins.fsIn = false ∧ s.pkg.rb (tdmBase + 0x28) 0 = true ∧ s.pkg.rb (scBase + 0x218) 0 = true
    (¬ can → refused (.rejoin false))
    ∧ (can → ∃ q, exec (.rejoin false) s = .next (s.withPkg q) ∧ q.tdmState = 4 ∧ q.tdm.track = true ∧ q.tdm.auto = false ∧ (∀ x ∈ q.l2, x.2.st ≠ .E ∧ x.2.st ≠ .M))
    ∧ (st = 6 → s.pkg.pins.fsIn = false → exec (.rejoin true) s = .next (s.withPkg (s.pkg.wf tdmBase 3 0 7)))
    ∧ ((st ≠ 6 ∨ s.pkg.pins.fsIn = true) → exec (.rejoin true) s = .next s)
    ∧ (∀ pages : List PageImg,
      (st ≠ 4 → st ≠ 7 → exec (.resilverPassEnd pages) s = .next s)
      ∧ (st = 4 → tdm.pause = true → exec (.resilverPassEnd pages) s = .next s)
      ∧ (st = 4 → tdm.pause = false → ∃ q, exec (.resilverPassEnd pages) s = .next (s.withPkg q) ∧ q.tdmState = 4
        ∧ q.rb tdmBase 8 = (s.pkg.rb tdmBase 8 || decide (tdm.dirty.length ≤ s.pkg.rf tdmCfg 63 48)))
      ∧ (st = 7 → exec (.resilverPassEnd pages) s = .next (s.withPkg (pages.foldl Pkg.pagePut s.pkg))))
    ∧ (let go := st = 4 ∧ s.pkg.rb tdmBase 8 = true ∧ tdm.dirty.length ≤ s.pkg.rf tdmCfg 63 48 ∧ tdm.pause = false ∧ (p.rd (tdmBase + 0x18)).toNat ≤ p.rdtime.toNat
       (go → exec (.cutoverStart dt) s = .next (s.withPkg { p with tdm := { tdm with pause := true } }))
       ∧ (¬ go → exec (.cutoverStart dt) s = .next (s.withPkg p)))
    ∧ (∀ m : PairImg,
      (st ≠ 4 → st ≠ 7 → exec (.cutoverComplete dt m) s = .next (s.withPkg p))
      ∧ (st = 4 → (tdm.pause = false ∨ s.pkg.drained = false) → exec (.cutoverComplete dt m) s = .next (s.withPkg p))
      ∧ (st = 4 → tdm.pause = true → s.pkg.drained = true → ∃ q, exec (.cutoverComplete dt m) s = .next (s.withPkg q) ∧ q.tdmState = 5 ∧ q.rb tdmBase 8 = false
        ∧ q.rf tdmBase 23 16 = 5 ∧ q.tdm.gsn = 0 ∧ q.tdm.osn = 0 ∧ q.tdm.hold = [] ∧ q.tdm.log = [.mark 0] ∧ q.tdm.pause = false
        ∧ (∀ h, (s.pkg.thr h).st = .run → (q.thr h).chunk ≠ none))
      ∧ (st = 7 → ∃ q, exec (.cutoverComplete dt m) s = .next (s.withPkg q) ∧ q.tdmState = 8 ∧ q.tdm = { log := [.mark 0], tell := tdm.tell } ∧ (∀ i, m.thrs = [i] → q.thr i.h = ThrImg.thread i)))
    ∧ (s.pkg.paired = false → refused (.swap false) ∧ refused .checkpoint)
    ∧ (s.pkg.paired = true → (∀ x ∈ s.pkg.threads, s.pkg.Uncounted x.1) → ∃ q, exec (.swap false) s = .next (s.withPkg q) ∧ q.tdmState = 10 ∧ q.fabMode = s.pkg.fabMode ∧ (∀ h, (q.thr h).chunk = none)
        ∧ tdm.gsn + (s.pkg.threads.filter (fun x => x.2.chunk.isSome)).length = q.tdm.gsn ∧ q.mem = s.pkg.mem)
    ∧ (st = 8 → exec (.swap true) s = .next (s.withPkg (s.pkg.wf tdmBase 3 0 10)))
    ∧ (st ≠ 8 → exec (.swap true) s = .next s)
    ∧ (st ≠ 10 → exec (.swapComplete dt) s = .next (s.withPkg p))
    ∧ (st = 10 → s.pkg.fabMode = 1 →
      ((tdm.progress < tdm.gsn ∨ tdm.hold ≠ []) → exec (.swapComplete dt) s = .next (s.withPkg p))
      ∧ (tdm.gsn ≤ tdm.progress → tdm.hold = [] → ∃ q, exec (.swapComplete dt) s = .next (s.withPkg q) ∧ q.tdmState = 8 ∧ q.fabMode = 2
        ∧ q.tdm = { gsn := tdm.gsn, doneTo := tdm.gsn, osn := tdm.osn, released := tdm.osn, log := [.mark 1], tell := tdm.tell } ∧ p.DrsBut q [tdmBase, fabBase] ∧ q.mem = p.mem))
    ∧ (st = 10 → s.pkg.fabMode ≠ 1 →
      (tdm.inlog ≠ [] → exec (.swapComplete dt) s = .next (s.withPkg p))
      ∧ (tdm.inlog = [] → ∃ q, exec (.swapComplete dt) s = .next (s.withPkg q) ∧ q.tdmState = 5 ∧ q.fabMode = 1 ∧ q.rf tdmBase 23 16 = 6 ∧ q.tdm.progress = tdm.doneTo
        ∧ q.pcie.shadow = [] ∧ q.mem = p.mem))
    ∧ (s.pkg.rb tdmBase 9 = false → refused .releaseHeld ∧ refused .discardHeld)
    ∧ (s.pkg.rb tdmBase 9 = true →
      (∃ q : Pkg, exec .releaseHeld s = .next (s.withPkg q.holdRun) ∧ q.rb tdmBase 9 = false ∧ q.tdm.hold = tdm.hold.map (fun e => { e with go := true })
        ∧ s.pkg.DrsBut q [tdmBase] ∧ q.threads = s.pkg.threads)
      ∧ (s.pkg.fab.src.all (fun x => x.2.out.all (fun o => o.t.isSome)) = true → ∃ q : Pkg, exec .discardHeld s = .next (s.withPkg q.holdRun) ∧ q.rb tdmBase 9 = false
        ∧ q.tdm.hold = tdm.hold.filter (fun e => !s.pkg.compares e.cls) ∧ s.pkg.DrsBut q [tdmBase] ∧ q.threads = s.pkg.threads)
      ∧ (∀ d o l h, s.pkg.fab.src = [(d, l)] → l.out = [o] → o.t = none → o.who = .store h → s.pkg.rf (fabBase + 0x128) 2 0 ≠ 3 → ∃ q : Pkg,
        exec .discardHeld s = .next (s.withPkg q.holdRun) ∧ (q.srcS d).out = [] ∧ (q.srcS d).next = o.seq ∧ q.tdm.hold = tdm.hold.filter (fun e => !s.pkg.compares e.cls)))
    ∧ (s.pkg.rb tdmBase 10 = false → refused .openIo)
    ∧ (s.pkg.rb tdmBase 10 = true → ∃ q : Pkg, exec .openIo s = .next (s.withPkg q.holdRun) ∧ q.rb tdmBase 10 = false ∧ q.pcie.shadow = [] ∧ q.tdm = tdm
        ∧ s.pkg.DrsBut q [tdmBase] ∧ q.threads = s.pkg.threads)
    ∧ (s.pkg.paired = true → (∀ x ∈ s.pkg.threads, (s.pkg.thr x.1).await = none ∧ s.pkg.Uncounted x.1) → let l := s.pkg.threads.filter (fun x => x.2.chunk.isSome)
        ∃ (q : Pkg) (rs : List ChunkRec), exec .checkpoint s = .next (s.withPkg q) ∧ q.tdm.log = tdm.log ++ rs.map LogRec.chunk ∧ rs.map (fun r => (r.htid : Nat)) = l.map (fun x => x.1 % 2048)
          ∧ (∀ r ∈ rs, r.cause = 13) ∧ rs.map (fun r => leNat r.value) = l.map (fun x => (s.pkg.thr x.1).digest.toNat) ∧ s.pkg.DrsBut q [tdmBase + 0x20] ∧ q.mem = s.pkg.mem)
    ∧ (∀ v : Word, let r := tdmBase + 0x30
      let page := bits v 51 12
      (v.getLsbD 0 = false → v.getLsbD 2 = false → exec (.tdmRepairGo v) s = .next s)
      ∧ (v.getLsbD 0 = true → (s.pkg.paired = false ∨ s.pkg.rb r 1 = true) → ∃ q, exec (.tdmRepairGo v) s = .next (s.withPkg q) ∧ q.rb r 2 = true ∧ s.pkg.DrsBut q [r]
        ∧ q = { s.pkg with drs := q.drs })
      ∧ (v.getLsbD 0 = true → s.pkg.paired = true → s.pkg.rb r 1 = false → (∀ x ∈ s.pkg.threads, x.2.chunk = none) → ∃ (q : Pkg) (rs : List InbRec), exec (.tdmRepairGo v) s = .next (s.withPkg q)
        ∧ q.rb r 1 = true ∧ q.tdm.repair = some page ∧ q.tdm.log = tdm.log ++ rs.map LogRec.inb
        ∧ rs.map (fun i => (i.kind, i.addr, i.nbytes)) = (List.range 16).map (fun k => (8, 4096 * page + 256 * k, 255)) ∧ s.pkg.DrsBut q [r] ∧ q.mem = s.pkg.mem))
    ∧ (s.pkg.rb (tdmBase + 0x30) 1 = false → exec (.tdmRepairComplete dt) s = .next (s.withPkg p))
    ∧ (s.pkg.rb (tdmBase + 0x30) 1 = true → ∃ q, exec (.tdmRepairComplete dt) s = .next (s.withPkg q) ∧ q.rb (tdmBase + 0x30) 1 = false ∧ q.tdm.repair = none
        ∧ q.rf tdmBase 23 16 = 8 ∧ q.mem = p.mem)

/-- A line of DRAM reads as what was written last, every other line as before, and memory keeps its one canonical form (R20, R246, R248, 01_package_architecture, 09_dram_ecc_trowel). -/
def Obligations.MemoryReadsBackAndStaysCanonical : Prop :=
  (∀ (p : Pkg) (line : Nat) (d : BitVec 512) (b : Bool), isGlobal line = false →
    ((∀ w ∈ (p.mc (mcOf line)).wq, w.line ≠ line) → (p.dramPut line d b).dramLine line = (d, b))
    ∧ (∀ l, l ≠ line → isGlobal l = false → (p.dramPut line d b).dramLine l = p.dramLine l)
    ∧ (p.dramQueue line d b).dramLine line = (d, b)
    ∧ (∀ l, l ≠ line → isGlobal l = false → (p.dramQueue line d b).dramLine l = p.dramLine l)
    ∧ (Memory.wf p.mem = true → Memory.wf (p.dramPut line d b).mem = true))
  ∧ (∀ (p : Pkg) (a c : Nat) (x : Byte), (p.memSetByte a x).memByte c = if c = a then x else p.memByte c)
  ∧ (∀ (p : Pkg) (a n x : Nat), Memory.wf p.mem = true → Memory.wf (p.memWrite a n x).mem = true)
  ∧ (∀ (m k : List Host.Cell), Memory.wf m = true → Memory.wf k = true → (∀ a, Map.get byte0 m a = Map.get byte0 k a) → m = k)

/-- A core self-check failure: the error record, the fail-stop under NATIVE, MACHINE_CHECK under COMPAT, and corrected structures (R60, R61, R118, R429, R430, R431, R432, 02_skevy_core, 17_error_records_odometer). -/
def Obligations.CoreChecksRecordAndStop : Prop :=
  ∀ (s : State) (h : Htid) (k : CoreChk) (cmd : Option CoreChk → Instr), s.pkg.live = true → k.unit < 16 → (cmd = Instr.integerOp h ∨ cmd = Instr.load h) →
    let c := (h : Nat) / 8
    let b := coreBase c + 0xC00
    let t := s.pkg.thr h
    let fresh := s.pkg.rb b 0 = false ∨ s.pkg.rf b 3 2 < 2
    let recorded (q : Pkg) (mc : Bool) : Prop := (fresh → q.rb b 0 = true ∧ q.rf b 3 2 = 2 ∧ q.rb b 4 = true ∧ q.rb b 5 = mc ∧ q.rf b 15 8 = 6 ∧ q.rf b 19 16 = 0
        ∧ q.rf b 30 20 = h ∧ q.rb b 31 = true ∧ q.rd (b + 8) = t.pc ∧ q.rd (b + 0x10) = BitVec.ofNat 64 k.unit ∧ q.rd (b + 0x18) = s.pkg.rdtime)
      ∧ (¬ fresh → q.rb b 1 = true ∧ q.rf b 3 2 = s.pkg.rf b 3 2 ∧ q.rd (b + 8) = s.pkg.rd (b + 8))
      ∧ q.rf (b + 0x20) 47 32 = min (s.pkg.rf (b + 0x20) 47 32 + 1) 65535 ∧ q.rf (b + 0x20) 31 0 = s.pkg.rf (b + 0x20) 31 0
    let stops := s.pkg.coreP c = 0 ∧ k.unit ∉ [8, 9, 10] ∧ (k.unit ≠ 7 ∨ k.corr = false)
    let goesOn (p : Pkg) : Prop := exec (cmd (some k)) s = exec (cmd none) (s.withPkg p)
    (stops → s.pkg.boot.compat = false → ∃ q, exec (cmd (some k)) s = .next (s.withPkg q) ∧ recorded q false
      ∧ q.boot.stop = some { cause := 4, since := s.pkg.now } ∧ q.pins.fsOut = true ∧ q.live = false ∧ q.threads = s.pkg.threads ∧ q.mem = s.pkg.mem)
    ∧ (stops → s.pkg.boot.compat = true → ∃ q, exec (cmd (some k)) s = .next (s.withPkg q) ∧ recorded q true
      ∧ q.pendv h 32 = true ∧ (k.shared = true ∨ k.unit = 7 → ∀ i, i < 8 → q.pendv (8 * c + i) 32 = true)
      ∧ (k.shared = false → k.unit ≠ 7 → ∀ j, j < 2048 → j ≠ (h : Nat) → q.pendv j 32 = s.pkg.pendv j 32)
      ∧ (q.thr h).pc = t.pc ∧ (q.thr h).g = t.g ∧ q.boot.stop = none ∧ q.mem = s.pkg.mem)
    ∧ (s.pkg.coreP c ≠ 0 → goesOn s.pkg)
    ∧ (s.pkg.coreP c = 0 → k.unit = 7 → k.corr = true → goesOn (s.pkg.ce (.core c) 1 (some (64 * k.line)) 7))
    ∧ (s.pkg.coreP c = 0 → k.unit = 10 → goesOn ((s.pkg.updCore c (·.dropTlb k.line)).record (.core c) { cls := 0, code := 2, info := 10, htid := some h }))
    ∧ (s.pkg.coreP c = 0 → k.unit = 8 → (s.pkg.findL1i c k.line = none → goesOn s.pkg)
      ∧ (∀ x, s.pkg.findL1i c k.line = some x → goesOn (({ s.pkg with l1i := Map.set line0 s.pkg.l1i x {} }.record (.core c)
          { cls := 0, code := 3, addr := some (64 * k.line), info := 8, htid := some h }).pmu h 0x23)))
    ∧ (s.pkg.coreP c = 0 → k.unit = 9 → (s.pkg.findL1d c k.line = none → goesOn s.pkg)
      ∧ (∀ x, s.pkg.findL1d c k.line = some x → goesOn (({ s.pkg with l1d := Map.set line0 s.pkg.l1d x {} }.record (.core c)
          { cls := 0, code := 3, addr := some (64 * k.line), info := 9, htid := some h }).pmu h 0x23)))
    ∧ (∀ (p : Pkg) (e : Err), e.cls = 0 → (p.record (.core c) e).rf (b + 0x20) 31 0 = (p.rf (b + 0x20) 31 0 + 1) % 2 ^ 32
      ∧ (p.record (.core c) e).threads = p.threads)

/-- SRET: ILLEGAL without a live fast call, PRIV to a higher level, else back to SCR_PC with SCR_PS and the stack pointers exchanged (R121). -/
def Obligations.SretReturnsOrRaises : Prop :=
  ∀ (s : State) (h : Htid), s.pkg.Ready h (.sys 3#12 0#5 0#5) → 1 ≤ (s.pkg.thr h).lvl →
    let t := s.pkg.thr h
    let u := t.stepped
    let live := (t.rs 0x304).getLsbD 7
    let raises (v : Nat) : Prop := exec (.sret h) s = .next (if t.sb = [] then s.withPkg (s.pkg.enterAt h v t.pc 0#64 0#64 false) else s)
    (live = false → raises 0)
    ∧ (live = true → t.lvl < bits (t.rs 0x304) 1 0 → raises 1)
    ∧ (live = true → bits (t.rs 0x304) 1 0 ≤ t.lvl → ∃ q, exec (.sret h) s = .next (s.withPkg q) ∧ s.pkg.Moves q h
        (((((u.ws 0x301 (t.rg 31)).wg 31 (t.rs 0x301)).setPs (t.rs 0x304 &&& 0x1F#64)).ws 0x304 (setBits (t.rs 0x304) 7 7 0)).sentTo (t.rs 0x303)))

/-- MFSR of PS at every level; MTSR of PS at S and above, which changes IE alone (R103). -/
def Obligations.PsIsReadByAllAndOnlyIeIsWritten : Prop :=
  ∀ (s : State) (h : Htid),
    let t := s.pkg.thr h
    (∀ rd, s.pkg.Ready h (.mfsr rd 0x100#12) → ∃ q, exec (.mfsr h) s = .next (s.withPkg q) ∧ s.pkg.Moves q h (t.wg rd.toNat t.ps).stepped)
    ∧ (∀ ra, s.pkg.Ready h (.mtsr ra 0x100#12) → 1 ≤ t.lvl → ∃ q t', exec (.mtsr h) s = .next (s.withPkg q) ∧ s.pkg.Moves q h t'.stepped
        ∧ t' = t.setPs t'.ps ∧ t'.ps.getLsbD 2 = (t.rg ra.toNat).getLsbD 2 ∧ ∀ i, i < 64 → i ≠ 2 → t'.ps.getLsbD i = t.ps.getLsbD i)
    ∧ (∀ ra, s.pkg.Ready h (.mtsr ra 0x100#12) → t.lvl = 0 →
        exec (.mtsr h) s = .next (if t.sb = [] then s.withPkg (s.pkg.enterAt h 1 t.pc 0#64 0#64 false) else s))

/-- ID_PART reads as SC_PART_ID at every level, and an MTSR to it is ILLEGAL (R4). -/
def Obligations.IdPartReadsThePart : Prop :=
  ∀ (s : State) (h : Htid),
    let t := s.pkg.thr h
    (∀ rd, s.pkg.Ready h (.mfsr rd 0xF00#12) → ∃ q, exec (.mfsr h) s = .next (s.withPkg q) ∧ s.pkg.Moves q h (t.wg rd.toNat (s.pkg.rd scBase)).stepped)
    ∧ (∀ ra, s.pkg.Ready h (.mtsr ra 0xF00#12) →
        exec (.mtsr h) s = .next (if t.sb = [] then s.withPkg (s.pkg.enterAt h 0 t.pc 0#64 0#64 false) else s))

/-- COMPRESS never overflows a destination of SRC_LEN + 5 × max(1, blocks) + F bytes (R385). -/
def Obligations.CompressNeverOverflows : Prop :=
  ∀ (s : State) (k : CxN) (p : Fin 4) (chk : Option Nat) (i : Nat) (j : CxJob), s.pkg.live = true → s.pkg.cxOn k p 1 = some (i, j) → j.bad = false →
    ((j.out = none ∧ j.got.length + ((j.ask.map (·.n)).getD 0) ≤ j.srcLen) ∨ ∃ o, j.out = some o ∧ o.2.2.status ≠ 1) →
    j.srcLen + 5 * max 1 ((j.srcLen + 32767) / 32768) + (if j.frame = 1 then 6 else if j.frame = 2 then 18 else 0) ≤ j.dstLen →
    (∃ z, exec (.compress k p chk) s = .next (s.withPkg z) ∧ ∀ x r, (z.cx k).jobs[i]? = some x → x.res = some r → r.status ≠ 1)
    ∧ (∀ t src, s.pkg.cxPull k j.inst j.gen (fun _ => true) (j.srcLen + 1) (j.d.getD 1 0) j.srcLen [] = (t, src, none) →
      (frameHead j.frame j.level ++ (deflate j.level j.static src none).1 ++ frameTail j.frame (checkOf j.frame j.adler src) (src.length % 2 ^ 32)).length ≤ j.dstLen)

/-- While the package is unpowered or in a stop sequence, only the system controller's commands act (R421, 16_boot_configuration, 17_error_records_odometer). -/
def Obligations.AStoppedPackageIsStill : Prop :=
  ∀ (c : Instr) (s : State), s.pkg.live = false → ofController c = false →
    ∃ dt, (exec c s = .next s ∨ exec c s = .next (s.withPkg (s.pkg.elapse dt)))
      ∧ (s.pkg.elapse dt).threads = s.pkg.threads ∧ (s.pkg.elapse dt).mem = s.pkg.mem ∧ (s.pkg.elapse dt).fab = s.pkg.fab ∧ (s.pkg.elapse dt).live = false
      ∧ s.pkg.DrsBut (s.pkg.elapse dt) [cadBase + 0x10]

/-- Every command answers a next state, keeps the queue, the chip's identity and the fused key hash, and only sets fuses (R2, R409, R410, R413, R439, R444, 16_boot_configuration, 17_error_records_odometer). -/
def Obligations.EveryCommandAnswersAndKeepsWhatIsPermanent : Prop :=
  ∀ (c : Instr) (s : State), ∃ t, exec c s = .next t ∧ t.pending = s.pending ∧ t.nv.uid = s.nv.uid ∧ t.nv.stepping = s.nv.stepping ∧ t.nv.size = s.nv.size
    ∧ (∀ k, s.nv.keyHash = some k → t.nv.keyHash = some k) ∧ (∀ y, s.nv.odofuse.getLsbD y = true → t.nv.odofuse.getLsbD y = true)
    ∧ (ofFlash c = false → t.nv = s.nv)

/-- Every step keeps the flash in its canonical form and a fused key hash at 48 bytes, from every state (R409, R413, R443, 16_boot_configuration, 17_error_records_odometer). -/
def Obligations.EveryStepKeepsTheInvariant : Prop :=
  ∀ (s t : State), s.Inv → step s = .next t → t.Inv

/-- A word decodes to an instruction exactly when the instruction is legal and the word is its encoding; words written out from the formats (R71, R72, R73, R74, R75, R76, R90, 03_instruction_set). -/
def Obligations.EveryInstructionDecodesFromItsEncoding : Prop :=
  (∀ (w : Word32) (i : Ins), insDecode w = some i ↔ (i.legal = true ∧ i.encode = w))
  ∧ insDecode 0x000E6291#32 = some (.op 0#5 5#5 6#5 7#5 0#5)
  ∧ insDecode 0xFFC00CA1#32 = some (.branch 1#3 3#5 0#5 0xFFC#12)
  ∧ insDecode (0xFF8#12 ++ 3#3 ++ 2#5 ++ 1#5 ++ 0x01#7) = some (.load 3#3 1#5 2#5 0xFF8#12)
  ∧ insDecode (0x7F#7 ++ 3#3 ++ 9#5 ++ 2#5 ++ 0x18#5 ++ 0x05#7) = some (.store 3#3 2#5 9#5 0xFF8#12)
  ∧ insDecode (0xABCDE#20 ++ 4#5 ++ 0x0A#7) = some (.ldih 4#5 0xABCDE#20)
  ∧ insDecode (0xF00#12 ++ 0#3 ++ 0#5 ++ 3#5 ++ 0x31#7) = some (.mfsr 3#5 0xF00#12)
  ∧ insDecode (0#12 ++ 2#3 ++ 0#5 ++ 0#5 ++ 0x31#7) = some (.sys 0#12 0#5 0#5)
  ∧ insDecode (7#12 ++ 3#3 ++ 0#5 ++ 0#5 ++ 0x31#7) = some (.trap 7#7)
  ∧ insDecode (0#5 ++ 0#5 ++ 6#5 ++ 5#5 ++ 4#5 ++ 0x12#7) = some (.amo 0#5 false 4#5 5#5 6#5)
  ∧ insDecode (0#2 ++ 0#1 ++ 2#2 ++ 4#5 ++ 3#5 ++ 2#5 ++ 1#5 ++ 0x16#7) = some (.fma 2#2 false 1#5 2#5 3#5 4#5)
  ∧ insDecode (0#5 ++ 12#5 ++ 11#5 ++ 10#5 ++ 0#5 ++ 0x32#7) = some (.block 0#5 0#5 10#5 11#5 12#5)
  ∧ insDecode (0#5 ++ 8#5 ++ 7#5 ++ 6#5 ++ 5#5 ++ 0x11#7) = none
  ∧ insDecode (1#5 ++ 0#5 ++ 6#5 ++ 5#5 ++ 3#5 ++ 0x12#7) = none
  ∧ insDecode 0#32 = none

/-- Right after reset: the invariant; no power, every thread OFF, every register at its reset value, nothing cached, queued or in memory (R5, R9, R58, R312, R409, R413, 00_scope, 02_skevy_core, 16_boot_configuration). -/
def Obligations.ResetLeavesItsValues : Prop :=
  State.reset.Inv
  ∧ (∀ h, (State.reset.pkg.thr h).st = .off)
  ∧ (∀ o, State.reset.pkg.rd o = regReset o)
  ∧ State.reset.pkg.tdmState = 0
  ∧ State.reset.pkg.mem = [] ∧ State.reset.pkg.l2 = [] ∧ State.reset.pkg.l3 = [] ∧ State.reset.pkg.fab.gq = [] ∧ State.reset.pkg.devq = []
  ∧ State.reset.pending = [] ∧ State.reset.pkg.live = false
  ∧ (∀ (t : Thread) (v : Word), (t.wg 0 v).rg 0 = 0#64 ∧ ∀ r, (t.wg 0 v).rg r = t.rg r)
end

