-- ==== Sys2Proof/Laws/Map.lean ====
section
/-!
SUPPORT. Laws/Map.lean: the laws of the sparse tables: what a key reads as after a write, and that every operation keeps
the canonical form.
-/
namespace Sys2Proof.Machine

section
variable {α : Type} (d : Nat → α)

theorem Map.get_erase_same (m : Map α) (k : Nat) : Map.get d (Map.erase m k) k = d k := by
  induction m with
  | nil => rfl
  | cons e t ih =>
    obtain ⟨j, v⟩ := e
    by_cases h : j = k
    · simp [Map.erase, h, ih]
    · simp [Map.erase, Map.get, h, ih]

theorem Map.get_erase_other (m : Map α) (k q : Nat) (h : q ≠ k) : Map.get d (Map.erase m k) q = Map.get d m q := by
  induction m with
  | nil => rfl
  | cons e t ih =>
    obtain ⟨j, v⟩ := e
    by_cases hj : j = k
    · subst hj
      have : j ≠ q := fun x => h x.symm
      simp [Map.erase, Map.get, this, ih]
    · by_cases hq : j = q
      · subst hq
        simp [Map.erase, Map.get, hj]
      · simp [Map.erase, Map.get, hj, hq, ih]

theorem Map.get_insert_same (m : Map α) (k : Nat) (v : α) : Map.get d (Map.insert m k v) k = v := by
  induction m with
  | nil => simp [Map.insert, Map.get]
  | cons e t ih =>
    obtain ⟨j, w⟩ := e
    unfold Map.insert
    split
    · simp [Map.get]
    · split
      · simp [Map.get]
      · rename_i h _
        simp [Map.get, h, ih]

theorem Map.get_insert_other (m : Map α) (k q : Nat) (v : α) (h : q ≠ k) :
    Map.get d (Map.insert m k v) q = Map.get d m q := by
  have hk : k ≠ q := fun x => h x.symm
  induction m with
  | nil => simp [Map.insert, Map.get, hk]
  | cons e t ih =>
    obtain ⟨j, w⟩ := e
    unfold Map.insert
    split
    · rename_i hj
      subst hj
      simp [Map.get, hk]
    · split
      · simp [Map.get, hk]
      · simp [Map.get, ih]

variable [DecidableEq α]

/-- A key reads as what was last written to it. -/
@[simp] theorem Map.get_set_same (m : Map α) (k : Nat) (v : α) : Map.get d (Map.set d m k v) k = v := by
  unfold Map.set
  split
  · rename_i h
    rw [Map.get_erase_same, h]
  · exact Map.get_insert_same d m k v

/-- Every other key reads as before. -/
theorem Map.get_set_other (m : Map α) (k q : Nat) (v : α) (h : q ≠ k) :
    Map.get d (Map.set d m k v) q = Map.get d m q := by
  unfold Map.set
  split
  · exact Map.get_erase_other d m k q h
  · exact Map.get_insert_other d m k q v h

theorem Map.get_set (m : Map α) (k q : Nat) (v : α) :
    Map.get d (Map.set d m k v) q = if q = k then v else Map.get d m q := by
  by_cases h : q = k
  · subst h; simp
  · simp [h, Map.get_set_other d m k q v h]

theorem Map.wfFrom_mono {b c : Nat} {m : Map α} (h : c ≤ b) (w : Map.wfFrom d b m = true) : Map.wfFrom d c m = true := by
  cases m with
  | nil => rfl
  | cons e t =>
    obtain ⟨j, v⟩ := e
    simp only [Map.wfFrom, Bool.and_eq_true, decide_eq_true_eq] at w ⊢
    exact ⟨⟨h.trans w.1.1, w.1.2⟩, w.2⟩

theorem Map.wfFrom_erase {b : Nat} {m : Map α} (k : Nat) (w : Map.wfFrom d b m = true) :
    Map.wfFrom d b (Map.erase m k) = true := by
  induction m generalizing b with
  | nil => rfl
  | cons e t ih =>
    obtain ⟨j, v⟩ := e
    simp only [Map.wfFrom, Bool.and_eq_true, decide_eq_true_eq] at w
    by_cases hj : j = k
    · simp only [Map.erase, hj, if_true]
      exact Map.wfFrom_mono d (by omega) (ih w.2)
    · simp only [Map.erase, hj, if_false, Map.wfFrom, Bool.and_eq_true, decide_eq_true_eq]
      exact ⟨w.1, ih w.2⟩

theorem Map.wfFrom_insert {b : Nat} {m : Map α} (k : Nat) (v : α) (hb : b ≤ k) (hv : v ≠ d k)
    (w : Map.wfFrom d b m = true) : Map.wfFrom d b (Map.insert m k v) = true := by
  induction m generalizing b with
  | nil => simp [Map.insert, Map.wfFrom, hb, hv]
  | cons e t ih =>
    obtain ⟨j, x⟩ := e
    simp only [Map.wfFrom, Bool.and_eq_true, decide_eq_true_eq] at w
    unfold Map.insert
    split
    · rename_i hj
      subst hj
      simp only [Map.wfFrom, Bool.and_eq_true, decide_eq_true_eq]
      exact ⟨⟨hb, hv⟩, w.2⟩
    · split
      · rename_i hlt
        simp only [Map.wfFrom, Bool.and_eq_true, decide_eq_true_eq]
        exact ⟨⟨hb, hv⟩, ⟨⟨by omega, w.1.2⟩, w.2⟩⟩
      · simp only [Map.wfFrom, Bool.and_eq_true, decide_eq_true_eq]
        exact ⟨w.1, ih (by omega) w.2⟩

/-- A write keeps the canonical form. -/
theorem Map.wf_set {m : Map α} (k : Nat) (v : α) (w : Map.wf d m = true) : Map.wf d (Map.set d m k v) = true := by
  unfold Map.set
  split
  · exact Map.wfFrom_erase d k w
  · rename_i h
    exact Map.wfFrom_insert d k v (Nat.zero_le _) h w

theorem Map.wf_upd {m : Map α} (k : Nat) (f : α → α) (w : Map.wf d m = true) : Map.wf d (Map.upd d m k f) = true :=
  Map.wf_set d k _ w

end
end Sys2Proof.Machine
end

