-- ==== Sys2Proof/Laws/Memory.lean ====
section
/-!
SUPPORT. Laws/Memory.lean: the memory of the package keeps its one canonical form under every operation that writes it, and is in it
at reset; what a byte reads as after a write; the fields of a register after a write of one of them.
-/
namespace Sys2Proof.Machine

/-! ### The canonical form (log entry 5) -/

theorem Map.wfFrom_filter {α : Type} [DecidableEq α] (d : Nat → α) (f : Nat × α → Bool) {b : Nat} {m : Map α}
    (w : Map.wfFrom d b m = true) : Map.wfFrom d b (m.filter f) = true := by
  induction m generalizing b with
  | nil => rfl
  | cons e t ih =>
    obtain ⟨j, v⟩ := e
    simp only [Map.wfFrom, Bool.and_eq_true, decide_eq_true_eq] at w
    rw [List.filter_cons]
    split
    · simp only [Map.wfFrom, Bool.and_eq_true, decide_eq_true_eq]
      exact ⟨w.1, ih w.2⟩
    · exact Map.wfFrom_mono d (by omega) (ih w.2)

theorem Pkg.wf_memSetByte (s : Pkg) (a : Nat) (b : BitVec 8) (w : Memory.wf s.mem = true) : Memory.wf (s.memSetByte a b).mem = true :=
  Map.wf_set byte0 a b w

theorem Pkg.wf_memWrite (s : Pkg) (a n x : Nat) (w : Memory.wf s.mem = true) : Memory.wf (s.memWrite a n x).mem = true := by
  induction n generalizing s a x with
  | zero => exact w
  | succ n ih => exact ih _ _ _ (s.wf_memSetByte a _ w)

/-- A line write to the devices. -/
theorem Pkg.wf_dramPut (s : Pkg) (line : Nat) (d : BitVec 512) (p : Bool) (w : Memory.wf s.mem = true) :
    Memory.wf (s.dramPut line d p).mem = true := s.wf_memWrite _ _ _ w

/-- A line write that waits in its controller's queue writes no byte. -/
theorem Pkg.mem_dramQueue (s : Pkg) (line : Nat) (d : BitVec 512) (p : Bool) : (s.dramQueue line d p).mem = s.mem := rfl

theorem foldl_keeps {α β : Type} (P : β → Prop) (f : β → α → β) (h : ∀ b a, P b → P (f b a)) (l : List α) (b : β) (p : P b) : P (l.foldl f b) := by
  induction l generalizing b with
  | nil => exact p
  | cons a t ih => exact ih _ (h b a p)

/-- A page that a rejoin copies (12 R341). -/
theorem Pkg.wf_pagePut (s : Pkg) (p : PageImg) (w : Memory.wf s.mem = true) : Memory.wf (s.pagePut p).mem = true :=
  foldl_keeps (fun q : Pkg => Memory.wf q.mem = true) _ (fun q _ h => q.wf_dramPut _ _ _ h) _ s w

/-- The zeroing of a range, as of the dirty bitmap when a pass begins (12 R341). -/
theorem Memory.wf_filter (m : List Host.Cell) (f : Host.Cell → Bool) (w : Memory.wf m = true) : Memory.wf (m.filter f) = true :=
  Map.wfFrom_filter byte0 f w

theorem State.wf_reset : Memory.wf State.reset.pkg.mem = true := rfl

/-! ### What a byte reads as -/

theorem Pkg.memByte_memSetByte (s : Pkg) (a c : Nat) (x : BitVec 8) : (s.memSetByte a x).memByte c = if c = a then x else s.memByte c :=
  Map.get_set byte0 s.mem a c x

/-- A write of n bytes leaves every other byte. -/
theorem Pkg.memByte_memWrite_other (s : Pkg) (a n x c : Nat) (h : c < a ∨ a + n ≤ c) : (s.memWrite a n x).memByte c = s.memByte c := by
  induction n generalizing s a x with
  | zero => rfl
  | succ n ih =>
    rw [show s.memWrite a (n + 1) x = (s.memSetByte a (BitVec.ofNat 8 x)).memWrite (a + 1) n (x / 256) from rfl, ih _ _ _ (by omega),
      Pkg.memByte_memSetByte, if_neg (by omega)]

/-- And each of the n bytes reads as it was written, the least significant first (00 R6). -/
theorem Pkg.memByte_memWrite (s : Pkg) (a n x j : Nat) (h : j < n) : (s.memWrite a n x).memByte (a + j) = BitVec.ofNat 8 (x / 256 ^ j) := by
  induction n generalizing s a x j with
  | zero => omega
  | succ n ih =>
    rw [show s.memWrite a (n + 1) x = (s.memSetByte a (BitVec.ofNat 8 x)).memWrite (a + 1) n (x / 256) from rfl]
    cases j with
    | zero => rw [Pkg.memByte_memWrite_other _ _ _ _ _ (by omega), Pkg.memByte_memSetByte, if_pos (by omega)]; simp
    | succ j => rw [show a + (j + 1) = a + 1 + j by omega, ih _ _ _ _ (by omega), Nat.div_div_eq_div_mul, pow_succ, Nat.mul_comm]

/-! ### Fields of a register (00 R6) -/

theorem bits_testBit (v : Word) (hi lo i : Nat) : (bits v hi lo).testBit i = (decide (i < hi - lo + 1) && v.getLsbD (lo + i)) := by
  unfold bits
  rw [Nat.testBit_mod_two_pow, Nat.testBit_div_two_pow, Nat.add_comm i lo]
  rfl

theorem fmask_getLsbD (hi lo i : Nat) : (fmask hi lo).getLsbD i = (decide (i < 64) && decide (lo ≤ i) && decide (i - lo < hi - lo + 1)) := by
  unfold fmask
  rw [BitVec.getLsbD_ofNat, Nat.mul_comm, Nat.testBit_two_pow_mul, Nat.testBit_two_pow_sub_one, Bool.and_assoc]

theorem setBits_getLsbD (v : Word) (hi lo x i : Nat) (h : i < 64) :
    (setBits v hi lo x).getLsbD i = if lo ≤ i ∧ i - lo < hi - lo + 1 then x.testBit (i - lo) else v.getLsbD i := by
  unfold setBits
  rw [BitVec.getLsbD_or, BitVec.getLsbD_and, BitVec.getLsbD_not, fmask_getLsbD, BitVec.getLsbD_ofNat, Nat.mul_comm (_ % _), Nat.testBit_two_pow_mul,
    Nat.testBit_mod_two_pow]
  by_cases a : lo ≤ i <;> by_cases b : i - lo < hi - lo + 1 <;> simp [a, b, h]

/-- The field written reads as what was written, cut to its width. -/
theorem bits_setBits_same (v : Word) (hi lo x : Nat) (h : lo ≤ hi) (u : hi < 64) : bits (setBits v hi lo x) hi lo = x % 2 ^ (hi - lo + 1) := by
  apply Nat.eq_of_testBit_eq
  intro i
  rw [bits_testBit, Nat.testBit_mod_two_pow]
  by_cases a : i < hi - lo + 1
  · rw [setBits_getLsbD _ _ _ _ _ (by omega), if_pos ⟨by omega, by omega⟩, show lo + i - lo = i by omega]
  · simp [a]

/-- Every field beside it reads as before. -/
theorem bits_setBits_other (v : Word) (hi lo x p q : Nat) (w : q ≤ p) (u : p < 64) (h : p < lo ∨ hi < q) (hl : lo ≤ hi) :
    bits (setBits v hi lo x) p q = bits v p q := by
  apply Nat.eq_of_testBit_eq
  intro i
  rw [bits_testBit, bits_testBit]
  by_cases a : i < p - q + 1
  · rw [setBits_getLsbD _ _ _ _ _ (by omega), if_neg (by omega)]
  · simp [a]

theorem Pkg.rf_wf_same (s : Pkg) (o hi lo x : Nat) (h : lo ≤ hi) (u : hi < 64) : (s.wf o hi lo x).rf o hi lo = x % 2 ^ (hi - lo + 1) := by
  unfold Pkg.rf Pkg.wf Pkg.rd Pkg.wr
  rw [Map.get_set_same, bits_setBits_same _ _ _ _ h u]

theorem Pkg.rf_wf_other (s : Pkg) (o hi lo x p q : Nat) (w : q ≤ p) (u : p < 64) (h : p < lo ∨ hi < q) (hl : lo ≤ hi) :
    (s.wf o hi lo x).rf o p q = s.rf o p q := by
  unfold Pkg.rf Pkg.wf Pkg.rd Pkg.wr
  rw [Map.get_set_same, bits_setBits_other _ _ _ _ _ _ w u h hl]

end Sys2Proof.Machine
end

