-- ==== Sys2Proof/WellFormed.lean ====
section
/-!
DEFINITION. WellFormed.lean: the operands that the outside can present: the ranges that spec/ gives the messages, records and
addresses of a command. A command outside them is ill formed; exec is total on it all the same.
-/
namespace Sys2Proof

/-- A line number: PA[57:6] (01 R19). -/
def lineOk (n : Nat) : Bool := decide (n < 2 ^ 52)
/-- A core self-check (17 R432). -/
def CoreChk.ok (c : CoreChk) : Bool := decide (c.unit < 16) && lineOk c.line && (!c.corr || c.unit == 7)
/-- An array error: one or two corrected bits (06 R179). -/
def ArrErr.ok : ArrErr → Bool | .dataCe n => decide (1 ≤ n ∧ n ≤ 2) | _ => true
/-- The lookups of one line, and of a pass. -/
def LineErr.ok (l : LineErr) : Bool := lineOk l.line && l.e.ok
def LineAns.ok (l : LineAns) : Bool := lineOk l.line && l.e.ok
def scanOk (l : List (Nat × ArrErr)) : Bool := l.all (fun q => decide (q.1 < 32768) && q.2.ok)
/-- Symbols in error: each named once, with a difference (09 R244). -/
def symsOk (l : List SymErr) : Bool := l.all (fun e => e.x != 0#8) && decide (l.map (·.sym)).Nodup
/-- A flit: a line if it carries one. -/
def FlitOp.ok (f : FlitOp) : Bool := match f.line with | some l => lineOk l | none => true
/-- What a flit meets: at most eight attempts over a bridge (08 R218). -/
def FlitErr.ok : FlitErr → Bool | .crc n => decide (1 ≤ n ∧ n ≤ 8) | _ => true
/-- Eight logical lanes on different physical ones (10 R265). -/
def LaneMap.ok (m : LaneMap) : Bool := decide (m.phys.length = 8 ∧ m.phys.Nodup)
/-- A CHUNK record (12 R319). -/
def ChunkRec.ok (r : ChunkRec) : Bool :=
  decide (1 ≤ r.gsn ∧ r.gsn < 2 ^ 48 ∧ r.pred < r.gsn ∧ r.steps ≤ 16384 ∧ 1 ≤ r.cause ∧ r.cause ≤ 17 ∧ r.arg < 256 ∧ r.fault < 16)
    && decide (r.dfl < 32 ∧ r.drn < 2 ^ 15 ∧ r.tCommit < 2 ^ 64 ∧ r.value.length ≤ 32)
/-- An INB record (12 R320). -/
def InbRec.ok (r : InbRec) : Bool :=
  decide (1 ≤ r.gsn ∧ r.gsn < 2 ^ 48 ∧ r.pred < r.gsn ∧ r.kind ≤ 8 ∧ r.nbytes < 512 ∧ r.addr < 2 ^ 52 ∧ r.atop < 16 ∧ r.rm < 8)
    && decide (r.source < 2 ^ 16 ∧ r.be < 2 ^ 16 ∧ r.ts < 2 ^ 64 ∧ r.data.length ≤ 256)
/-- An OUTMAP record (12 R321). -/
def OutmapRec.ok (r : OutmapRec) : Bool :=
  decide (r.gsn < 2 ^ 48 ∧ r.osn < 2 ^ 32 ∧ r.cls < 4 ∧ r.dst < 2 ^ 15 ∧ r.epoch < 16 ∧ r.seq < 2 ^ 16)
/-- A PCIe request (14 R374): a doubleword address; at most 4 KiB; an AtomicOp's kind and size. -/
def PcieReq.ok (q : PcieReq) : Bool :=
  q.addr.toNat % 4 == 0 && (match q.op with
    | .rd dw => decide (1 ≤ dw ∧ dw ≤ 1024)
    | .wr l _ _ _ => decide (l.length % 4 = 0 ∧ 4 ≤ l.length ∧ l.length ≤ 4096)
    | .atom op n x cmp => decide (op ≤ 2 ∧ (n = 4 ∨ n = 8 ∨ (n = 16 ∧ op = 2)) ∧ x < 2 ^ (8 * n) ∧ cmp < 2 ^ (8 * n)))
/-- A device's answer. -/
def Cpl.ok' : Cpl → Bool | .ok d => decide (d < 2 ^ 512) | _ => true
/-- A channel's population (09 R238). -/
def ChanPop.ok (c : ChanPop) : Bool := decide (c.dimms ≤ 2)
/-- A handshake's role (12 R310). -/
def TduHello.ok (m : TduHello) : Bool := decide (m.role = 1 ∨ m.role = 2)
/-- A telemetry sample: 128 tiles, 13 rails (18 R452). -/
def Telem.ok (t : Telem) : Bool := decide (t.tiles.length = 128 ∧ t.rails.length = 13) && t.fails.all (fun r => decide (r < 12))
/-- A page of DRAM (12 R341). -/
def PageImg.ok (p : PageImg) : Bool := decide (p.page < 2 ^ 39 ∧ p.data.length = 4096)
/-- A thread's image (12 R342). -/
def ThrImg.ok (t : ThrImg) : Bool := decide (t.g.length = 32 ∧ t.f.length = 32 ∧ t.v.length = 32)
def PairImg.ok (m : PairImg) : Bool := m.pages.all PageImg.ok && m.thrs.all ThrImg.ok && decide (m.thrs.map (·.h)).Nodup

/-- A command is well formed. -/
def Instr.wf : Instr → Bool
  | .integerOp _ chk => (match chk with | some k => k.ok | none => true)
  | .load _ chk => (match chk with | some k => k.ok | none => true)
  | .fillArrival _ _ a => a.e.ok
  | .permissionGrant _ g => g.ok
  | .mergeIdleRelease _ line _ => lineOk line
  | .wcIdleFlush _ line _ => lineOk line
  | .rdshared _ line e => lineOk line && e.ok
  | .rdunique _ line e => lineOk line && e.ok
  | .upgrade _ line e => lineOk line && e.ok
  | .wrback _ l => l.ok
  | .drop _ l => l.ok
  | .snoop _ line e => lineOk line && e.ok
  | .uncachedHomeAccess u => u.e.ok
  | .wayRetireComplete _ _ w => scanOk w.errs
  | .cacheCmdComplete _ n => scanOk n.errs
  | .spareReady n => scanOk n.errs
  | .evacuationComplete n => scanOk n.errs
  | .meshFlitArrival _ _ f e => f.ok && e.ok
  | .dramRead _ line => lineOk line
  | .dramReadReturn _ line err => lineOk line && symsOk err
  | .dramWrite _ line => lineOk line
  | .trowelLineResult _ err => symsOk err
  | .linkTrainingStep _ _ m _ => m.ok
  | .dataFlitReceive _ w => decide (w.length = 9)
  | .idleFlitReceive _ w _ => decide (w.length = 9)
  | .nakReceive _ w => decide (w.length = 9)
  | .checkFlitReceive _ w => decide (w.length = 9)
  | .switchFlitReceive _ w _ => decide (w.length = 9)
  | .tandemHandshake m => m.ok
  | .chunkConflictCommit _ line _ => lineOk line
  | .inbReplay g => decide (g < 2 ^ 48)
  | .digest osn _ => decide (osn < 2 ^ 32)
  | .progress g => decide (g < 2 ^ 48)
  | .resilverPassEnd pages => pages.all PageImg.ok
  | .cutoverComplete _ m => m.ok
  | .ecamAccess _ a => a.ok'
  | .crsRetry _ _ a => a.ok'
  | .pcieCompletion _ a => a.ok'
  | .inboundRequest _ _ q => q.ok
  | .atsTranslationRequest _ _ q => q.ok
  | .bootMemtrain _ pop => (pop.length == 16 && pop.all ChanPop.ok)
  | .mgtReadTransfer _ n => decide (n ≤ 65536)
  | .readReg _ a => a.ok'
  | .writeReg _ a => a.ok'
  | .telemetrySample _ t => t.ok
  | .dbgAccess _ a => a.ok'
  | .registerWrite off _ => decide (off < 2 ^ 30 ∧ off % 8 = 0)
  | .branch .. | .bal .. | .balr .. | .store .. | .fpOp .. | .fma .. | .decOp .. | .vecOp .. | .cas .. | .cas128 .. | .amo ..
  | .damoadd .. | .mfsr .. | .mtsr .. | .scall .. | .hcall .. | .mcall .. | .sret .. | .eret .. | .brk .. | .trap .. | .park ..
  | .monitor .. | .waitt .. | .rdtime .. | .htid .. | .fence .. | .fenceIo .. | .fenceG .. | .cva .. | .iva .. | .civa ..
  | .csw .. | .isw .. | .cisw .. | .tlbi .. | .movb .. | .fillb .. | .cmpb .. | .crcb .. | .granule .. | .fetchBlock ..
  | .starvationPromotion .. | .loadReissue .. | .storeDrain .. | .interruptTake .. | .waittTimeReached .. | .timerPending ..
  | .pmcWrap .. | .threadStart .. | .threadHalt .. | .haltComplete .. | .threadResume .. | .threadStop .. | .ticMsiWrite ..
  | .ticIpiSend .. | .tableWalk .. | .iotuInvAll .. | .iotuInvSrc .. | .iotuInvPasid .. | .iotuInvPage .. | .iotuInvVmid ..
  | .iotuInvComplete .. | .atsInvalidateTimeout .. | .iotuFqbaseWrite .. | .wayRetireWrite .. | .l2CleanAll ..
  | .l2CleanInvalidateAll .. | .l3sCleanAll .. | .l3sCleanInvalidateAll .. | .cacheModeWrite .. | .cacheModeSettled
  | .spareReserve .. | .spareClear .. | .sliceEvacuate .. | .l2Gate .. | .bridgeRetrainComplete .. | .coreGate ..
  | .coreGateComplete .. | .coreWake .. | .coreWakeComplete .. | .statsSample .. | .pprGo .. | .spprStart .. | .spprComplete ..
  | .trwStart .. | .trwAbort .. | .trowelRead .. | .trowelPassEnd .. | .linkEnable .. | .linkDrain .. | .linkDisable ..
  | .linkTrainRetry .. | .replayTimeout .. | .laneRepairComplete .. | .lossOfLock .. | .linkDrainComplete .. | .takeoverTimeout ..
  | .fabricRoute .. | .routeFlip | .globalRequestInject .. | .fabRd | .fabWr | .fabAtom | .fabFlush | .fabRelease | .fabMsg
  | .fabResponse | .cumulativeAck .. | .streamIdleRelease .. | .streamResendTimeout .. | .streamAbsentTimeout .. | .busyResend ..
  | .fabSendGo .. | .memTable | .memFlip | .mapupd | .memDone | .memJoin | .joinOk | .memLeave | .memLeft | .linkev | .memProbe
  | .probeAck | .probeTimeout .. | .membershipResend .. | .joinResend .. | .leadSilent .. | .leadFlipPhase | .leadMapupdPhase ..
  | .fabJoinCmd | .fabLeaveCmd | .fabLeadWrite .. | .fabRqCfgWrite .. | .handshakeTimeout .. | .chunkTimeLimit .. | .logChunk ..
  | .logInb .. | .logOutmap .. | .logReleased .. | .logMark .. | .chunkReplay .. | .stokerFailstopCommand | .tdmFsInAssert ..
  | .partnerSilenceTimeout .. | .stokerIsolationTimeout .. | .promotionReplayDone .. | .promotionComplete .. | .rejoin ..
  | .cutoverStart .. | .swap .. | .swapComplete .. | .releaseHeld | .discardHeld | .openIo | .checkpoint | .tdmRepairGo ..
  | .tdmRepairComplete .. | .ppsEdge .. | .todFrame .. | .todGapTimeout .. | .ppsLossTimeout .. | .slewComplete ..
  | .todvalidExpire .. | .holdoverDay .. | .scheduleFire .. | .scheduleEntryWrite .. | .cadCfgWrite .. | .cadTimeNsRead ..
  | .mmioAccess .. | .completionTimeout .. | .intxMessage .. | .pcieLinkUp .. | .pcieLinkDown .. | .bmeClear .. | .bmeDrainEnd ..
  | .flr .. | .flrComplete .. | .vfEnableChange .. | .cxDoorbell .. | .descriptorFetch .. | .descriptorDispatch .. | .nop ..
  | .compress .. | .decompress .. | .checksum .. | .descriptorComplete .. | .cxQueueEnable .. | .cxInstanceEnable ..
  | .cxInstanceDisable .. | .cxInstanceReset .. | .instanceResetComplete .. | .pwrgoodRise .. | .bootAuth .. | .bootMesh ..
  | .bootLinks .. | .bootFwload .. | .bootRelease .. | .meminitComplete .. | .pwrgoodFall | .warmRstN .. | .scResetWrite ..
  | .stopSequenceEnd .. | .refclkLoss | .vauxLoss | .machineCheckPending .. | .odometerSecond .. | .odometerHourly ..
  | .odometerWriteComplete .. | .odoCmdSnap | .odoEvcodeWrite .. | .mgtWriteTransfer .. | .entdaa .. | .setdasa .. | .rstdaa
  | .enec | .disec | .getpid | .getbcr | .getdcr | .getstatus | .getmxds | .ibiRepeat .. | .mgtBusTimeout .. | .mbxGo ..
  | .getInfo .. | .readOdo .. | .odoSnap .. | .flashRead .. | .flashWrite .. | .provision .. | .dbgChallenge .. | .dbgResponse ..
  | .mbxReset .. | .resetDelayExpiry .. | .setLead .. | .forwardedCommand .. | .mgtFwdoneWrite .. | .forwardTimeout ..
  | .dvfsStep .. | .shmArm | .shmDisarm | .shmStartReached .. | .bypass | .idcode | .samplePreload | .extest | .scChalStore ..
  | .scChalNewChallenge | .scChalSubmit | .debugCheckComplete .. | .trst .. | .warmRstNRelease | .vauxPowerUp
  | .todFramingError .. | .todFrameUnclaimed .. | .ptmRequest .. | .pcieErrorReport .. | .divergenceReport
  | .membershipChangeStart .. | .perturbationDelayEnd .. => true

end Sys2Proof
end

