-- ==== Sys2Proof/Laws/State.lean ====
section
/-!
SUPPORT. Laws/State.lean: what the named writes of Machine/Ops.lean change, one lemma per field: a register reads as what was
written last, and every other field of the package is kept. Later proofs cite these and unfold no record update.
-/
namespace Sys2Proof.Machine

/-! ### Registers of the DRS -/

@[simp] theorem Pkg.rd_wr_same (s : Pkg) (o : Nat) (v : Word) : (s.wr o v).rd o = v :=
  Map.get_set_same regReset s.drs o v
theorem Pkg.rd_wr_other (s : Pkg) (o q : Nat) (v : Word) (h : q ≠ o) : (s.wr o v).rd q = s.rd q :=
  Map.get_set_other regReset s.drs o q v h
theorem Pkg.rd_wr (s : Pkg) (o q : Nat) (v : Word) : (s.wr o v).rd q = if q = o then v else s.rd q :=
  Map.get_set regReset s.drs o q v
@[simp] theorem Pkg.rd_wf_same (s : Pkg) (o hi lo x : Nat) : (s.wf o hi lo x).rd o = setBits (s.rd o) hi lo x :=
  Pkg.rd_wr_same s o _
theorem Pkg.rd_wf_other (s : Pkg) (o q hi lo x : Nat) (h : q ≠ o) : (s.wf o hi lo x).rd q = s.rd q :=
  Pkg.rd_wr_other s o q _ h
@[simp] theorem Pkg.rd_wb_same (s : Pkg) (o i : Nat) (b : Bool) :
    (s.wb o i b).rd o = setBits (s.rd o) i i (if b then 1 else 0) := Pkg.rd_wr_same s o _
theorem Pkg.rd_wb_other (s : Pkg) (o q i : Nat) (b : Bool) (h : q ≠ o) : (s.wb o i b).rd q = s.rd q :=
  Pkg.rd_wr_other s o q _ h
theorem Pkg.rd_sat_other (s : Pkg) (o q hi lo k : Nat) (h : q ≠ o) : (s.sat o hi lo k).rd q = s.rd q :=
  Pkg.rd_wr_other s o q _ h
theorem Pkg.rd_inc_other (s : Pkg) (o q hi lo k : Nat) (h : q ≠ o) : (s.inc o hi lo k).rd q = s.rd q :=
  Pkg.rd_wr_other s o q _ h


/-! ### wr -/

@[simp] theorem Pkg.wr_threads (s : Pkg) (o : Nat) (v : Word) : (s.wr o v).threads = s.threads := rfl
@[simp] theorem Pkg.wr_cores (s : Pkg) (o : Nat) (v : Word) : (s.wr o v).cores = s.cores := rfl
@[simp] theorem Pkg.wr_l1i (s : Pkg) (o : Nat) (v : Word) : (s.wr o v).l1i = s.l1i := rfl
@[simp] theorem Pkg.wr_l1d (s : Pkg) (o : Nat) (v : Word) : (s.wr o v).l1d = s.l1d := rfl
@[simp] theorem Pkg.wr_l2 (s : Pkg) (o : Nat) (v : Word) : (s.wr o v).l2 = s.l2 := rfl
@[simp] theorem Pkg.wr_l3 (s : Pkg) (o : Nat) (v : Word) : (s.wr o v).l3 = s.l3 := rfl
@[simp] theorem Pkg.wr_dir (s : Pkg) (o : Nat) (v : Word) : (s.wr o v).dir = s.dir := rfl
@[simp] theorem Pkg.wr_trackers (s : Pkg) (o : Nat) (v : Word) : (s.wr o v).trackers = s.trackers := rfl
@[simp] theorem Pkg.wr_cops (s : Pkg) (o : Nat) (v : Word) : (s.wr o v).cops = s.cops := rfl
@[simp] theorem Pkg.wr_spare (s : Pkg) (o : Nat) (v : Word) : (s.wr o v).spare = s.spare := rfl
@[simp] theorem Pkg.wr_evac (s : Pkg) (o : Nat) (v : Word) : (s.wr o v).evac = s.evac := rfl
@[simp] theorem Pkg.wr_devq (s : Pkg) (o : Nat) (v : Word) : (s.wr o v).devq = s.devq := rfl
@[simp] theorem Pkg.wr_mem (s : Pkg) (o : Nat) (v : Word) : (s.wr o v).mem = s.mem := rfl
@[simp] theorem Pkg.wr_dpoison (s : Pkg) (o : Nat) (v : Word) : (s.wr o v).dpoison = s.dpoison := rfl
@[simp] theorem Pkg.wr_dsym (s : Pkg) (o : Nat) (v : Word) : (s.wr o v).dsym = s.dsym := rfl
@[simp] theorem Pkg.wr_noc (s : Pkg) (o : Nat) (v : Word) : (s.wr o v).noc = s.noc := rfl
@[simp] theorem Pkg.wr_mcs (s : Pkg) (o : Nat) (v : Word) : (s.wr o v).mcs = s.mcs := rfl
@[simp] theorem Pkg.wr_links (s : Pkg) (o : Nat) (v : Word) : (s.wr o v).links = s.links := rfl
@[simp] theorem Pkg.wr_fab (s : Pkg) (o : Nat) (v : Word) : (s.wr o v).fab = s.fab := rfl
@[simp] theorem Pkg.wr_tdm (s : Pkg) (o : Nat) (v : Word) : (s.wr o v).tdm = s.tdm := rfl
@[simp] theorem Pkg.wr_cad (s : Pkg) (o : Nat) (v : Word) : (s.wr o v).cad = s.cad := rfl
@[simp] theorem Pkg.wr_iotus (s : Pkg) (o : Nat) (v : Word) : (s.wr o v).iotus = s.iotus := rfl
@[simp] theorem Pkg.wr_pcie (s : Pkg) (o : Nat) (v : Word) : (s.wr o v).pcie = s.pcie := rfl
@[simp] theorem Pkg.wr_cxs (s : Pkg) (o : Nat) (v : Word) : (s.wr o v).cxs = s.cxs := rfl
@[simp] theorem Pkg.wr_boot (s : Pkg) (o : Nat) (v : Word) : (s.wr o v).boot = s.boot := rfl
@[simp] theorem Pkg.wr_odo (s : Pkg) (o : Nat) (v : Word) : (s.wr o v).odo = s.odo := rfl
@[simp] theorem Pkg.wr_mgt (s : Pkg) (o : Nat) (v : Word) : (s.wr o v).mgt = s.mgt := rfl
@[simp] theorem Pkg.wr_pwr (s : Pkg) (o : Nat) (v : Word) : (s.wr o v).pwr = s.pwr := rfl
@[simp] theorem Pkg.wr_shm (s : Pkg) (o : Nat) (v : Word) : (s.wr o v).shm = s.shm := rfl
@[simp] theorem Pkg.wr_jtag (s : Pkg) (o : Nat) (v : Word) : (s.wr o v).jtag = s.jtag := rfl
@[simp] theorem Pkg.wr_pins (s : Pkg) (o : Nat) (v : Word) : (s.wr o v).pins = s.pins := rfl
@[simp] theorem Pkg.wr_reply (s : Pkg) (o : Nat) (v : Word) : (s.wr o v).reply = s.reply := rfl
@[simp] theorem Pkg.wr_now (s : Pkg) (o : Nat) (v : Word) : (s.wr o v).now = s.now := rfl
@[simp] theorem Pkg.wr_fresh (s : Pkg) (o : Nat) (v : Word) : (s.wr o v).fresh = s.fresh := rfl

/-! ### wf -/

@[simp] theorem Pkg.wf_threads (s : Pkg) (o hi lo x : Nat) : (s.wf o hi lo x).threads = s.threads := rfl
@[simp] theorem Pkg.wf_cores (s : Pkg) (o hi lo x : Nat) : (s.wf o hi lo x).cores = s.cores := rfl
@[simp] theorem Pkg.wf_l1i (s : Pkg) (o hi lo x : Nat) : (s.wf o hi lo x).l1i = s.l1i := rfl
@[simp] theorem Pkg.wf_l1d (s : Pkg) (o hi lo x : Nat) : (s.wf o hi lo x).l1d = s.l1d := rfl
@[simp] theorem Pkg.wf_l2 (s : Pkg) (o hi lo x : Nat) : (s.wf o hi lo x).l2 = s.l2 := rfl
@[simp] theorem Pkg.wf_l3 (s : Pkg) (o hi lo x : Nat) : (s.wf o hi lo x).l3 = s.l3 := rfl
@[simp] theorem Pkg.wf_dir (s : Pkg) (o hi lo x : Nat) : (s.wf o hi lo x).dir = s.dir := rfl
@[simp] theorem Pkg.wf_trackers (s : Pkg) (o hi lo x : Nat) : (s.wf o hi lo x).trackers = s.trackers := rfl
@[simp] theorem Pkg.wf_cops (s : Pkg) (o hi lo x : Nat) : (s.wf o hi lo x).cops = s.cops := rfl
@[simp] theorem Pkg.wf_spare (s : Pkg) (o hi lo x : Nat) : (s.wf o hi lo x).spare = s.spare := rfl
@[simp] theorem Pkg.wf_evac (s : Pkg) (o hi lo x : Nat) : (s.wf o hi lo x).evac = s.evac := rfl
@[simp] theorem Pkg.wf_devq (s : Pkg) (o hi lo x : Nat) : (s.wf o hi lo x).devq = s.devq := rfl
@[simp] theorem Pkg.wf_mem (s : Pkg) (o hi lo x : Nat) : (s.wf o hi lo x).mem = s.mem := rfl
@[simp] theorem Pkg.wf_dpoison (s : Pkg) (o hi lo x : Nat) : (s.wf o hi lo x).dpoison = s.dpoison := rfl
@[simp] theorem Pkg.wf_dsym (s : Pkg) (o hi lo x : Nat) : (s.wf o hi lo x).dsym = s.dsym := rfl
@[simp] theorem Pkg.wf_noc (s : Pkg) (o hi lo x : Nat) : (s.wf o hi lo x).noc = s.noc := rfl
@[simp] theorem Pkg.wf_mcs (s : Pkg) (o hi lo x : Nat) : (s.wf o hi lo x).mcs = s.mcs := rfl
@[simp] theorem Pkg.wf_links (s : Pkg) (o hi lo x : Nat) : (s.wf o hi lo x).links = s.links := rfl
@[simp] theorem Pkg.wf_fab (s : Pkg) (o hi lo x : Nat) : (s.wf o hi lo x).fab = s.fab := rfl
@[simp] theorem Pkg.wf_tdm (s : Pkg) (o hi lo x : Nat) : (s.wf o hi lo x).tdm = s.tdm := rfl
@[simp] theorem Pkg.wf_cad (s : Pkg) (o hi lo x : Nat) : (s.wf o hi lo x).cad = s.cad := rfl
@[simp] theorem Pkg.wf_iotus (s : Pkg) (o hi lo x : Nat) : (s.wf o hi lo x).iotus = s.iotus := rfl
@[simp] theorem Pkg.wf_pcie (s : Pkg) (o hi lo x : Nat) : (s.wf o hi lo x).pcie = s.pcie := rfl
@[simp] theorem Pkg.wf_cxs (s : Pkg) (o hi lo x : Nat) : (s.wf o hi lo x).cxs = s.cxs := rfl
@[simp] theorem Pkg.wf_boot (s : Pkg) (o hi lo x : Nat) : (s.wf o hi lo x).boot = s.boot := rfl
@[simp] theorem Pkg.wf_odo (s : Pkg) (o hi lo x : Nat) : (s.wf o hi lo x).odo = s.odo := rfl
@[simp] theorem Pkg.wf_mgt (s : Pkg) (o hi lo x : Nat) : (s.wf o hi lo x).mgt = s.mgt := rfl
@[simp] theorem Pkg.wf_pwr (s : Pkg) (o hi lo x : Nat) : (s.wf o hi lo x).pwr = s.pwr := rfl
@[simp] theorem Pkg.wf_shm (s : Pkg) (o hi lo x : Nat) : (s.wf o hi lo x).shm = s.shm := rfl
@[simp] theorem Pkg.wf_jtag (s : Pkg) (o hi lo x : Nat) : (s.wf o hi lo x).jtag = s.jtag := rfl
@[simp] theorem Pkg.wf_pins (s : Pkg) (o hi lo x : Nat) : (s.wf o hi lo x).pins = s.pins := rfl
@[simp] theorem Pkg.wf_reply (s : Pkg) (o hi lo x : Nat) : (s.wf o hi lo x).reply = s.reply := rfl
@[simp] theorem Pkg.wf_now (s : Pkg) (o hi lo x : Nat) : (s.wf o hi lo x).now = s.now := rfl
@[simp] theorem Pkg.wf_fresh (s : Pkg) (o hi lo x : Nat) : (s.wf o hi lo x).fresh = s.fresh := rfl

/-! ### wb -/

@[simp] theorem Pkg.wb_threads (s : Pkg) (o i : Nat) (b : Bool) : (s.wb o i b).threads = s.threads := rfl
@[simp] theorem Pkg.wb_cores (s : Pkg) (o i : Nat) (b : Bool) : (s.wb o i b).cores = s.cores := rfl
@[simp] theorem Pkg.wb_l1i (s : Pkg) (o i : Nat) (b : Bool) : (s.wb o i b).l1i = s.l1i := rfl
@[simp] theorem Pkg.wb_l1d (s : Pkg) (o i : Nat) (b : Bool) : (s.wb o i b).l1d = s.l1d := rfl
@[simp] theorem Pkg.wb_l2 (s : Pkg) (o i : Nat) (b : Bool) : (s.wb o i b).l2 = s.l2 := rfl
@[simp] theorem Pkg.wb_l3 (s : Pkg) (o i : Nat) (b : Bool) : (s.wb o i b).l3 = s.l3 := rfl
@[simp] theorem Pkg.wb_dir (s : Pkg) (o i : Nat) (b : Bool) : (s.wb o i b).dir = s.dir := rfl
@[simp] theorem Pkg.wb_trackers (s : Pkg) (o i : Nat) (b : Bool) : (s.wb o i b).trackers = s.trackers := rfl
@[simp] theorem Pkg.wb_cops (s : Pkg) (o i : Nat) (b : Bool) : (s.wb o i b).cops = s.cops := rfl
@[simp] theorem Pkg.wb_spare (s : Pkg) (o i : Nat) (b : Bool) : (s.wb o i b).spare = s.spare := rfl
@[simp] theorem Pkg.wb_evac (s : Pkg) (o i : Nat) (b : Bool) : (s.wb o i b).evac = s.evac := rfl
@[simp] theorem Pkg.wb_devq (s : Pkg) (o i : Nat) (b : Bool) : (s.wb o i b).devq = s.devq := rfl
@[simp] theorem Pkg.wb_mem (s : Pkg) (o i : Nat) (b : Bool) : (s.wb o i b).mem = s.mem := rfl
@[simp] theorem Pkg.wb_dpoison (s : Pkg) (o i : Nat) (b : Bool) : (s.wb o i b).dpoison = s.dpoison := rfl
@[simp] theorem Pkg.wb_dsym (s : Pkg) (o i : Nat) (b : Bool) : (s.wb o i b).dsym = s.dsym := rfl
@[simp] theorem Pkg.wb_noc (s : Pkg) (o i : Nat) (b : Bool) : (s.wb o i b).noc = s.noc := rfl
@[simp] theorem Pkg.wb_mcs (s : Pkg) (o i : Nat) (b : Bool) : (s.wb o i b).mcs = s.mcs := rfl
@[simp] theorem Pkg.wb_links (s : Pkg) (o i : Nat) (b : Bool) : (s.wb o i b).links = s.links := rfl
@[simp] theorem Pkg.wb_fab (s : Pkg) (o i : Nat) (b : Bool) : (s.wb o i b).fab = s.fab := rfl
@[simp] theorem Pkg.wb_tdm (s : Pkg) (o i : Nat) (b : Bool) : (s.wb o i b).tdm = s.tdm := rfl
@[simp] theorem Pkg.wb_cad (s : Pkg) (o i : Nat) (b : Bool) : (s.wb o i b).cad = s.cad := rfl
@[simp] theorem Pkg.wb_iotus (s : Pkg) (o i : Nat) (b : Bool) : (s.wb o i b).iotus = s.iotus := rfl
@[simp] theorem Pkg.wb_pcie (s : Pkg) (o i : Nat) (b : Bool) : (s.wb o i b).pcie = s.pcie := rfl
@[simp] theorem Pkg.wb_cxs (s : Pkg) (o i : Nat) (b : Bool) : (s.wb o i b).cxs = s.cxs := rfl
@[simp] theorem Pkg.wb_boot (s : Pkg) (o i : Nat) (b : Bool) : (s.wb o i b).boot = s.boot := rfl
@[simp] theorem Pkg.wb_odo (s : Pkg) (o i : Nat) (b : Bool) : (s.wb o i b).odo = s.odo := rfl
@[simp] theorem Pkg.wb_mgt (s : Pkg) (o i : Nat) (b : Bool) : (s.wb o i b).mgt = s.mgt := rfl
@[simp] theorem Pkg.wb_pwr (s : Pkg) (o i : Nat) (b : Bool) : (s.wb o i b).pwr = s.pwr := rfl
@[simp] theorem Pkg.wb_shm (s : Pkg) (o i : Nat) (b : Bool) : (s.wb o i b).shm = s.shm := rfl
@[simp] theorem Pkg.wb_jtag (s : Pkg) (o i : Nat) (b : Bool) : (s.wb o i b).jtag = s.jtag := rfl
@[simp] theorem Pkg.wb_pins (s : Pkg) (o i : Nat) (b : Bool) : (s.wb o i b).pins = s.pins := rfl
@[simp] theorem Pkg.wb_reply (s : Pkg) (o i : Nat) (b : Bool) : (s.wb o i b).reply = s.reply := rfl
@[simp] theorem Pkg.wb_now (s : Pkg) (o i : Nat) (b : Bool) : (s.wb o i b).now = s.now := rfl
@[simp] theorem Pkg.wb_fresh (s : Pkg) (o i : Nat) (b : Bool) : (s.wb o i b).fresh = s.fresh := rfl

/-! ### sat -/

@[simp] theorem Pkg.sat_threads (s : Pkg) (o hi lo k : Nat) : (s.sat o hi lo k).threads = s.threads := rfl
@[simp] theorem Pkg.sat_cores (s : Pkg) (o hi lo k : Nat) : (s.sat o hi lo k).cores = s.cores := rfl
@[simp] theorem Pkg.sat_l1i (s : Pkg) (o hi lo k : Nat) : (s.sat o hi lo k).l1i = s.l1i := rfl
@[simp] theorem Pkg.sat_l1d (s : Pkg) (o hi lo k : Nat) : (s.sat o hi lo k).l1d = s.l1d := rfl
@[simp] theorem Pkg.sat_l2 (s : Pkg) (o hi lo k : Nat) : (s.sat o hi lo k).l2 = s.l2 := rfl
@[simp] theorem Pkg.sat_l3 (s : Pkg) (o hi lo k : Nat) : (s.sat o hi lo k).l3 = s.l3 := rfl
@[simp] theorem Pkg.sat_dir (s : Pkg) (o hi lo k : Nat) : (s.sat o hi lo k).dir = s.dir := rfl
@[simp] theorem Pkg.sat_trackers (s : Pkg) (o hi lo k : Nat) : (s.sat o hi lo k).trackers = s.trackers := rfl
@[simp] theorem Pkg.sat_cops (s : Pkg) (o hi lo k : Nat) : (s.sat o hi lo k).cops = s.cops := rfl
@[simp] theorem Pkg.sat_spare (s : Pkg) (o hi lo k : Nat) : (s.sat o hi lo k).spare = s.spare := rfl
@[simp] theorem Pkg.sat_evac (s : Pkg) (o hi lo k : Nat) : (s.sat o hi lo k).evac = s.evac := rfl
@[simp] theorem Pkg.sat_devq (s : Pkg) (o hi lo k : Nat) : (s.sat o hi lo k).devq = s.devq := rfl
@[simp] theorem Pkg.sat_mem (s : Pkg) (o hi lo k : Nat) : (s.sat o hi lo k).mem = s.mem := rfl
@[simp] theorem Pkg.sat_dpoison (s : Pkg) (o hi lo k : Nat) : (s.sat o hi lo k).dpoison = s.dpoison := rfl
@[simp] theorem Pkg.sat_dsym (s : Pkg) (o hi lo k : Nat) : (s.sat o hi lo k).dsym = s.dsym := rfl
@[simp] theorem Pkg.sat_noc (s : Pkg) (o hi lo k : Nat) : (s.sat o hi lo k).noc = s.noc := rfl
@[simp] theorem Pkg.sat_mcs (s : Pkg) (o hi lo k : Nat) : (s.sat o hi lo k).mcs = s.mcs := rfl
@[simp] theorem Pkg.sat_links (s : Pkg) (o hi lo k : Nat) : (s.sat o hi lo k).links = s.links := rfl
@[simp] theorem Pkg.sat_fab (s : Pkg) (o hi lo k : Nat) : (s.sat o hi lo k).fab = s.fab := rfl
@[simp] theorem Pkg.sat_tdm (s : Pkg) (o hi lo k : Nat) : (s.sat o hi lo k).tdm = s.tdm := rfl
@[simp] theorem Pkg.sat_cad (s : Pkg) (o hi lo k : Nat) : (s.sat o hi lo k).cad = s.cad := rfl
@[simp] theorem Pkg.sat_iotus (s : Pkg) (o hi lo k : Nat) : (s.sat o hi lo k).iotus = s.iotus := rfl
@[simp] theorem Pkg.sat_pcie (s : Pkg) (o hi lo k : Nat) : (s.sat o hi lo k).pcie = s.pcie := rfl
@[simp] theorem Pkg.sat_cxs (s : Pkg) (o hi lo k : Nat) : (s.sat o hi lo k).cxs = s.cxs := rfl
@[simp] theorem Pkg.sat_boot (s : Pkg) (o hi lo k : Nat) : (s.sat o hi lo k).boot = s.boot := rfl
@[simp] theorem Pkg.sat_odo (s : Pkg) (o hi lo k : Nat) : (s.sat o hi lo k).odo = s.odo := rfl
@[simp] theorem Pkg.sat_mgt (s : Pkg) (o hi lo k : Nat) : (s.sat o hi lo k).mgt = s.mgt := rfl
@[simp] theorem Pkg.sat_pwr (s : Pkg) (o hi lo k : Nat) : (s.sat o hi lo k).pwr = s.pwr := rfl
@[simp] theorem Pkg.sat_shm (s : Pkg) (o hi lo k : Nat) : (s.sat o hi lo k).shm = s.shm := rfl
@[simp] theorem Pkg.sat_jtag (s : Pkg) (o hi lo k : Nat) : (s.sat o hi lo k).jtag = s.jtag := rfl
@[simp] theorem Pkg.sat_pins (s : Pkg) (o hi lo k : Nat) : (s.sat o hi lo k).pins = s.pins := rfl
@[simp] theorem Pkg.sat_reply (s : Pkg) (o hi lo k : Nat) : (s.sat o hi lo k).reply = s.reply := rfl
@[simp] theorem Pkg.sat_now (s : Pkg) (o hi lo k : Nat) : (s.sat o hi lo k).now = s.now := rfl
@[simp] theorem Pkg.sat_fresh (s : Pkg) (o hi lo k : Nat) : (s.sat o hi lo k).fresh = s.fresh := rfl

/-! ### inc -/

@[simp] theorem Pkg.inc_threads (s : Pkg) (o hi lo k : Nat) : (s.inc o hi lo k).threads = s.threads := rfl
@[simp] theorem Pkg.inc_cores (s : Pkg) (o hi lo k : Nat) : (s.inc o hi lo k).cores = s.cores := rfl
@[simp] theorem Pkg.inc_l1i (s : Pkg) (o hi lo k : Nat) : (s.inc o hi lo k).l1i = s.l1i := rfl
@[simp] theorem Pkg.inc_l1d (s : Pkg) (o hi lo k : Nat) : (s.inc o hi lo k).l1d = s.l1d := rfl
@[simp] theorem Pkg.inc_l2 (s : Pkg) (o hi lo k : Nat) : (s.inc o hi lo k).l2 = s.l2 := rfl
@[simp] theorem Pkg.inc_l3 (s : Pkg) (o hi lo k : Nat) : (s.inc o hi lo k).l3 = s.l3 := rfl
@[simp] theorem Pkg.inc_dir (s : Pkg) (o hi lo k : Nat) : (s.inc o hi lo k).dir = s.dir := rfl
@[simp] theorem Pkg.inc_trackers (s : Pkg) (o hi lo k : Nat) : (s.inc o hi lo k).trackers = s.trackers := rfl
@[simp] theorem Pkg.inc_cops (s : Pkg) (o hi lo k : Nat) : (s.inc o hi lo k).cops = s.cops := rfl
@[simp] theorem Pkg.inc_spare (s : Pkg) (o hi lo k : Nat) : (s.inc o hi lo k).spare = s.spare := rfl
@[simp] theorem Pkg.inc_evac (s : Pkg) (o hi lo k : Nat) : (s.inc o hi lo k).evac = s.evac := rfl
@[simp] theorem Pkg.inc_devq (s : Pkg) (o hi lo k : Nat) : (s.inc o hi lo k).devq = s.devq := rfl
@[simp] theorem Pkg.inc_mem (s : Pkg) (o hi lo k : Nat) : (s.inc o hi lo k).mem = s.mem := rfl
@[simp] theorem Pkg.inc_dpoison (s : Pkg) (o hi lo k : Nat) : (s.inc o hi lo k).dpoison = s.dpoison := rfl
@[simp] theorem Pkg.inc_dsym (s : Pkg) (o hi lo k : Nat) : (s.inc o hi lo k).dsym = s.dsym := rfl
@[simp] theorem Pkg.inc_noc (s : Pkg) (o hi lo k : Nat) : (s.inc o hi lo k).noc = s.noc := rfl
@[simp] theorem Pkg.inc_mcs (s : Pkg) (o hi lo k : Nat) : (s.inc o hi lo k).mcs = s.mcs := rfl
@[simp] theorem Pkg.inc_links (s : Pkg) (o hi lo k : Nat) : (s.inc o hi lo k).links = s.links := rfl
@[simp] theorem Pkg.inc_fab (s : Pkg) (o hi lo k : Nat) : (s.inc o hi lo k).fab = s.fab := rfl
@[simp] theorem Pkg.inc_tdm (s : Pkg) (o hi lo k : Nat) : (s.inc o hi lo k).tdm = s.tdm := rfl
@[simp] theorem Pkg.inc_cad (s : Pkg) (o hi lo k : Nat) : (s.inc o hi lo k).cad = s.cad := rfl
@[simp] theorem Pkg.inc_iotus (s : Pkg) (o hi lo k : Nat) : (s.inc o hi lo k).iotus = s.iotus := rfl
@[simp] theorem Pkg.inc_pcie (s : Pkg) (o hi lo k : Nat) : (s.inc o hi lo k).pcie = s.pcie := rfl
@[simp] theorem Pkg.inc_cxs (s : Pkg) (o hi lo k : Nat) : (s.inc o hi lo k).cxs = s.cxs := rfl
@[simp] theorem Pkg.inc_boot (s : Pkg) (o hi lo k : Nat) : (s.inc o hi lo k).boot = s.boot := rfl
@[simp] theorem Pkg.inc_odo (s : Pkg) (o hi lo k : Nat) : (s.inc o hi lo k).odo = s.odo := rfl
@[simp] theorem Pkg.inc_mgt (s : Pkg) (o hi lo k : Nat) : (s.inc o hi lo k).mgt = s.mgt := rfl
@[simp] theorem Pkg.inc_pwr (s : Pkg) (o hi lo k : Nat) : (s.inc o hi lo k).pwr = s.pwr := rfl
@[simp] theorem Pkg.inc_shm (s : Pkg) (o hi lo k : Nat) : (s.inc o hi lo k).shm = s.shm := rfl
@[simp] theorem Pkg.inc_jtag (s : Pkg) (o hi lo k : Nat) : (s.inc o hi lo k).jtag = s.jtag := rfl
@[simp] theorem Pkg.inc_pins (s : Pkg) (o hi lo k : Nat) : (s.inc o hi lo k).pins = s.pins := rfl
@[simp] theorem Pkg.inc_reply (s : Pkg) (o hi lo k : Nat) : (s.inc o hi lo k).reply = s.reply := rfl
@[simp] theorem Pkg.inc_now (s : Pkg) (o hi lo k : Nat) : (s.inc o hi lo k).now = s.now := rfl
@[simp] theorem Pkg.inc_fresh (s : Pkg) (o hi lo k : Nat) : (s.inc o hi lo k).fresh = s.fresh := rfl

/-! ### Threads and cores -/

@[simp] theorem Pkg.thr_setThr_same (s : Pkg) (h : Nat) (t : Thread) : (s.setThr h t).thr h = t :=
  Map.get_set_same thr0 s.threads h t
theorem Pkg.thr_setThr_other (s : Pkg) (h k : Nat) (t : Thread) (n : k ≠ h) : (s.setThr h t).thr k = s.thr k :=
  Map.get_set_other thr0 s.threads h k t n
@[simp] theorem Pkg.thr_updThr_same (s : Pkg) (h : Nat) (f : Thread → Thread) : (s.updThr h f).thr h = f (s.thr h) :=
  Pkg.thr_setThr_same s h _
theorem Pkg.thr_updThr_other (s : Pkg) (h k : Nat) (f : Thread → Thread) (n : k ≠ h) : (s.updThr h f).thr k = s.thr k :=
  Pkg.thr_setThr_other s h k _ n
@[simp] theorem Pkg.core_setCore_same (s : Pkg) (c : Nat) (k : Core) : (s.setCore c k).core c = k :=
  Map.get_set_same core0 s.cores c k
theorem Pkg.core_setCore_other (s : Pkg) (c d : Nat) (k : Core) (n : d ≠ c) : (s.setCore c k).core d = s.core d :=
  Map.get_set_other core0 s.cores c d k n
@[simp] theorem Pkg.core_updCore_same (s : Pkg) (c : Nat) (f : Core → Core) : (s.updCore c f).core c = f (s.core c) :=
  Pkg.core_setCore_same s c _
theorem Pkg.core_updCore_other (s : Pkg) (c d : Nat) (f : Core → Core) (n : d ≠ c) : (s.updCore c f).core d = s.core d :=
  Pkg.core_setCore_other s c d _ n

@[simp] theorem Pkg.setThr_cores (s : Pkg) (h : Nat) (t : Thread) : (s.setThr h t).cores = s.cores := rfl
@[simp] theorem Pkg.setThr_l1i (s : Pkg) (h : Nat) (t : Thread) : (s.setThr h t).l1i = s.l1i := rfl
@[simp] theorem Pkg.setThr_l1d (s : Pkg) (h : Nat) (t : Thread) : (s.setThr h t).l1d = s.l1d := rfl
@[simp] theorem Pkg.setThr_l2 (s : Pkg) (h : Nat) (t : Thread) : (s.setThr h t).l2 = s.l2 := rfl
@[simp] theorem Pkg.setThr_l3 (s : Pkg) (h : Nat) (t : Thread) : (s.setThr h t).l3 = s.l3 := rfl
@[simp] theorem Pkg.setThr_dir (s : Pkg) (h : Nat) (t : Thread) : (s.setThr h t).dir = s.dir := rfl
@[simp] theorem Pkg.setThr_trackers (s : Pkg) (h : Nat) (t : Thread) : (s.setThr h t).trackers = s.trackers := rfl
@[simp] theorem Pkg.setThr_cops (s : Pkg) (h : Nat) (t : Thread) : (s.setThr h t).cops = s.cops := rfl
@[simp] theorem Pkg.setThr_spare (s : Pkg) (h : Nat) (t : Thread) : (s.setThr h t).spare = s.spare := rfl
@[simp] theorem Pkg.setThr_evac (s : Pkg) (h : Nat) (t : Thread) : (s.setThr h t).evac = s.evac := rfl
@[simp] theorem Pkg.setThr_devq (s : Pkg) (h : Nat) (t : Thread) : (s.setThr h t).devq = s.devq := rfl
@[simp] theorem Pkg.setThr_mem (s : Pkg) (h : Nat) (t : Thread) : (s.setThr h t).mem = s.mem := rfl
@[simp] theorem Pkg.setThr_dpoison (s : Pkg) (h : Nat) (t : Thread) : (s.setThr h t).dpoison = s.dpoison := rfl
@[simp] theorem Pkg.setThr_dsym (s : Pkg) (h : Nat) (t : Thread) : (s.setThr h t).dsym = s.dsym := rfl
@[simp] theorem Pkg.setThr_drs (s : Pkg) (h : Nat) (t : Thread) : (s.setThr h t).drs = s.drs := rfl
@[simp] theorem Pkg.setThr_noc (s : Pkg) (h : Nat) (t : Thread) : (s.setThr h t).noc = s.noc := rfl
@[simp] theorem Pkg.setThr_mcs (s : Pkg) (h : Nat) (t : Thread) : (s.setThr h t).mcs = s.mcs := rfl
@[simp] theorem Pkg.setThr_links (s : Pkg) (h : Nat) (t : Thread) : (s.setThr h t).links = s.links := rfl
@[simp] theorem Pkg.setThr_fab (s : Pkg) (h : Nat) (t : Thread) : (s.setThr h t).fab = s.fab := rfl
@[simp] theorem Pkg.setThr_tdm (s : Pkg) (h : Nat) (t : Thread) : (s.setThr h t).tdm = s.tdm := rfl
@[simp] theorem Pkg.setThr_cad (s : Pkg) (h : Nat) (t : Thread) : (s.setThr h t).cad = s.cad := rfl
@[simp] theorem Pkg.setThr_iotus (s : Pkg) (h : Nat) (t : Thread) : (s.setThr h t).iotus = s.iotus := rfl
@[simp] theorem Pkg.setThr_pcie (s : Pkg) (h : Nat) (t : Thread) : (s.setThr h t).pcie = s.pcie := rfl
@[simp] theorem Pkg.setThr_cxs (s : Pkg) (h : Nat) (t : Thread) : (s.setThr h t).cxs = s.cxs := rfl
@[simp] theorem Pkg.setThr_boot (s : Pkg) (h : Nat) (t : Thread) : (s.setThr h t).boot = s.boot := rfl
@[simp] theorem Pkg.setThr_odo (s : Pkg) (h : Nat) (t : Thread) : (s.setThr h t).odo = s.odo := rfl
@[simp] theorem Pkg.setThr_mgt (s : Pkg) (h : Nat) (t : Thread) : (s.setThr h t).mgt = s.mgt := rfl
@[simp] theorem Pkg.setThr_pwr (s : Pkg) (h : Nat) (t : Thread) : (s.setThr h t).pwr = s.pwr := rfl
@[simp] theorem Pkg.setThr_shm (s : Pkg) (h : Nat) (t : Thread) : (s.setThr h t).shm = s.shm := rfl
@[simp] theorem Pkg.setThr_jtag (s : Pkg) (h : Nat) (t : Thread) : (s.setThr h t).jtag = s.jtag := rfl
@[simp] theorem Pkg.setThr_pins (s : Pkg) (h : Nat) (t : Thread) : (s.setThr h t).pins = s.pins := rfl
@[simp] theorem Pkg.setThr_reply (s : Pkg) (h : Nat) (t : Thread) : (s.setThr h t).reply = s.reply := rfl
@[simp] theorem Pkg.setThr_now (s : Pkg) (h : Nat) (t : Thread) : (s.setThr h t).now = s.now := rfl
@[simp] theorem Pkg.setThr_fresh (s : Pkg) (h : Nat) (t : Thread) : (s.setThr h t).fresh = s.fresh := rfl
@[simp] theorem Pkg.updThr_cores (s : Pkg) (h : Nat) (f : Thread → Thread) : (s.updThr h f).cores = s.cores := rfl
@[simp] theorem Pkg.updThr_l1i (s : Pkg) (h : Nat) (f : Thread → Thread) : (s.updThr h f).l1i = s.l1i := rfl
@[simp] theorem Pkg.updThr_l1d (s : Pkg) (h : Nat) (f : Thread → Thread) : (s.updThr h f).l1d = s.l1d := rfl
@[simp] theorem Pkg.updThr_l2 (s : Pkg) (h : Nat) (f : Thread → Thread) : (s.updThr h f).l2 = s.l2 := rfl
@[simp] theorem Pkg.updThr_l3 (s : Pkg) (h : Nat) (f : Thread → Thread) : (s.updThr h f).l3 = s.l3 := rfl
@[simp] theorem Pkg.updThr_dir (s : Pkg) (h : Nat) (f : Thread → Thread) : (s.updThr h f).dir = s.dir := rfl
@[simp] theorem Pkg.updThr_trackers (s : Pkg) (h : Nat) (f : Thread → Thread) : (s.updThr h f).trackers = s.trackers := rfl
@[simp] theorem Pkg.updThr_cops (s : Pkg) (h : Nat) (f : Thread → Thread) : (s.updThr h f).cops = s.cops := rfl
@[simp] theorem Pkg.updThr_spare (s : Pkg) (h : Nat) (f : Thread → Thread) : (s.updThr h f).spare = s.spare := rfl
@[simp] theorem Pkg.updThr_evac (s : Pkg) (h : Nat) (f : Thread → Thread) : (s.updThr h f).evac = s.evac := rfl
@[simp] theorem Pkg.updThr_devq (s : Pkg) (h : Nat) (f : Thread → Thread) : (s.updThr h f).devq = s.devq := rfl
@[simp] theorem Pkg.updThr_mem (s : Pkg) (h : Nat) (f : Thread → Thread) : (s.updThr h f).mem = s.mem := rfl
@[simp] theorem Pkg.updThr_dpoison (s : Pkg) (h : Nat) (f : Thread → Thread) : (s.updThr h f).dpoison = s.dpoison := rfl
@[simp] theorem Pkg.updThr_dsym (s : Pkg) (h : Nat) (f : Thread → Thread) : (s.updThr h f).dsym = s.dsym := rfl
@[simp] theorem Pkg.updThr_drs (s : Pkg) (h : Nat) (f : Thread → Thread) : (s.updThr h f).drs = s.drs := rfl
@[simp] theorem Pkg.updThr_noc (s : Pkg) (h : Nat) (f : Thread → Thread) : (s.updThr h f).noc = s.noc := rfl
@[simp] theorem Pkg.updThr_mcs (s : Pkg) (h : Nat) (f : Thread → Thread) : (s.updThr h f).mcs = s.mcs := rfl
@[simp] theorem Pkg.updThr_links (s : Pkg) (h : Nat) (f : Thread → Thread) : (s.updThr h f).links = s.links := rfl
@[simp] theorem Pkg.updThr_fab (s : Pkg) (h : Nat) (f : Thread → Thread) : (s.updThr h f).fab = s.fab := rfl
@[simp] theorem Pkg.updThr_tdm (s : Pkg) (h : Nat) (f : Thread → Thread) : (s.updThr h f).tdm = s.tdm := rfl
@[simp] theorem Pkg.updThr_cad (s : Pkg) (h : Nat) (f : Thread → Thread) : (s.updThr h f).cad = s.cad := rfl
@[simp] theorem Pkg.updThr_iotus (s : Pkg) (h : Nat) (f : Thread → Thread) : (s.updThr h f).iotus = s.iotus := rfl
@[simp] theorem Pkg.updThr_pcie (s : Pkg) (h : Nat) (f : Thread → Thread) : (s.updThr h f).pcie = s.pcie := rfl
@[simp] theorem Pkg.updThr_cxs (s : Pkg) (h : Nat) (f : Thread → Thread) : (s.updThr h f).cxs = s.cxs := rfl
@[simp] theorem Pkg.updThr_boot (s : Pkg) (h : Nat) (f : Thread → Thread) : (s.updThr h f).boot = s.boot := rfl
@[simp] theorem Pkg.updThr_odo (s : Pkg) (h : Nat) (f : Thread → Thread) : (s.updThr h f).odo = s.odo := rfl
@[simp] theorem Pkg.updThr_mgt (s : Pkg) (h : Nat) (f : Thread → Thread) : (s.updThr h f).mgt = s.mgt := rfl
@[simp] theorem Pkg.updThr_pwr (s : Pkg) (h : Nat) (f : Thread → Thread) : (s.updThr h f).pwr = s.pwr := rfl
@[simp] theorem Pkg.updThr_shm (s : Pkg) (h : Nat) (f : Thread → Thread) : (s.updThr h f).shm = s.shm := rfl
@[simp] theorem Pkg.updThr_jtag (s : Pkg) (h : Nat) (f : Thread → Thread) : (s.updThr h f).jtag = s.jtag := rfl
@[simp] theorem Pkg.updThr_pins (s : Pkg) (h : Nat) (f : Thread → Thread) : (s.updThr h f).pins = s.pins := rfl
@[simp] theorem Pkg.updThr_reply (s : Pkg) (h : Nat) (f : Thread → Thread) : (s.updThr h f).reply = s.reply := rfl
@[simp] theorem Pkg.updThr_now (s : Pkg) (h : Nat) (f : Thread → Thread) : (s.updThr h f).now = s.now := rfl
@[simp] theorem Pkg.updThr_fresh (s : Pkg) (h : Nat) (f : Thread → Thread) : (s.updThr h f).fresh = s.fresh := rfl
@[simp] theorem Pkg.setCore_threads (s : Pkg) (c : Nat) (k : Core) : (s.setCore c k).threads = s.threads := rfl
@[simp] theorem Pkg.setCore_l1i (s : Pkg) (c : Nat) (k : Core) : (s.setCore c k).l1i = s.l1i := rfl
@[simp] theorem Pkg.setCore_l1d (s : Pkg) (c : Nat) (k : Core) : (s.setCore c k).l1d = s.l1d := rfl
@[simp] theorem Pkg.setCore_l2 (s : Pkg) (c : Nat) (k : Core) : (s.setCore c k).l2 = s.l2 := rfl
@[simp] theorem Pkg.setCore_l3 (s : Pkg) (c : Nat) (k : Core) : (s.setCore c k).l3 = s.l3 := rfl
@[simp] theorem Pkg.setCore_dir (s : Pkg) (c : Nat) (k : Core) : (s.setCore c k).dir = s.dir := rfl
@[simp] theorem Pkg.setCore_trackers (s : Pkg) (c : Nat) (k : Core) : (s.setCore c k).trackers = s.trackers := rfl
@[simp] theorem Pkg.setCore_cops (s : Pkg) (c : Nat) (k : Core) : (s.setCore c k).cops = s.cops := rfl
@[simp] theorem Pkg.setCore_spare (s : Pkg) (c : Nat) (k : Core) : (s.setCore c k).spare = s.spare := rfl
@[simp] theorem Pkg.setCore_evac (s : Pkg) (c : Nat) (k : Core) : (s.setCore c k).evac = s.evac := rfl
@[simp] theorem Pkg.setCore_devq (s : Pkg) (c : Nat) (k : Core) : (s.setCore c k).devq = s.devq := rfl
@[simp] theorem Pkg.setCore_mem (s : Pkg) (c : Nat) (k : Core) : (s.setCore c k).mem = s.mem := rfl
@[simp] theorem Pkg.setCore_dpoison (s : Pkg) (c : Nat) (k : Core) : (s.setCore c k).dpoison = s.dpoison := rfl
@[simp] theorem Pkg.setCore_dsym (s : Pkg) (c : Nat) (k : Core) : (s.setCore c k).dsym = s.dsym := rfl
@[simp] theorem Pkg.setCore_drs (s : Pkg) (c : Nat) (k : Core) : (s.setCore c k).drs = s.drs := rfl
@[simp] theorem Pkg.setCore_noc (s : Pkg) (c : Nat) (k : Core) : (s.setCore c k).noc = s.noc := rfl
@[simp] theorem Pkg.setCore_mcs (s : Pkg) (c : Nat) (k : Core) : (s.setCore c k).mcs = s.mcs := rfl
@[simp] theorem Pkg.setCore_links (s : Pkg) (c : Nat) (k : Core) : (s.setCore c k).links = s.links := rfl
@[simp] theorem Pkg.setCore_fab (s : Pkg) (c : Nat) (k : Core) : (s.setCore c k).fab = s.fab := rfl
@[simp] theorem Pkg.setCore_tdm (s : Pkg) (c : Nat) (k : Core) : (s.setCore c k).tdm = s.tdm := rfl
@[simp] theorem Pkg.setCore_cad (s : Pkg) (c : Nat) (k : Core) : (s.setCore c k).cad = s.cad := rfl
@[simp] theorem Pkg.setCore_iotus (s : Pkg) (c : Nat) (k : Core) : (s.setCore c k).iotus = s.iotus := rfl
@[simp] theorem Pkg.setCore_pcie (s : Pkg) (c : Nat) (k : Core) : (s.setCore c k).pcie = s.pcie := rfl
@[simp] theorem Pkg.setCore_cxs (s : Pkg) (c : Nat) (k : Core) : (s.setCore c k).cxs = s.cxs := rfl
@[simp] theorem Pkg.setCore_boot (s : Pkg) (c : Nat) (k : Core) : (s.setCore c k).boot = s.boot := rfl
@[simp] theorem Pkg.setCore_odo (s : Pkg) (c : Nat) (k : Core) : (s.setCore c k).odo = s.odo := rfl
@[simp] theorem Pkg.setCore_mgt (s : Pkg) (c : Nat) (k : Core) : (s.setCore c k).mgt = s.mgt := rfl
@[simp] theorem Pkg.setCore_pwr (s : Pkg) (c : Nat) (k : Core) : (s.setCore c k).pwr = s.pwr := rfl
@[simp] theorem Pkg.setCore_shm (s : Pkg) (c : Nat) (k : Core) : (s.setCore c k).shm = s.shm := rfl
@[simp] theorem Pkg.setCore_jtag (s : Pkg) (c : Nat) (k : Core) : (s.setCore c k).jtag = s.jtag := rfl
@[simp] theorem Pkg.setCore_pins (s : Pkg) (c : Nat) (k : Core) : (s.setCore c k).pins = s.pins := rfl
@[simp] theorem Pkg.setCore_reply (s : Pkg) (c : Nat) (k : Core) : (s.setCore c k).reply = s.reply := rfl
@[simp] theorem Pkg.setCore_now (s : Pkg) (c : Nat) (k : Core) : (s.setCore c k).now = s.now := rfl
@[simp] theorem Pkg.setCore_fresh (s : Pkg) (c : Nat) (k : Core) : (s.setCore c k).fresh = s.fresh := rfl
@[simp] theorem Pkg.updCore_threads (s : Pkg) (c : Nat) (f : Core → Core) : (s.updCore c f).threads = s.threads := rfl
@[simp] theorem Pkg.updCore_l1i (s : Pkg) (c : Nat) (f : Core → Core) : (s.updCore c f).l1i = s.l1i := rfl
@[simp] theorem Pkg.updCore_l1d (s : Pkg) (c : Nat) (f : Core → Core) : (s.updCore c f).l1d = s.l1d := rfl
@[simp] theorem Pkg.updCore_l2 (s : Pkg) (c : Nat) (f : Core → Core) : (s.updCore c f).l2 = s.l2 := rfl
@[simp] theorem Pkg.updCore_l3 (s : Pkg) (c : Nat) (f : Core → Core) : (s.updCore c f).l3 = s.l3 := rfl
@[simp] theorem Pkg.updCore_dir (s : Pkg) (c : Nat) (f : Core → Core) : (s.updCore c f).dir = s.dir := rfl
@[simp] theorem Pkg.updCore_trackers (s : Pkg) (c : Nat) (f : Core → Core) : (s.updCore c f).trackers = s.trackers := rfl
@[simp] theorem Pkg.updCore_cops (s : Pkg) (c : Nat) (f : Core → Core) : (s.updCore c f).cops = s.cops := rfl
@[simp] theorem Pkg.updCore_spare (s : Pkg) (c : Nat) (f : Core → Core) : (s.updCore c f).spare = s.spare := rfl
@[simp] theorem Pkg.updCore_evac (s : Pkg) (c : Nat) (f : Core → Core) : (s.updCore c f).evac = s.evac := rfl
@[simp] theorem Pkg.updCore_devq (s : Pkg) (c : Nat) (f : Core → Core) : (s.updCore c f).devq = s.devq := rfl
@[simp] theorem Pkg.updCore_mem (s : Pkg) (c : Nat) (f : Core → Core) : (s.updCore c f).mem = s.mem := rfl
@[simp] theorem Pkg.updCore_dpoison (s : Pkg) (c : Nat) (f : Core → Core) : (s.updCore c f).dpoison = s.dpoison := rfl
@[simp] theorem Pkg.updCore_dsym (s : Pkg) (c : Nat) (f : Core → Core) : (s.updCore c f).dsym = s.dsym := rfl
@[simp] theorem Pkg.updCore_drs (s : Pkg) (c : Nat) (f : Core → Core) : (s.updCore c f).drs = s.drs := rfl
@[simp] theorem Pkg.updCore_noc (s : Pkg) (c : Nat) (f : Core → Core) : (s.updCore c f).noc = s.noc := rfl
@[simp] theorem Pkg.updCore_mcs (s : Pkg) (c : Nat) (f : Core → Core) : (s.updCore c f).mcs = s.mcs := rfl
@[simp] theorem Pkg.updCore_links (s : Pkg) (c : Nat) (f : Core → Core) : (s.updCore c f).links = s.links := rfl
@[simp] theorem Pkg.updCore_fab (s : Pkg) (c : Nat) (f : Core → Core) : (s.updCore c f).fab = s.fab := rfl
@[simp] theorem Pkg.updCore_tdm (s : Pkg) (c : Nat) (f : Core → Core) : (s.updCore c f).tdm = s.tdm := rfl
@[simp] theorem Pkg.updCore_cad (s : Pkg) (c : Nat) (f : Core → Core) : (s.updCore c f).cad = s.cad := rfl
@[simp] theorem Pkg.updCore_iotus (s : Pkg) (c : Nat) (f : Core → Core) : (s.updCore c f).iotus = s.iotus := rfl
@[simp] theorem Pkg.updCore_pcie (s : Pkg) (c : Nat) (f : Core → Core) : (s.updCore c f).pcie = s.pcie := rfl
@[simp] theorem Pkg.updCore_cxs (s : Pkg) (c : Nat) (f : Core → Core) : (s.updCore c f).cxs = s.cxs := rfl
@[simp] theorem Pkg.updCore_boot (s : Pkg) (c : Nat) (f : Core → Core) : (s.updCore c f).boot = s.boot := rfl
@[simp] theorem Pkg.updCore_odo (s : Pkg) (c : Nat) (f : Core → Core) : (s.updCore c f).odo = s.odo := rfl
@[simp] theorem Pkg.updCore_mgt (s : Pkg) (c : Nat) (f : Core → Core) : (s.updCore c f).mgt = s.mgt := rfl
@[simp] theorem Pkg.updCore_pwr (s : Pkg) (c : Nat) (f : Core → Core) : (s.updCore c f).pwr = s.pwr := rfl
@[simp] theorem Pkg.updCore_shm (s : Pkg) (c : Nat) (f : Core → Core) : (s.updCore c f).shm = s.shm := rfl
@[simp] theorem Pkg.updCore_jtag (s : Pkg) (c : Nat) (f : Core → Core) : (s.updCore c f).jtag = s.jtag := rfl
@[simp] theorem Pkg.updCore_pins (s : Pkg) (c : Nat) (f : Core → Core) : (s.updCore c f).pins = s.pins := rfl
@[simp] theorem Pkg.updCore_reply (s : Pkg) (c : Nat) (f : Core → Core) : (s.updCore c f).reply = s.reply := rfl
@[simp] theorem Pkg.updCore_now (s : Pkg) (c : Nat) (f : Core → Core) : (s.updCore c f).now = s.now := rfl
@[simp] theorem Pkg.updCore_fresh (s : Pkg) (c : Nat) (f : Core → Core) : (s.updCore c f).fresh = s.fresh := rfl

/-! ### One thread's registers -/

@[simp] theorem Thread.rg_zero (t : Thread) : t.rg 0 = 0#64 := rfl
@[simp] theorem Thread.wg_zero (t : Thread) (v : Word) : t.wg 0 v = t := rfl
theorem Thread.rg_wg (t : Thread) (r q : Nat) (v : Word) :
    (t.wg r v).rg q = if q = 0 then 0#64 else if q = r then v else t.rg q := by
  unfold Thread.wg Thread.rg
  by_cases hq : q = 0
  · simp [hq]
  · by_cases hr : r = 0
    · have : q ≠ r := by omega
      simp [hq, hr]
    · simp [hq, hr, Map.get_set]
theorem Thread.rg_wg_same (t : Thread) (r : Nat) (v : Word) (h : r ≠ 0) : (t.wg r v).rg r = v := by
  simp [Thread.rg_wg, h]
theorem Thread.rF_wF (t : Thread) (r q : Nat) (v : Word) : (t.wF r v).rF q = if q = r then v else t.rF q :=
  Map.get_set w0 t.f r q v
theorem Thread.rV_wV (t : Thread) (r q : Nat) (v : VWord) : (t.wV r v).rV q = if q = r then v else t.rV q :=
  Map.get_set v0 t.v r q v
theorem Thread.rs_ws (t : Thread) (n q : Nat) (v : Word) : (t.ws n v).rs q = if q = n then v else t.rs q :=
  Map.get_set srReset t.sr n q v
@[simp] theorem Thread.ps_setPs (t : Thread) (v : Word) : (t.setPs v).ps = v := Map.get_set_same srReset t.sr 0x100 v

/-! ### What follows from equal registers -/

theorem Pkg.rd_of_drs {p q : Pkg} (h : q.drs = p.drs) (o : Nat) : q.rd o = p.rd o := by unfold Pkg.rd; rw [h]
theorem Pkg.rf_of_drs {p q : Pkg} (h : q.drs = p.drs) (o a b : Nat) : q.rf o a b = p.rf o a b := by
  unfold Pkg.rf; rw [Pkg.rd_of_drs h]
theorem Pkg.rb_of_drs {p q : Pkg} (h : q.drs = p.drs) (o i : Nat) : q.rb o i = p.rb o i := by
  unfold Pkg.rb; rw [Pkg.rd_of_drs h]
theorem Pkg.tdmState_of_drs {p q : Pkg} (h : q.drs = p.drs) : q.tdmState = p.tdmState := Pkg.rf_of_drs h ..
theorem Pkg.live_of_eq {p q : Pkg} (h1 : q.boot = p.boot) (h2 : q.pins = p.pins) : q.live = p.live := by
  unfold Pkg.live; rw [h1, h2]
theorem Pkg.thr_of_eq {p q : Pkg} (h : q.threads = p.threads) (k : Nat) : q.thr k = p.thr k := by unfold Pkg.thr; rw [h]
theorem Pkg.core_of_eq {p q : Pkg} (h : q.cores = p.cores) (k : Nat) : q.core k = p.core k := by unfold Pkg.core; rw [h]
@[simp] theorem Pkg.rd_updThr (s : Pkg) (h : Nat) (f : Thread → Thread) (o : Nat) : (s.updThr h f).rd o = s.rd o := rfl
@[simp] theorem Pkg.rd_updCore (s : Pkg) (c : Nat) (f : Core → Core) (o : Nat) : (s.updCore c f).rd o = s.rd o := rfl
@[simp] theorem Pkg.tdmState_updThr (s : Pkg) (h : Nat) (f : Thread → Thread) : (s.updThr h f).tdmState = s.tdmState :=
  Pkg.tdmState_of_drs rfl
@[simp] theorem Pkg.tdmState_updCore (s : Pkg) (c : Nat) (f : Core → Core) : (s.updCore c f).tdmState = s.tdmState :=
  Pkg.tdmState_of_drs rfl
@[simp] theorem Pkg.core_updThr (s : Pkg) (h c : Nat) (f : Thread → Thread) : (s.updThr h f).core c = s.core c :=
  Pkg.core_of_eq rfl c
@[simp] theorem Pkg.thr_updCore (s : Pkg) (h c : Nat) (f : Core → Core) : (s.updCore c f).thr h = s.thr h :=
  Pkg.thr_of_eq rfl h
@[simp] theorem Pkg.core_wr (s : Pkg) (o c : Nat) (v : Word) : (s.wr o v).core c = s.core c := Pkg.core_of_eq rfl c
@[simp] theorem Pkg.thr_wr (s : Pkg) (o h : Nat) (v : Word) : (s.wr o v).thr h = s.thr h := Pkg.thr_of_eq rfl h

/-! ### One field of a thread -/

@[simp] theorem Thread.ws_st (t : Thread) (n : Nat) (v : Word) : (t.ws n v).st = t.st := rfl
@[simp] theorem Thread.ws_prior (t : Thread) (n : Nat) (v : Word) : (t.ws n v).prior = t.prior := rfl
@[simp] theorem Thread.ws_halting (t : Thread) (n : Nat) (v : Word) : (t.ws n v).halting = t.halting := rfl
@[simp] theorem Thread.ws_g (t : Thread) (n : Nat) (v : Word) : (t.ws n v).g = t.g := rfl
@[simp] theorem Thread.ws_f (t : Thread) (n : Nat) (v : Word) : (t.ws n v).f = t.f := rfl
@[simp] theorem Thread.ws_v (t : Thread) (n : Nat) (v : Word) : (t.ws n v).v = t.v := rfl
@[simp] theorem Thread.ws_pc (t : Thread) (n : Nat) (v : Word) : (t.ws n v).pc = t.pc := rfl
@[simp] theorem Thread.ws_queue (t : Thread) (n : Nat) (v : Word) : (t.ws n v).queue = t.queue := rfl
@[simp] theorem Thread.ws_fpc (t : Thread) (n : Nat) (v : Word) : (t.ws n v).fpc = t.fpc := rfl
@[simp] theorem Thread.ws_redirect (t : Thread) (n : Nat) (v : Word) : (t.ws n v).redirect = t.redirect := rfl
@[simp] theorem Thread.ws_fstall (t : Thread) (n : Nat) (v : Word) : (t.ws n v).fstall = t.fstall := rfl
@[simp] theorem Thread.ws_sb (t : Thread) (n : Nat) (v : Word) : (t.ws n v).sb = t.sb := rfl
@[simp] theorem Thread.ws_await (t : Thread) (n : Nat) (v : Word) : (t.ws n v).await = t.await := rfl
@[simp] theorem Thread.ws_held (t : Thread) (n : Nat) (v : Word) : (t.ws n v).held = t.held := rfl
@[simp] theorem Thread.ws_hparts (t : Thread) (n : Nat) (v : Word) : (t.ws n v).hparts = t.hparts := rfl
@[simp] theorem Thread.ws_walk (t : Thread) (n : Nat) (v : Word) : (t.ws n v).walk = t.walk := rfl
@[simp] theorem Thread.ws_mon (t : Thread) (n : Nat) (v : Word) : (t.ws n v).mon = t.mon := rfl
@[simp] theorem Thread.ws_monWake (t : Thread) (n : Nat) (v : Word) : (t.ws n v).monWake = t.monWake := rfl
@[simp] theorem Thread.ws_waitt (t : Thread) (n : Nat) (v : Word) : (t.ws n v).waitt = t.waitt := rfl
@[simp] theorem Thread.ws_long (t : Thread) (n : Nat) (v : Word) : (t.ws n v).long = t.long := rfl
@[simp] theorem Thread.ws_sel (t : Thread) (n : Nat) (v : Word) : (t.ws n v).sel = t.sel := rfl
@[simp] theorem Thread.ws_ebuf (t : Thread) (n : Nat) (v : Word) : (t.ws n v).ebuf = t.ebuf := rfl
@[simp] theorem Thread.ws_ent (t : Thread) (n : Nat) (v : Word) : (t.ws n v).ent = t.ent := rfl
@[simp] theorem Thread.ws_chunk (t : Thread) (n : Nat) (v : Word) : (t.ws n v).chunk = t.chunk := rfl
@[simp] theorem Thread.ws_lagged (t : Thread) (n : Nat) (v : Word) : (t.ws n v).lagged = t.lagged := rfl
@[simp] theorem Thread.ws_wreason (t : Thread) (n : Nat) (v : Word) : (t.ws n v).wreason = t.wreason := rfl
@[simp] theorem Thread.ws_fin32 (t : Thread) (n : Nat) (v : Word) : (t.ws n v).fin32 = t.fin32 := rfl
@[simp] theorem Thread.ws_fin33 (t : Thread) (n : Nat) (v : Word) : (t.ws n v).fin33 = t.fin33 := rfl
@[simp] theorem Thread.setPs_st (t : Thread) (v : Word) : (t.setPs v).st = t.st := rfl
@[simp] theorem Thread.setPs_prior (t : Thread) (v : Word) : (t.setPs v).prior = t.prior := rfl
@[simp] theorem Thread.setPs_halting (t : Thread) (v : Word) : (t.setPs v).halting = t.halting := rfl
@[simp] theorem Thread.setPs_g (t : Thread) (v : Word) : (t.setPs v).g = t.g := rfl
@[simp] theorem Thread.setPs_f (t : Thread) (v : Word) : (t.setPs v).f = t.f := rfl
@[simp] theorem Thread.setPs_v (t : Thread) (v : Word) : (t.setPs v).v = t.v := rfl
@[simp] theorem Thread.setPs_pc (t : Thread) (v : Word) : (t.setPs v).pc = t.pc := rfl
@[simp] theorem Thread.setPs_queue (t : Thread) (v : Word) : (t.setPs v).queue = t.queue := rfl
@[simp] theorem Thread.setPs_fpc (t : Thread) (v : Word) : (t.setPs v).fpc = t.fpc := rfl
@[simp] theorem Thread.setPs_redirect (t : Thread) (v : Word) : (t.setPs v).redirect = t.redirect := rfl
@[simp] theorem Thread.setPs_fstall (t : Thread) (v : Word) : (t.setPs v).fstall = t.fstall := rfl
@[simp] theorem Thread.setPs_sb (t : Thread) (v : Word) : (t.setPs v).sb = t.sb := rfl
@[simp] theorem Thread.setPs_await (t : Thread) (v : Word) : (t.setPs v).await = t.await := rfl
@[simp] theorem Thread.setPs_held (t : Thread) (v : Word) : (t.setPs v).held = t.held := rfl
@[simp] theorem Thread.setPs_hparts (t : Thread) (v : Word) : (t.setPs v).hparts = t.hparts := rfl
@[simp] theorem Thread.setPs_walk (t : Thread) (v : Word) : (t.setPs v).walk = t.walk := rfl
@[simp] theorem Thread.setPs_mon (t : Thread) (v : Word) : (t.setPs v).mon = t.mon := rfl
@[simp] theorem Thread.setPs_monWake (t : Thread) (v : Word) : (t.setPs v).monWake = t.monWake := rfl
@[simp] theorem Thread.setPs_waitt (t : Thread) (v : Word) : (t.setPs v).waitt = t.waitt := rfl
@[simp] theorem Thread.setPs_long (t : Thread) (v : Word) : (t.setPs v).long = t.long := rfl
@[simp] theorem Thread.setPs_sel (t : Thread) (v : Word) : (t.setPs v).sel = t.sel := rfl
@[simp] theorem Thread.setPs_ebuf (t : Thread) (v : Word) : (t.setPs v).ebuf = t.ebuf := rfl
@[simp] theorem Thread.setPs_ent (t : Thread) (v : Word) : (t.setPs v).ent = t.ent := rfl
@[simp] theorem Thread.setPs_chunk (t : Thread) (v : Word) : (t.setPs v).chunk = t.chunk := rfl
@[simp] theorem Thread.setPs_lagged (t : Thread) (v : Word) : (t.setPs v).lagged = t.lagged := rfl
@[simp] theorem Thread.setPs_wreason (t : Thread) (v : Word) : (t.setPs v).wreason = t.wreason := rfl
@[simp] theorem Thread.setPs_fin32 (t : Thread) (v : Word) : (t.setPs v).fin32 = t.fin32 := rfl
@[simp] theorem Thread.setPs_fin33 (t : Thread) (v : Word) : (t.setPs v).fin33 = t.fin33 := rfl
@[simp] theorem Thread.wF_st (t : Thread) (r : Nat) (v : Word) : (t.wF r v).st = t.st := rfl
@[simp] theorem Thread.wF_prior (t : Thread) (r : Nat) (v : Word) : (t.wF r v).prior = t.prior := rfl
@[simp] theorem Thread.wF_halting (t : Thread) (r : Nat) (v : Word) : (t.wF r v).halting = t.halting := rfl
@[simp] theorem Thread.wF_g (t : Thread) (r : Nat) (v : Word) : (t.wF r v).g = t.g := rfl
@[simp] theorem Thread.wF_v (t : Thread) (r : Nat) (v : Word) : (t.wF r v).v = t.v := rfl
@[simp] theorem Thread.wF_pc (t : Thread) (r : Nat) (v : Word) : (t.wF r v).pc = t.pc := rfl
@[simp] theorem Thread.wF_sr (t : Thread) (r : Nat) (v : Word) : (t.wF r v).sr = t.sr := rfl
@[simp] theorem Thread.wF_queue (t : Thread) (r : Nat) (v : Word) : (t.wF r v).queue = t.queue := rfl
@[simp] theorem Thread.wF_fpc (t : Thread) (r : Nat) (v : Word) : (t.wF r v).fpc = t.fpc := rfl
@[simp] theorem Thread.wF_redirect (t : Thread) (r : Nat) (v : Word) : (t.wF r v).redirect = t.redirect := rfl
@[simp] theorem Thread.wF_fstall (t : Thread) (r : Nat) (v : Word) : (t.wF r v).fstall = t.fstall := rfl
@[simp] theorem Thread.wF_sb (t : Thread) (r : Nat) (v : Word) : (t.wF r v).sb = t.sb := rfl
@[simp] theorem Thread.wF_await (t : Thread) (r : Nat) (v : Word) : (t.wF r v).await = t.await := rfl
@[simp] theorem Thread.wF_held (t : Thread) (r : Nat) (v : Word) : (t.wF r v).held = t.held := rfl
@[simp] theorem Thread.wF_hparts (t : Thread) (r : Nat) (v : Word) : (t.wF r v).hparts = t.hparts := rfl
@[simp] theorem Thread.wF_walk (t : Thread) (r : Nat) (v : Word) : (t.wF r v).walk = t.walk := rfl
@[simp] theorem Thread.wF_mon (t : Thread) (r : Nat) (v : Word) : (t.wF r v).mon = t.mon := rfl
@[simp] theorem Thread.wF_monWake (t : Thread) (r : Nat) (v : Word) : (t.wF r v).monWake = t.monWake := rfl
@[simp] theorem Thread.wF_waitt (t : Thread) (r : Nat) (v : Word) : (t.wF r v).waitt = t.waitt := rfl
@[simp] theorem Thread.wF_long (t : Thread) (r : Nat) (v : Word) : (t.wF r v).long = t.long := rfl
@[simp] theorem Thread.wF_sel (t : Thread) (r : Nat) (v : Word) : (t.wF r v).sel = t.sel := rfl
@[simp] theorem Thread.wF_ebuf (t : Thread) (r : Nat) (v : Word) : (t.wF r v).ebuf = t.ebuf := rfl
@[simp] theorem Thread.wF_ent (t : Thread) (r : Nat) (v : Word) : (t.wF r v).ent = t.ent := rfl
@[simp] theorem Thread.wF_chunk (t : Thread) (r : Nat) (v : Word) : (t.wF r v).chunk = t.chunk := rfl
@[simp] theorem Thread.wF_lagged (t : Thread) (r : Nat) (v : Word) : (t.wF r v).lagged = t.lagged := rfl
@[simp] theorem Thread.wF_wreason (t : Thread) (r : Nat) (v : Word) : (t.wF r v).wreason = t.wreason := rfl
@[simp] theorem Thread.wF_fin32 (t : Thread) (r : Nat) (v : Word) : (t.wF r v).fin32 = t.fin32 := rfl
@[simp] theorem Thread.wF_fin33 (t : Thread) (r : Nat) (v : Word) : (t.wF r v).fin33 = t.fin33 := rfl
@[simp] theorem Thread.wV_st (t : Thread) (r : Nat) (v : VWord) : (t.wV r v).st = t.st := rfl
@[simp] theorem Thread.wV_prior (t : Thread) (r : Nat) (v : VWord) : (t.wV r v).prior = t.prior := rfl
@[simp] theorem Thread.wV_halting (t : Thread) (r : Nat) (v : VWord) : (t.wV r v).halting = t.halting := rfl
@[simp] theorem Thread.wV_g (t : Thread) (r : Nat) (v : VWord) : (t.wV r v).g = t.g := rfl
@[simp] theorem Thread.wV_f (t : Thread) (r : Nat) (v : VWord) : (t.wV r v).f = t.f := rfl
@[simp] theorem Thread.wV_pc (t : Thread) (r : Nat) (v : VWord) : (t.wV r v).pc = t.pc := rfl
@[simp] theorem Thread.wV_sr (t : Thread) (r : Nat) (v : VWord) : (t.wV r v).sr = t.sr := rfl
@[simp] theorem Thread.wV_queue (t : Thread) (r : Nat) (v : VWord) : (t.wV r v).queue = t.queue := rfl
@[simp] theorem Thread.wV_fpc (t : Thread) (r : Nat) (v : VWord) : (t.wV r v).fpc = t.fpc := rfl
@[simp] theorem Thread.wV_redirect (t : Thread) (r : Nat) (v : VWord) : (t.wV r v).redirect = t.redirect := rfl
@[simp] theorem Thread.wV_fstall (t : Thread) (r : Nat) (v : VWord) : (t.wV r v).fstall = t.fstall := rfl
@[simp] theorem Thread.wV_sb (t : Thread) (r : Nat) (v : VWord) : (t.wV r v).sb = t.sb := rfl
@[simp] theorem Thread.wV_await (t : Thread) (r : Nat) (v : VWord) : (t.wV r v).await = t.await := rfl
@[simp] theorem Thread.wV_held (t : Thread) (r : Nat) (v : VWord) : (t.wV r v).held = t.held := rfl
@[simp] theorem Thread.wV_hparts (t : Thread) (r : Nat) (v : VWord) : (t.wV r v).hparts = t.hparts := rfl
@[simp] theorem Thread.wV_walk (t : Thread) (r : Nat) (v : VWord) : (t.wV r v).walk = t.walk := rfl
@[simp] theorem Thread.wV_mon (t : Thread) (r : Nat) (v : VWord) : (t.wV r v).mon = t.mon := rfl
@[simp] theorem Thread.wV_monWake (t : Thread) (r : Nat) (v : VWord) : (t.wV r v).monWake = t.monWake := rfl
@[simp] theorem Thread.wV_waitt (t : Thread) (r : Nat) (v : VWord) : (t.wV r v).waitt = t.waitt := rfl
@[simp] theorem Thread.wV_long (t : Thread) (r : Nat) (v : VWord) : (t.wV r v).long = t.long := rfl
@[simp] theorem Thread.wV_sel (t : Thread) (r : Nat) (v : VWord) : (t.wV r v).sel = t.sel := rfl
@[simp] theorem Thread.wV_ebuf (t : Thread) (r : Nat) (v : VWord) : (t.wV r v).ebuf = t.ebuf := rfl
@[simp] theorem Thread.wV_ent (t : Thread) (r : Nat) (v : VWord) : (t.wV r v).ent = t.ent := rfl
@[simp] theorem Thread.wV_chunk (t : Thread) (r : Nat) (v : VWord) : (t.wV r v).chunk = t.chunk := rfl
@[simp] theorem Thread.wV_lagged (t : Thread) (r : Nat) (v : VWord) : (t.wV r v).lagged = t.lagged := rfl
@[simp] theorem Thread.wV_wreason (t : Thread) (r : Nat) (v : VWord) : (t.wV r v).wreason = t.wreason := rfl
@[simp] theorem Thread.wV_fin32 (t : Thread) (r : Nat) (v : VWord) : (t.wV r v).fin32 = t.fin32 := rfl
@[simp] theorem Thread.wV_fin33 (t : Thread) (r : Nat) (v : VWord) : (t.wV r v).fin33 = t.fin33 := rfl
@[simp] theorem Thread.wg_st (t : Thread) (r : Nat) (v : Word) : (t.wg r v).st = t.st := by unfold Thread.wg; split <;> rfl
@[simp] theorem Thread.wg_prior (t : Thread) (r : Nat) (v : Word) : (t.wg r v).prior = t.prior := by unfold Thread.wg; split <;> rfl
@[simp] theorem Thread.wg_halting (t : Thread) (r : Nat) (v : Word) : (t.wg r v).halting = t.halting := by unfold Thread.wg; split <;> rfl
@[simp] theorem Thread.wg_f (t : Thread) (r : Nat) (v : Word) : (t.wg r v).f = t.f := by unfold Thread.wg; split <;> rfl
@[simp] theorem Thread.wg_v (t : Thread) (r : Nat) (v : Word) : (t.wg r v).v = t.v := by unfold Thread.wg; split <;> rfl
@[simp] theorem Thread.wg_pc (t : Thread) (r : Nat) (v : Word) : (t.wg r v).pc = t.pc := by unfold Thread.wg; split <;> rfl
@[simp] theorem Thread.wg_sr (t : Thread) (r : Nat) (v : Word) : (t.wg r v).sr = t.sr := by unfold Thread.wg; split <;> rfl
@[simp] theorem Thread.wg_queue (t : Thread) (r : Nat) (v : Word) : (t.wg r v).queue = t.queue := by unfold Thread.wg; split <;> rfl
@[simp] theorem Thread.wg_fpc (t : Thread) (r : Nat) (v : Word) : (t.wg r v).fpc = t.fpc := by unfold Thread.wg; split <;> rfl
@[simp] theorem Thread.wg_redirect (t : Thread) (r : Nat) (v : Word) : (t.wg r v).redirect = t.redirect := by unfold Thread.wg; split <;> rfl
@[simp] theorem Thread.wg_fstall (t : Thread) (r : Nat) (v : Word) : (t.wg r v).fstall = t.fstall := by unfold Thread.wg; split <;> rfl
@[simp] theorem Thread.wg_sb (t : Thread) (r : Nat) (v : Word) : (t.wg r v).sb = t.sb := by unfold Thread.wg; split <;> rfl
@[simp] theorem Thread.wg_await (t : Thread) (r : Nat) (v : Word) : (t.wg r v).await = t.await := by unfold Thread.wg; split <;> rfl
@[simp] theorem Thread.wg_held (t : Thread) (r : Nat) (v : Word) : (t.wg r v).held = t.held := by unfold Thread.wg; split <;> rfl
@[simp] theorem Thread.wg_hparts (t : Thread) (r : Nat) (v : Word) : (t.wg r v).hparts = t.hparts := by unfold Thread.wg; split <;> rfl
@[simp] theorem Thread.wg_walk (t : Thread) (r : Nat) (v : Word) : (t.wg r v).walk = t.walk := by unfold Thread.wg; split <;> rfl
@[simp] theorem Thread.wg_mon (t : Thread) (r : Nat) (v : Word) : (t.wg r v).mon = t.mon := by unfold Thread.wg; split <;> rfl
@[simp] theorem Thread.wg_monWake (t : Thread) (r : Nat) (v : Word) : (t.wg r v).monWake = t.monWake := by unfold Thread.wg; split <;> rfl
@[simp] theorem Thread.wg_waitt (t : Thread) (r : Nat) (v : Word) : (t.wg r v).waitt = t.waitt := by unfold Thread.wg; split <;> rfl
@[simp] theorem Thread.wg_long (t : Thread) (r : Nat) (v : Word) : (t.wg r v).long = t.long := by unfold Thread.wg; split <;> rfl
@[simp] theorem Thread.wg_sel (t : Thread) (r : Nat) (v : Word) : (t.wg r v).sel = t.sel := by unfold Thread.wg; split <;> rfl
@[simp] theorem Thread.wg_ebuf (t : Thread) (r : Nat) (v : Word) : (t.wg r v).ebuf = t.ebuf := by unfold Thread.wg; split <;> rfl
@[simp] theorem Thread.wg_ent (t : Thread) (r : Nat) (v : Word) : (t.wg r v).ent = t.ent := by unfold Thread.wg; split <;> rfl
@[simp] theorem Thread.wg_chunk (t : Thread) (r : Nat) (v : Word) : (t.wg r v).chunk = t.chunk := by unfold Thread.wg; split <;> rfl
@[simp] theorem Thread.wg_lagged (t : Thread) (r : Nat) (v : Word) : (t.wg r v).lagged = t.lagged := by unfold Thread.wg; split <;> rfl
@[simp] theorem Thread.wg_wreason (t : Thread) (r : Nat) (v : Word) : (t.wg r v).wreason = t.wreason := by unfold Thread.wg; split <;> rfl
@[simp] theorem Thread.wg_fin32 (t : Thread) (r : Nat) (v : Word) : (t.wg r v).fin32 = t.fin32 := by unfold Thread.wg; split <;> rfl
@[simp] theorem Thread.wg_fin33 (t : Thread) (r : Nat) (v : Word) : (t.wg r v).fin33 = t.fin33 := by unfold Thread.wg; split <;> rfl

end Sys2Proof.Machine
end

