-- ==== Sys2Proof/Laws/Thread.lean ====
section
/-!
SUPPORT. Laws/Thread.lean: what the shared operations of a thread's instructions do on a package that is in no pair and whose
counters count nothing: a count changes nothing, the end of a step changes nothing, retiring moves the thread alone.
-/
namespace Sys2Proof.Machine

theorem foldl_same {α β : Type} (f : β → α → β) (s : β) (l : List α) (h : ∀ a ∈ l, f s a = s) : l.foldl f s = s := by
  induction l with
  | nil => rfl
  | cons a t ih =>
    rw [List.foldl_cons, h a (List.mem_cons_self ..)]
    exact ih (fun b hb => h b (List.mem_cons_of_mem a hb))

/-! ### Counts -/

theorem selects_off {sel : Word} (ev lvl : Nat) (h : sel.getLsbD 13 = false) : selects sel ev lvl = false := by
  unfold selects; rw [h]; rfl

/-- A count of a thread none of whose counters is enabled changes nothing. -/
theorem Pkg.pmu_uncounted {s : Pkg} {h : Nat} (u : s.Uncounted h) (ev n : Nat) : s.pmu h ev n = s := by
  have e : ∀ i, i < 8 → ∀ lvl, selects ((s.thr h).rs (0x508 + i)) ev lvl = false := fun i hi lvl => selects_off ev lvl (u.1 i hi)
  have e' : ∀ i, i < 8 → ∀ lvl, selects (Map.get w0 (s.core (h / 8)).csr (0x528 + i)) ev lvl = false :=
    fun i hi lvl => selects_off ev lvl (u.2 i hi)
  unfold Pkg.pmu
  dsimp only
  split
  · rfl
  rw [foldl_same _ s]
  · apply foldl_same
    intro i hi
    simp only [e' i (List.mem_range.mp hi), Bool.false_and, Bool.false_eq_true, if_false]
  · intro i hi
    simp only [e i (List.mem_range.mp hi), Bool.false_and, Bool.false_eq_true, if_false]

/-- What `Uncounted` depends on: the selectors of the thread and of its core. -/
theorem Pkg.Uncounted.of_eq {p q : Pkg} {h : Nat} (u : p.Uncounted h)
    (h1 : ∀ i, i < 8 → (q.thr h).rs (0x508 + i) = (p.thr h).rs (0x508 + i))
    (h2 : (q.core (h / 8)).csr = (p.core (h / 8)).csr) : q.Uncounted h :=
  ⟨fun i hi => by rw [h1 i hi]; exact u.1 i hi, fun i hi => by rw [h2]; exact u.2 i hi⟩

/-! ### No pair -/

theorem Pkg.paired_off {s : Pkg} (h : s.tdmState = 0) : s.paired = false := by simp [Pkg.paired, h]
theorem Pkg.replaying_off {s : Pkg} (h : s.tdmState = 0) : s.replaying = false := by simp [Pkg.replaying, h]
theorem Pkg.commit_alone {s : Pkg} (p : s.paired = false) (h c a f d v n : Nat) : s.commit h c a f d v n = s := by
  simp [Pkg.commit, p]
theorem Pkg.updChunk_alone {s : Pkg} (p : s.paired = false) (h : Nat) (f : Chunk → Chunk) : s.updChunk h f = s := by
  simp [Pkg.updChunk, p]
theorem Pkg.chunkRead_alone {s : Pkg} (p : s.paired = false) (h l : Nat) : s.chunkRead h l = s := Pkg.updChunk_alone p h _
theorem Pkg.chunkWrite_alone {s : Pkg} (p : s.paired = false) (h l : Nat) : s.chunkWrite h l = s := Pkg.updChunk_alone p h _
theorem Pkg.chunkDrain_alone {s : Pkg} (p : s.paired = false) (h : Nat) : s.chunkDrain h = s := Pkg.updChunk_alone p h _
theorem Pkg.chunkStep_alone {s : Pkg} (t : s.tdmState = 0) (h : Nat) : s.chunkStep h = s := by
  simp [Pkg.chunkStep, Pkg.replaying_off t, Pkg.updChunk_alone (Pkg.paired_off t)]
theorem Pkg.stepEnd_alone {s : Pkg} (p : s.paired = false) (h c a f d v n : Nat) : s.stepEnd h c a f d v n = s := by
  have e : s.shmChunk h = (s, false) := by simp [Pkg.shmChunk, p]
  have l : s.chunkLimit h = s := by
    unfold Pkg.chunkLimit
    simp [Pkg.commit_alone p]
  unfold Pkg.stepEnd
  simp only [e]
  split
  · exact Pkg.commit_alone p ..
  · simp only [Bool.false_eq_true, if_false, l]
theorem Pkg.sigWait_alone {s : Pkg} (p : s.paired = false) (h : Option Nat) (l : Nat) (w : Bool) : s.sigWait h l w = false := by
  simp [Pkg.sigWait, p]
theorem Pkg.flushWake_none {s : Pkg} {h : Nat} (w : (s.thr h).wreason = none) : s.flushWake h = s := by
  simp [Pkg.flushWake, w]

/-! ### Watchpoints -/

theorem Thread.watch_unwatched {t : Thread} (u : t.Unwatched) (l : List Seen) : t.watch l = none := by
  unfold Thread.watch
  split
  · rfl
  · rw [List.findSome?_eq_none_iff]
    intro i hi
    simp only [u i (List.mem_range.mp hi), Bool.not_false, Bool.true_or, if_true]
theorem Pkg.watchX_unwatched {s : Pkg} {h : Nat} (u : (s.thr h).Unwatched) (f : Pkg → Pkg) : s.watchX h f = f s := by
  simp [Pkg.watchX, Thread.watch_unwatched u]

/-! ### Retiring -/

theorem Thread.rs_setPs_sel (t : Thread) (v : Word) (i : Nat) : (t.setPs v).rs (0x508 + i) = t.rs (0x508 + i) := by
  unfold Thread.setPs
  rw [Thread.rs_ws, if_neg (by omega)]

/-- Retiring on a package that is alone: the thread is stepped. -/
theorem Pkg.retire_alone {s : Pkg} {h : Nat} (t : s.tdmState = 0) (u : s.Uncounted h) : s.retire h = s.updThr h Thread.stepped := by
  have e : s.retireQ h = s.updThr h Thread.stepped := by
    unfold Pkg.retireQ
    apply Pkg.pmu_uncounted
    refine Pkg.Uncounted.of_eq u ?_ (by simp)
    intro i _
    rw [Pkg.thr_updThr_same]
    exact Thread.rs_setPs_sel ..
  unfold Pkg.retire
  rw [e]
  exact Pkg.chunkStep_alone (by simpa using t) h

/-- An instruction that changes its thread alone, on a package that is alone. -/
theorem Pkg.done_alone {s : Pkg} {h : Nat} (t : s.tdmState = 0) (u : s.Uncounted h) (f : Thread → Thread)
    (hf : ∀ i, i < 8 → (f (s.thr h)).rs (0x508 + i) = (s.thr h).rs (0x508 + i)) :
    s.done h f = (s.updThr h f).updThr h Thread.stepped := by
  have u' : (s.updThr h f).Uncounted h := Pkg.Uncounted.of_eq u (by intro i hi; rw [Pkg.thr_updThr_same]; exact hf i hi) (by simp)
  unfold Pkg.done
  rw [Pkg.retire_alone (by simpa using t) u']
  exact Pkg.stepEnd_alone (Pkg.paired_off (by simpa using t)) ..

/-- The thread alone has moved. -/
theorem Pkg.moves_stepped (s : Pkg) (h : Nat) (f : Thread → Thread) :
    s.Moves ((s.updThr h f).updThr h Thread.stepped) h (f (s.thr h)).stepped := by
  refine ⟨?_, ?_, rfl⟩
  · rw [Pkg.thr_updThr_same]
    exact congrArg Thread.stepped (Pkg.thr_updThr_same s h f)
  · intro k hk
    rw [Pkg.thr_updThr_other _ _ _ _ hk]
    exact Pkg.thr_updThr_other s h k f hk

theorem Pkg.Moves.refl (p : Pkg) (h : Nat) : p.Moves p h (p.thr h) := ⟨rfl, fun _ _ => rfl, rfl⟩
/-- One more change of the thread. -/
theorem Pkg.Moves.updThr {p q : Pkg} {h : Nat} {t : Thread} (m : p.Moves q h t) (f : Thread → Thread) :
    p.Moves (q.updThr h f) h (f t) := by
  obtain ⟨a, b, e⟩ := m
  refine ⟨by rw [Pkg.thr_updThr_same, a], fun k hk => by rw [Pkg.thr_updThr_other _ _ _ _ hk, b k hk], ?_⟩
  unfold Pkg.updThr Pkg.setThr
  rw [e]

/-- Retiring, and the end of the step, after a change of the thread. -/
theorem Pkg.retireEnd_alone {s : Pkg} {h : Nat} (t : s.tdmState = 0) (u : s.Uncounted h) (c a f d v n : Nat) :
    (s.retire h).stepEnd h c a f d v n = s.updThr h Thread.stepped := by
  rw [Pkg.retire_alone t u]
  exact Pkg.stepEnd_alone (Pkg.paired_off (by simpa using t)) ..
theorem Pkg.Uncounted.updThr {s : Pkg} {h : Nat} (u : s.Uncounted h) {f : Thread → Thread}
    (hf : ∀ i, i < 8 → (f (s.thr h)).rs (0x508 + i) = (s.thr h).rs (0x508 + i)) : (s.updThr h f).Uncounted h :=
  Pkg.Uncounted.of_eq u (by intro i hi; rw [Pkg.thr_updThr_same]; exact hf i hi) (by simp)
theorem Thread.stepped_sel (t : Thread) (i : Nat) : t.stepped.rs (0x508 + i) = t.rs (0x508 + i) :=
  Thread.rs_setPs_sel t _ i
/-- A branch taken, and the end of its step, on a package that is alone: the thread has stepped and goes on at the target. -/
theorem Pkg.jumpEnd_alone {s : Pkg} {h : Nat} (t : s.tdmState = 0) (u : s.Uncounted h) (pc : Word) (c a f d v n : Nat) :
    (s.jump h pc).stepEnd h c a f d v n = (s.updThr h Thread.stepped).updThr h (fun t => t.sentTo pc) := by
  have u1 : (s.updThr h Thread.stepped).Uncounted h := u.updThr (fun i _ => Thread.stepped_sel _ i)
  have u2 : ((s.updThr h Thread.stepped).updThr h (fun t => t.sentTo pc)).Uncounted h := u1.updThr (fun i _ => rfl)
  have e : s.jump h pc = (s.updThr h Thread.stepped).updThr h (fun t => t.sentTo pc) := by
    unfold Pkg.jump
    rw [Pkg.retire_alone t u]
    change (if (s.thr h).partial then Pkg.pmu (Pkg.pmu ((s.updThr h Thread.stepped).updThr h (fun t => t.sentTo pc)) h 0x09) h 0x0A
      else Pkg.pmu ((s.updThr h Thread.stepped).updThr h (fun t => t.sentTo pc)) h 0x09) = _
    rw [Pkg.pmu_uncounted u2, Pkg.pmu_uncounted u2]
    split <;> rfl
  rw [e]
  exact Pkg.stepEnd_alone (Pkg.paired_off (by simpa using t)) ..
@[simp] theorem Thread.rs_wg (t : Thread) (r n : Nat) (v : Word) : (t.wg r v).rs n = t.rs n := by
  unfold Thread.rs; rw [Thread.wg_sr]

/-- The head of a thread that executes it executes by its group's operation. -/
theorem Pkg.issue_ready {p : Pkg} {h : Nat} {i : Ins} (r : p.Ready h i) (f : Pkg → Ins → Pkg) : p.issue h i.grp f = f p i := by
  obtain ⟨_, _, rn, sl, aw, wr, ⟨w, hw, hd⟩, _, _⟩ := r
  simp [Pkg.issue, hw, rn, sl, aw, wordGrp, hd, Pkg.flushWake_none wr]

theorem State.run_live {s : State} (f : Pkg → Pkg) (l : s.pkg.live = true) : s.run f = .next (s.withPkg (f s.pkg)) := by
  simp [State.run, State.on, Pkg.ifLive, State.withPkg, l]

/-- A command of a group's row executes the ready head by the group's operation. -/
theorem State.run_issue {s : State} {h : Nat} {i : Ins} {g : Grp} (r : s.pkg.Ready h i) (hg : i.grp = g)
    (f : Pkg → Ins → Pkg) : s.run (fun p => p.issue h g f) = .next (s.withPkg (f s.pkg i)) := by
  rw [State.run_live _ r.1]
  subst hg
  rw [Pkg.issue_ready r]

theorem Pkg.effAi_alone {s : Pkg} (t : s.tdmState = 0) (a : Nat) : s.effAi a = a := by simp [Pkg.effAi, Pkg.inPair, t]

/-- An access that reaches its bytes is performed on its pieces. -/
theorem Pkg.access_reaches {s : Pkg} {h : Nat} {k : AccKind} {va : Word} {n : Nat} {err : Pkg → Piece → Option Nat}
    {ps : List Piece} (r : s.Reaches h k va n err ps) (t : s.tdmState = 0) (u : (s.thr h).Unwatched) (rd wr : Bool)
    (c : s.Uncounted h) (go : Pkg → List Piece → Pkg) : s.access h k false va n rd wr err go = go s ps := by
  obtain ⟨l, hx, hj, he⟩ := r
  have hf : ps.findIdx? (fun p => (s.badPiece err ps p).isSome) = none := by
    rw [List.findIdx?_eq_none_iff]
    intro y hy
    simp [he y hy]
  have hm : ps.map (fun p : Piece => { p with ai := s.effAi p.ai }) = ps := by
    simp only [Pkg.effAi_alone t]
    exact List.map_id ps
  unfold Pkg.access
  simp only [hx, hj, Thread.watch_unwatched u, hf, hm, Pkg.tlbCount, Pkg.pmu_uncounted c]

end Sys2Proof.Machine
end

