-- ==== Sys2Proof/Tests/Slice0.lean ====
section
/-!
SUPPORT. Tests/Slice0.lean: the checks of WellFormed, one ill-formed command each; the decoder of the Skevy instructions on
words written out from 03; one step of the shared operations on small states; and, for every statement with hypotheses,
states and operands that meet them (the theorems named witness).
-/
set_option Elab.async false
namespace Sys2Proof.Tests
open Sys2Proof.Machine

/-- The state after a command that answers one. -/
def after (c : Instr) (s : State) : State :=
  match exec c s with
  | .next t => t
  | _ => s

/-- A package that runs. -/
def on (p : Pkg) : State := { pkg := { p with pins := { vaux := true, pwrgood := true } } }

/-- A running package whose thread 0 is t with the word w at its head. -/
def thr1 (w : Word32) (t : Thread) : State := on { threads := [(0, { t with st := .run, queue := [(t.pc, w)], sel := true })] }

/-- The same at the instruction i. -/
def atIns (i : Ins) (t : Thread) : State := thr1 i.encode t

/-- What `Pkg.Ready` asks of the thread, as a test. -/
def readyB (p : Pkg) (h : Nat) : Bool :=
  p.live && p.tdmState == 0 && p.mayGo h && (p.thr h).sel && (p.thr h).await.isNone && (p.thr h).wreason.isNone
    && (List.range 8).all (fun i => !((p.thr h).rs (0x508 + i)).getLsbD 13)
    && (List.range 8).all (fun i => !(Map.get w0 (p.core (h / 8)).csr (0x528 + i)).getLsbD 13)
    && (List.range 4).all (fun i => !((p.thr h).rs (0x181 + 2 * i)).getLsbD 0)

theorem ready_of (p : Pkg) (h : Nat) (i : Ins) (hb : readyB p h = true) (hw : (p.thr h).head = some i.encode)
    (hi : insDecode i.encode = some i) : p.Ready h i := by
  simp only [readyB, Bool.and_eq_true, List.all_eq_true, List.mem_range, Bool.not_eq_true', beq_iff_eq, Option.isNone_iff_eq_none] at hb
  obtain ⟨⟨⟨⟨⟨⟨⟨⟨h1, h2⟩, h3⟩, h4⟩, h5⟩, h6⟩, h7⟩, h8⟩, h9⟩ := hb
  exact ⟨h1, h2, h3, h4, h5, h6, ⟨_, hw, hi⟩, ⟨h7, h8⟩, h9⟩

/-- Thread 0 of a state, at level U, S or H (M is the reset level). -/
def lev (l : Nat) (t : Thread) : Thread := t.setPs (BitVec.ofNat 64 l)

theorem ready_at (i : Ins) (t : Thread) (hb : readyB (atIns i t).pkg 0 = true) (hi : insDecode i.encode = some i) : (atIns i t).pkg.Ready 0 i := by
  refine ready_of _ _ _ hb ?_ hi
  simp [atIns, thr1, on, Pkg.thr, Map.get, Thread.head]

/-- A state with 1 MiB of DRAM (SC_MEMINIT.LIMIT 0x100) and registers `l`. -/
def inRam (s : State) (l : List (Nat × Word) := []) (m : List Host.Cell := []) : State :=
  { s with pkg := { (l.foldl (fun p x => p.wr x.1 x.2) (s.pkg.wr (scBase + 0x218) 0x100000#64)) with mem := m } }

/-- The value of an access that succeeds. -/
def okOf {ε α : Type} (e : Except ε α) : Option α := match e with | .ok a => some a | .error _ => none
theorem ok_of {ε α : Type} (x : Pkg × Except ε α) (p : Pkg) (a : α) (h1 : x.1 = p) (h2 : okOf x.2 = some a) : x = (p, .ok a) := by
  obtain ⟨q, e⟩ := x
  cases e with
  | error _ => cases h2
  | ok b => cases h1; cases h2; rfl

/-- A line cached at key k of an L1 or L2. -/
def lineMap (k line : Nat) (st : Moesi) (d : BitVec 512) : Map CLine := [(k, { line := line, st := st, data := d })]

/-! ### Instructions of a thread -/

theorem test_add_wraps :
    ((after (.integerOp 0 none) (atIns (.op 0#5 5#5 6#5 7#5 0#5) { g := [(6, BitVec.allOnes 64), (7, 2#64)] })).pkg.thr 0).rg 5 = 1#64 := by
  decide +kernel

theorem witness_RegisterInstructionsComplete :
    (atIns (.op 0#5 5#5 6#5 7#5 0#5) {}).pkg.Ready 0 (.op 0#5 5#5 6#5 7#5 0#5) ∧ (Ins.op 0#5 5#5 6#5 7#5 0#5).grp = .intOp
    ∧ (atIns (.sys 0xC#12 31#5 0#5) {}).pkg.Ready 0 (.sys 0xC#12 31#5 0#5)
    ∧ (atIns (.sys 0xB#12 0#5 0#5) {}).pkg.Ready 0 (.sys 0xB#12 0#5 0#5)
    ∧ (atIns (.mfsr 3#5 0x100#12) {}).pkg.Ready 0 (.mfsr 3#5 0x100#12) ∧ srFault 0x100 3 false false = none :=
  ⟨ready_at _ _ (by decide) (by decide), by decide, ready_at _ _ (by decide) (by decide), ready_at _ _ (by decide) (by decide),
    ready_at _ _ (by decide) (by decide), by decide⟩

/-- What an OP instruction gives G5 for operands a and b. -/
def opR (fn : BitVec 5) (a b : Word) (rb : Reg := 7#5) : Word :=
  ((after (.integerOp 0 none) (atIns (.op fn 5#5 6#5 rb 0#5) { g := [(6, a), (7, b)] })).pkg.thr 0).rg 5

theorem test_integer_corners :
    opR 11#5 (BitVec.allOnes 64) (BitVec.allOnes 64) = 0#64 ∧ opR 12#5 (BitVec.allOnes 64) (BitVec.allOnes 64) = 0xFFFFFFFFFFFFFFFE#64
    ∧ opR 13#5 7#64 0#64 = BitVec.allOnes 64 ∧ opR 13#5 (1#64 <<< 63) (BitVec.allOnes 64) = 1#64 <<< 63 ∧ opR 15#5 7#64 0#64 = 7#64
    ∧ opR 21#5 0#64 0#64 0#5 = 64#64 ∧ opR 22#5 8#64 0#64 0#5 = 3#64 ∧ opR 7#5 (1#64 <<< 63) 127#64 = BitVec.allOnes 64
    ∧ opR 24#5 0#64 0#64 = 0#64 := by
  decide +kernel

theorem witness_IntegerResultsAreThoseOfTheTable :
    (atIns (.op 21#5 5#5 6#5 0#5 0#5) { g := [(6, 1#64)] }).pkg.Ready 0 (.op 21#5 5#5 6#5 0#5 0#5)
    ∧ (atIns (.opi 6#3 5#5 6#5 0xBF#12) {}).pkg.Ready 0 (.opi 6#3 5#5 6#5 0xBF#12) ∧ (0xBF#12).toNat / 64 = 2
    ∧ (atIns (.ldih 31#5 0x80000#20) {}).pkg.Ready 0 (.ldih 31#5 0x80000#20)
    ∧ (atIns (.addpch 1#5 0xFFFFF#20) { pc := 0x1000#64 }).pkg.Ready 0 (.addpch 1#5 0xFFFFF#20) :=
  ⟨ready_at _ _ (by decide) (by decide), ready_at _ _ (by decide) (by decide), by decide, ready_at _ _ (by decide) (by decide),
    ready_at _ _ (by decide) (by decide)⟩

/-- The branch of the chapter's example: BNE G3, G0 back 16 bytes (03 R75). -/
theorem test_bne_goes_back :
    ((after (.branch 0) (atIns (.branch 1#3 3#5 0#5 0xFFC#12) { pc := 0x100#64, g := [(3, 1#64)] })).pkg.thr 0).pc = 0xF0#64
    ∧ ((after (.branch 0) (atIns (.branch 1#3 3#5 0#5 0xFFC#12) { pc := 0x100#64 })).pkg.thr 0).pc = 0x104#64 := by
  decide +kernel

theorem test_balr_links_and_jumps :
    let t := (after (.balr 0) (atIns (.balr 1#5 1#5 0xFFC#12) { pc := 0x100#64, g := [(1, 0x204#64)] })).pkg.thr 0
    t.pc = 0x200#64 ∧ t.rg 1 = 0x104#64 := by
  decide +kernel

theorem witness_BranchesGoWhereTheySay :
    (atIns (.branch 3#3 3#5 4#5 1#12) {}).pkg.Ready 0 (.branch 3#3 3#5 4#5 1#12)
    ∧ (atIns (.branch 4#3 0#5 3#5 0#12) {}).pkg.Ready 0 (.branch 4#3 0#5 3#5 0#12)
    ∧ (atIns (.bal 1#5 2#20) {}).pkg.Ready 0 (.bal 1#5 2#20)
    ∧ (atIns (.balr 1#5 2#5 0x7FC#12) {}).pkg.Ready 0 (.balr 1#5 2#5 0x7FC#12) ∧ ((0#64 : Word) + (0x7FC#12).signExtend 64).toNat % 4 = 0 :=
  ⟨ready_at _ _ (by decide) (by decide), ready_at _ _ (by decide) (by decide), ready_at _ _ (by decide) (by decide),
    ready_at _ _ (by decide) (by decide), by decide⟩

/-- 1.0 / 0.0 sets DZ; 1.0 + 1.0 is 2.0 and exact (03 R78, R80). -/
theorem test_fp_results :
    fpOp 0 false 0 false 0x3FF0000000000000#64 0x3FF0000000000000#64 0#64 = (.f, 0x4000000000000000#64, 0)
    ∧ fpOp 3 false 0 false 0x3FF0000000000000#64 0#64 0#64 = (.f, 0x7FF0000000000000#64, 2) := by
  decide +kernel

/-- The example of 03 R85: 1.10 + 2.205 is 3.305, and DQUA to two places gives 3.30 (ties to even) or 3.31 (ties away) and NX. -/
theorem test_decimal_example :
    (decOp 0 false 0 false (packD false (.fin false 110 (-2))) (packD false (.fin false 2205 (-3))) 0#64)
      = (.f, packD false (.fin false 3305 (-3)), 0)
    ∧ decOp 4 false 0 false (packD false (.fin false 3305 (-3))) (packD false (.fin false 100 (-2))) 0#64
      = (.f, packD false (.fin false 330 (-2)), 16)
    ∧ decOp 4 false 4 false (packD false (.fin false 3305 (-3))) (packD false (.fin false 100 (-2))) 0#64
      = (.f, packD false (.fin false 331 (-2)), 16) := by
  decide +kernel

/-- A thread with 1.0 in F2 and the traps `en` of FPCR. -/
def fpT (en : Nat) : Thread := { f := [(2, 0x3FF0000000000000#64)], sr := [(0x018, BitVec.ofNat 64 (en * 2 ^ 24))] }

theorem witness_FloatingPointInstructionsComplete :
    (atIns (.fp 3#5 0#3 false 1#5 2#5 3#5) (fpT 1)).pkg.Ready 0 (.fp 3#5 0#3 false 1#5 2#5 3#5)
    ∧ (fpOp 3 false 0 false ((fpT 1).rF 2) ((fpT 1).rF 3) 0#64).2.2 &&& bits (fpT 1).fpcrV 28 24 = 0
    ∧ (atIns (.fp 3#5 0#3 false 1#5 2#5 3#5) (fpT 2)).pkg.Ready 0 (.fp 3#5 0#3 false 1#5 2#5 3#5)
    ∧ (fpOp 3 false 0 false ((fpT 2).rF 2) ((fpT 2).rF 3) 0#64).2.2 &&& bits (fpT 2).fpcrV 28 24 ≠ 0
    ∧ (atIns (.fma 3#2 true 1#5 2#5 3#5 4#5) (fpT 1)).pkg.Ready 0 (.fma 3#2 true 1#5 2#5 3#5 4#5)
    ∧ (atIns (.dec 3#5 0#3 false 1#5 2#5 3#5) (fpT 2)).pkg.Ready 0 (.dec 3#5 0#3 false 1#5 2#5 3#5)
    ∧ (decOp 3 false 0 false (packD false (.fin false 1 0)) (packD false (.fin false 0 0)) 0#64).2.2 = 2
    ∧ (atIns (.dec 8#5 0#3 false 1#5 0#5 3#5) { f := [(3, 30#64 <<< 58)] }).pkg.Ready 0 (.dec 8#5 0#3 false 1#5 0#5 3#5)
    ∧ (decOp 8 false 0 false 0 (30 * 2 ^ 58) 0#64).1 = .free false false
    ∧ (atIns (.vec 6#5 1#5 2#5 3#5 0#5) (fpT 1)).pkg.Ready 0 (.vec 6#5 1#5 2#5 3#5 0#5)
    ∧ (atIns (.vec 7#5 1#5 2#5 3#5 0#5) { v := [(2, 0x7FF0000000000000#256)], sr := [(0x018, 0x1000000#64)] }).pkg.Ready 0 (.vec 7#5 1#5 2#5 3#5 0#5)
    ∧ (vecOp 7 { a := 0x7FF0000000000000#256, a1 := 0, b := 0, b1 := 0, c := 0, d := 0, g := 0, rc := 0, rm := 0, tu := false }).fl = 1 :=
  ⟨ready_at _ _ (by decide) (by decide), by decide +kernel, ready_at _ _ (by decide) (by decide), by decide +kernel,
    ready_at _ _ (by decide) (by decide), ready_at _ _ (by decide) (by decide), by decide +kernel,
    ready_at _ _ (by decide) (by decide), by decide +kernel, ready_at _ _ (by decide) (by decide), ready_at _ _ (by decide) (by decide),
    by decide +kernel⟩

theorem witness_CallsEnterTheirVector :
    (atIns (.sys 0#12 0#5 0#5) (lev 0 {})).pkg.Ready 0 (.sys 0#12 0#5 0#5) ∧ ((lev 0 {}).rs 0x302).getLsbD 0 = false
    ∧ (atIns (.sys 0#12 0#5 0#5) { sr := [(0x302, 3#64)] }).pkg.Ready 0 (.sys 0#12 0#5 0#5) ∧ bits 3#64 2 1 < 3
    ∧ (atIns (.sys 1#12 0#5 0#5) (lev 1 {})).pkg.Ready 0 (.sys 1#12 0#5 0#5) ∧ (lev 1 {}).lvl = 1
    ∧ (atIns (.sys 2#12 0#5 0#5) (lev 1 {})).pkg.Ready 0 (.sys 2#12 0#5 0#5)
    ∧ (atIns (.trap 127#7) (lev 0 {})).pkg.Ready 0 (.trap 127#7)
    ∧ (atIns (.sys 5#12 0#5 0#5) (lev 0 {})).pkg.Ready 0 (.sys 5#12 0#5 0#5) :=
  ⟨ready_at _ _ (by decide) (by decide), by decide, ready_at _ _ (by decide) (by decide), by decide, ready_at _ _ (by decide) (by decide),
    by decide, ready_at _ _ (by decide) (by decide), ready_at _ _ (by decide) (by decide), ready_at _ _ (by decide) (by decide)⟩

/-- A thread at level M whose stack pointer is 0x140. -/
def eretT : Thread := { sr := [(0x161, 0x140#64)] }
/-- A frame at 0x140: PC 0x1000, PS 0 (level U). -/
def eretM : List Host.Cell := [(0x141, 0x10#8)]

theorem witness_ReturnsRestoreWhatWasSaved :
    (atIns (.sys 0#12 0#5 0#5) (lev 0 { sr := [(0x302, 3#64)] })).pkg.Ready 0 (.sys 0#12 0#5 0#5)
    ∧ ((lev 0 { sr := [(0x302, 3#64)] }).rs 0x304).getLsbD 7 = false ∧ (lev 0 { sr := [(0x302, 3#64)] }).lvl ≤ bits 3#64 2 1
    ∧ (atIns (.sys 3#12 0#5 0#5) (lev 1 { sr := [(0x304, 0x80#64)] })).pkg.Ready 0 (.sys 3#12 0#5 0#5)
    ∧ (inRam (atIns (.sys 4#12 0#5 0#5) eretT) [] eretM).pkg.Ready 0 (.sys 4#12 0#5 0#5)
    ∧ (let p := (inRam (atIns (.sys 4#12 0#5 0#5) eretT) [] eretM).pkg
       let r := p.sysLoad 0 3 0x140#64 64
       r.2 = .ok 0x1000 ∧ r.1.thr 0 = p.thr 0 ∧ r.1.tdmState = 0 ∧ r.1.Uncounted 0)
    ∧ ((after (.eret 0) (inRam (atIns (.sys 4#12 0#5 0#5) eretT) [] eretM)).pkg.thr 0).pc = 0x1000#64
    ∧ ((after (.eret 0) (inRam (atIns (.sys 4#12 0#5 0#5) eretT) [] eretM)).pkg.thr 0).lvl = 0 :=
  ⟨ready_at _ _ (by decide) (by decide), by decide, by decide, ready_at _ _ (by decide) (by decide),
    ready_of _ _ _ (by decide +kernel) rfl (by decide), by unfold Pkg.Uncounted; decide +kernel, by decide +kernel, by decide +kernel⟩

/-- A running thread 0 in DRAM with the bytes m. -/
def excP (t : Thread) (m : List Host.Cell) : Pkg := (inRam (on { threads := [(0, { t with st := .run })] }) [] m).pkg

/-- The stack of M is 0x400, its limit 0x100; the table at 0x1000 gives vector 2 the handler 0x2000. -/
def excT (sp : Word) (efr : List (Nat × Word)) : Thread := lev 0 { pc := 0x80#64, sr := [(0x160, 0x1000#64), (0x161, sp), (0x162, 0x100#64)] ++ efr }
def excM : List Host.Cell := [(0x1011, 0x20#8), (0x1061, 0x30#8)]
def excP1 (t : Thread) : Pkg := (excP t excM).updThr 0 (fun t => { t with queue := [], walk := none, mon := none, monWake := false, sel := false, ebuf := [] })

theorem test_exception_entry :
    let q := (excP (excT 0x400#64 []) excM).enterAt 0 2 0x80#64 0x81#64 0#64 false
    let e := (excP (excT 0x100#64 []) excM).enterAt 0 2 0x80#64 0x81#64 0#64 false
    let x := (excP (excT 0x100#64 [(0x163, 1#64)]) excM).enterAt 0 2 0x80#64 0x81#64 0#64 false
    (q.thr 0).pc = 0x2000#64 ∧ (q.thr 0).lvl = 3 ∧ (q.thr 0).rs 0x161 = 0x3C0#64 ∧ (q.thr 0).rg 31 = 0x3C0#64
    ∧ (e.thr 0).pc = 0x3000#64 ∧ (e.thr 0).rs 0x168 = 0x80#64 ∧ (x.thr 0).st = .faulted := by
  decide +kernel

theorem witness_ExceptionEntrySavesAndRedirects :
    let p := excP (excT 0x400#64 []) excM
    let e := excP (excT 0x100#64 []) excM
    p.tdmState = 0 ∧ p.boot.stop = none ∧ p.Uncounted 0 ∧ (p.thr 0).st = .run ∧ max ((p.thr 0).target 2) (p.thr 0).lvl = 3
    ∧ ((excP1 (excT 0x400#64 [])).frameStore 0 3 0x3C0#64 0).2 = some true
    ∧ (((excP1 (excT 0x400#64 [])).frameStore 0 3 0x3C0#64 0).1.handler 0 3 2).2 = .pc 0x2000#64
    ∧ (0x400#64 - 64#64).ult 0x100#64 = false ∧ (0x100#64 - 64#64).ult 0x100#64 = true
    ∧ e.tdmState = 0 ∧ e.Uncounted 0 ∧ (e.handler 0 3 12).2 = .pc 0x3000#64 ∧ ((e.thr 0).rs 0x163).getLsbD 0 = false
    ∧ ((excP (excT 0x100#64 [(0x163, 1#64)]) excM).thr 0).rs 0x163 = 1#64 := by
  unfold Pkg.Uncounted
  decide +kernel

theorem witness_FaultsTakeTheirVector :
    (thr1 0#32 {}).pkg.mayGo 0 = true ∧ ((thr1 0#32 {}).pkg.thr 0).head = some 0#32 ∧ insDecode 0#32 = none
    ∧ (∀ i ∈ [Ins.sys 1#12 0#5 0#5, .sys 2#12 0#5 0#5, .sys 3#12 0#5 0#5, .sys 4#12 0#5 0#5, .cma 0x19#5 1#5, .tlbi 4#3 0#5],
      (atIns i (lev 0 {})).pkg.Ready 0 i)
    ∧ (∀ i ∈ [Ins.sys 3#12 0#5 0#5, .tlbi 3#3 1#5, .csw 0#2 1#5, .csw 1#2 1#5, .csw 2#2 1#5, .mfsr 1#5 0x160#12, .mtsr 1#5 0x160#12],
      (atIns i (lev 1 {})).pkg.Ready 0 i)
    ∧ srFault 0x160 1 false false = some 1 ∧ srFault 0x160 1 false true = some 1 ∧ srFault 0xFFF 3 false false = some 0
    ∧ (∀ i ∈ [Ins.balr 1#5 2#5 2#12, .amo 0#5 false 1#5 2#5 3#5, .amo 1#5 false 4#5 2#5 6#5, .amo 10#5 false 1#5 2#5 3#5, .amo 9#5 true 1#5 2#5 3#5],
      (atIns i { g := [(2, 4#64 - 2#64)] }).pkg.Ready 0 i) := by
  refine ⟨by decide +kernel, rfl, by decide, ?_, ?_, by decide, by decide, by decide, ?_⟩ <;> intro i hi <;>
    · simp only [List.mem_cons, List.not_mem_nil, or_false] at hi
      rcases hi with rfl | rfl | rfl | rfl | rfl | rfl | rfl <;> exact ready_at _ _ (by decide) (by decide)

/-- MONITOR reaches its byte at 0x40. -/
def monS : State := inRam (atIns (.sys 9#12 0#5 2#5) { g := [(2, 0x40#64)] })
def storeInSb : List SbEnt := [⟨0x80, 0, 8, 1⟩]

theorem witness_WaitsAndFencesComplete :
    (∀ b, (atIns (.sys 8#12 0#5 0#5) { monWake := b }).pkg.Ready 0 (.sys 8#12 0#5 0#5))
    ∧ monS.pkg.Ready 0 (.sys 9#12 0#5 2#5)
    ∧ monS.pkg.Reaches 0 .load 0x40#64 1 (fun p x => match p.regionErr x.pa x.ai with | some e => some e | none => if x.ai ≤ 1 then none else some 8) [⟨0x40#64, 1, 0x40, 0⟩]
    ∧ (∀ v, v = 0#64 ∨ v = 1#64 → (atIns (.sys 0xA#12 1#5 2#5) { g := [(2, v)] }).pkg.Ready 0 (.sys 0xA#12 1#5 2#5))
    ∧ (atIns (.sys 0xA#12 1#5 2#5) {}).pkg.timeNs % 2 ^ 64 = 0
    ∧ (∀ k, k < 3 → ∀ sb, sb = [] ∨ sb = storeInSb → (atIns (.sys (BitVec.ofNat 12 (16 + k)) 0#5 0#5) { sb := sb }).pkg.Ready 0 (.sys (BitVec.ofNat 12 (16 + k)) 0#5 0#5))
    ∧ (atIns (.sys 0x11#12 0#5 0#5) {}).pkg.ioOut 0 = false ∧ ((atIns (.sys 0x11#12 0#5 0#5) {}).pkg.core 0).wc = []
    ∧ (atIns (.sys 0x12#12 0#5 0#5) {}).pkg.remoteOut 0 = false
    ∧ Pkg.remoteOut { (atIns (.sys 0x12#12 0#5 0#5) {}).pkg with fab := { gq := [{ kind := .wr, pa := 2 ^ 57, n := 8, data := 0, op := 0, who := .store 0 }] } } 0 = true := by
  refine ⟨?_, ready_of _ _ _ (by decide +kernel) rfl (by decide), ⟨_, rfl, rfl, by decide +kernel⟩, ?_, by decide +kernel, ?_, by decide +kernel, by decide +kernel,
    by decide +kernel, by decide +kernel⟩
  · intro b; cases b <;> exact ready_at _ _ (by decide) (by decide)
  · rintro v (rfl | rfl) <;> exact ready_at _ _ (by decide) (by decide)
  · intro k hk sb hs
    have : k = 0 ∨ k = 1 ∨ k = 2 := by omega
    rcases this with rfl | rfl | rfl <;> rcases hs with rfl | rfl <;> exact ready_at _ _ (by decide +kernel) (by decide)

/-- MTSR of register n. -/
def mtsrS (n : BitVec 12) : State := atIns (.mtsr 2#5 n) { g := [(2, 1#64)] }

theorem witness_MtsrAndTlbiWriteWhatTheyName :
    (∀ n ∈ [0x010#12, 0x018#12, 0x100#12, 0x108#12, 0x10F#12, 0x120#12, 0x16D#12, 0x180#12, 0x187#12, 0x211#12, 0x302#12, 0x304#12, 0x500#12, 0x511#12,
        0x401#12, 0x508#12, 0x50F#12, 0x510#12, 0x520#12, 0x52F#12],
      (mtsrS n).pkg.Ready 0 (.mtsr 2#5 n) ∧ srFault n.toNat 3 false true = none)
    ∧ (mtsrS 0x401#12).pkg.shm.on = false ∧ (mtsrS 0x401#12).pkg.shm.acts = []
    ∧ (atIns (.tlbi 3#3 2#5) { g := [(2, 0xFFFF#64)] }).pkg.Ready 0 (.tlbi 3#3 2#5) ∧ tlbiOperandOk 3 0xFFFF#64 = true := by
  refine ⟨?_, rfl, rfl, ready_at _ _ (by decide) (by decide), by decide⟩
  intro n hn
  simp only [List.mem_cons, List.not_mem_nil, or_false] at hn
  rcases hn with rfl | rfl | rfl | rfl | rfl | rfl | rfl | rfl | rfl | rfl | rfl | rfl | rfl | rfl | rfl | rfl | rfl | rfl | rfl | rfl <;>
    exact ⟨ready_at _ _ (by decide) (by decide), by decide⟩

/-! ### Loads, stores, atomics, cache maintenance -/

/-- LD G1, 0(G2) at address 0x40 with thread t's other parts. -/
def ldS (t : Thread) : State := inRam (atIns (.load 3#3 1#5 2#5 0#12) { t with g := [(2, 0x40#64)] })
/-- The line 1 in the L1D of core 0. -/
def l1dLine : Map CLine := lineMap 8 1 .S 0x1122334455667788#512
def inL1d (s : State) : State := { s with pkg := { s.pkg with l1d := l1dLine } }

theorem test_load_hits_l1d :
    ((after (.load 0 none) (inL1d (ldS {}))).pkg.thr 0).rg 1 = 0x1122334455667788#64
    ∧ ((after (.load 0 none) (inL1d (ldS { sb := [⟨0x40, 0, 8, 5⟩] }))).pkg.thr 0).rg 1 = 5#64 := by
  decide +kernel

theorem witness_LoadsAndStoresComplete :
    (inL1d (ldS {})).pkg.Ready 0 (.load 3#3 1#5 2#5 0#12)
    ∧ (inL1d (ldS {})).pkg.Reaches 0 .load (0x40#64 + (0#12).signExtend 64) 8 (fun p y => p.pieceErr 0 .load y) [⟨0x40#64, 8, 0x40, 0⟩]
    ∧ (inL1d (ldS {})).pkg.findL1d 0 1 = some 8
    ∧ (ldS { sb := [⟨0x40, 0, 8, 5⟩] }).pkg.Ready 0 (.load 3#3 1#5 2#5 0#12)
    ∧ (ldS {}).pkg.missRoom 0 = true ∧ (ldS {}).pkg.inCore 0 1 = false ∧ ((ldS {}).pkg.core 0).miss = [] := by
  refine ⟨ready_of _ _ _ (by decide +kernel) rfl (by decide), ⟨_, rfl, rfl, by decide +kernel⟩, by decide +kernel, ready_of _ _ _ (by decide +kernel) rfl (by decide),
    by decide +kernel, by decide +kernel, by decide +kernel⟩

/-- ST G3, 0(G2) at 0x40. -/
def stS (sb : List SbEnt) : State := inRam (atIns (.store 3#3 2#5 3#5 0#12) { g := [(2, 0x7C#64), (3, 9#64)], sb := sb })
def sbFull (n : Nat) : List SbEnt := List.replicate n ⟨0x80, 0, 8, 1⟩

theorem witness_StoreForms :
    (stS (sbFull 14)).pkg.Ready 0 (.store 3#3 2#5 3#5 0#12) ∧ (split 0x7C#64 8).length = 2
    ∧ (stS (sbFull 14)).pkg.Reaches 0 .store (0x7C#64 + (0#12).signExtend 64) 8 (fun p y => p.pieceErr 0 .store y) [⟨0x7C#64, 4, 0x7C, 0⟩, ⟨0x80#64, 4, 0x80, 0⟩]
    ∧ (let t := ((stS (sbFull 15)).pkg.updThr 0 (fun t => { t with sel := false })).thr 0
       t.sel = false ∧ t.head = some (Ins.store 3#3 2#5 3#5 0#12).encode ∧ (t.storeForm (.store 3#3 2#5 3#5 0#12)).isSome = true ∧ 16 < t.sb.length + 2) :=
  ⟨ready_of _ _ _ (by decide +kernel) rfl (by decide), by decide +kernel, ⟨_, rfl, rfl, by decide +kernel⟩, by decide +kernel⟩

/-- Line 1 in the merge buffer with permission. -/
def held1 (d : BitVec 512) : MergeLine := { line := 1, perm := true, ai := 0, data := d, poison := false, last := 0 }
/-- An atomic of the form i, at 0x40, whose line the core's merge buffer holds with permission and the bytes d. -/
def amoS (i : Ins) (t : Thread) (d : BitVec 512) : State :=
  let s := inRam (atIns i { t with g := [(2, 0x40#64), (4, 5#64), (6, 9#64)] })
  { s with pkg := { s.pkg with cores := [(0, { merge := [held1 d] })] } }

/-- CAS of an equal and an unequal value; AMO with fn 2 (03 R88). -/
theorem test_cas :
    let old (d : BitVec 512) := ((after (.cas 0) (amoS (.amo 0#5 false 4#5 2#5 6#5) {} d)).pkg.mergeOf 0 1).map (·.data)
    old 5#512 = some 9#512 ∧ old 7#512 = some 7#512
    ∧ ((after (.cas 0) (amoS (.amo 0#5 false 4#5 2#5 6#5) {} 7#512)).pkg.thr 0).rg 4 = 7#64 := by
  decide +kernel

theorem witness_AtomicsReadModifyAndWrite :
    (∀ i ∈ [Ins.amo 0#5 false 4#5 2#5 6#5, .amo 1#5 false 4#5 2#5 6#5, .amo 2#5 true 4#5 2#5 6#5, .amo 9#5 false 4#5 2#5 6#5, .amo 10#5 false 4#5 2#5 6#5],
      (amoS i {} 5#512).pkg.Ready 0 i
      ∧ (amoS i {} 5#512).pkg.Reaches 0 .atomic 0x40#64 (match i with | .amo 1#5 .. => 16 | .amo 2#5 .. => 4 | _ => 8) (fun p y => p.pieceErr 0 .atomic y)
        [⟨0x40#64, match i with | .amo 1#5 .. => 16 | .amo 2#5 .. => 4 | _ => 8, 0x40, 0⟩]
      ∧ (amoS i {} 5#512).pkg.mergeOf 0 1 = some (held1 5#512) ∧ (amoS i {} 5#512).pkg.trkOf 1 = none
      ∧ (amoS i {} 5#512).pkg.cores.any (fun q => (amoS i {} 5#512).pkg.owing (q.1 / 2) 1) = false
      ∧ ((amoS i {} 5#512).pkg.core 0).wc = []) := by
  intro i hi
  simp only [List.mem_cons, List.not_mem_nil, or_false] at hi
  rcases hi with rfl | rfl | rfl | rfl | rfl <;>
    exact ⟨ready_of _ _ _ (by decide +kernel) rfl (by decide), ⟨_, rfl, rfl, by decide +kernel⟩, by decide +kernel, by decide +kernel, by decide +kernel, by decide +kernel⟩

/-- A line held M by the L2 of tile 0. -/
def l2Line (d : BitVec 512) : Map CLine := lineMap 16 1 .M d
def cmaS (i : Ins) (g : Word) (t : Thread) : State :=
  let s := inRam (atIns i { t with g := [(2, g)] })
  { s with pkg := { s.pkg with l2 := l2Line 5#512 } }

theorem test_civa_cleans_and_drops :
    let q := after (.civa 0) (cmaS (.cma 2#5 2#5) 0x40#64 {})
    q.pkg.stL2 0 1 = .I ∧ (q.pkg.dramLine 1).1 = 5#512 := by
  decide +kernel

theorem witness_CacheMaintenanceCompletes :
    (∀ c, c < 3 → (cmaS (.cma (BitVec.ofNat 5 c) 2#5) 0x40#64 {}).pkg.Ready 0 (.cma (BitVec.ofNat 5 c) 2#5)
      ∧ (cmaS (.cma (BitVec.ofNat 5 c) 2#5) 0x40#64 {}).pkg.Reaches 0 (if c = 1 then .store else .load) 0x40#64 1
        (fun p y => if 2 ≤ y.ai ∧ y.ai ≤ 4 then none else p.regionErr y.pa y.ai) [⟨0x40#64, 1, 0x40, 0⟩]
      ∧ (cmaS (.cma (BitVec.ofNat 5 c) 2#5) 0x40#64 {}).pkg.trkOf 1 = none
      ∧ (cmaS (.cma (BitVec.ofNat 5 c) 2#5) 0x40#64 {}).pkg.cores = [])
    ∧ isGlobal 1 = false
    ∧ (∀ c, c < 3 → ∀ v, v = 0#64 ∨ v = 0x700FF0#64 - 0x400000#64 ∨ v = 0x7007F1#64 ∨ v = 0xF03FF2#64 ∨ v = 0xF07FF3#64 →
      (cmaS (.csw (BitVec.ofNat 2 c) 2#5) v {}).pkg.Ready 0 (.csw (BitVec.ofNat 2 c) 2#5) ∧ (swOperand v).isSome = true)
    ∧ (cmaS (.csw 0#2 2#5) 0#64 {}).pkg.ret2 0 15 = false ∧ ((cmaS (.csw 0#2 2#5) 0#64 {}).pkg.swL3 0 0x7FF 15).isSome = true := by
  refine ⟨?_, by decide, ?_, by decide +kernel, by decide +kernel⟩
  · intro c hc
    have : c = 0 ∨ c = 1 ∨ c = 2 := by omega
    rcases this with rfl | rfl | rfl <;>
      exact ⟨ready_of _ _ _ (by decide +kernel) rfl (by decide), ⟨_, rfl, rfl, by decide +kernel⟩, by decide +kernel, rfl⟩
  · intro c hc v hv
    have : c = 0 ∨ c = 1 ∨ c = 2 := by omega
    rcases this with rfl | rfl | rfl <;> rcases hv with rfl | rfl | rfl | rfl | rfl <;>
      exact ⟨ready_of _ _ _ (by decide +kernel) rfl (by decide), by decide +kernel⟩

/-- A long instruction fn with a count; G2 and G3 point at 0x7E and 0x100. -/
def longS (fn : BitVec 5) (cnt : Word) (t : Thread) (m : List Host.Cell := []) : State :=
  inRam (atIns (.block fn (if fn.toNat < 2 then 0#5 else 4#5) 2#5 (if fn = 3#5 then 0#5 else 3#5) 5#5) { t with g := [(2, 0x7E#64), (3, 0x100#64), (5, cnt)] }) [] m

theorem test_cmpb_granule :
    let q := (after (.granule 0) (longS 2#5 5#64 { long := true } [(0x7F, 1#8), (0x101, 2#8)])).pkg.thr 0
    q.rg 4 = BitVec.allOnes 64 ∧ q.rg 2 = 0x7F#64 ∧ q.rg 5 = 4#64 := by
  decide +kernel

theorem witness_LongInstructionsRunByGranules :
    (∀ fn ∈ [0#5, 1#5, 2#5, 3#5], readyB (longS fn 0#64 {}).pkg 0 = true)
    ∧ (∀ fn ∈ [0#5, 1#5, 2#5, 3#5], readyB (longS fn 1#64 {}).pkg 0 = true)
    ∧ (∀ fn ∈ [0#5, 1#5, 2#5, 3#5], readyB (longS fn 2#64 { long := true }).pkg 0 = true)
    ∧ (longS 2#5 5#64 { long := true }).pkg.Ready 0 (.block 2#5 4#5 2#5 3#5 5#5)
    ∧ ((longS 2#5 5#64 { long := true }).pkg.thr 0).granSides (.block 2#5 4#5 2#5 3#5 5#5) = [⟨⟨0x7E#64, 2, 0, 0⟩, .load⟩, ⟨⟨0x100#64, 2, 0, 0⟩, .load⟩]
    ∧ (longS 2#5 5#64 { long := true }).pkg.xl1 0 3 .load false 0x7E#64 = ((longS 2#5 5#64 { long := true }).pkg, .ok 0x7E 0)
    ∧ (longS 2#5 5#64 { long := true }).pkg.granErr ⟨0x7E#64, 2, 0x7E, 0⟩ = none
    ∧ (longS 2#5 5#64 { long := true }).pkg.startable 0 = true
    ∧ (let p := (longS 2#5 5#64 { long := true }).pkg
       let ok : List Side := [⟨⟨0x7E#64, 2, 0x7E, 0⟩, .load⟩, ⟨⟨0x100#64, 2, 0x100, 0⟩, .load⟩]
       (∀ q ∈ ok, p.granErr q.p = none ∧ p.granPoison q = false ∧ p.granNeed 0 q = []) ∧ p.granWaits 0 ok = false
       ∧ (p.granLoads 0 ok).2.map (·.2) = [[0#8, 0#8], [0#8, 0#8]]) := by
  exact ⟨by decide +kernel, by decide +kernel, by decide +kernel, ready_of _ _ _ (by decide +kernel) rfl (by decide), by decide +kernel, rfl,
    by decide +kernel, by decide +kernel, by decide +kernel⟩

/-! ### Fetch, fills, buffers, thread commands -/

/-- A running package with thread 0 as t and DRAM. -/
def thrP (t : Thread) : Pkg := (inRam (on { threads := [(0, { t with st := .run })] })).pkg

def fetchP : Pkg := Pkg.wr { thrP { pc := 0x40#64, fpc := 0x40#64 } with l1i := lineMap 4 1 .S 0x000E6291#512 } (coreBase 0) 2#64

theorem test_fetch_decodes : ((after (.fetchBlock ⟨0, false⟩) (on fetchP)).pkg.thr 0).queue.head? = some (0x40#64, 0x000E6291#32) := by
  decide +kernel

/-- A load of thread 0 that awaits 8 bytes at 0x40, whose line has come without a copy. -/
def fillP : Pkg :=
  { thrP { await := some { dest := .g 1 8 false, parts := [⟨0x40, 0, 8, none⟩], va := 0x40#64, pc := 0#64 } } with
    cores := [(0, { miss := [{ thr := 0, line := 1, kind := .load, ai := 0, stream := false, data := some (7#512, false) }] })] }

theorem test_fill_delivers : ((after (.fillArrival 0 0 ⟨50, .none⟩) (on fillP)).pkg.thr 0).rg 1 = 7#64 := by decide +kernel

theorem witness_FetchWalkAndFillGiveThreadsWhatTheyWaitFor :
    (on fetchP).pkg.live = true ∧ fetchP.tdmState = 0 ∧ fetchP.fetchTurn 0 = some 0 ∧ (fetchP.xlate 0 3 0x40#64 .fetch).2 = .ok 0x40 0
    ∧ (fetchP.xlate 0 3 0x40#64 .fetch).1 = fetchP ∧ fetchP.Uncounted 0 ∧ fetchP.fetchTurn 1 = none ∧ fetchP.regionErr 0x40 0 = none ∧ fetchP.findL1i 0 1 = some 4 ∧ fetchP.rb (coreBase 0) 0 = false
    ∧ (thrP { held := true, hparts := [⟨0x40, 0, 8, none⟩] }).loadHeld 0 [⟨0x40, 0, 8, none⟩] = false
    ∧ fillP.trkOf 1 = none ∧ fillP.findL1d 0 1 = none ∧ fillP.mergeOf 0 1 = none ∧ fillP.mergeOf (sibling 0) 1 = none ∧ fillP.findL2 0 1 = none
    ∧ ((thrP { walk := some ⟨0#64, 4, .fetch⟩ }).updThr 0 (fun t => { t with walk := none })).mayGo 0 = true ∧ ((thrP { walk := some ⟨0#64, 4, .fetch⟩ }).xlateNow 0 3 0#64 .fetch).1 = thrP { walk := some ⟨0#64, 4, .fetch⟩ }
    ∧ okOf ((thrP { walk := some ⟨0#64, 4, .fetch⟩ }).xlateNow 0 3 0#64 .fetch).2 = some (0, 0)
    ∧ ((ldS { walk := some ⟨0x40#64, 8, .load⟩ }).pkg.thr 0).head = some (Ins.load 3#3 1#5 2#5 0#12).encode
    ∧ ((ldS { walk := some ⟨0x40#64, 8, .load⟩ }).pkg.updThr 0 (fun t => { t with walk := none })).mayGo 0 = true := by
  unfold Pkg.Uncounted
  decide +kernel

/-- A thread whose head waits for the selector; core 0 has the starve counts c. -/
def selS (t : Thread) (c : Map Nat) : State :=
  on { threads := [(0, { t with st := .run, queue := [(0#64, (Ins.op 0#5 5#5 6#5 7#5 0#5).encode)] })], cores := [(0, { sched := { starve := c } })] }

theorem test_selection_is_strict_and_fair :
    let x (t lev : Nat) : Cand := { t := t, from' := 0, unit := .alu, div := 0, lev := lev, lat := 1, hold := 0, dst := [] }
    let pick (k : Sched) (l : List Cand) := (k.pick [7, 2, 7, 7] l).map (·.t)
    pick {} [x 0 1, x 3 1, x 5 0] = some 3 ∧ pick {} [x 0 1, x 2 1, x 5 0] = some 0 ∧ pick { starve := [(5, 64)] } [x 0 1, x 3 1, x 5 0] = some 5
    ∧ pick {} [{ x 0 1 with from' := 4 }, x 5 0] = some 5 ∧ pick { slots := [(1, .alu), (2, .alu)] } [x 0 1] = none := by
  decide +kernel

theorem witness_SelectionIsStrictAndFair :
    (selS {} []).pkg.live = true ∧ ((selS {} []).pkg.thr 0).sel = false ∧ (selS {} []).pkg.mayGo 0 = true
    ∧ ((selS {} []).pkg.select 0).isSome = true ∧ ((selS { walk := some ⟨0#64, 8, .load⟩ } []).pkg.select 0).isSome = false
    ∧ 64 ≤ Map.get n0 ((selS {} [(0, 64)]).pkg.core 0).sched.starve 0 ∧ 0 ∉ ((selS {} [(0, 64)]).pkg.core 0).sched.noted ∧ (selS {} [(0, 64)]).pkg.Uncounted 0 := by
  unfold Pkg.Uncounted
  decide +kernel

/-- A merge buffer line. -/
def mline (line : Nat) (perm : Bool) (d : BitVec 512) (last : Nat) : MergeLine := { line := line, perm := perm, ai := 0, data := d, poison := false, last := last }
/-- The head of the store buffer of thread 0 is a store of 8 bytes at 0x40; core 0 has the merge lines m. -/
def drainP (m : List MergeLine) : Pkg := { thrP { sb := [⟨0x40, 0, 8, 5⟩] } with cores := [(0, { merge := m })] }
/-- Threads 0 and 1 may both drain; the port is at thread 1. -/
def drain2 : Pkg :=
  { (drainP [mline 1 true 0#512 0]) with
    threads := [(0, { st := .run, sb := [⟨0x40, 0, 8, 5⟩] }), (1, { st := .run, sb := [⟨0x40, 0, 8, 6⟩] })]
    cores := [(0, { merge := [mline 1 true 0#512 0], rrDrain := 0 })] }
/-- A permission miss of core 0 for the line 1, which its L2 holds M. -/
def grantP : Pkg := { thrP {} with cores := [(0, { miss := [{ thr := 0, line := 1, kind := .perm, ai := 0, stream := false, data := none }], merge := [mline 1 false 0#512 0] })], l2 := lineMap 16 1 .M 5#512 }
def idleP (last : Nat) : Pkg := { thrP {} with now := 200000, cores := [(0, { merge := [mline 1 true 5#512 last], wc := [⟨2 ^ 45, 1#64, 5#512, 1#8, last⟩] })] }
def uncP : Pkg := { thrP {} with devq := [{ h := 0, pa := 0x48, n := 8, data := 5, be := 0xFF, wr := true, wait := false }] }

theorem test_uncached_write_is_queued :
    ((after (.uncachedHomeAccess ⟨0, 40, .none⟩) (on uncP)).pkg.dramLine 1).1 = 0x50000000000000000#512 := by decide +kernel

theorem witness_StoresAndBuffersReachTheirLines :
    (on (drainP [mline 1 true 0#512 0])).pkg.live = true ∧ (drainP [mline 1 true 0#512 0]).drainTurn 0 = some 0 ∧ (drainP []).threadsRun = true ∧ (drainP []).tdmState = 0
    ∧ (drainP [mline 1 true 0#512 0]).mergeOf 0 1 = some (mline 1 true 0#512 0) ∧ region 0x40 = 0
    ∧ ((drainP []).core 0).merge = [] ∧ (drainP []).missRoom 0 = true
    ∧ (drain2).drainable 0 = true ∧ drain2.drainTurn 0 = some 1
    ∧ grantP.trkOf 1 = none ∧ grantP.findL2 0 1 = some 16 ∧ (grantP.getL2 16).st = .M ∧ grantP.mergeOf 0 1 = some (mline 1 false 0#512 0) ∧ grantP.mergeOf (sibling 0) 1 = none
    ∧ ((idleP 125000).elapse 294).mergeOf 0 1 = some (mline 1 true 5#512 125000) ∧ (idleP 125000).owing 0 1 = false
    ∧ ((idleP 125000).elapse 294).idleLimit 0 ≤ 300000 ∧ 0 < ((idleP 125000).elapse 293).idleLimit 0
    ∧ uncP.uncopied 1 = true ∧ uncP.trkOf 1 = none ∧ uncP.dsym = [] ∧ isGlobal 1 = false ∧ uncP.tdm.track = false := by
  decide +kernel

def stP (st prior : ThrSt) : Pkg := (inRam (on { threads := [(0, { st := st, prior := prior })] })).pkg
def intP : Pkg := Pkg.wr (thrP { pc := 0x80#64, sr := [(0x100, 7#64)] }) (ticPend 0) (1#64 <<< 63) |>.wr (ticEn 0) (1#64 <<< 63)

theorem test_thread_start_and_msi :
    ((after (.threadStart 0) (on (stP .off .off))).pkg.thr 0).st = .run
    ∧ ((after (.threadStart 0) (on (stP .parked .off))).pkg.thr 0).st = .parked
    ∧ (after (.ticMsiWrite 0 127#32) (on {})).pkg.pendv 0 127 = true ∧ (after (.ticMsiWrite 0 128#32) (on {})).pkg.rb (ticStatus 0) 0 = true := by
  decide +kernel

theorem witness_ThreadsStartHaltWakeAndTakeInterrupts :
    (on {}).pkg.live = true ∧ (on {}).pkg.tdmState = 0 ∧ (on {}).pkg.shm.on = false ∧ (on {}).pkg.shm.acts = []
    ∧ (stP .off .off).coreUp 0 = true ∧ ((stP .halted .run).thr 0).prior = .run ∧ ((stP .faulted .off).thr 0).st = .faulted
    ∧ (let t := (thrP { halting := true }).thr 0; t.await = none ∧ t.wreason = none ∧ t.sb = [] ∧ t.ent = none ∧ t.sel = false ∧ t.ebuf = [])
    ∧ (let p : Pkg := (on { threads := [(0, { st := .timewait, waitt := some (10#64, 3) })] }).pkg
       (p.thr 0).waitt = some (10#64, 3) ∧ (10#64).toNat ≤ (p.elapse 10000).timeNs % 2 ^ 64)
    ∧ ((thrP { sr := [(0x508, 0x2800#64)] }).thr 0).frozen = false ∧ ((thrP { sr := [(0x508, 0x2800#64)] }).thr 0).cycles 0x2800#64 false = true
    ∧ (thrP {}).coreP 0 = 0 ∧ (let sel := Map.get w0 (Pkg.core { thrP {} with cores := [(0, { csr := [(0x52F, 0x12801#64)] })] } 0).csr 0x52F
       sel.getLsbD 16 = true ∧ ((thrP {}).thr 0).cycles sel true = true)
    ∧ intP.threadsRun = true ∧ intP.pickVector 0 = some 127
    ∧ (let t := intP.thr 0; t.halting = false ∧ t.lagged = false ∧ t.await = none ∧ t.sb = [] ∧ t.sel = false ∧ t.ebuf = [] ∧ t.ent = none ∧ t.wreason = none) := by
  decide +kernel

/-! ### Homes, DRAM, cache commands, power -/

/-- A miss of a core's thread 0; a transaction of tile 5 for line 1. -/
def missOf (line : Nat) (k : MissKind) : Miss := { thr := 0, line := line, kind := k, ai := 0, stream := false, data := none }
def trk0 : Tracker := { line := 1, req := .rdShared, tile := 5, snoops := 0#128, dram := false, remote := false }

/-- Line 1 held by the L2 of tile 3 in `st`, with the trackers, L3 line and registers given. -/
def homeP (st : Moesi) (trk : List Tracker) (l3 : Option Moesi) : Pkg :=
  { ((on {}).pkg.wb (scBase + 0x100) 0 false).wb (l2Base 5) 0 true with
    cores := [(6, { miss := [missOf 1 .perm] }), (10, { miss := [missOf 1 .load, missOf 1 .perm] })]
    l2 := lineMap (3 * 16384 + 16) 1 st 7#512
    trackers := if trk.isEmpty then [] else [(homeOf 1, trk)]
    l3 := match l3 with | some x => lineMap (l3Key (homeOf 1) 1 0) 1 x 7#512 | none => [] }
def snoopT : Tracker := { trk0 with snoops := 8#128 }

theorem test_rdshared_then_snoop_moves_line :
    ((after (.rdshared 5 1 .none) (on (homeP .M [] none))).pkg.trkOf 1).map (·.snoops) = some 8#128
    ∧ (after (.snoop 3 1 .none) (on (homeP .M [snoopT] none))).pkg.stL2 3 1 = .O
    ∧ (after (.snoop 3 1 .none) (on (homeP .M [snoopT] none))).pkg.stL2 5 1 = .S := by
  decide +kernel

theorem witness_HomeRequestsSnoopReadOrGrant :
    (homeP .M [] none).live = true ∧ (homeP .M [snoopT] none).trkOf 1 = some snoopT
    ∧ (homeP .M [] none).trkOf 1 = none ∧ (homeP .M [] none).trkUsed (homeOf 1) < 256 ∧ (homeP .M [] none).permitted 10 1 = false ∧ (homeP .M [] none).permitted 11 1 = false
    ∧ (homeP .M [snoopT] none).tileMiss 3 1 true = true ∧ snoopT.tile ≠ 3 ∧ snoopT.wait = []
    ∧ (homeP .M [] none).l2P 5 = 0
    ∧ (homeP .M [] none).stL2 5 1 = .I ∧ (homeP .M [] none).tileMiss 5 1 false = true ∧ (homeP .M [] none).supplies 3 1 = true
    ∧ (homeP .M [] none).owners 1 = [3] ∧ (homeP .I [] none).owners 1 = [] ∧ (homeP .I [] none).findL3 1 = none ∧ (homeP .M [] none).mergeAny 1 = none ∧ (homeP .I [] (some .M)).holders 1 = []
    ∧ isGlobal (2 ^ 51 - 1) = false ∧ isGlobal (2 ^ 51) = true
    ∧ (homeP .S [] none).tileMiss 3 1 true = true ∧ (homeP .S [] none).stL2 3 1 = .S ∧ (homeP .S [] none).owners 1 = [3]
    ∧ (homeP .I [] (some .M)).findL3 1 = some (l3Key (homeOf 1) 1 0) ∧ (homeP .I [] (some .M)).alloc2 5 = true ∧ (homeP .I [] (some .M)).ret2 5 0 = false
    ∧ snoopT.snoops.getLsbD 3 = true ∧ snoopT.snoops &&& ~~~8#128 = 0#128 ∧ snoopT.snoops.getLsbD 4 = false
    ∧ (0x18#128 &&& ~~~8#128 : BitVec 128) ≠ 0#128 ∧ (homeP .M [] none).stL2 5 1 = .I := by
  decide +kernel

/-- A controller with a queue. -/
def mcP (m : Mc) (l2 : Map CLine) : Pkg := { ((on {}).pkg.wb (scBase + 0x100) 0 false).wb (l2Base 5) 0 true with mcs := [(mcOf 1, m)], l2 := l2, trackers := [(homeOf 1, [{ trk0 with dram := true }])] }
def wrMc : Mc := { wq := [⟨1, 9#512, true⟩] }
def rdMc : Mc := { rq := [⟨1, .home (homeOf 1), true, false⟩] }

theorem test_dram_write_and_return :
    (after (.dramWrite 0 1) (on (mcP wrMc []))).pkg.memByte 64 = 9#8 ∧ Map.get flag0 (after (.dramWrite 0 1) (on (mcP wrMc []))).pkg.dpoison 1 = true
    ∧ (after (.dramReadReturn 0 1 []) (on (mcP rdMc []))).pkg.stL2 5 1 = .E := by
  decide +kernel

theorem witness_LinesReachDramAndComeBack :
    (homeP .O [] (some .E)).findL2 3 1 = some (3 * 16384 + 16) ∧ (homeP .O [] none).mergeOf 6 1 = none ∧ (homeP .O [] none).mergeOf 7 1 = none
    ∧ (homeP .O [] (some .E)).findL3 1 = some (l3Key (homeOf 1) 1 0) ∧ (homeP .O [] (some .E)).noalloc = false
    ∧ (Pkg.wr (homeP .O [] none) (l3sBase (homeOf 1)) 0#64).alloc3 (homeOf 1) = false ∧ (homeP .E [] none).findL2 3 1 = some (3 * 16384 + 16)
    ∧ mcOf 1 = 0 ∧ (mcP wrMc []).rankBusy 0 1 = false ∧ ((mcP wrMc []).mc 0).wq.find? (fun x => x.line == 1) = some ⟨1, 9#512, true⟩
    ∧ ((mcP rdMc []).mc 0).rq = [⟨1, .home (homeOf 1), true, false⟩] ∧ (mcP rdMc []).shm.on = false ∧ (mcP rdMc []).shm.acts = []
    ∧ ((mcP rdMc []).trkOf 1).isSome = true ∧ (mcP rdMc []).uncopied 1 = true ∧ (mcP rdMc []).dsym = [] ∧ (mcP rdMc []).stL2 5 1 = .I
    ∧ (mcP rdMc []).alloc2 5 = true ∧ (mcP rdMc []).ret2 5 15 = false := by
  decide +kernel

/-- Errors of one device are corrected, of two are not (09 R245). -/
theorem witness_SymbolErrors :
    (∀ e ∈ [(⟨0, 1#8⟩ : SymErr), ⟨0, 0xFF#8⟩], e.x ≠ 0#8 ∧ symDev e.sym = symDev 0) ∧ symDev (0 : Nat) ≠ symDev (79 : Nat)
    ∧ (decodeLine 5#512 false [⟨0, 1#8⟩]).data = 5#512 := by
  decide +kernel

def copP (l : List CacheOp) (d : List (Nat × Word)) : Pkg := { (on {}).pkg with cops := l, drs := d }

theorem witness_CacheCommandsAndRetirement :
    (copP [] []).live = true ∧ (copP [] []).cacheBusy true 127 = false ∧ (copP [.clean true 127 false] []).cacheBusy true 127 = true
    ∧ (copP [.clean true 127 true] []).cops.find? (fun o => o == .clean true 127 true || o == .clean true 127 false) = some (.clean true 127 true)
    ∧ (0x100#64 : Word).getLsbD 8 = true ∧ (copP [] []).rb (cacheWay false 0 15) 8 = false ∧ (copP [] []).nret false 0 = 0
    ∧ ((List.range 4).foldl (fun p w => Pkg.wb p (cacheWay false 0 w) 8 true) (copP [] [])).nret false 0 = 4 ∧ CacheOp.retire false 0 15 ∈ (copP [.retire false 0 15] []).cops
    ∧ (copP [] [(scBase + 0x100, 2#64)]).rb (scBase + 0x100) 1 = true ∧ (copP [] []).rb (scBase + 0x100) 1 = false := by
  decide +kernel

theorem witness_EvacuationAndPowerChangesComplete :
    (∀ b ∈ [false, true], (Pkg.wb (copP [] []) (l3sBase 1) 4 b).rb (l3sBase 1) 4 = b) ∧ ((List.range 16).filter (fun w => !(copP [] []).ret3 1 w)).length = 16
    ∧ (Pkg.wb (copP [] []) (l3sBase 1 + 0x10) 4 true).rb (l3sBase 1 + 0x10) 4 = true ∧ (Pkg.wb (copP [] []) (l3sBase 1 + 0x10) 3 true).rb (l3sBase 1 + 0x10) 3 = true
    ∧ CacheOp.reserve 1 ∈ (copP [.reserve 1] []).cops ∧ CacheOp.evac 1 ∈ (copP [.evac 1] []).cops
    ∧ (let p := Pkg.wb (copP [] []) (l3sBase (Nat.xor 1 1) + 0x10) 2 true
       p.rb (l3sBase (Nat.xor 1 1) + 0x10) 2 = true ∧ p.rb (l3sBase (Nat.xor 1 1) + 0x10) 3 = false ∧ p.rb (l3sBase 1 + 0x10) 4 = false ∧ p.cacheBusy true 1 = false)
    ∧ (let p := [0, 1].foldl (fun p c => Pkg.wf p (meshCpwr c) 5 4 2) (Pkg.wb (copP [] []) (meshL2pwr 0) 0 true)
       p.rb (meshL2pwr 0) 0 = true ∧ p.gateOk 0 = true ∧ p.l2P 0 = 0)
    ∧ (copP [] []).coreOff 0 = true ∧ (thrP {}).coreOff 0 = false ∧ (copP [] []).coreP 0 = 0
    ∧ [1, 2, 3].all (fun x => (Pkg.wf (copP [] []) (meshCpwr 0) 5 4 x).coreP 0 == x) = true ∧ ((copP [] []).core 0).miss = [] ∧ ((copP [] []).core 0).merge = [] ∧ ((copP [] []).core 0).wc = [] ∧ ((copP [] []).thr 0).sb = [] ∧ ((drainP []).thr 0).sb ≠ [] ∧ (Pkg.wf (copP [] []) (meshCpwr 0) 5 4 3).rb (meshCpwr 0) 7 = false := by
  decide +kernel

/-! ### Repairs, Cadence, mesh, power -/

/-- A running package with registers `l` written, one after the other. -/
def regP (l : List (Nat × Word)) : Pkg := l.foldl (fun p x => p.wr x.1 x.2) (on {}).pkg

def mc3 (m : Mc) (l : List (Nat × Word)) : Pkg := { regP l with mcs := [(3, m)], now := 5000000 }
def pass (pos stop : Nat) (ab : Bool) : TrwPass :=
  { wb := false, irqUe := false, irqDone := false, rate := 0, start := 0, stop := stop, sumaddr := 0#64, pos := pos, t0 := 0#64, abort := ab }

theorem test_trowel_starts :
    ((after (.trwStart 3) (inRam (on {}) [(trwBase 3 + 0x18, 0x1000#64)])).pkg.mc 3).trw.isSome = true
    ∧ ((after (.trwStart 3) (on {})).pkg.rb (trwBase 3 + 0x20) 1) = true := by
  decide +kernel

theorem witness_RepairsAndPatrolPassesRun :
    (mc3 {} []).live = true ∧ (mc3 {} []).scLive = true ∧ (0x1F#64 : Word).getLsbD 4 = true ∧ (mc3 {} [(mcBase 3 + 0x28, 0x20#64)]).rb (mcBase 3 + 0x28) 5 = true
    ∧ (mc3 {} []).rb (mcCe 3 15) 0 = false ∧ (mc3 {} [(mcCe 3 15, 1#64)]).rb (mcCe 3 15) 0 = true
    ∧ ((mc3 { due := [(15, 0)], idleSince := 3000000 } []).mc 3).rep = none ∧ (3000000 : Nat) + 2000000 ≤ ((mc3 {} []).elapse 0).now
    ∧ (5000000 : Nat) < 3000001 + 2000000 ∧ ((mc3 { rep := some 15 } []).mc 3).rep = some 15
    ∧ (mc3 {} []).rf (trwBase 3 + 0x10) 51 6 = 0 ∧ (let p := mc3 {} [(trwBase 3 + 0x18, 0x40#64), (scBase + 0x218, 0x1000#64)]; min (p.rf (trwBase 3 + 0x18) 51 6) (p.memLimit / 64) = 1)
    ∧ (mc3 {} []).rb (trwBase 3 + 0x38) 0 = false ∧ (mc3 {} []).rb (trwBase 3 + 8) 2 = false ∧ min ((mc3 {} []).rf (trwBase 3 + 0x18) 51 6) ((mc3 {} []).memLimit / 64) = 0
    ∧ (let p := mc3 { trw := some (pass 0 1 false) } []
       (p.mc 3).trw = some (pass 0 1 false) ∧ (p.mc 3).trowelOut = false ∧ (p.mc 3).rq.length < 4 ∧ (p.elapse 0).rankBusy 3 0 = false)
    ∧ ((mc3 { trw := some (pass 0 1 false), rq := [⟨0, .trowel, true, false⟩] } []).dramLine 0).2 = false
    ∧ ((mc3 { trw := some (pass 1 1 false) } []).mc 3).trowelOut = false ∧ (pass 0 1 true).abort = true := by
  decide +kernel

/-- A time-of-day frame of second 5 with its CRC (13 R351). -/
def frame5 : List Byte :=
  let b := [0xA7#8, 1#8, 5#8, 0#8, 0#8, 0#8, 0#8, 0#8, 0#8, 0#8, 1#8, 0#8, 0#8, 0#8]
  b ++ [BitVec.ofNat 8 (crc16 b), BitVec.ofNat 8 (crc16 b / 256)]
def cadP (st : Nat) (c : Cad) (l : List (Nat × Word)) : Pkg :=
  { Pkg.wf (regP l) cadStat 1 0 st with cad := c, now := 2000000000000 }

theorem test_frame_and_pulse :
    (after (.todFrame 0 frame5) (on {})).pkg.cad.frames.length = 1 ∧ (after (.todFrame 0 (frame5.set 2 6#8)) (on {})).pkg.rf cadCnt 47 32 = 1
    ∧ (let q := (after (.ppsEdge 0 false) (on (cadP 2 {} [(cadCfg, 0x403#64)]))).pkg
       q.cad.lastEdge = some 2000000000000 ∧ q.rf (cadBase + 0x10) 31 0 = 0) := by
  decide +kernel

theorem witness_PulseAndTimeOfDayDiscipline :
    (cadP 2 {} []).scLive = true ∧ (cadP 2 {} [(cadCfg, 2#64)]).rb cadCfg 1 = true ∧ (cadP 2 {} []).rb cadCfg 1 = false
    ∧ (cadP 2 { lastEdge := some 1500000000001 } []).cad.lastEdge = some 1500000000001 ∧ (2000000000000 : Nat) < 1500000000001 + 500000000000
    ∧ (cadP 2 {} []).cadState = 2
    ∧ (let p := (cadP 2 { t := 500000000 * nsUnit } []).elapse 0
       1000 * (cadP 2 {} []).rf cadCfg 15 8 < ((p.stamp : Int) - ((p.stamp + 500000000) / 1000000000 * 1000000000 : Nat)).natAbs)
    ∧ ((cadP 2 {} [(cadCfg, 0x401#64)]).elapse 0).stamp = 0 ∧ (cadP 2 {} [(cadCfg, 0x401#64)]).rb cadCfg 0 = true
    ∧ (let p := (cadP 0 { t := 5000000000 * nsUnit, frames := [(1000000000000, frame5)] } [(cadCfg, 1#64)]).elapse 0
       p.claim.2 = some frame5 ∧ frameNat frame5 2 6 * 1000000000 ≤ p.stamp)
    ∧ frameByte frame5 0 = 0xA7 ∧ frame5.length = 16 ∧ frameOk frame5 = true ∧ frameOk (frame5.set 15 0#8) = false ∧ frame5.any (fun x => x == 0xA7#8) = true
    ∧ (cadP 1 { lastEdge := some 500000000000 } []).cadState = 1 ∧ 500000000000 + 1500000000000 ≤ 2000000000000
    ∧ (cadP 3 {} [(cadStat, 4#64)]).rb cadStat 2 = true ∧ ((cadP 3 {} []).elapse 0).cad.slew = 0 ∧ ((cadP 3 { slew := 5 } []).elapse 0).cad.slew = 5
    ∧ (cadP 0 { assoc := some 0 } []).cad.assoc = some 0 ∧ 0 + 2000000000000 ≤ ((cadP 0 {} []).elapse 0).now ∧ 0 + 2000000000000 < ((cadP 0 {} []).elapse 1).now := by
  decide +kernel

def flit (dst : StopN) : FlitOp := { dst := dst, port := 0, msg := .ioLoad, line := none }

theorem test_flit_moves_east : ((after (.meshFlitArrival 20 4 (flit 22) .none) (on {})).pkg.buf (bufKey 21 1 1)).map (fun f => (f.op, f.poison, f.age)) = [(flit 22, false, 1)] := by
  decide +kernel

theorem witness_ScheduleCadenceRegistersMeshAndStatistics :
    (regP []).live = true ∧ (regP []).scLive = true ∧ (regP []).shm.on = false ∧ (regP []).shm.acts = [] ∧ (regP []).replaying = false
    ∧ (cadP 3 { holdAt := some 0 } []).cadState = 3 ∧ 0 + 86400 * 1000000000000 ≤ ((cadP 3 { holdAt := some 0 } []).elapse 86398000000000000).now
    ∧ ((cadP 3 { holdAt := some 0 } []).elapse 86397999999999999).now < 0 + 86400 * 1000000000000
    ∧ (let p : Pkg := { regP [(sched 255 0, 7#64)] with boot := { ended := true } }; p.boot.ended = true ∧ (p.rd (sched 255 0)).getLsbD 0 = true
       ∧ (p.rd (sched 255 3)).toNat ≤ p.rdtime.toNat ∧ bits (p.rd (sched 255 0)) 4 2 = 1)
    ∧ 0 < ((regP [(sched 255 3, 1#64)]).rd (sched 255 3)).toNat - (regP []).rdtime.toNat ∧ ((regP []).rd (sched 0 0)).getLsbD 0 = false
    ∧ (regP [(cadCfg, 1#64 <<< 63)]).rb cadCfg 63 = true ∧ (regP []).rb cadCfg 63 = false
    ∧ (regP []).buf (bufKey 20 4 1) = [] ∧ routeOut 20 20 = 4 ∧ routeOut 20 22 ≠ 4 ∧ ((regP []).buf (bufKey 21 1 1)).length < vnDepth 1 ∧ (regP []).noc.bufs = [] ∧ (regP []).retraining 21 1 = false
    ∧ (let p : Pkg := { regP [] with noc := { bufs := [(bufKey 21 1 1, List.replicate 4 ⟨flit 22, 0#48, false, true, 0⟩)] } }
       vnDepth 1 ≤ (p.buf (bufKey 21 1 1)).length ∧ (List.range 56).all (fun x => (p.buf (bufKey 20 (x / 8) (x % 8))).isEmpty) = true)
    ∧ (regP [(meshBrstat 20 1, 2#64)]).rf (meshBrstat 20 1) 1 0 = 2
    ∧ statBlock 143 1 = true ∧ (regP [(meshBase 143 + 0x800, 1#64)]).rf (meshBase 143 + 0x800) 1 0 = 1
    ∧ (Map.get st0 (regP []).noc.live 287).seen ≠ ((regP []).elapse 1000000000).cadNs / 1000000 := by
  decide +kernel

def stopP (c : Nat) (m : Map Mc) : Pkg := { regP [] with boot := { stop := some ⟨c, 0⟩ }, mcs := m }

theorem test_reset_request : (after (.scResetWrite 0x5A01#64) (on {})).pkg.boot.stop = some ⟨2, 0⟩ ∧ (after (.scResetWrite 0x5B01#64) (on {})) = on {} := by
  decide +kernel

theorem witness_PowerAndResetsLeaveWhatTheyKeep :
    State.reset.pkg.pins.vaux = false ∧ (on {}).pkg.pins.vaux = true ∧ (on {}).pkg.pins.pwrgood = true
    ∧ ({ (on {}).pkg with pins := { vaux := true } }).pins.pwrgood = false ∧ (on {}).pkg.boot.stop = none
    ∧ (stopP 5 []).boot.stop = some ⟨5, 0⟩ ∧ (stopP 5 []).pins.refclk = true ∧ (stopP 4 []).boot.stop = some ⟨4, 0⟩
    ∧ (0x5A01#64 : Word).getLsbD 0 = true ∧ bits 0x5A01#64 15 8 = 0x5A ∧ (stopP 1 []).scLive = true ∧ (stopP 4 []).rf bootstat 55 48 = 0
    ∧ (stopP 1 [(0, { rep := some 0 })]).mcs.any (fun e => e.2.rep.isSome) = true ∧ (stopP 1 []).mcs.any (fun e => e.2.rep.isSome) = false := by
  decide +kernel

/-! ### Boot, the Odometer, the mailboxes, management and power -/

def bootP (phase : Nat) (b : Boot) : Pkg := { Pkg.wf (regP []) bootstat 3 0 phase with boot := b }
/-- A population of sixteen channels of 32 GiB, and an image whose speed is 3,200 MT/s. -/
def pop16 : List ChanPop := List.replicate 16 ⟨true, 1, 1, 16, 4800, true⟩
def bci3200 : List Byte := List.replicate 0x60 0#8 ++ [0x80#8, 0x0C#8]
/-- An empty firmware image at address 0, with its hash. -/
def bciEmpty : List Byte := List.replicate 0x1A8 0#8 ++ sha384 []

theorem test_sha384 : (sha384 []).length = 48 ∧ (sha384 []).take 4 = [0x38#8, 0xB0#8, 0x60#8, 0xA7#8] := by decide +kernel

theorem test_boot_memtrain : (after (.bootMemtrain 0 pop16) (on (bootP 3 { bci := bci3200 }))).pkg.phase = 4 := by decide +kernel

/-- (A signed image is not shown here: the kernel would evaluate SHA-384 over it and ECDSA for minutes. NOTES.md says which one was run.) -/
theorem witness_BootPhasesFollowOneAnother :
    (bootP 0 {}).live = true ∧ (bootP 0 {}).scLive = true ∧ (bootP 0 {}).pins.warmRstN = true ∧ (bootP 0 {}).phase = 0 ∧ (bootP 1 {}).phase = 1
    ∧ State.reset.nv.keyHash = none ∧ bciValid (State.reset.nv.copy 0) State.reset.nv 0 = false ∧ (List.range 256).all (fun i => !(bootP 0 {}).rb (sched i 0) 0) = true
    ∧ (bootP 2 {}).phase = 2 ∧ (bootP 3 {}).phase = 3
    ∧ (List.range 16).all (fun i => (chanFault (pop16.getD i chan0) (pop16.getD 0 chan0) (bciF bci3200 0x60 2) (bciExpect bci3200)).isNone) = true
    ∧ (bootP 4 {}).phase = 4 ∧ (bootP 4 {}).fabMode = 0 ∧ (Pkg.wf (bootP 4 {}) fabBase 17 16 1).fabMode = 1
    ∧ (List.range 12).all (fun i => !(bootP 4 {}).roleLive ((bootP 4 {}).lkTrains i) || [5, 7, 9].contains ((bootP 4 {}).lkState i)) = true
    ∧ (bootP 6 { bci := bciEmpty }).phase = 6 ∧ bciFwLen bciEmpty = 0 ∧ bciFwLoad bciEmpty = 0 ∧ (bootP 6 { loaded := true }).boot.loaded = true
    ∧ bciSched [] 31 0 = 0 ∧ bciFwLoad [] - 0x100000 = 0 ∧ (bootP 6 { capacity := 1 }).boot.capacity ≠ 0 ∧ (bootP 7 { mcq := [(2047, 5)] }).boot.mcq = [(2047, 5)] := by
  decide +kernel

theorem sha384_length (m : List Byte) : (sha384 m).length ≤ 48 := by
  have h : ∀ l : List (BitVec 64), ((l.take 6).flatMap (fun x => natBe 8 x.toNat)).length ≤ 48 := by
    intro l
    have e : ∀ k : List (BitVec 64), (k.flatMap (fun x => natBe 8 x.toNat)).length = 8 * k.length := by
      intro k
      induction k with
      | nil => rfl
      | cons a t ih =>
        rw [List.flatMap_cons, List.length_append, ih, List.length_cons]
        simp [natBe]
        omega
    rw [e, List.length_take]
    omega
  exact h _

theorem witness_FirmwareHash : sha384 (State.reset.nv.read (bciFwFlash bciEmpty) (bciFwLen bciEmpty)) = (bciEmpty.drop 0x1A8).take 48 := by
  have h : bciFwLen bciEmpty = 0 := by decide +kernel
  have l := sha384_length []
  have e : State.reset.nv.read (bciFwFlash bciEmpty) 0 = [] := rfl
  rw [h, e]
  unfold bciEmpty
  rw [List.drop_left' (List.length_replicate ..), List.take_of_length_le l]

def odoP (o : Odo) (l : List (Nat × Word)) : Pkg := { regP l with odo := o, now := 3600 * 1000000000000 }

theorem witness_OdometerAndRegisterPortsComplete :
    (odoP { live := true } []).scLive = true ∧ 0 < ((odoP { live := true } []).elapse 0).now / 1000000000000
    ∧ (odoP { part := some 0x40000 } []).rb odoBase 3 = false ∧ (odoP {} []).cadState ≠ 2 ∧ (odoP {} []).odo.hourAt + 3600 * 1000000000000 ≤ ((odoP {} []).elapse 0).now
    ∧ (odoP { writing := some 0, part := some 0x40000, sector := some 63 } []).odo.next = some 0
    ∧ bits 0x7F#64 7 0 < 0x80 ∧ 0x80 ≤ bits 0x80#64 7 0 ∧ (odoP {} []).live = true
    ∧ regAt 0x3FFFFFF8 = none ∧ (regAt (coreBase 255 + 8)).map (fun x => (x.1, x.2.1)) = some (.core 255, 8) ∧ (odoP {} []).proxied (.core 255) 8 = false
    ∧ hasWindow (.core 255) 8 = false ∧ (regAt (mgtBase + 0x218)).isSome = true ∧ portBuf 0x218 = false
    ∧ (odoP {} []).tapOn = true ∧ (odoP {} []).jtagOpen = false ∧ (odoP {} [(dbgstat, 2#64)]).jtagOpen = true
    ∧ (let v := (drsLo + scBase) * 2 ^ 6 + 3 * 4
       v / 2 ^ 6 % 2 ^ 58 = drsLo + scBase ∧ v % 4 = 0 ∧ v / 4 % 4 = 3 ∧ region (drsLo + scBase) = 3 ∧ drsErr scBase 8 false = none ∧ scBase < shmBase) := by
  decide +kernel

/-- The command op of a mailbox with LEN and ARG waits at the head of the queue. -/
def mbxP (port : Bool) (op len arg : Nat) (j : Jtag) (b : Boot) : Pkg :=
  { regP [(mbxBase port, BitVec.ofNat 64 (op + len * 256)), (mbxBase port + 8, BitVec.ofNat 64 arg), (mbxBase port + 0x10, 1#64)] with
    mgt := { q := [port] }, jtag := j, boot := b, odo := { part := some 0x40000 } }

theorem test_mailbox :
    (let q := (after (.getInfo 0) (on (mbxP true 1 0 0 {} {}))).pkg
     q.rb (mbxBase true + 0x10) 1 = true ∧ q.rf (mbxBase true + 0x10) 15 8 = 0 ∧ q.rf (mbxBase true + 0x10) 28 16 = 40)
    ∧ (after (.provision 0) (on (Pkg.bufPut (mbxP true 8 48 0 {} {}) (mbxData true) [5#8]))).nv.keyHash = some (5#8 :: List.replicate 47 0#8)
    ∧ (after (.mbxGo true 0xD#64) (on {})).pkg.rf (mbxBase true + 0x10) 15 8 = 1 := by
  decide +kernel

/-- A debugger's key and its signature of the nonce 1, 0, … over this part (16 R426), made for this test. -/
def dbgKey : List Byte :=
  natBe 48 0x2fc5baeccb7b2fe8232e0af1658438a7a41af1535a157dd401375a654c7b55b2c24370697953e9d2eec3dea56a559a3f
  ++ natBe 48 0x4d553079907a6ce666ae86c99de93b5f1e12b876e9095d1290003c5e4f907613ef7be8f01ab17cccce57bc3dc6538762
def dbgSig : List Byte :=
  let z := natBe 48 0x25045c70109218981579531b1bf672d1eee0e7bd9afd8f24cd99b270d79ad1cf29d6398b212cb631b829d37bd3dc90d3
  z ++ z
def dbgNonce : List Byte := 1#8 :: List.replicate 31 0#8
def dbgMsg : List Byte := dbgNonce ++ natLe 8 (regReset scBase).toNat ++ natLe 8 0 ++ natLe 8 0
def dbgDigest : List Byte := dbgSig.take 48

theorem test_debug_digest : sha384 dbgMsg = dbgDigest := by decide +kernel
theorem test_debug_signature : ecdsaOk dbgKey dbgSig dbgDigest = true := by decide +kernel

/-- The command DBG_RESPONSE with key and signature in the port's buffer, the key's hash in the image. -/
def dbgP : Pkg :=
  Pkg.bufPut (mbxP true 0xA 192 0 { nonce := some dbgNonce } { bci := List.replicate 0x158 0#8 ++ sha384 dbgKey }) (mbxData true) (dbgKey ++ dbgSig)

theorem dbgP_boot : dbgP.boot.bci = List.replicate 0x158 0#8 ++ sha384 dbgKey := by
  have h : ∀ (l : List Byte) (p : Pkg) (o : Nat), (p.bufPut o l).boot = p.boot := by
    intro l
    induction l with
    | nil => intro p o; rfl
    | cons b t ih => intro p o; exact (ih _ _).trans rfl
  unfold dbgP
  rw [h]
  rfl

theorem witness_DebugResponse : dbgP.debugOk dbgNonce (some (dbgP.bufGet (mbxData true) 192)) = true ∧ dbgP.jtag.nonce = some dbgNonce ∧ dbgP.dbgFails < 3 := by
  have d : dbgP.bufGet (mbxData true) 192 = dbgKey ++ dbgSig := by decide +kernel
  have r0 : dbgP.rd scBase = regReset scBase := by decide +kernel
  have r1 : dbgP.rd (scBase + 0x10) = 0#64 := by decide +kernel
  have r2 : dbgP.rd (scBase + 0x18) = 0#64 := by decide +kernel
  have k : (dbgKey ++ dbgSig).take 96 = dbgKey := by decide +kernel
  have z : (dbgKey ++ dbgSig).drop 96 = dbgSig := by decide +kernel
  have n : (dbgKey ++ dbgSig).length = 192 := by decide +kernel
  have m : dbgNonce ++ natLe 8 (dbgP.rd scBase).toNat ++ natLe 8 (dbgP.rd (scBase + 0x10)).toNat ++ natLe 8 (dbgP.rd (scBase + 0x18)).toNat = dbgMsg := by
    rw [r0, r1, r2]; rfl
  have b : (dbgP.boot.bci.drop 0x158).take 48 = sha384 dbgKey := by
    rw [dbgP_boot, List.drop_left' (List.length_replicate ..), List.take_of_length_le (sha384_length _)]
  refine ⟨?_, by decide +kernel, by decide +kernel⟩
  unfold Pkg.debugOk
  dsimp only
  have ne : (dbgP.boot.bci != []) = true := by
    rw [dbgP_boot]
    exact bne_iff_ne.2 (fun h => absurd (congrArg List.length h) (by rw [List.length_append, List.length_replicate, List.length_nil]; omega))
  rw [d, n, k, z, m, b, test_debug_digest, test_debug_signature, ne, beq_self_eq_true, Bool.and_true, Bool.and_true, Bool.true_and]
  exact beq_self_eq_true (sha384 dbgKey)

theorem witness_MailboxCommandsAnswer :
    (mbxP true 1 0 0 {} {}).live = true ∧ (mbxP true 1 0 0 {} {}).scLive = true ∧ (mbxP true 1 0 0 {} {}).rb (mbxBase true + 0x10) 0 = true
    ∧ (regP []).rb (mbxBase false + 0x10) 0 = false ∧ (regP []).mgt.q = [] ∧ mbxRefusal false 1 = none
    ∧ ([1, 2, 3, 4, 5, 6, 7, 8, 9, 0xA, 0xB, 0xC].all (fun op =>
      let p := mbxP true op 8 0x5A {} {}
      p.mgt.q == [true] && p.mgt.fwdAt == none && p.mbxOp true == op && mbxRefusal true op == none && p.mbxLen true == 8 && p.mbxArg true == 0x5A)) = true
    ∧ region (drsLo + scBase) = 3 ∧ drsErr (drsLo + scBase - drsLo) 8 false = none ∧ portWrites (drsLo + scBase - drsLo) = false
    ∧ portWrites (drsLo + (mcBase 0 + 8) - drsLo) = true ∧ drsErr (drsLo + (mcBase 0 + 8) - drsLo) 8 true = none ∧ mgtBuf (drsLo + (mcBase 0 + 8) - drsLo) = false
    ∧ (mbxP true 5 0 0 {} {}).odo.part.isSome = true ∧ (mbxP true 5 0 0 {} {}).rb odoBase 3 = false ∧ (mbxP true 5 0 0 {} {}).odo.writing = none
    ∧ State.reset.nv.size ≥ 4096 ∧ (mbxP true 7 4096 0 {} {}).flashKept 0 = false ∧ (mbxP true 7 4096 0 {} {}).mbxLen true = 4096
    ∧ (mbxP true 9 0 0 {} {}).dbgFails = 0 ∧ (mbxP true 0xA 192 0 { nonce := some [] } {}).debugOk [] (some []) = false
    ∧ (2 ^ 15 - 1 : Nat) < 2 ^ 15
    ∧ (({ regP [] with mgt := { resetAt := some 0 } }).elapse 999999999).now < 0 + 1000000000 := by
  decide +kernel

def fwdP (l : List (Nat × Word)) (m : Mgt) : Pkg := { mbxP true 0x80 8 0 {} {} with mgt := m } |> fun p => l.foldl (fun p x => p.wr x.1 x.2) p

theorem test_forwarding :
    (after (.forwardedCommand 0) (on (fwdP [] { q := [true] }))).pkg.rf (mbxBase true + 0x10) 15 8 = 6
    ∧ (after .rstdaa (on { mgt := { dyn := some 5#7 } })).pkg.mgt.dyn = none := by
  decide +kernel

theorem witness_ManagementBusAndForwardedCommands :
    (fwdP [] { q := [true] }).live = true ∧ (fwdP [] { dyn := some 0x7F#7 }).mgt.dyn ≠ none ∧ (fwdP [] {}).mgt.dyn = none
    ∧ (fwdP [(mgtBase + 0x210, 1#64), (mgtBase + 0x218, 1#64)] { dyn := some 5#7, ibi := true, ibiAt := some 0 }).alerting = true
    ∧ 0 + 10000000000 ≤ ((fwdP [] {}).elapse 10000000000).now ∧ ((fwdP [] {}).elapse 9999999999).now < 0 + 10000000000
    ∧ 0x80 ≤ (fwdP [] { q := [true] }).mbxOp true ∧ (fwdP [(mgtBase + 0x20018, 0x80000000#64)] { q := [true] }).rb (mgtBase + 0x20018) 31 = true
    ∧ (fwdP [] {}).tdmState < 6 ∧ (fwdP [] { q := [true] }).rb (mgtBase + 0x20018) 31 = false
    ∧ (0x80100000#64 : Word).getLsbD 31 = true ∧ bits 0x80100000#64 20 8 ≤ 4096 ∧ (fwdP [(mgtBase + 0x20000, 0x80000000#64)] { q := [true] }).rb (mgtBase + 0x20000) 31 = true
    ∧ (fwdP [(mgtBase + 0x318, 1#64)] { q := [true], fwdAt := some 0 }).rf (mgtBase + 0x318) 15 0 = 1 := by
  decide +kernel

/-! ### Power points, Shimmy, the TAP, links and routing -/

def pwrP (w : Pwr) (m : Shm) (j : Jtag) (l : List (Nat × Word)) : Pkg := { regP l with pwr := w, shm := m, jtag := j }
def telemOf (t : Int) : Telem := ⟨List.replicate 128 t, 40, 40, List.replicate 13 (700, 10), []⟩
def courseP (p w : Nat) : Pkg := pwrP { courses := [(31, { point := p, want := w })] } {} {} []

theorem test_dvfs_and_thermtrip :
    ((after (.dvfsStep 0 31 true) (on (courseP 3 5))).pkg.course 31).point = 4
    ∧ ((pwrP { hot := 1 } {} {} []).thermtrip true).pins.thermtripN = false := by
  decide +kernel

def act1 (due : Nat) : ShmAct := { slot := 2, kind := 1, what := 77, due := due }

theorem witness_PowerPointsShimmyAndTheTapComplete :
    (pwrP {} {} {} []).scLive = true ∧ (pwrP {} {} {} []).tdmState = 0 ∧ (pwrP {} {} {} []).live = true
    ∧ ((List.range 32).map (telemTj (telemOf 114))).foldl max (-128) = 114 ∧ ((List.range 32).map (telemTj (telemOf 115))).foldl max (-128) = 115
    ∧ max (115 : Int) (max (telemOf 115).foot0 (telemOf 115).foot1) = 115 ∧ (pwrP { hot := 1 } {} {} []).pwr.hot ≠ 0
    ∧ ((courseP 3 3).course 31).want = ((courseP 3 3).course 31).point ∧ ((courseP 7 0).course 31).want < ((courseP 7 0).course 31).point
    ∧ ((courseP 0 7).course 31).point < ((courseP 0 7).course 31).want
    ∧ (pwrP {} {} {} []).shmOpen = false ∧ (pwrP {} {} {} [(dbgstat, 4#64)]).shmOpen = true ∧ (pwrP {} {} {} []).rd (shmBase + 0x10) = 0#64
    ∧ (pwrP {} {} {} [(shmBase + 0x10, 1#64)]).rd (shmBase + 0x10) ≠ 0#64 ∧ (pwrP {} {} {} [(shmSlot 15 0, 1#64)]).rb (shmSlot 15 0) 0 = true
    ∧ (pwrP {} {} {} [(shmStat, 1#64)]).rb shmStat 0 = true ∧ (pwrP {} {} {} [(shmStat, 1#64)]).shm.on = false
    ∧ ((pwrP {} {} {} [(shmStat, 1#64)]).rd (shmBase + 0x10)).toNat ≤ (((pwrP {} {} {} [(shmStat, 1#64)]).elapse 0).rdtime).toNat
    ∧ (pwrP {} { acts := [act1 5] } {} []).shm.acts[0]? = some (act1 5) ∧ (act1 5).kind = 1 ∧ (act1 5).cmd = none
    ∧ ((pwrP {} { acts := [act1 5] } {} []).shm.acts.take 0).any (fun b => b.kind == (act1 5).kind && b.what == (act1 5).what) = false
    ∧ 5 ≤ ((pwrP {} {} {} []).elapse 5).now ∧ ((pwrP {} {} {} []).elapse 4).now < 5
    ∧ (pwrP {} {} {} []).tapOn = true ∧ (pwrP {} {} {} []).jtagOpen = false ∧ (pwrP {} {} {} [(dbgstat, 2#64)]).jtagOpen = true ∧ (pwrP {} {} {} []).pins.vaux = true
    ∧ 6 ≤ (6#3 : BitVec 3).toNat ∧ (5#3 : BitVec 3).toNat < 6 ∧ 3 ≤ (pwrP {} {} {} [(dbgstat, 0x18#64)]).dbgFails ∧ (pwrP {} {} {} []).dbgFails < 3
    ∧ (pwrP {} {} { nonce := some [7#8] } []).jtag.nonce = some [7#8] ∧ (pwrP {} {} { check := some ([7#8], none) } []).jtag.check = some ([7#8], none)
    ∧ (pwrP {} {} {} []).debugOk [7#8] none = false := by
  decide +kernel

/-- Link 3 of a running package in state st. -/
def lkP (st : Nat) (l : Link) (r : List (Nat × Word)) : Pkg := { Pkg.wf (regP r) (lkBase 3) 3 0 st with links := [(3, l)] }
def lkRl (role stby : Nat) : Nat × Word := (lkBase 3, BitVec.ofNat 64 (16 * role + 256 * stby))
/-- Flit times of a link whose lanes are in order, their CRC computed outside (the reflected polynomial 0xEDB88320 over bytes 0 to 251):
SWITCH; IDLE with ACK 0; NAK; DATA 4,095 and 1 with one slot, a packet to device 0. -/
def wSwitch : LaneBits := [5#256, 0#256, 0xFF#256, 0xF#256, 0xBE00000000000000000000000000000000000000000000000000000000000000#256, 0x4000000000000000000000000000000000000000000000000000000000000000#256, 0xE800000000000000000000000000000000000000000000000000000000000000#256, 0xE700000000000000000000000000000000000000000000000000000000000000#256]
def wAck : LaneBits := [0#256, 0#256, 0#256, 0x10#256, 0xB200000000000000000000000000000000000000000000000000000000000000#256, 0x8800000000000000000000000000000000000000000000000000000000000000#256, 0x4100000000000000000000000000000000000000000000000000000000000000#256, 0xB500000000000000000000000000000000000000000000000000000000000000#256]
def wNak : LaneBits := [2#256, 0#256, 0xFF#256, 0xF#256, 0x9700000000000000000000000000000000000000000000000000000000000000#256, 0xA900000000000000000000000000000000000000000000000000000000000000#256, 0x500000000000000000000000000000000000000000000000000000000000000#256, 0xEC00000000000000000000000000000000000000000000000000000000000000#256]
def wData : LaneBits := [0xF1#256, 0x400FF#256, 0xFF#256, 0x2F#256, 0x6900000000000000000000000000000000000000000000000000000000000000#256, 0x94000000000000000000000000000000000000000000000000000000000000E0#256, 0x8A000000000000000000000000000000000000000000000000000000000000FF#256, 0x3400000000000000000000000000000000000000000000000000000000000007#256]
def wData1 : LaneBits := [0x11#256, 0x40000#256, 0xFF#256, 0x2F#256, 0x1700000000000000000000000000000000000000000000000000000000000000#256, 0x22000000000000000000000000000000000000000000000000000000000000E0#256, 0xC4000000000000000000000000000000000000000000000000000000000000FF#256, 0xEB00000000000000000000000000000000000000000000000000000000000007#256]

/-- CRC-32 with its state evaluated after every byte, and that it is the same. -/
def crcN : List Byte → Nat → Nat
  | [], c => c
  | b :: l, c => match (crc32Byte (BitVec.ofNat 32 c) b).toNat with | 0 => crcN l 0 | n + 1 => crcN l (n + 1)
theorem crcN_eq (l : List Byte) : ∀ c : BitVec 32, crcN l c.toNat = (l.foldl crc32Byte c).toNat := by
  induction l with
  | nil => intro c; rfl
  | cons b l ih =>
    intro c
    rw [List.foldl_cons, ← ih, crcN, BitVec.ofNat_toNat, BitVec.setWidth_eq]
    split <;> rename_i h <;> rw [h]
theorem flitOk_of (f : BitVec 2048) (k : Nat) (h : crcN (flitBytes 252 f.toNat) (2 ^ 32 - 1) = k) (e : flitF f 2047 2016 = Nat.xor k (2 ^ 32 - 1)) : flitOk f = true := by
  have x := crcN_eq (flitBytes 252 f.toNat) (BitVec.allOnes 32)
  rw [BitVec.toNat_allOnes, h] at x
  rw [flitOk, crc32, BitVec.toNat_xor, BitVec.toNat_allOnes, ← x, e]
  exact beq_self_eq_true _
/-- Their CRCs pass. -/
theorem test_flit_crc : ∀ w ∈ [wSwitch, wAck, wNak, wData, wData1], flitOk (({} : Link).flit w) = true := by
  intro w h
  simp only [List.mem_cons, List.not_mem_nil, or_false] at h
  rcases h with rfl | rfl | rfl | rfl | rfl
  · exact flitOk_of _ 404209473 (by decide +kernel) (by decide +kernel)
  · exact flitOk_of _ 1253996365 (by decide +kernel) (by decide +kernel)
  · exact flitOk_of _ 335173224 (by decide +kernel) (by decide +kernel)
  · exact flitOk_of _ 3413470102 (by decide +kernel) (by decide +kernel)
  · exact flitOk_of _ 339467752 (by decide +kernel) (by decide +kernel)

def fl (n : Nat) (k : Nat) : LFlit := ⟨n, [0#128], true, k⟩
def map9 : LaneMap := ⟨[0, 1, 2, 3, 4, 5, 6, 7, 8], 0#9⟩

theorem test_flit_layout :
    let f := flitData (({} : Link).flit wData)
    f.hdr.ack = none ∧ f.seq = 4095#12 ∧ f.sop = 1#15 ∧ f.fill = 0x7FFE#15 ∧ f.slots.head? = some 0x40000000000#128
    ∧ (flitHdr (({} : Link).flit wAck)).ack = some 0#12 := by
  decide +kernel

theorem test_link_trains :
    (after (.linkTrainingStep 3 true map9 ⟨0#15, 0#4⟩) (on (lkP 2 {} []))).pkg.lkState 3 = 3
    ∧ (after (.linkEnable 3) (on (lkP 8 {} [lkRl 9 0]))).pkg.lkState 3 = 1 ∧ (after (.linkDrain 3) (on (lkP 7 {} []))).pkg.rb (lkCtl 3) 2 = true := by
  decide +kernel

theorem witness_LinksTrainGoDownAndTakeOver :
    (lkP 8 {} []).live = true ∧ (lkP 8 {} [lkRl 9 0]).lkState 3 = 8 ∧ (lkP 8 {} [lkRl 9 0]).roleLive ((lkP 8 {} [lkRl 9 0]).lkTrains 3) = true
    ∧ (lkP 0 {} []).roleLive ((lkP 0 {} []).lkTrains 3) = false ∧ (lkP 5 {} []).lkState 3 = 5 ∧ (lkP 7 {} []).lkState 3 = 7
    ∧ (lkP 1 {} []).lkState 3 = 1 ∧ ((lkP 1 {} []).link 3).retryAt = none ∧ (lkP 3 {} []).lkState 3 = 3
    ∧ (lkP 4 {} [lkRl 9 0]).lkState 3 = 4 ∧ (lkP 4 {} [lkRl 9 0]).expect ((lkP 4 {} [lkRl 9 0]).lkTrains 3) = (1, 9) ∧ (lkP 4 {} [lkRl 9 0]).lkRole 3 ≠ 0
    ∧ (List.range 12).all (fun j => !(lkP 4 {} [lkRl 9 0]).lkAct j) = true
    ∧ ((lkP 1 { retryAt := some 9 } []).link 3).retryAt = some 9 ∧ (lkP 1 {} []).now + 8 < 9 ∧ 9 ≤ (lkP 1 {} []).now + 9
    ∧ (List.range 12).all (fun j => (lkP 5 {} []).lkState j != 7) = true
    ∧ (let p := Pkg.wf (lkP 5 {} [lkRl 9 0, (lkBase 4, 0x900#64)]) (lkBase 4) 3 0 7
       p.lkCarries 3 ≠ 0 ∧ p.lkState 4 = 7 ∧ p.lkStby 4 = p.lkCarries 3 ∧ (List.range 12).all (fun k => k == 3 || k == 4 || p.lkState k != 7) = true)
    ∧ ((lkP 5 { drain := some (4, 0) } []).link 3).drain = some (4, 0) ∧ ((lkP 5 { replay := [fl 0 0] } []).link 3).replay ≠ []
    ∧ 0 + 2000000 ≤ (lkP 5 {} []).now + 2000000 ∧ (lkP 5 {} []).now + 1999999 < 0 + 2000000
    ∧ ((lkP 7 { take := some (2, 0) } []).link 3).take = some (2, 0) ∧ ((lkP 7 { take := some (2, 0) } []).link 3).vcq = []
    ∧ flitF (({} : Link).flit wSwitch) 3 0 = 5
    ∧ (lkP 7 {} []).now + 99999999 < 0 + 100000000 ∧ 0 + 100000000 ≤ (lkP 7 {} []).now + 100000000 := by
  decide +kernel

/-- A packet of one slot: to the device dst, CLASS, TYPE. -/
def pkt (dst cls typ : Nat) : FPkt := (regP []).mkPkt dst cls typ 0 false 0 []
/-- Two nodes in dimension 0, their role 1 on link 3; the packet p waits at an input: 3 (VC 0), or from Mortar at link stop 0. -/
def rtP (inp : Nat) (p : FPkt) (l : Link) (r : List (Nat × Word)) : Pkg :=
  { Pkg.wf (Pkg.wf (regP r) fabBase 26 24 1) (lkBase 3) 3 0 5 with
    links := [(3, l)], fab := if inp < 12 then { inq := [(6 * inp, [p])] } else { inj := [(inp - 12, p)] } }
def rtE (e : Nat) : Nat × Word := (fabBase + 0x10000, BitVec.ofNat 64 (65536 * e))

theorem test_route :
    ((after (.fabricRoute ⟨12, 0⟩) (on (rtP 12 (pkt 2 0 0) {} [rtE 0, lkRl 1 0]))).pkg.link 3).replay.length = 1
    ∧ (after (.fabricRoute ⟨12, 0⟩) (on (rtP 12 (pkt 2 0 0) {} [rtE 32, lkRl 1 0]))).pkg.rf (fabBase + 0x10) 15 0 = 1 := by
  decide +kernel

theorem witness_FlitsArePassedOnAcknowledgedAndRouted :
    (lkP 5 {} []).live = true ∧ (lkP 5 {} []).shm.on = false ∧ (lkP 5 {} []).shm.acts = [] ∧ (lkP 5 {} []).lkState 3 = 5 ∧ ((lkP 5 {} []).link 3).vcq = []
    ∧ (let f := flitData (({} : Link).flit wData1); f.hdr.ack = none ∧ f.seq.toNat ≠ ((lkP 5 {} []).link 3).rx)
    ∧ (let x := ({} : Link).flit wData
       let f := flitData x
       flitF x 3 0 = 1 ∧ f.seq.toNat = ((lkP 5 { rx := 4095 } []).link 3).rx ∧ pkLen (pkt 0 0 0) = 1 ∧ f.slots.take 1 = pkt 0 0 0
       ∧ (List.range 15).all (fun k => f.fill.getLsbD k == decide (1 ≤ k) && f.sop.getLsbD k == decide (k = 0)) = true)
    ∧ ((lkP 5 {} []).link 3).occ.all (fun n => decide (n + 1 ≤ 256)) = true
    ∧ (let x := ({} : Link).flit wAck
       flitF x 3 0 = 0 ∧ (flitHdr x).ack = some 0#12)
    ∧ ((lkP 5 { replay := [fl 4095 0, fl 0 1] } []).link 3).replay.findIdx? (fun x => x.seq == (0#12 : BitVec 12).toNat) = some 1
    ∧ flitF (({} : Link).flit wNak) 3 0 = 2
    ∧ ((lkP 5 { replay := [fl 4095 7] } []).link 3).replay.all (fun x => decide (x.tries < 8)) = true ∧ 0 + 1000000 ≤ (lkP 5 {} []).now + 1000000
    ∧ (lkP 5 {} []).now + 999999 < 0 + 1000000
    ∧ ((lkP 6 { repair := some 8 } []).link 3).repair = some 8 ∧ (lkP 6 {} []).lkState 3 = 6
    ∧ (rtP 12 (pkt 2 0 0) {} []).fab.inj = [(0, pkt 2 0 0)] ∧ 2 * pkClass (pkt 2 0 0) = 0 ∧ (rtP 12 (pkt 2 0 0) {} []).tdmState = 0
    ∧ Map.get (fun _ => []) (rtP 3 (pkt 2 0 0) {} []).fab.inq 18 = [pkt 2 0 0]
    ∧ pkClass (pkt 2 3 0) = 3 ∧ (rtP 12 (pkt 2 0 0) {} []).dimK 0 ≤ coord (pkDst (pkt 4 0 0)) 0 ∧ (rtP 12 (pkt 2 0 0) {} []).dimK 0 = 2
    ∧ pkClass (pkt 2 0 0) ≠ 3 ∧ pkLen (pkt 2 0 0) = 1 ∧ (List.range 4).all (fun d => decide (coord (pkDst (pkt 2 0 0)) d < (rtP 12 (pkt 2 0 0) {} []).dimK d)) = true
    ∧ (rtP 12 (pkt 2 0 0) {} []).rtGen (rtP 12 (pkt 2 0 0) {} []).rtActive = pkGen (pkt 2 0 0)
    ∧ pkDst (pkt 0 0 0) = (rtP 12 (pkt 0 0 0) {} []).selfId ∧ (rtP 12 (pkt 0 0 0) {} []).fabMode = 0 ∧ pkKnown (pkt 0 0 0) = true
    ∧ pkDst (pkt 2 0 0) / 2 ≠ (rtP 12 (pkt 2 0 0) {} []).selfId / 2 ∧ (rtP 12 (pkt 2 0 0) {} [rtE 32]).rtEntry 0 1 / 32 % 2 = 1
    ∧ (rtP 12 (pkt 2 0 0) {} [rtE 0]).rtEntry 0 1 / 32 % 2 = 0 ∧ (rtP 12 (pkt 2 0 0) {} [rtE 0]).rtEntry 0 1 / 16 % 2 = pk (pkt 2 0 0) 0 37 37
    ∧ (List.range 4).find? (fun d => coord (pkDst (pkt 2 0 0)) d != coord (rtP 12 (pkt 2 0 0) {} []).selfId d) = some 0
    ∧ (rtP 12 (pkt 2 0 0) {} []).roleLink 1 = none ∧ (rtP 12 (pkt 2 0 0) {} [lkRl 1 0]).roleLink 1 = some 3 ∧ (rtP 12 (pkt 2 0 0) {} [lkRl 1 0]).lkState 3 = 5
    ∧ ((rtP 12 (pkt 2 0 0) { replay := List.replicate 254 (fl 0 0) } []).link 3).replay.length + 2 ≤ 256 ∧ ((rtP 12 (pkt 2 0 0) {} []).link 3).drain = none
    ∧ (List.range 6).all (fun v => decide ((pkt 2 0 0).length ≤ ((rtP 12 (pkt 2 0 0) {} []).link 3).credit.getD v 0)) = true
    ∧ (rtP 0 [] {} [(fabBase + 8, 0#64)]).rtGen 0 = (rtP 0 [] {} [(fabBase + 8, 0#64)]).rtGen 1 ∧ (rtP 0 [] {} []).rtGen 0 ≠ (rtP 0 [] {} []).rtGen 1 := by
  decide +kernel

/-- The flits above pass their check, a flit of ones does not. -/
theorem witness_FlitHeaders :
    (∀ w ∈ [wSwitch, wAck, wNak, wData, wData1], (flitHdr (({} : Link).flit w)).ok = true) ∧ (flitHdr (({} : Link).flit (List.replicate 8 (BitVec.allOnes 256)))).ok = false := by
  refine ⟨?_, ?_⟩
  · intro w h
    rw [flitHdr]
    simp only [test_flit_crc w h, Bool.true_and, decide_eq_true_eq]
    revert h w
    decide +kernel
  · rw [flitHdr]
    simp only [Bool.and_eq_false_iff]
    exact .inr (by decide +kernel)

theorem flip_ne (x : BitVec 256) : x ^^^ 1#256 ≠ x := by
  intro h
  have e : (x ^^^ 1#256).getLsbD 0 = x.getLsbD 0 := by rw [h]
  rw [BitVec.getLsbD_xor] at e
  revert e
  cases x.getLsbD 0 <;> decide

/-- CHECK: a receiver whose lane 7 has one bit wrong, whatever the seeds are. -/
theorem witness_CheckFlit :
    let p := lkP 5 {} [(lkBase 3 + 0x18, 1#64)]
    let w : LaneBits := [checkLane 0, checkLane 1, checkLane 2, checkLane 3, checkLane 4, checkLane 5, checkLane 6, checkLane 7 ^^^ 1#256]
    (∀ j, j < 8 → j ≠ 7 → ({} : Link).lane w j = checkLane j) ∧ ({} : Link).lane w 7 ≠ checkLane 7
    ∧ p.rf (lkBase 3 + 0x18) 7 0 ≠ 0 ∧ (p.link 3).repair = none ∧ p.rb (lkBase 3) 14 = false := by
  refine ⟨?_, ?_, by decide +kernel, by decide +kernel, by decide +kernel⟩
  · intro j h n
    match j, h with
    | 0, _ | 1, _ | 2, _ | 3, _ | 4, _ | 5, _ | 6, _ => exact BitVec.xor_zero
    | 7, _ => exact absurd rfl n
  · intro h
    exact flip_ne (checkLane 7) ((BitVec.xor_zero (x := checkLane 7 ^^^ 1#256)).symm.trans h)

/-! ### Streams, homes, members and the lead -/

def fabP (f : Fab) (r : List (Nat × Word)) : Pkg := { regP r with fab := f }
/-- FAB_MAP names device 2 a member. -/
def map2 : Nat × Word := (fabBase + 0x30000, 4#64)
/-- A store of thread 9 to global address 0x80 of device 2, and it as an outstanding request. -/
def req2 : GReq := { kind := .wr, pa := 2 ^ 57 + 2 * 2 ^ 42 + 0x80, n := 8, data := 5, op := 0, who := .store 9 }
def outS (again : Bool) (t : Nat) : FOut := ⟨0, 1, 0, 0, req2.body 0 0 0, .store 9, req2.pa, 8, some t, again⟩
def outM : FOut := ⟨7, 0, 2, 0, [], .msg 9, 0, 64, some 0, false⟩
def stream (st : SrcStream) : Fab := { src := [(2, st)] }
/-- A packet from device 2 of a CLASS and TYPE whose slot 1 is x. -/
def from2 (cls typ : Nat) (x : Nat) (more : FPkt) : FPkt := pkSet ((regP []).mkPkt 0 cls typ 0 false 0 (BitVec.ofNat 128 x :: more)) 29 15 2

theorem test_inject_and_answer :
    (let q := (after (.globalRequestInject 2#15) (on (fabP { gq := [req2] } [map2]))).pkg
     q.fab.gq = [] ∧ (q.srcS 2).out.length = 1 ∧ q.fab.inj.length = 1)
    ∧ (after .fabResponse (on (fabP { src := [(2, { next := 1, out := [outS false 0] })], ejq := [from2 1 0 (1 * 2 ^ 20) []] } []))).pkg.srcS 2
      = { next := 1, out := [], idle := some 0 } := by
  decide +kernel

theorem witness_StreamsSendAnswerAndGiveUp :
    ((fabP {} []).live = true ∧ (fabP {} []).tdmState = 0 ∧ (fabP {} []).shm.on = false ∧ (fabP {} []).homeLive = true ∧ (fabP {} []).rf (fabBase + 0x128) 2 0 ≠ 3
    ∧ req2.dst = (2#15 : BitVec 15).toNat ∧ req2.who = .store 9 ∧ ((fabP {} []).thr 9).ent = none ∧ (fabP {} []).inMap 2 = false ∧ (fabP {} [map2]).inMap 2 = true
    ∧ (fabP {} [map2]).streamRoom 2 req2 = true ∧ (fabP {} [map2, (mstat, 1#64)]).streamRoom 2 req2 = false
    ∧ (fabP { ejq := [from2 1 0 0 []] } []).ejected 1 0 = some (0, from2 1 0 0 []) ∧ pkSrc (from2 1 0 0 []) = 2
    ∧ pk (from2 1 0 (2 ^ 16) []) 1 19 16 ≠ ((fabP {} []).srcS 2).epoch ∧ pk (from2 1 0 (2 ^ 20) []) 1 19 16 = ((fabP {} []).srcS 2).epoch
    ∧ ((fabP (stream { out := [outS false 0] }) []).srcS 2).out = [outS false 0] ∧ (outS false 0).cls = 0 ∧ (outS false 0).typ = 1
    ∧ seqBelow (outS false 0).seq (pk (from2 1 0 (2 ^ 20) []) 1 35 20) = true ∧ pk (from2 1 0 (2 ^ 20) []) 1 38 36 < 2)
    ∧ (outM.cls = 2 ∧ outM.who = .msg 9 ∧ pk (from2 1 0 (7 + 5 * 2 ^ 36) []) 1 15 0 = outM.seq ∧ pk (from2 1 0 (7 + 5 * 2 ^ 36) []) 1 38 36 = 5
    ∧ 0 < ((fabP { home := [(2, { acks := 1 })] } []).homeS 2).acks ∧ ((fabP { home := [(2, { acks := 1 })] } []).homeS 2).epoch < 16
    ∧ ((fabP { home := [(2, { acks := 1 })] } []).homeS 2).ackAt + 1000000 ≤ ((fabP {} []).elapse 1000000).now ∧ 16 ≤ ((fabP { home := [(2, { acks := 16 })] } []).homeS 2).acks
    ∧ ((fabP { home := [(2, { acks := 15 })] } []).homeS 2).acks < 16 ∧ ((fabP {} []).elapse 999999).now < 0 + 1000000
    ∧ ((fabP (stream { idle := some 0 }) []).srcS 2).idle = some 0 ∧ ((fabP {} []).elapse 99999999).now < 0 + 100000000 ∧ 0 + 100000000 ≤ ((fabP {} []).elapse 100000000).now)
    ∧ ((outS false 0).t = some 0 ∧ ((fabP {} []).elapse (fabWait - 1)).now < 0 + fabWait ∧ 0 + fabWait ≤ ((fabP {} []).elapse fabWait).now
    ∧ (outS false 0).again = false ∧ (outS true 0).again = true ∧ (fabP {} []).isSelf 2 = false
    ∧ ((fabP (stream { busy := some (3, 0) }) []).srcS 2).busy = some (3, 0) ∧ ((fabP {} []).elapse 1999999).now < 0 + 2000000 ∧ 0 + 2000000 ≤ ((fabP {} []).elapse 2000000).now
    ∧ (fabP {} [(sendStat 2047, 1#64)]).rb (sendStat 2047) 0 = true ∧ (fabP {} []).rb (sendStat 2047) 0 = false ∧ (0x200000#64 : Word).getLsbD 21 = true
    ∧ bits 0x2A#64 5 1 ≠ (fabP {} []).rf (fabBase + 0x40000) 5 1) :=
  ⟨by decide +kernel, by decide +kernel, by decide +kernel⟩

/-- A package with 1 MiB of DRAM, all of it exported; ejected packets p. -/
def hmP (p : FPkt) (hs : HomeStream) : Pkg :=
  let s := fabP { ejq := [p], home := [(2, hs)] } [(fabBase + 0x100, 1#64), (fabBase + 0x108, 0x100000#64), (scBase + 0x218, 0x100000#64)]
  { s with boot := { capacity := 0x100000 } }
/-- Requests with SEQ q: a read, a write, a fetch-and-add and a flush of the doubleword at 0x80. -/
def rq (typ q x : Nat) : FPkt := from2 0 typ ((reqSlot q 0 0 true 0 0xFF 0 0x80 x 0).toNat) (if typ = 1 ∨ typ = 2 then [9#128] else [])
def roomOf (p : FPkt) (hs : HomeStream) : Bool :=
  let s := hmP p hs
  decide (((s.fab.home.filter (fun x => x.1 != 2)).map (fun x => x.2.jrn.length)).sum + (hs.jrn.filter (fun e => !seqBelow e.seq (pk p 1 35 20))).length < 2 ^ s.rf (fabBase + 0x110) 4 0)

theorem test_home_performs :
    (let q := (after .fabWr (on (hmP (rq 1 0 0) {}))).pkg
     q.homeRead 0x80 8 = (9, false) ∧ (q.homeS 2).exp = 1 ∧ (q.homeS 2).acks = 1)
    ∧ (after .fabFlush (on (hmP (rq 3 1 0) { exp := 1, acks := 1 }))).pkg.homeS 2 = { exp := 2 } := by
  decide +kernel

theorem witness_HomesPerformRequestsOnce :
    (hmP (rq 0 0 0) {}).live = true ∧ (hmP (rq 0 0 0) {}).tdmState = 0 ∧ (hmP (rq 0 0 0) {}).homeLive = true
    ∧ (hmP (rq 0 0 0) {}).rf (fabBase + 0x128) 2 0 ≠ 3 ∧ (hmP (rq 0 0 0) {}).tdm.track = false ∧ (hmP (rq 0 0 0) {}).dsym = []
    ∧ [0, 1, 2, 3, 4].all (fun t => decide ((hmP (rq t 0 0) {}).ejected 0 t = some (0, rq t 0 0))) = true
    ∧ (1 + 65536 - pk ((rq 0 0 0).drop 1) 0 15 0) % 65536 = 1 ∧ (4096 + 65536 - pk ((rq 0 0 0).drop 1) 0 15 0) % 65536 = 4096
    ∧ pk ((rq 0 0 0).drop 1) 0 19 16 = ((hmP (rq 0 0 0) {}).homeS 2).epoch ∧ (0 + 65536 - pk ((rq 0 1 0).drop 1) 0 15 0) % 65536 = 65535
    ∧ pk ((rq 0 1 0).drop 1) 0 19 16 ≠ (0 + 1) % 16
    ∧ roomOf (rq 0 0 0) {} = true ∧ (hmP (rq 0 0 0) {}).inWindow 0x80 8 = true ∧ (hmP (rq 0 0 0) {}).inWindow 0x100000 8 = false
    ∧ reqSpan ((rq 1 0 0).drop 1) = (0x80, 8, 0xFF) ∧ (hmP (rq 1 0 0) {}).winPa 0x80 = 0x80
    ∧ (hmP (rq 1 0 0) {}).mergeAny 2 = none ∧ (hmP (rq 1 0 0) {}).holders 2 = [] ∧ (hmP (rq 1 0 0) {}).findL3 2 = none ∧ isGlobal 2 = false
    ∧ atomSpan (pk ((rq 2 0 2).drop 1) 0 100 97) (pk ((rq 2 0 2).drop 1) 0 49 42) = (8, 0) ∧ ((hmP (rq 2 0 2) {}).homeRead 0x80 8).2 = false
    ∧ (hmP (from2 2 0 0 []) {}).ejected 2 0 = some (0, from2 2 0 0 []) ∧ roomOf (from2 2 0 0 []) {} = true
    ∧ pk (rq 4 0 0) 1 19 16 = ((hmP (rq 4 0 0) {}).homeS 2).epoch ∧ pk (rq 4 0 0) 1 19 16 ≠ ((hmP (rq 4 0 0) { epoch := 1 }).homeS 2).epoch := by
  decide +kernel

/-- Device 2 leads; the membership message x waits. -/
def memP (f : Fab) (r : List (Nat × Word)) : Pkg := fabP f ((fabBase + 0x120, 2#64) :: r)
/-- MID, and the fields that follow it, of a message of a TYPE. -/
def msg (typ mid fields : Nat) : FPkt := from2 2 typ (mid + fields * 2 ^ 32) []
theorem hears_of (p : Pkg) (x : FPkt) (typ : Nat)
    (h : (p.live && p.homeLive && decide (p.ejected 2 typ = some (0, x)) && (p.answerOf (pkSrc x) (pk x 1 31 0) == 0) && (decide (3 < typ) || pkSrc x == p.leadId)) = true) : p.Hears x typ := by
  simp only [Bool.and_eq_true, Bool.or_eq_true, decide_eq_true_eq, beq_iff_eq] at h
  obtain ⟨⟨⟨⟨a, b⟩, c⟩, d⟩, e⟩ := h
  exact ⟨a, b, c, d, fun l => e.resolve_left (by omega)⟩

theorem witness_Hears (typ : Fin 12) : (memP { ejq := [msg typ 7 1] } []).Hears (msg typ 7 1) typ :=
  hears_of _ _ _ (by revert typ; decide +kernel)

theorem test_flip_and_join :
    (after .memFlip (on (memP { ejq := [msg 2 7 1] } [(fabBase + 8, 0x10#64)]))).pkg.answerOf 2 7 = 5 + 16 * 2
    ∧ (after .fabJoinCmd (on (memP {} []))).pkg.mState = 1 := by
  decide +kernel

theorem witness_MembersAnswerTheirLead :
    (memP {} []).live = true
    ∧ (memP {} [(fabBase + 8, 0x10#64)]).rtGen (memP {} [(fabBase + 8, 0x10#64)]).rtActive = pk (msg 2 7 1) 1 35 32
    ∧ (memP {} [(fabBase + 8, 0x100#64)]).rtGen (memP {} [(fabBase + 8, 0x100#64)]).rtActive ≠ 1 ∧ (memP {} [(fabBase + 8, 0x100#64)]).rtGen 1 = 1
    ∧ (memP {} []).rtGen (memP {} []).rtActive ≠ 9 ∧ (memP {} []).rtGen (1 - (memP {} []).rtActive) ≠ 9
    ∧ pk (msg 3 7 (2 ^ 15 + 32767)) 1 47 47 = 1 ∧ pk (msg 3 7 (2 ^ 15 + 32767)) 1 46 32 = 32767
    ∧ (fabP { ejq := [msg 1 7 1] } []).homeLive = true ∧ (fabP { ejq := [msg 1 7 1] } []).ejected 2 1 = some (0, msg 1 7 1)
    ∧ pkSrc (msg 1 7 1) ≠ (fabP {} []).leadId ∧ (fabP {} []).isLead = false
    ∧ (memP {} [(mstat, 1#64)]).mState = 1 ∧ (memP {} [(mstat, 3#64)]).mState = 3 ∧ (memP {} [(mstat, 4#64)]).mState = 4 ∧ (memP {} [(mstat, 2#64)]).mState = 2
    ∧ (memP {} []).mState = 0 ∧ (memP { asked := some (5, 7, 0, 0) } []).fab.asked = some (5, 7, 0, 0) ∧ (memP {} []).fab.src.all (fun x => x.2.out.isEmpty) = true
    ∧ 0 + 100000000000 ≤ ((memP {} []).elapse 100000000000).now ∧ ((memP {} []).elapse 99999999999).now < 0 + 100000000000
    ∧ 0 + 1000000000000 ≤ ((memP {} []).elapse 1000000000000).now ∧ ((memP {} []).elapse 999999999999).now < 0 + 1000000000000 := by
  decide +kernel

/-- This package leads, as a MEMBER. -/
def leadP (f : Fab) : Pkg := fabP f [(fabBase + 0x120, 0x8000#64), (mstat, 2#64)]
def sent1 (t : Nat) : MSent := ⟨2, 1, 7, 0, [], t⟩
def run (p : Nat) : MRun := ⟨⟨some (2, true), some 5⟩, p, 1⟩

theorem test_lead_takes_join : (after .memJoin (on (leadP { ejq := [msg 5 7 0] }))).pkg.fab.todo = [⟨some (2, true), some 7⟩] := by decide +kernel

theorem witness_LeadHears (typ : Fin 12) (h : 3 < typ.val) : (leadP { ejq := [msg typ 7 1] }).Hears (msg typ 7 1) typ :=
  hears_of _ _ _ (by revert h; revert typ; decide +kernel)

theorem witness_LeadsCarryChangesThrough :
    (leadP {}).live = true ∧ (leadP {}).isLead = true ∧ (leadP {}).mState = 2 ∧ (leadP {}).fab.todo = [] ∧ (leadP {}).fab.run = none ∧ (leadP {}).fab.probes = []
    ∧ (leadP {}).isSelf (pk (msg 9 7 1) 1 46 32) = false ∧ pk (msg 11 7 0) 1 31 0 = 7 ∧ pkSrc (msg 4 7 0) = (sent1 0).dst ∧ pk (msg 4 7 0) 1 31 0 = (sent1 0).mid
    ∧ (leadP { run := some (run 3), sent := [sent1 0] }).fab.run = some (run 3) ∧ (run 2).chg.dev ≠ none ∧ (run 3).chg = ⟨some (2, true), some 5⟩
    ∧ ((leadP {}).elapse (leadWait - 1)).now < 0 + leadWait ∧ 0 + leadWait ≤ ((leadP {}).elapse leadWait).now
    ∧ (leadP { todo := [⟨none, none⟩], flipAt := some 0 }).fab.todo = [⟨none, none⟩]
    ∧ (sent1 0).dst < 2 ^ 15 ∧ (sent1 0).typ < 16 ∧ (sent1 0).more.length < 30 ∧ ((leadP {}).elapse 99999999).now < (sent1 0).t + 100000000
    ∧ (sent1 0).t + 100000000 ≤ ((leadP {}).elapse 100000000).now
    ∧ bits 0#64 14 0 = (leadP {}).leadId ∧ bits 2#64 14 0 ≠ (leadP {}).leadId ∧ (leadP {}).isSelf 2 = false ∧ (memP {} []).isSelf 0 = true ∧ 0 ≠ (memP {} []).leadId := by
  decide +kernel

/-! ### IOTUs, root complexes, compression complexes -/

def iotP (i : Iotu) (r : List (Nat × Word)) : Pkg := { regP r with iotus := [(3, i)] }
def ctx1 (src : Nat) (pas : Option Nat) (s1 ats : Bool) : IoCtx :=
  { src := src, pasid := pas, s1 := s1, s2 := false, hwad := false, ats := ats, vmid := 0, did := 0, root := 0, s2root := 0, supv := false }
def tlb1 (va pa : Nat) : TlbE :=
  { reg := .us, vmid := 0, asid := 0, glob := false, va := va, sz := 12, pa := pa, r := true, w := true, x := true, u := true, a := true, d := true
    ai := 0, level := 4, s1 := true, s2 := none }
def inv3 : Nat := iotuBase 3 + 0x38
/-- An Invalidate Request sent at 0. -/
def ats0 : AtsInv := ⟨0, 1, 0x123, none, 0⟩

theorem test_iotu_inv :
    (let q := (after (.iotuInvPasid 3 0x0000000501230001#64) (on (iotP { ctx := [ctx1 0x123 none false false, ctx1 0x123 (some 5) false false] } []))).pkg
     (q.iotu 3).ctx = [ctx1 0x123 (some 5) false false] ∧ q.rb inv3 0 = true) := by
  decide +kernel

theorem witness_InvalidationsRemoveWhatMatches :
    (iotP {} []).live = true ∧ (iotP {} [(inv3, 1#64)]).rb (iotuBase 3 + 0x38) 0 = true ∧ (iotP {} []).rb (iotuBase 3 + 0x38) 0 = false
    ∧ (iotP {} []).iotu 3 = {} ∧ (iotP { ats := some ats0 } []).iotu 3 = { ats := some ats0 }
    ∧ (let p := (iotP {} [(rcBase 3 + 0x18, 2#64)]).elapse 1999999999; p.now < 0 + p.rf (rcBase 3 + 0x18) 15 0 * 1000000000)
    ∧ (let p := (iotP {} [(rcBase 3 + 0x18, 2#64)]).elapse 2000000000; 0 + p.rf (rcBase 3 + 0x18) 15 0 * 1000000000 ≤ p.now)
    ∧ bits 4#64 4 0 = 4 ∧ bits 3#64 4 0 < 4 ∧ bits 0x1F#64 4 0 = 31 := by
  decide +kernel

/-- RC 3 with port 7 up and its link up, buses 3 to 64 below it, a window at 1 MiB; a request of thread 2047 waits. -/
def rpC : Cfn := .rp 3 7
def pciP (c : List (Cfn × Nat × BitVec 32)) (q : List DevReq) (r : List (Nat × Word)) : Pkg :=
  { c.foldl (fun s x => s.setCfg x.1 x.2.1 x.2.2) (regP ([(rcBase 3, 0x8000#64), (rpStat 3 7, 1#64)] ++ r)) with devq := q }
def below : List (Cfn × Nat × BitVec 32) := [(rpC, 0x18, 0x00400300#32), (rpC, 4, 0x100006#32), (rpC, 0x20, 0x00100010#32)]
def dreq (pa n : Nat) (wr sent : Bool) : DevReq := { h := 2047, pa := pa, n := n, data := 5, be := 15, wr := wr, wait := false, sent := sent, port := 31 }
def ecam (rid off : Nat) : Nat := 0xF000000000000 + 4096 * rid + off
def ecPend (q : DevReq) (r : List (Nat × Word)) : Bool :=
  (pciP below [q] r).devq.find? (fun d => d.h == 2047 && region d.pa == 2 && !d.sent) == some q
def aper : List (Nat × Word) := [(rcBase 3 + 8, 0x8000000000000#64), (rcBase 3 + 0x10, 0x8000000000000#64)]
def aper2 : List (Nat × Word) := [(rcBase 2 + 8, 0x8000000000000#64), (rcBase 2 + 0x10, 0x8000000000000#64)]
def pfBar : List (Cfn × Nat × BitVec 32) := [(.pf 1, 4, 0x100002#32), (.pf 1, 0x10, 0x100004#32)]

theorem test_ecam_and_mmio :
    (after (.ecamAccess 2047 .ur) (on (pciP below [dreq (ecam 31 0x18) 4 true false] []))).pkg.cfg rpC 0x18 = 5#32
    ∧ (after (.mmioAccess 2047) (on (pciP below [dreq (2 ^ 51 + 0x100000) 4 true false] aper))).pkg.reply = .tlp 31 false true 0x100000 4 5 15 false := by
  decide +kernel

theorem witness_ThreadsReachConfigurationSpace :
    (pciP below [] []).live = true ∧ (dreq (ecam 31 0) 4 true false).wait = false ∧ (pciP below [] []).bmeHeld = false
    ∧ [dreq (ecam 0x4000 0) 4 true true].find? (fun d => d.h == 2047 && region d.pa == 2 && d.sent) = some (dreq (ecam 0x4000 0) 4 true true)
    ∧ ecPend (dreq (ecam 0x10000 0) 4 false false) [] = true ∧ 2 ^ 28 ≤ ecam 0x10000 0 % 2 ^ 36
    ∧ ecPend (dreq (ecam 31 0xFFF) 1 false false) [] = true ∧ ecam 31 0xFFF % 2 ^ 36 < 2 ^ 28 ∧ cfnOf (ecam 31 0xFFF % 2 ^ 36 / 4096 % 65536) = some rpC
    ∧ (pciP below [] []).cfnLive rpC = true ∧ (pciP below [] [(rcBase 3, 0#64)]).cfnLive rpC = false ∧ (pciP below [] []).inFlr rpC = false
    ∧ cfnOf 0x4000 = none ∧ cfnOf 0x4100 = none ∧ (pciP below [] []).busPort (0x4000 / 256) = some 31 ∧ (pciP below [] []).busPort (0x4100 / 256) = none
    ∧ (pciP below [] []).linkOk 3 7 = true ∧ (pciP below [] [(rpStat 3 7, 0#64)]).linkOk 3 7 = false ∧ (pciP below [] []).bmeHeld = false
    ∧ (pciP below [] []).cfgB rpC 0x7C 4 = false ∧ (pciP ((rpC, 0x7C, 0x10010#32) :: below) [] []).cfgB rpC 0x7C 4 = true
    ∧ [dreq (ecam 0x4000 0) 4 false true].find? (fun d => d.h == 2047 && region d.pa == 2 && d.sent) = some (dreq (ecam 0x4000 0) 4 false true)
    ∧ ((pciP below [] []).elapse 999999999).now < 0 + 1000000000 ∧ 0 + 1000000000 ≤ ((pciP below [] []).elapse 1000000000).now
    ∧ 0 + 1000000000000 ≤ ((pciP below [] []).elapse 1000000000000).now ∧ ecam 0x4000 4 % 2 ^ 36 % 4096 ≠ 0
    ∧ ecam 31 0x18 % 2 ^ 36 % 4096 / 4 * 4 = 0x18 := by
  decide +kernel

theorem witness_ThreadsReachDevices :
    (pciP below [] []).live = true ∧ (dreq (2 ^ 51) 4 false false).wait = false
    ∧ [dreq (2 ^ 51) 4 false false].takeWhile (· != dreq (2 ^ 51) 4 false false) = []
    ∧ [dreq (2 ^ 51) 4 false false].find? (fun d => d.h == 2047 && region d.pa == 1 && !d.sent) = some (dreq (2 ^ 51) 4 false false)
    ∧ [dreq (2 ^ 51 + 0x100000) 4 true false].find? (fun d => d.h == 2047 && region d.pa == 1 && !d.sent) = some (dreq (2 ^ 51 + 0x100000) 4 true false)
    ∧ runOf 15 4 = some (0, 4) ∧ (pciP below [] []).mmTarget (2 ^ 51 + 0x100000) = none ∧ (pciP below [] aper).mmTarget (2 ^ 51 + 0x100000) = some (.port 3 7)
    ∧ (pciP pfBar [] aper2).mmTarget (2 ^ 51 + 0x10000C) = some (.pf 1 0 12) ∧ (pciP pfBar [] aper2).barRead (.pf 1 0 12) 4 = some 0
    ∧ ((pciP pfBar [] aper2).barPut (.pf 1 0 12) 4 5).isSome = true
    ∧ (pciP below [] []).mmOut 2047 = none ∧ (pciP below [dreq (2 ^ 51) 4 false true] []).mmOut 2047 = some (dreq (2 ^ 51) 4 false true)
    ∧ (let p := (pciP below [] []).elapse 49999999999; p.now < 0 + p.cplTimeout 3 7) ∧ (let p := (pciP below [] []).elapse 50000000000; 0 + p.cplTimeout 3 7 ≤ p.now) := by
  decide +kernel

/-- RC 3 with translation on and the context c of function 0x300 cached; DRAM of 1 MiB. -/
def inbP (c : IoCtx) (t : List TlbE) (ram : Nat) : Pkg :=
  { pciP below [] [(iotuBase 3, 1#64), (scBase + 0x218, BitVec.ofNat 64 ram)] with iotus := [(3, { ctx := [c], tlb := t.map (fun e => ((0x300, none), e)) })] }
def inbQ (a : Word) (op : PcieOp) : PcieReq := ⟨0x300#16, none, false, false, a, op⟩
def flat : IoCtx := ctx1 0x300 none false true
def walked : IoCtx := ctx1 0x300 none true true
def inbR (c : IoCtx) (t : List TlbE) (a : Word) (k : AccKind) (ats : Bool) : Pkg × Except IoFault IoRes :=
  (inbP c t 0x100000).ioRequest 3 { src := 0x300, addr := a, kind := k, ats := ats }
def goesTo (c : IoCtx) (t : List TlbE) (a : Word) (k : AccKind) (ats : Bool) (x : IoRes) : Bool :=
  decide ((inbR c t a k ats).1 = inbP c t 0x100000) && decide (okOf (inbR c t a k ats).2 = some x)
def flatR (a : Nat) (ai : Nat) : IoRes := { pa := a, ai := ai, gpa := a }

theorem test_inbound :
    (after (.inboundRequest 3 7 (inbQ 0x80#64 (.wr [1#8, 2#8, 3#8, 4#8] 6#4 0#4 false))) (on (inbP flat [] 0x100000))).pkg.homeRead 0x80 4 = (0x30200, false)
    ∧ (after (.inboundRequest 3 7 (inbQ 0x80#64 (.atom 0 4 7 0))) (on (inbP flat [] 0x100000))).pkg.reply = .cpl 0 4 0 := by
  decide +kernel

theorem witness_RootPortsTakeRequestsAndEvents :
    (inbP flat [] 0).live = true ∧ (inbP flat [] 0).portUp 3 7 = true ∧ (inbP flat [] 0).linkOk 3 7 = true ∧ (inbP flat [] 0).inboundHeld = false
    ∧ (inbP flat [] 0).portUp 3 0 = false ∧ (0xFFC#64 : Word).toNat % 4096 + inbLen (.rd 1) = 4096 ∧ 4096 < (0xFFC#64 : Word).toNat % 4096 + inbLen (.rd 2)
    ∧ (pciP [] [] []).bme rpC = false ∧ (inbP flat [] 0).bme rpC = true ∧ (inbP flat [] 0).inbGate 3 7 (inbQ 0#64 (.rd 1)) = none
    ∧ (pciP below [] []).inbGate 3 7 (inbQ 0#64 (.rd 1)) = none ∧ (pciP below [] []).rb (iotuBase 3) 0 = false
    ∧ goesTo flat [] 0xFC#64 .load false (flatR 0xFC 0) = true ∧ goesTo flat [] 0x80#64 .store false (flatR 0x80 0) = true ∧ goesTo flat [] 0x80#64 .atomic false (flatR 0x80 0) = true
    ∧ (inbP flat [] 0x100000).regionErr 0x80 0 = none ∧ (inbP flat [] 0x100000).regionErr 0xFC 0 = none ∧ region 0x80 = 0
    ∧ (inbP flat [] 0x100000).dmaWait 0xFC 8 false = false ∧ ((inbP flat [] 0x100000).readBytes 0xFC 8).2 = false
    ∧ (inbP flat [] 0x100000).dsym = [] ∧ (inbP flat [] 0x100000).tdmState = 0 ∧ (inbP flat [] 0x100000).tdm.track = false ∧ (inbP flat [] 0x100000).mergeAny 2 = none
    ∧ (inbP flat [] 0x100000).holders 2 = [] ∧ (inbP flat [] 0x100000).findL3 2 = none
    ∧ ticMsiAt (drsLo + ticBase 2047) = some 2047 ∧ goesTo flat [] (BitVec.ofNat 64 (drsLo + ticBase 2047)) .store false (flatR (drsLo + ticBase 2047) 2) = true
    ∧ (inbP flat [] 0x100000).regionErr (drsLo + ticBase 2047) 2 = none ∧ region (drsLo + ticBase 2047) = 3
    ∧ atomOk 2 16 0x80 = true ∧ (inbP flat [] 0x100000).dmaWait 0x80 16 true = false ∧ ((inbP flat [] 0x100000).homeRead 0x80 16).2 = false
    ∧ (match (inbR walked [] 0x4000000000000000#64 .load true).2 with | .error e => decide (e.kind = 0) | .ok _ => false) = true
    ∧ goesTo flat [] 0x80#64 .load true (flatR 0x80 0) = true
    ∧ goesTo walked [tlb1 0x5000 0x9000] 0x5080#64 .load true { pa := 0x9080, ai := 0, gpa := 0x9080, e := some (tlb1 0x5000 0x9000) } = true
    ∧ (let s := pciP ((rpC, 0x6C, 0x1F180506#32) :: below) [] [(rpStat 3 7, 0#64)]
       let s : Pkg := { s with pcie := { s.pcie with perst := [31] } }
       s.portUp 3 7 = true ∧ s.perstN 3 7 = true ∧ s.rb (rpStat 3 7) 13 = false ∧ s.rb (rpStat 3 7) 0 = false ∧ s.cfgB rpC 0x70 4 = false ∧ (6 : Nat) ≤ s.cfgF rpC 0x6C 3 0 ∧ 16 ≤ s.cfgF rpC 0x6C 9 4)
    ∧ (pciP below [] []).rb (rpStat 3 7) 0 = true ∧ (pciP below [] []).cfgF rpC 0x164 17 16 = 0 ∧ (pciP below [] []).cfgB rpC 0x130 0 = false
    ∧ (pciP [(rpC, 0x130, 1#32)] [] []).cfgB rpC 0x130 0 = true ∧ (pciP below [] []).cfgB rpC 0x130 2 = false
    ∧ (pciP below [] []).cfgB rpC 0x114 13 = true ∧ (pciP below [] []).cfgB rpC 0x108 22 = true := by
  decide +kernel

/-- Complex 1 with VF 256 enabled on queues 960 to 1023; its queue 1023 has eight entries and its ring at 0. -/
def vfI : Nat := cxInst 1 256
def vfQ : Nat := cxQ 1 1023
def cxP (jobs : List CxJob) (q0 q2 : Word) (en : Bool) (r : List (Nat × Word)) : Pkg :=
  let s := pciP [(.vf 1 256, 4, 0x100004#32), (.pf 1, 0x158, 1#32), (.pf 1, 0x160, 256#32)] []
    ([(vfI, BitVec.ofNat 64 ((if en then 1 else 0) + 960 * 2 ^ 16 + 64 * 2 ^ 32 + 2 ^ 48)), (vfI + 8, 64#64), (vfQ, q0), (vfQ + 0x10, q2), (scBase + 0x218, 0x100000#64),
      (iotuBase 5, 1#64)] ++ r)
  { s with cxs := [(1, { jobs := jobs })], iotus := [(5, { ctx := [ctx1 256 none false false] })] }
/-- A job of that queue: its first words. -/
def job (d0 src dst len : Word) (pipe : Option Nat) : CxJob :=
  { q := 1023, inst := 256, j := 63, gen := 0, d := [d0, src, dst, len, 0#64, 0#64, 0#64, 0#64], pipe := pipe, started := pipe.isSome }

/-- What an access of a complex came to: how much, a failure with status 5 and no fault record, or a remote request. -/
def got0 (g : CxGot) : Option Nat := match g with | .bytes l => some l.length | .wrote n => some n | _ => none
def bad5 (g : Option CxGot) : Bool := match g with | some (.fail e) => e.status == 5 && e.f.isNone | _ => false
def asks (g : CxGot) : Bool := match g with | .ask _ => true | _ => false
/-- An address of device 2, a member. -/
def farA : Word := BitVec.ofNat 64 (2 ^ 57 + 2 * 2 ^ 42)

theorem test_doorbell_and_fetch :
    (after (.cxDoorbell 1 256 63 7#64) (on (cxP [] 0x7#64 0#64 true []))).pkg.rf (vfQ + 0x10) 31 16 = 7
    ∧ (after (.cxDoorbell 1 256 63 8#64) (on (cxP [] 0x7#64 0#64 true []))).pkg.rb (vfQ + 0x18) 1 = true
    ∧ ((after (.descriptorFetch 1 1023) (on (cxP [] 0x7#64 0x00010000#64 true []))).pkg.cx 1).jobs = [job 0#64 0#64 0#64 0#64 none] := by
  decide +kernel

theorem witness_RingsAreFetchedAndDispatched :
    (cxP [] 7#64 0#64 true []).live = true ∧ (cxP [] 7#64 0#64 true []).instBase 1 256 + 63 = 1023 ∧ (63 : Nat) < (cxP [] 7#64 0#64 true []).instCount 1 256
    ∧ (cxP [] 7#64 0#64 true []).fabMode ≠ 2 ∧ (cxP [] 7#64 0#64 true []).instEn 1 256 = true ∧ (cxP [] 7#64 0#64 true []).ownsQ 1 256 1023 = true
    ∧ (cxP [] 7#64 0#64 true []).resetting 1 256 = false ∧ (cxP [] 7#64 0#64 true []).rb (cxQ 1 1023) 0 = true ∧ 2 ^ (cxP [] 7#64 0#64 true []).rf (cxQ 1 1023) 4 1 = 8
    ∧ (0 + 8 - 0) % 8 ≤ (7 + 8 - 0) % 8 ∧ (cxP [] 6#64 0#64 true []).rb (cxQ 1 1023) 0 = false ∧ (cxP [] 7#64 0#64 true []).cxOwner 1 1023 = some 256
    ∧ (cxP [] 6#64 0#64 false []).cxOwner 1 1023 = none ∧ (cxP [] 6#64 0#64 false []).instEn 1 256 = false ∧ (0 : Nat) ≠ 256
    ∧ (cxP [] 7#64 0x10000#64 true []).rf (cxQ 1 1023 + 0x10) 15 0 ≠ (cxP [] 7#64 0x10000#64 true []).rf (cxQ 1 1023 + 0x10) 31 16
    ∧ (cxP [] 7#64 0#64 true []).cxMaster 1 256 = true ∧ (cxP [] 7#64 0#64 true []).rf (vfI + 8) 30 16 < (cxP [] 7#64 0#64 true []).instCred 1 256
    ∧ got0 ((cxP [] 7#64 0x10000#64 true []).cxGet 1 256 0 0#64 64).2 = some 64 ∧ bad5 (some ((cxP [] 7#64 0x10000#64 true []).cxGet 1 256 0 0x7FFFFFFFFFFC0#64 64).2) = true
    ∧ asks ((cxP [] 7#64 0x10000#64 true []).cxGet 1 256 0 farA 64).2 = true ∧ ((cxP [] 7#64 0#64 true []).cx 1).fetches = []
    ∧ (cxP [job 0#64 0#64 0#64 0#64 none] 7#64 0#64 true []).cxPick 1 0 256 = none
    ∧ (cxP [job 1#64 0#64 0#64 0#64 none] 7#64 0#64 true []).cxPick 1 0 256 = some 0 ∧ (cxP [job 2#64 0#64 0#64 0#64 none] 7#64 0#64 true []).cxPick 1 1 256 = some 0
    ∧ (job 1#64 0#64 0#64 0#64 (some 3)).pipe = some 3 ∧ (job 0#64 0#64 0#64 0#64 none).bad = false ∧ (job 0#64 0#64 0#64 0#64 none).op = 0
    ∧ mayStart [job 0#64 0#64 0#64 0#64 none] 0 = true ∧ (job 4#64 0#64 0#64 0#64 none).bad = true := by
  decide +kernel

theorem test_compress_and_check :
    (after (.compress 1 3 none) (on (cxP [job 0x1#64 0x100#64 0x200#64 0x4000000004#64 (some 3)] 7#64 0#64 true []))).pkg.cxOn 1 3 1 = none
    ∧ ((((after (.checksum 1 3) (on (cxP [job 0x803#64 0x100#64 0#64 4#64 (some 7)] 7#64 0#64 true []))).pkg.cx 1).jobs.getD 0 (job 0#64 0#64 0#64 0#64 none)).res)
      = some { status := 0, consumed := 4, check := 0x00040001 } := by
  decide +kernel

/-- Job j of the pipeline pipe: what it pulls is src, its whole source. -/
def pulls (j : CxJob) (l : List Byte) : Bool :=
  let s := cxP [j] 7#64 0#64 true []
  let x := s.cxPull 1 256 0 (fun _ => true) (j.srcLen + 1) (j.d.getD 1 0#64) j.srcLen []
  decide ((x.1.cx 1).jobs = [j]) && decide (x.2.1 = l) && x.2.2.isNone
def jC (dst len : Word) : CxJob := job 1#64 0x100#64 dst len (some 3)
def outC : List Byte := frameHead 0 0 ++ (deflate 0 false (List.replicate 4 0#8) none).1 ++ frameTail 0 (crc32 (List.replicate 4 0#8)) 4

theorem witness_PipelinesCompressDecompressAndCheck :
    (cxP [] 7#64 0#64 true []).live = true ∧ (cxP [] 7#64 0#64 true []).cxOn 1 3 1 = none ∧ (cxP [jC 0#64 4#64] 7#64 0#64 true []).cxOn 1 3 1 = some (0, jC 0#64 4#64)
    ∧ (cxP [] 7#64 0#64 true []).cxMaster 1 256 = true ∧ (cxP [] 7#64 0#64 true []).cxMaster 1 255 = false
    ∧ pulls (jC 0x200#64 0x4000000004#64) (List.replicate 4 0#8) = true ∧ outC.length ≤ (jC 0x200#64 0x4000000004#64).dstLen ∧ (jC 0x200#64 4#64).dstLen < outC.length
    ∧ (jC 0x200#64 4#64).frame = 0 ∧ (jC 0x200#64 4#64).level = 0 ∧ (jC 0x200#64 4#64).adler = false
    ∧ ((cxP [] 7#64 0#64 true []).cxPush 1 256 0 0x200#64 outC (outC.length + 1) 0).2.2 = none
    ∧ bad5 ((cxP [] 7#64 0#64 true []).cxPush 1 256 0 0x7FFFFFFFFFFC0#64 outC (outC.length + 1) 0).2.2 = true
    ∧ (jC 0#64 4#64).out = none ∧ (jC 0#64 4#64).ask = none ∧ (jC 0#64 4#64).got = []
    ∧ (cxP [] 7#64 0#64 true []).boot.compat = false
    ∧ (let j := job 2#64 0x100#64 0x200#64 0x4000000004#64 (some 7)
       let s := cxP [j] 7#64 0#64 true []
       let x := s.cxPull 1 256 0 (fun l => (unframe 0 false l 64).more) 5 0x100#64 4 []
       s.cxOn 1 7 2 = some (0, j) ∧ x.2.2 = none ∧ (x.1.cxPush 1 256 0 0x200#64 ((unframe 0 false x.2.1 64).out.take 64) ((unframe 0 false x.2.1 64).out.length + 1) 0).2.2 = none ∧ (x.1.cx 1).jobs = [j])
    ∧ (let j := job 3#64 0x100#64 0#64 4#64 (some 7); (cxP [j] 7#64 0#64 true []).cxOn 1 7 3 = some (0, j) ∧ pulls j (List.replicate 4 0#8) = true)
    ∧ bad5 ((cxP [] 7#64 0#64 true []).cxPull 1 256 0 (fun _ => true) 5 0x7FFFFFFFFFFC0#64 4 []).2.2 = true
    ∧ (job 4#64 0#64 0#64 0#64 none).bad = true ∧ (job 1#64 0#64 0#64 0#64 none).res = none ∧ (job 1#64 0#64 0#64 0#64 none).irq = false
    ∧ (job 1#64 0#64 0#64 0#64 none).cr = false ∧ (job 0x1001#64 0#64 0#64 0#64 none).cr = true
    ∧ got0 ((cxP [] 7#64 0#64 true []).cxPut 1 256 0 0#64 (leBytes 32 1)).2 = some 32 := by
  decide +kernel

theorem test_instance_and_flr :
    (let q := (after (.cxInstanceEnable 1 256) (on (cxP [] 6#64 0#64 false []))).pkg; q.instEn 1 256 = true)
    ∧ (let q := (after (.flr 1 256) (on (cxP [job 1#64 0#64 0#64 0#64 none] 7#64 0#64 true []))).pkg
       q.resetting 1 256 = true ∧ q.instGen 1 256 = 1 ∧ (q.cx 1).jobs = [] ∧ q.inFlr (.vf 1 256) = true) := by
  decide +kernel

theorem witness_InstancesAndFunctionsResetAndEnd :
    (cxP [] 6#64 0#64 false []).live = true ∧ (cxP [] 6#64 0#64 false []).numVfs 1 ≤ 256 ∧ (cxP [] 6#64 0#64 false []).instEn 1 256 = false
    ∧ (let s := cxP [] 6#64 0#64 false []
       s.instBase 1 256 + s.instCount 1 256 = 1024 ∧ s.instCount 1 256 ≤ 64 ∧ s.rf vfI 55 48 ≠ 0 ∧ s.cfnLive (.vf 1 256) = true ∧ s.rb vfI 1 = false ∧ s.instCred 1 256 ≤ 16384
       ∧ (List.range 257).all (fun m => !(s.instEn 1 m || s.resetting 1 m)) = true)
    ∧ (cxP [] 6#64 0#64 false [(vfI, 0x4003FF0000#64)]).instCount 1 256 = 64 ∧ 1024 < (cxP [] 6#64 0#64 false [(vfI, 0x4003FF0000#64)]).instBase 1 256 + 64
    ∧ (cxP [] 7#64 0#64 true []).instEn 1 256 = true ∧ (cxP [] 7#64 0#64 true []).resetting 1 256 = false ∧ (cxP [] 7#64 0#64 true [(vfI + 0x10, 0x10000#64)]).resetting 1 256 = true
    ∧ (cxP [] 7#64 0#64 true []).cfnLive (.vf 1 256) = true ∧ (pciP [] [] []).cfnLive (.vf 1 256) = false
    ∧ (cxP [] 7#64 0#64 true []).cfgB (.vf 1 256) 4 2 = true ∧ (cxP [] 7#64 0#64 true []).cfgB (.vf 1 255) 4 2 = false
    ∧ (cxP [] 7#64 0#64 true []).inFlr (.vf 1 256) = false ∧ ({ cxP [] 7#64 0#64 true [] with pcie := { flr := [((Cfn.vf 1 256).rid, 0)] } } : Pkg).inFlr (.vf 1 256) = true
    ∧ (cxP [] 7#64 0#64 true []).vfOn 1 = true ∧ (pciP [] [] []).vfOn 1 = false := by
  decide +kernel

/-! ### Tandem -/

/-- TDM_STAT.STATE is st; CROSS link 5 is ACTIVE. -/
def tdP (st : Nat) (t : Tdm) (r : List (Nat × Word)) : Pkg := { Pkg.wf (Pkg.wf (regP r) tdmBase 3 0 st) (lkBase 5) 3 0 5 with tdm := t }
/-- Thread 9 has the open chunk k. -/
def chP (k : Chunk) (t : Tdm) : Pkg := { tdP 5 t [] with threads := [(9, { st := .run, chunk := some k })] }
/-- No counter of the thread counts retired instructions. -/
def unc (p : Pkg) (h : Nat) : Bool := (List.range 8).all (fun i => !((p.thr h).rs (0x508 + i)).getLsbD 13 && !(Map.get w0 (p.core (h / 8)).csr (0x528 + i)).getLsbD 13)
theorem unc_of (p : Pkg) (h : Nat) (e : unc p h = true) : p.Uncounted h := by
  simp only [unc, List.all_eq_true, List.mem_range, Bool.and_eq_true, Bool.not_eq_true'] at e
  exact ⟨fun i hi => (e i hi).1, fun i hi => (e i hi).2⟩
def heldM (osn : Nat) : Held := ⟨osn, 3, none, .mgt 0 8 0, 5#64, false⟩
def heldD (osn : Nat) (d : DevReq) : Held := ⟨osn, 1, some 9, .dev d, 5#64, false⟩
def chunk1 (steps cause : Nat) : ChunkRec := ⟨7, 9, steps, cause, 40, 0, 0, 6, 0, 100, []⟩

def inb1 (kind addr nbytes atop : Nat) (data : List Byte) : InbRec := ⟨7, 6, kind, nbytes, addr, atop, 0, false, 0, 255, 0#128, 0, data⟩

theorem test_chunk_and_progress :
    (let q := (after (.chunkTimeLimit 9 0) (on { chP { steps := 3 } { gsn := 6 } with cad := { t := 2 ^ 60 } })).pkg
     q.tdm.gsn = 7 ∧ q.tdm.log.length = 1)
    ∧ (after (.progress 9) (on (tdP 5 { gsn := 6 } []))).pkg.tdm.progress = 6
    ∧ (after (.logChunk (LogRec.dws (.chunk (chunk1 0 12)))) (on (tdP 8 {} []))).pkg.tdm.inlog = [.chunk (chunk1 0 12)] := by
  decide +kernel

theorem test_log_records :
    logRec (LogRec.dws (.chunk { chunk1 3 12 with value := List.replicate 16 0xA5#8 })) = some (.chunk { chunk1 3 12 with value := List.replicate 16 0xA5#8 })
    ∧ logRec (LogRec.dws (.inb ⟨7, 6, 1, 15, 0x80, 2, 3, true, 9, 255, 1#128, 77, List.replicate 16 1#8⟩))
      = some (.inb ⟨7, 6, 1, 15, 0x80, 2, 3, true, 9, 255, 1#128, 77, List.replicate 16 1#8⟩)
    ∧ logRec (LogRec.dws (.released 9)) = some (.released 9) ∧ logRec [0x204#64, 0#64] = none := by
  decide +kernel

theorem witness_TheLogIsSentAndReceived :
    logRec (LogRec.dws (.chunk (chunk1 0 12))) = some (.chunk (chunk1 0 12)) ∧ logRec (LogRec.dws (.inb (inb1 7 9 0 0 []))) = some (.inb (inb1 7 9 0 0 []))
    ∧ logRec (LogRec.dws (.outmap ⟨7, 9, 2, false, 2, 1, 3⟩)) = some (.outmap ⟨7, 9, 2, false, 2, 1, 3⟩) ∧ logRec [] = none
    ∧ ((chP {} {}).thr 9).await = none ∧ unc (chP {} {}) 9 = true ∧ ({ due := true } : Chunk).due = true ∧
    (tdP 5 {} []).live = true ∧ (tdP 5 {} []).paired = true ∧ (tdP 3 {} []).paired = false ∧ ((chP {} {}).thr 9).chunk = some {} ∧ ((tdP 5 {} []).thr 9).chunk = none
    ∧ ({ wsig := [5] } : Chunk).conflicts 5 false = true ∧ ({ rsig := [5] } : Chunk).conflicts 5 true = true ∧ ({} : Chunk).conflicts 5 true = false
    ∧ (let p : Pkg := ({ chP { steps := 1 } {} with cad := { t := 2 ^ 60 } } : Pkg).elapse 0; 0 + 1000 * p.rf tdmCfg 23 16 ≤ p.cadNs)
    ∧ (let p := (chP { steps := 1 } {}).elapse 0; p.cadNs < 0 + 1000 * p.rf tdmCfg 23 16)
    ∧ (tdP 5 {} []).replaying = false ∧ (tdP 8 {} []).replaying = true ∧ (8 : Nat) < (heldM 9).osn ∧ (heldM 9).osn ≤ 9 ∧ (heldM 9).cls ≠ 1 ∧ (heldD 9 (dreq 0 4 false false)).cls = 1
    ∧ (tdP 3 {} []).logging = false ∧ (tdP 5 {} []).logging = true ∧ [heldM 8, heldM 9].find? (fun x => x.osn == 9) = some (heldM 9) ∧ (heldM 9).digest = 5#64 ∧ (heldM 9).digest ≠ 6#64
    ∧ [heldM 8].find? (fun x => x.osn == 9) = none ∧ [(9, 5#64)].find? (fun x : Nat × Word => x.1 == 9) = some (9, 5#64)
    ∧ (tdP 5 {} []).lagging = false := by
  decide +kernel

/-- A stoker at which records up to 6 are done, the record r has come, and thread 9 runs at pc 0 with an ADD there. -/
def rpP (r : LogRec) (t : Thread) : Pkg :=
  { tdP 8 { doneTo := 6, inlog := [r] } [(scBase + 0x218, 0x100000#64)] with
    threads := [(9, { t with st := .run })], mem := [(0, 0x91#8), (1, 0x62#8), (2, 0x0E#8)] }

theorem test_replay :
    (let q := (after (.chunkReplay 9) (on (rpP (.chunk (chunk1 1 12)) { g := [(6, 2#64), (7, 3#64)] }))).pkg
     (q.thr 9).rg 5 = 5#64 ∧ (q.thr 9).pc = 4#64 ∧ q.tdm.doneTo = 7 ∧ q.tdm.inlog = [])
    ∧ (after (.inbReplay 7) (on (rpP (.inb (inb1 1 0x80 7 2 [5#8])) {}))).pkg.homeRead 0x80 8 = (5, false)
    ∧ (after (.chunkReplay 9) (on (rpP (.chunk (chunk1 2 12)) {}))).pkg.tdm.report = true := by
  decide +kernel

theorem witness_DigestsAgreeOrNot (t : Thread) : t.digest.toNat = leNat (natLe 8 t.digest.toNat) ∧ t.digest.toNat ≠ leNat (List.replicate 9 255#8) := by
  have h := t.digest.isLt
  have e : leNat (List.replicate 9 255#8) = 2 ^ 72 - 1 := by decide
  refine ⟨?_, by omega⟩
  simp only [natLe, List.range, List.range.loop, List.map, leNat, BitVec.toNat_ofNat]
  omega

theorem witness_RecordsAreReplayedInOrder :
    (rpP (.chunk (chunk1 0 12)) {}).live = true ∧ (tdP 8 {} []).tdm.inlog = []
    ∧ (rpP (.chunk (chunk1 0 12)) {}).tdm.inlog.findSome? (fun r => match r with | .chunk c => if c.htid.val = (9 : Htid).val then some c else none | _ => none) = some (chunk1 0 12)
    ∧ (tdP 8 { doneTo := 5 } []).replayable 6 = false ∧ (rpP (.chunk (chunk1 0 12)) {}).replaying = true ∧ (rpP (.chunk (chunk1 0 12)) {}).tdm.report = false
    ∧ (rpP (.chunk (chunk1 0 12)) {}).trackers = [] ∧ (chunk1 0 12).pred = (rpP (.chunk (chunk1 0 12)) {}).tdm.doneTo ∧ (chunk1 0 12).gsn = (rpP (.chunk (chunk1 0 12)) {}).tdm.doneTo + 1
    ∧ ((rpP (.chunk (chunk1 0 12)) {}).thr 9).st = .run ∧ ((rpP (.chunk (chunk1 0 12)) {}).thr 9).sb = []
    ∧ (let s := rpP (.chunk (chunk1 1 12)) {}
       let x := ({ s with tdm := { s.tdm with gsn := 6, steps := 0 } } : Pkg).replayTry 9 none
       x.2 = .step ∧ x.1.tdm.steps = 1)
    ∧ (let s : Pkg := { rpP (.chunk (chunk1 1 12)) {} with mem := (leBytes 4 (Ins.encode (.sys 0xB#12 5#5 0#5)).toNat).zipIdx.map (fun b => (b.2, b.1)) }
       (({ s with tdm := { s.tdm with gsn := 6, steps := 0 } } : Pkg).replayTry 9 none).2 = .stuck)
    ∧ (rpP (.inb (inb1 7 0x280009 0 0 [])) {}).tdm.inlog.findSome? (fun r => match r with | .inb c => if c.gsn = 7 then some c else none | _ => none) = some (inb1 7 0x280009 0 0 [])
    ∧ (inb1 7 0x280009 0 0 []).addr / 2 ^ 16 % 256 = 40 ∧ (inb1 1 0x80 7 2 [5#8]).atop = 2
    ∧ (let s := rpP (.inb (inb1 1 0x80 7 2 [5#8])) {}; ({ s with tdm := { s.tdm with gsn := 6 } } : Pkg).homeRead 0x80 8 = (0, false)) := by
  decide +kernel

/-- A hello that agrees with this package, whose ID is 1 and role 2; one whose geometry does not. -/
def hello (captain : Bool) (role : Nat) : TduHello := ⟨1#15, role, 0#64, (regP []).rd scBase, (regP []).hello.geom, captain⟩
def helloBad (captain : Bool) : TduHello := { hello captain 2 with geom := [] }
/-- Waiting for the handshake in boot phase 5, in role m. -/
def bootT (m id : Nat) : Pkg := Pkg.wf (Pkg.wf (Pkg.wf (tdP 1 {} []) bootstat 3 0 5) fabBase 17 16 m) fabBase 14 0 id
def dark (st : Nat) : Pkg := Pkg.wf (regP []) tdmBase 3 0 st

theorem test_handshake :
    (let q := (after (.tandemHandshake (hello false 2)) (on (bootT 1 0))).pkg; q.tdmState = 3 ∧ q.tdm.partnerWait = true)
    ∧ (after (.tdmFsInAssert true) (on (tdP 8 {} []))).pkg.tdmState = 9 ∧ (after (.partnerSilenceTimeout 0) (on (dark 7))).pkg.tdmState = 6 := by
  decide +kernel

theorem witness_PartnersMeetAreLostAndReplaced :
    (dark 3).live = true ∧ (dark 3).crossDown = true ∧ (tdP 3 {} []).crossDown = false ∧ (tdP 3 {} []).tdmState = 3 ∧ (tdP 3 {} []).tdm.auto = false
    ∧ (bootT 1 0).tdmState = 1 ∧ (bootT 1 0).phase = 5 ∧ (bootT 1 0).crossDown = false ∧ (bootT 1 0).fabMode = 1 ∧ (bootT 2 0).fabMode = 2
    ∧ (hello false 2).id.toNat = Nat.xor (bootT 1 0).selfId 1 ∧ (hello false 2).check = BitVec.ofNat 64 (leNat (((bootT 1 0).boot.bci.drop 0x48).take 8))
    ∧ (hello false 2).part = (bootT 1 0).rd scBase ∧ (hello false 2).geom = (bootT 1 0).hello.geom ∧ (helloBad true).geom ≠ (bootT 1 0).hello.geom
    ∧ (hello false 1).role ≠ (bootT 2 0).fabMode ∧ (hello false 2).role ≠ (bootT 1 0).fabMode ∧ (hello false 1).role = (bootT 1 0).fabMode
    ∧ (bootT 1 0).selfId % 2 = 0 ∧ (bootT 1 1).selfId % 2 = 1
    ∧ (bootT 1 0).boot.t0 + 1000000000000 ≤ ((bootT 1 0).elapse 1000000000000).now ∧ ((bootT 1 0).elapse 999999999999).now < (bootT 1 0).boot.t0 + 1000000000000
    ∧ (dark 8).tdmState = 8 ∧ (dark 8).crossDown = true ∧ (dark 8).stoker = true ∧ (dark 3).stoker = false
    ∧ (dark 9).tdmState = 9 ∧ (dark 9).tdm.live = false ∧ (dark 9).tdm.inlog = [] ∧ (dark 9).pins.partner = false
    ∧ (tdP 9 { live := true, hold := [heldM 1] } []).tdm.live = true ∧ 1 < (heldM 1).cls := by
  decide +kernel

/-- A captain alone whose partner waits, with memory initialised; the parts of PairImg. -/
def alone (t : Tdm) : Pkg :=
  let s := tdP 3 t [(tdmBase + 0x28, 1#64), (scBase + 0x218, 0x100001#64)]
  { s with pins := { s.pins with fsIn := false } }
def img0 : ThrImg := ⟨9, 1, 0, List.replicate 32 7#64, [], [], 0x100#64, [], none, false, none, 0#64, 0#64⟩
def pair0 (l : List ThrImg) : PairImg := ⟨[], l, [], [], [], [], []⟩

theorem test_cutover_and_rejoin :
    (let q := (after (.cutoverComplete 0 (pair0 [img0])) (on (tdP 7 {} []))).pkg
     q.tdmState = 8 ∧ (q.thr 9).rg 31 = 7#64 ∧ (q.thr 9).rg 0 = 0#64 ∧ (q.thr 9).st = .run)
    ∧ (after (.rejoin false) (on { tdP 3 {} [] with l2 := [] })).pkg.rb (tdmBase + 0x10) 4 = true
    ∧ (after (.cutoverComplete 0 (pair0 [])) (on { tdP 4 { pause := true, gsn := 9 } [] with threads := [(9, { st := .run })] })).pkg.tdmState = 5 := by
  decide +kernel

theorem witness_PairsRejoinSwapAndRepair :
    (alone { partnerWait := true }).live = true ∧ (alone { partnerWait := true }).tdmState = 3 ∧ (alone { partnerWait := true }).tdm.refused = false
    ∧ (chP {} {}).threads.all (fun x => unc (chP {} {}) x.1 && ((chP {} {}).thr x.1).await.isNone) = true ∧ (alone {}).pins.fsIn = false ∧ (alone {}).rb (tdmBase + 0x28) 0 = true ∧ (alone {}).rb (scBase + 0x218) 0 = true ∧ (alone {}).tdm.partnerWait = false
    ∧ (let s : Pkg := Pkg.wf (alone {}) tdmBase 3 0 6; s.tdmState = 6 ∧ s.pins.fsIn = false) ∧ (dark 6).pins.fsIn = true
    ∧ (dark 4).tdmState = 4 ∧ (dark 4).tdm.pause = false ∧ (tdP 4 { pause := true } []).tdm.pause = true ∧ (dark 7).tdmState = 7
    ∧ (let s := Pkg.wb (tdP 4 {} []) tdmBase 8 true
       s.rb tdmBase 8 = true ∧ s.tdm.dirty.length ≤ s.rf tdmCfg 63 48 ∧ ((s.elapse 0).rd (tdmBase + 0x18)).toNat ≤ ((s.elapse 0).rdtime).toNat)
    ∧ (tdP 4 { pause := true } []).drained = true ∧ ({ tdP 4 { pause := true } [] with devq := [dreq 0 4 false false] } : Pkg).drained = false
    ∧ (tdP 5 {} []).paired = true ∧ (tdP 3 {} []).paired = false ∧ (tdP 10 {} []).tdmState = 10
    ∧ (Pkg.wf (tdP 10 {} []) fabBase 17 16 1).fabMode = 1 ∧ (Pkg.wf (tdP 10 {} []) fabBase 17 16 2).fabMode ≠ 1 ∧ (tdP 10 {} []).tdm.gsn ≤ (tdP 10 {} []).tdm.progress
    ∧ (tdP 10 { gsn := 1 } []).tdm.progress < (tdP 10 { gsn := 1 } []).tdm.gsn ∧ (tdP 10 { inlog := [.chunk (chunk1 0 12)] } []).tdm.inlog ≠ []
    ∧ (Pkg.wb (tdP 3 {} []) tdmBase 9 true).rb tdmBase 9 = true ∧ (tdP 3 {} []).rb tdmBase 9 = false
    ∧ (Pkg.wb (tdP 3 {} []) tdmBase 10 true).rb tdmBase 10 = true ∧ (tdP 3 {} []).rb tdmBase 10 = false
    ∧ (tdP 3 {} []).fab.src.all (fun x => x.2.out.all (fun o => o.t.isSome)) = true ∧ (tdP 3 {} []).rf (fabBase + 0x128) 2 0 ≠ 3
    ∧ ({ outS false 0 with t := none } : FOut).t = none ∧ (outS false 0).who = .store 9
    ∧ (5#64 : Word).getLsbD 0 = true ∧ (4#64 : Word).getLsbD 0 = false ∧ (3#64 : Word).getLsbD 2 = false ∧ (2#64 : Word).getLsbD 0 = false
    ∧ (tdP 5 {} [(tdmBase + 0x30, 2#64)]).rb (tdmBase + 0x30) 1 = true ∧ (tdP 5 {} []).rb (tdmBase + 0x30) 1 = false ∧ (tdP 5 {} []).threads = [] := by
  decide +kernel

/-! ### Memory, core checks, system instructions, rules of the whole machine -/

theorem test_memory_reads_back :
    (({} : Pkg).memWrite 0x3E 4 0x04030201).memByte 0x40 = 3#8 ∧ (({} : Pkg).memWrite 0x3E 4 0).mem = []
    ∧ (({} : Pkg).dramPut 1 (5#512) true).dramLine 1 = (5#512, true) := by
  decide +kernel

theorem witness_MemoryReadsBackAndStaysCanonical :
    isGlobal (2 ^ 45) = false ∧ (({} : Pkg).mc (mcOf 7)).wq = [] ∧ Memory.wf (({} : Pkg).memWrite 0x3E 4 5).mem = true := by
  decide +kernel

theorem test_core_check :
    (let q := (after (.integerOp 2047 (some { unit := 3, shared := false })) (on {})).pkg
     q.boot.stop = some ⟨4, 0⟩ ∧ q.rf (coreBase 255 + 0xC00) 30 20 = 2047 ∧ q.rf (coreBase 255 + 0xC00) 15 8 = 6) := by
  decide +kernel

theorem witness_CoreChecksRecordAndStop :
    (on {}).pkg.live = true ∧ (on {}).pkg.coreP 255 = 0 ∧ (regP [(meshCpwr 0, 0x20#64)]).coreP 0 ≠ 0 ∧ (15 : Nat) ∉ [8, 9, 10]
    ∧ (({ l1i := [(l1iKey 0 7 0, { line := 7, st := .S })] } : Pkg).findL1i 0 7).isSome = true ∧ (on {}).pkg.findL1i 0 7 = none ∧ (on {}).pkg.findL1d 0 7 = none ∧ (on {}).pkg.boot.compat = false ∧ (on { boot := { compat := true } }).pkg.boot.compat = true
    ∧ (on {}).pkg.rb (coreBase 0 + 0xC00) 0 = false ∧ (regP [(coreBase 0 + 0xC00, 9#64)]).rf (coreBase 0 + 0xC00) 3 2 = 2 := by
  decide +kernel

theorem witness_SretReturnsOrRaises :
    (atIns (.sys 3#12 0#5 0#5) (lev 3 {})).pkg.Ready 0 (.sys 3#12 0#5 0#5) ∧ 1 ≤ (lev 3 {}).lvl
    ∧ ((({} : Thread).rs 0x304).getLsbD 7 = false) ∧ ((lev 1 (({} : Thread).ws 0x304 0x82#64)).rs 0x304).getLsbD 7 = true
    ∧ (lev 1 (({} : Thread).ws 0x304 0x82#64)).lvl < bits ((lev 1 (({} : Thread).ws 0x304 0x82#64)).rs 0x304) 1 0
    ∧ bits ((lev 1 (({} : Thread).ws 0x304 0x80#64)).rs 0x304) 1 0 ≤ (lev 1 (({} : Thread).ws 0x304 0x80#64)).lvl :=
  ⟨ready_at _ _ (by decide) (by decide), by decide, by decide, by decide, by decide, by decide⟩

theorem witness_PsIsReadByAllAndOnlyIeIsWritten :
    (atIns (.mfsr 31#5 0x100#12) (lev 0 {})).pkg.Ready 0 (.mfsr 31#5 0x100#12) ∧ (atIns (.mtsr 31#5 0x100#12) (lev 1 {})).pkg.Ready 0 (.mtsr 31#5 0x100#12)
    ∧ 1 ≤ (lev 1 {}).lvl ∧ (atIns (.mtsr 31#5 0x100#12) (lev 0 {})).pkg.Ready 0 (.mtsr 31#5 0x100#12) ∧ (lev 0 {}).lvl = 0 :=
  ⟨ready_at _ _ (by decide) (by decide), ready_at _ _ (by decide) (by decide), by decide, ready_at _ _ (by decide) (by decide), by decide⟩

theorem witness_IdPartReadsThePart :
    (atIns (.mfsr 31#5 0xF00#12) (lev 0 {})).pkg.Ready 0 (.mfsr 31#5 0xF00#12) ∧ (atIns (.mtsr 31#5 0xF00#12) (lev 3 {})).pkg.Ready 0 (.mtsr 31#5 0xF00#12) :=
  ⟨ready_at _ _ (by decide) (by decide), ready_at _ _ (by decide) (by decide)⟩

theorem witness_CompressNeverOverflows :
    (let j := jC 0x200#64 0x900000004#64
     (cxP [j] 7#64 0#64 true []).cxOn 1 3 1 = some (0, j) ∧ j.bad = false ∧ j.srcLen + 5 * max 1 ((j.srcLen + 32767) / 32768) + 0 = 9 ∧ j.dstLen = 9 ∧ j.frame = 0
     ∧ pulls j (List.replicate 4 0#8) = true) := by
  decide +kernel

theorem witness_AStoppedPackageIsStill : State.reset.pkg.live = false ∧ ofController .fabRd = false ∧ (stopP 4 []).live = false := by decide +kernel

theorem witness_EveryStepKeepsTheInvariant : State.reset.Inv ∧ ∃ t, step State.reset = .next t := by
  refine ⟨⟨by decide, ?_⟩, _, rfl⟩
  intro k h
  cases h

theorem test_step_takes_the_front : step { on {} with pending := [.memProbe, .fabRd] } = exec .memProbe { on {} with pending := [.fabRd] } := rfl

/-! ### Words, one at least of each format, written out from 03 -/

theorem test_words :
    insDecode 0x000E6291#32 = some (.op 0#5 5#5 6#5 7#5 0#5)
    ∧ insDecode 0xFFC00CA1#32 = some (.branch 1#3 3#5 0#5 0xFFC#12)
    ∧ insDecode (0x123#12 ++ 1#3 ++ 6#5 ++ 5#5 ++ 0x09#7) = some (.opi 1#3 5#5 6#5 0x123#12)
    ∧ insDecode (0x80000#20 ++ 31#5 ++ 0x0B#7) = some (.addpch 31#5 0x80000#20)
    ∧ insDecode (0xFF8#12 ++ 3#3 ++ 2#5 ++ 1#5 ++ 0x01#7) = some (.load 3#3 1#5 2#5 0xFF8#12) := by
  decide +kernel

/-! ### One ill-formed command for each check -/

theorem test_ill_formed :
    [Instr.permissionGrant 0 ⟨(2 ^ 52), 0, .none⟩, .mergeIdleRelease 0 (2 ^ 52) 0, .wcIdleFlush 0 (2 ^ 52) 0, .wrback 0 ⟨(2 ^ 52), .none⟩, .drop 0 ⟨(2 ^ 52), .none⟩,
      .integerOp 0 (some { unit := 16, shared := false }), .load 0 (some { unit := 3, shared := false, corr := true }), .fillArrival 0 0 ⟨0, (.dataCe 3)⟩,
      .rdshared 0 0 (.dataCe 3), .rdunique 0 0 (.dataCe 0), .upgrade 0 (2 ^ 52) .none, .snoop 0 0 (.dataCe 3), .uncachedHomeAccess ⟨0, 0, (.dataCe 3)⟩,
      .wayRetireComplete true 0 ⟨0, [(32768, .none)]⟩, .cacheCmdComplete false ⟨0, [(0, .dataCe 0)]⟩, .spareReady ⟨0, [(32768, .none)]⟩, .evacuationComplete ⟨0, [(32768, .none)]⟩,
      .meshFlitArrival 0 0 { dst := 0, port := 0, msg := .request, line := some (2 ^ 52) } .none, .meshFlitArrival 0 0 { dst := 0, port := 0, msg := .request, line := none } (.crc 9),
      .dramRead 0 (2 ^ 52), .dramWrite 0 (2 ^ 52), .dramReadReturn 0 0 [⟨0, 0#8⟩], .dramReadReturn 0 0 [⟨1, 1#8⟩, ⟨1, 2#8⟩], .trowelLineResult 0 [⟨0, 0#8⟩],
      .linkTrainingStep 0 true ⟨[0], 0#9⟩ ⟨0#15, 0#4⟩].all (fun c => !c.wf) = true
    ∧ [Instr.dataFlitReceive 0 [], .idleFlitReceive 0 [] false, .nakReceive 0 [], .checkFlitReceive 0 [], .switchFlitReceive 0 [] false, .tandemHandshake (hello false 0),
      .chunkConflictCommit 0 (2 ^ 52) true, .inbReplay (2 ^ 48), .digest (2 ^ 32) 0#64, .progress (2 ^ 48), .resilverPassEnd [⟨0, 0#64, []⟩], .cutoverComplete 0 (pair0 [img0]),
      .ecamAccess 0 (.ok (2 ^ 512)), .crsRetry 0 0 (.ok (2 ^ 512)), .pcieCompletion 0 (.ok (2 ^ 512)), .inboundRequest 0 0 (inbQ 2#64 (.rd 1)), .inboundRequest 0 0 (inbQ 0#64 (.rd 1025)),
      .inboundRequest 0 0 (inbQ 0#64 (.wr [0#8] 1#4 0#4 false)), .atsTranslationRequest 0 0 (inbQ 0#64 (.atom 3 8 0 0)), .bootMemtrain 0 [], .bootMemtrain 0 (List.replicate 16 ⟨true, 3, 1, 16, 4800, true⟩),
      .mgtReadTransfer 0 65537, .readReg 0 (.ok (2 ^ 512)), .writeReg 0 (.ok (2 ^ 512)), .telemetrySample 0 ⟨[], 0, 0, [], []⟩, .dbgAccess 0 (.ok (2 ^ 512)),
      .registerWrite (2 ^ 30) 0#64, .registerWrite 4 0#64].all (fun c => !c.wf) = true := by
  decide +kernel

end Sys2Proof.Tests
end

section
/-! ## Scope (00_scope)

What every command answers and keeps, the state after reset, the identification register. -/
namespace Sys2Proof.Machine

/-! ### Forms of a command's effect -/

/-- `f` changes the package at most: fuses, flash and waiting commands are as before. -/
def State.OnPkg (f : State → State) : Prop := ∀ s, ∃ q, f s = s.withPkg q

/-- A mailbox command is ignored, or taken by its meaning. -/
theorem State.mbx_cases (s : State) (op : Nat) (f : Bool → State → State) : s.mbx op f = s ∨ ∃ port, s.mbx op f = f port s := by
  unfold State.mbx
  split
  next port _ _ =>
    split
    · exact .inr ⟨port, rfl⟩
    · exact .inl rfl
  next => exact .inl rfl

theorem State.OnPkg.mbx {f : Bool → State → State} (op : Nat) (hf : ∀ port, State.OnPkg (f port)) : State.OnPkg (·.mbx op f) := by
  intro s
  obtain e | ⟨port, e⟩ := s.mbx_cases op f
  · exact ⟨s.pkg, e⟩
  · obtain ⟨q, e'⟩ := hf port s
    exact ⟨q, e.trans e'⟩

theorem State.OnPkg.runNv {f : State → State} (hf : State.OnPkg f) (s : State) (dt : Nat) : ∃ q, s.runNv dt f = .next (s.withPkg q) := by
  obtain ⟨q, e⟩ := hf { s with pkg := s.pkg.elapse dt }
  by_cases h : (s.pkg.elapse dt).scLive = true
  · exact ⟨q, by simp only [State.runNv, h, if_true, e]; rfl⟩
  · exact ⟨s.pkg.elapse dt, by simp only [State.runNv, h]; rfl⟩

/-! ### Commands that read the flash or the fuses and change the package alone -/

theorem bootAuth_onPkg (a b : Bool) : State.OnPkg (·.bootAuth a b) := by
  intro s
  dsimp only [State.bootAuth]
  split
  · exact ⟨_, rfl⟩
  · split
    · exact ⟨_, rfl⟩
    · split <;> exact ⟨_, rfl⟩

theorem bootMesh_onPkg (ok : Bool) : State.OnPkg (·.bootMesh ok) := by
  intro s
  dsimp only [State.bootMesh]
  split <;> exact ⟨_, rfl⟩

theorem bootFwload_onPkg (fail : Option Nat) : State.OnPkg (·.bootFwload fail) := by
  intro s
  dsimp only [State.bootFwload]
  split
  · exact ⟨_, rfl⟩
  · split
    · exact ⟨_, rfl⟩
    · split
      · exact ⟨_, rfl⟩
      · split <;> exact ⟨_, rfl⟩

theorem bootRelease_onPkg : State.OnPkg State.bootRelease := by
  intro s
  dsimp only [State.bootRelease]
  split <;> exact ⟨_, rfl⟩

theorem readOdo_onPkg (port : Bool) : State.OnPkg (State.readOdo port) := by
  intro s
  dsimp only [State.readOdo]
  split
  · split <;> exact ⟨_, rfl⟩
  · exact ⟨_, rfl⟩
  · exact ⟨_, rfl⟩

theorem flashRead_onPkg (ok port : Bool) : State.OnPkg (State.flashRead ok port) := by
  intro s
  dsimp only [State.flashRead]
  split
  · exact ⟨_, rfl⟩
  · split
    · exact ⟨_, rfl⟩
    · split <;> exact ⟨_, rfl⟩

theorem resetCmd_onPkg (port : Bool) : State.OnPkg (State.resetCmd port) := by
  intro s
  dsimp only [State.resetCmd]
  split <;> exact ⟨_, rfl⟩

theorem setLead_onPkg (port : Bool) : State.OnPkg (State.setLead port) := by
  intro s
  dsimp only [State.setLead]
  split <;> exact ⟨_, rfl⟩

theorem dbgChallenge_onPkg (port : Bool) : State.OnPkg (State.dbgChallenge port) := by
  intro s
  dsimp only [State.dbgChallenge]
  split <;> exact ⟨_, rfl⟩

theorem dbgResponse_onPkg (port : Bool) : State.OnPkg (State.dbgResponse port) := by
  intro s
  dsimp only [State.dbgResponse]
  split
  · exact ⟨_, rfl⟩
  · split
    · exact ⟨_, rfl⟩
    · split <;> exact ⟨_, rfl⟩

theorem regCmd_onPkg (wr : Bool) (a : Cpl) (port : Bool) : State.OnPkg (State.regCmd wr a port) := by
  intro s
  have fin (r : Pkg × ScEnd) : ∃ q, (match r.2 with
      | .ok v => State.mbxAns { s with pkg := r.1 } port 0 (if wr then [] else natLe (s.pkg.mbxLen port) v)
      | .err => s.mbxAns port 2 []
      | .retry => { s with pkg := r.1 }) = s.withPkg q := by
    cases r.2 <;> exact ⟨_, rfl⟩
  dsimp only [State.regCmd]
  split
  · exact ⟨_, rfl⟩
  · split
    · split
      · exact ⟨_, rfl⟩
      · exact fin _
    · split
      · exact ⟨_, rfl⟩
      · exact fin _
    · exact ⟨_, rfl⟩

/-- A command that is not of the flash answers a next state that differs in the package alone. -/
theorem exec_withPkg (c : Instr) (s : State) (h : ofFlash c = false) : ∃ q, exec c s = .next (s.withPkg q) := by
  cases c with
  | flashWrite | provision | odometerWriteComplete | odometerSecond => cases h
  | vauxPowerUp =>
    change ∃ q, Host.Outcome.next s.vauxUp = .next (s.withPkg q)
    unfold State.vauxUp
    split <;> exact ⟨_, rfl⟩
  | bootAuth dt a b => exact (bootAuth_onPkg a b).runNv s dt
  | bootMesh dt ok => exact (bootMesh_onPkg ok).runNv s dt
  | bootFwload dt fail => exact (bootFwload_onPkg fail).runNv s dt
  | bootRelease dt => exact bootRelease_onPkg.runNv s dt
  | getInfo dt => exact (State.OnPkg.mbx _ (fun _ _ => ⟨_, rfl⟩)).runNv s dt
  | readOdo dt => exact (State.OnPkg.mbx _ readOdo_onPkg).runNv s dt
  | odoSnap dt => exact (State.OnPkg.mbx _ (fun _ _ => ⟨_, rfl⟩)).runNv s dt
  | flashRead dt ok => exact (State.OnPkg.mbx _ (flashRead_onPkg ok)).runNv s dt
  | dbgChallenge dt => exact (State.OnPkg.mbx _ dbgChallenge_onPkg).runNv s dt
  | dbgResponse dt => exact (State.OnPkg.mbx _ dbgResponse_onPkg).runNv s dt
  | mbxReset dt => exact (State.OnPkg.mbx _ resetCmd_onPkg).runNv s dt
  | setLead dt => exact (State.OnPkg.mbx _ setLead_onPkg).runNv s dt
  | readReg dt a => exact (State.OnPkg.mbx _ (regCmd_onPkg false a)).runNv s dt
  | writeReg dt a => exact (State.OnPkg.mbx _ (regCmd_onPkg true a)).runNv s dt
  | _ => exact ⟨_, rfl⟩

/-! ### Commands of the flash and the fuses -/

/-- What no command changes (00 R2, 16 R409, R410): the identity and the size of the flash; a fused key hash stays (16 R413); a fuse that
is set stays set (17 R444). -/
structure Nv.Kept (v w : Nv) : Prop where
  uid : w.uid = v.uid
  stepping : w.stepping = v.stepping
  size : w.size = v.size
  keyHash : ∀ k, v.keyHash = some k → w.keyHash = some k
  odofuse : ∀ y, v.odofuse.getLsbD y = true → w.odofuse.getLsbD y = true

theorem Nv.Kept.refl (v : Nv) : v.Kept v := ⟨rfl, rfl, rfl, fun _ h => h, fun _ h => h⟩

theorem Nv.Kept.erase (v : Nv) (a n : Nat) : v.Kept (v.erase a n) := ⟨rfl, rfl, rfl, fun _ h => h, fun _ h => h⟩

/-- Erasing and programming change the flash's bytes alone. -/
theorem Nv.program_eq (v : Nv) (a : Nat) (l : List Byte) : ∃ m, v.program a l = { v with flash := m } :=
  foldl_keeps (fun w : Nv => ∃ m, w = { v with flash := m }) _ (by rintro w _ ⟨m, rfl⟩; exact ⟨_, rfl⟩) _ _ ⟨_, rfl⟩

theorem Nv.Kept.program (v : Nv) (a : Nat) (l : List Byte) : v.Kept (v.program a l) := by
  obtain ⟨m, e⟩ := v.program_eq a l
  rw [e]
  exact ⟨rfl, rfl, rfl, fun _ h => h, fun _ h => h⟩

/-- The queue is as before, and the fuses and the flash keep what no command changes. -/
def State.Kept (s t : State) : Prop := t.pending = s.pending ∧ s.nv.Kept t.nv

theorem State.Kept.withPkg (s : State) (q : Pkg) : s.Kept (s.withPkg q) := ⟨rfl, .refl _⟩

/-- The answer to a mailbox command that has written the flash or the fuses. -/
theorem State.Kept.answered (s : State) {n : Nv} (k : s.nv.Kept n) (port : Bool) (result : Nat) (resp : List Byte) :
    s.Kept (State.mbxAns { s with nv := n } port result resp) := ⟨rfl, k⟩

theorem State.Kept.mbx {f : Bool → State → State} (op : Nat) (hf : ∀ port s, State.Kept s (f port s)) (s : State) : s.Kept (s.mbx op f) := by
  obtain e | ⟨port, e⟩ := s.mbx_cases op f
  · rw [e]; exact ⟨rfl, .refl _⟩
  · rw [e]; exact hf port s

theorem State.Kept.runNv {f : State → State} (hf : ∀ s, State.Kept s (f s)) (s : State) (dt : Nat) :
    ∃ t, s.runNv dt f = .next t ∧ s.Kept t := by
  refine ⟨_, rfl, ?_⟩
  dsimp only
  split
  · exact hf { s with pkg := s.pkg.elapse dt }
  · exact .withPkg s _

theorem flashWrite_kept (ok port : Bool) (s : State) : s.Kept (s.flashWrite ok port) := by
  dsimp only [State.flashWrite]
  split
  · exact .withPkg s _
  · split
    · exact .withPkg s _
    · split
      · exact .withPkg s _
      · split
        · exact .answered s (.program ..) ..
        · exact .answered s (.erase ..) ..

/-- Only a package without a fused key hash is provisioned. -/
theorem provision_kept (port : Bool) (s : State) : s.Kept (s.provision port) := by
  unfold State.provision
  split
  · exact .withPkg s _
  next h =>
    split
    · exact .withPkg s _
    · exact ⟨rfl, rfl, rfl, rfl, fun k e => absurd (by rw [e]; rfl) h, fun _ h => h⟩

theorem odoWritten_kept (ok : Bool) (s : State) : s.Kept (s.odoWritten ok) := by
  dsimp only [State.odoWritten]
  split
  · split
    · exact .withPkg s _
    · split
      · exact ⟨rfl, .program ..⟩
      · exact ⟨rfl, .erase ..⟩
  · exact .withPkg s _

/-- The fuses of the years that have passed are added to those that are set. -/
theorem odoSecond_kept (s : State) : s.Kept s.odoSecond := by
  refine ⟨rfl, rfl, rfl, rfl, fun _ h => h, fun y h => ?_⟩
  refine foldl_keeps (fun a : BitVec 32 => a.getLsbD y = true) _ (fun a k ha => ?_) _ _ h
  split
  · rw [BitVec.getLsbD_or, ha, Bool.true_or]
  · exact ha

/-- A command of the flash answers a next state that keeps what no command changes. -/
theorem exec_kept_of_flash (c : Instr) (s : State) (h : ofFlash c = true) : ∃ t, exec c s = .next t ∧ s.Kept t := by
  cases c with
  | flashWrite dt ok => exact State.Kept.runNv (State.Kept.mbx _ (flashWrite_kept ok)) s dt
  | provision dt => exact State.Kept.runNv (State.Kept.mbx _ provision_kept) s dt
  | odometerWriteComplete dt ok => exact State.Kept.runNv (odoWritten_kept ok) s dt
  | odometerSecond dt => exact State.Kept.runNv odoSecond_kept s dt
  | _ => cases h

/-- Settles O57: the commands of the flash by what each programs or fuses; every other command changes the package alone. -/
theorem everyCommandAnswersAndKeepsWhatIsPermanent : Obligations.EveryCommandAnswersAndKeepsWhatIsPermanent := by
  intro c s
  cases h : ofFlash c with
  | true =>
    obtain ⟨t, e, pend, k⟩ := exec_kept_of_flash c s h
    exact ⟨t, e, pend, k.uid, k.stepping, k.size, k.keyHash, k.odofuse, fun n => nomatch n⟩
  | false =>
    obtain ⟨q, e⟩ := exec_withPkg c s h
    exact ⟨_, e, rfl, rfl, rfl, rfl, fun _ k => k, fun _ k => k, fun _ => rfl⟩

/-! ### Reset -/

/-- Settles O60: the reset state lists nothing, so every read gives the reset value. -/
theorem resetLeavesItsValues : Obligations.ResetLeavesItsValues := by
  refine ⟨⟨rfl, nofun⟩, fun _ => rfl, fun _ => rfl, ?_, rfl, rfl, rfl, rfl, rfl, rfl, rfl, fun t v => ?_⟩
  · rfl
  · rw [Thread.wg_zero]
    exact ⟨Thread.rg_zero t, fun _ => rfl⟩

/-! ### The identification register (00 R4) -/

theorem Pkg.stop_isSome_of_live {s : Pkg} (l : s.live = true) : s.boot.stop.isSome = false := by
  unfold Pkg.live at l
  cases h : s.boot.stop with
  | none => rfl
  | some _ => simp [h] at l

/-- An exception of a thread that executes its head: entered at once, or, with stores to drain, not yet. -/
theorem Pkg.fault_ready {s : Pkg} {h : Nat} {i : Ins} (r : s.Ready h i) (v : Nat) (pc fa : Word) (fin : Nat) :
    s.fault h v pc fa fin = if (s.thr h).sb = [] then s.enterAt h v pc fa (BitVec.ofNat 64 fin) false else s := by
  obtain ⟨live, alone, -, -, aw, -⟩ := r
  have enter : s.enter h v pc fa (BitVec.ofNat 64 fin) false = s.enterAt h v pc fa (BitVec.ofNat 64 fin) false := by
    simp [Pkg.enter, Pkg.stop_isSome_of_live live, Pkg.commit_alone (Pkg.paired_off alone)]
  unfold Pkg.fault
  cases hs : (s.thr h).sb <;> simp [aw, hs, enter]

/-- ID_PART is read at every level, and written at none (03 R94). -/
theorem srFault_idPart (lvl : Nat) (uread write : Bool) : srFault 0xF00 lvl uread write = if write then some 0 else none := by
  cases write <;> simp [srFault, srAcc]

/-- Settles O54: of the two accesses the read has no fault at any level, and the write has ILLEGAL at all of them. -/
theorem idPartReadsThePart : Obligations.IdPartReadsThePart := by
  intro s h
  dsimp only
  refine ⟨fun rd r => ?_, fun ra r => ?_⟩
  · obtain ⟨-, alone, -, -, -, -, -, counts, watch⟩ := id r
    refine ⟨_, State.run_issue r rfl _, ?_⟩
    have op : s.pkg.opMfsr h (.mfsr rd 0xF00#12) = s.pkg.done h (fun t => t.wg rd.toNat (s.pkg.rd scBase)) := by
      simp [Pkg.opMfsr, srFault_idPart, Pkg.watchX_unwatched watch, srTiming, Pkg.srRead]
    rw [op, Pkg.done_alone alone counts _ (fun _ _ => Thread.rs_wg ..)]
    exact Pkg.moves_stepped ..
  · have op : s.pkg.opMtsr h (.mtsr ra 0xF00#12) = s.pkg.fault h 0 (s.pkg.thr h).pc 0#64 0 := by
      simp [Pkg.opMtsr, srFault_idPart]
    refine (State.run_issue r rfl _).trans ?_
    rw [op, Pkg.fault_ready r]
    split <;> rfl

/-! ### Time that passes (13 R346, R349) -/

/-- Time changes the clock, Cadence and registers. -/
theorem Pkg.elapse_eq (s : Pkg) (dt : Nat) :
    s.elapse dt = { s with now := s.now + dt, cad := (s.elapse dt).cad, drs := (s.elapse dt).drs } := by
  unfold Pkg.elapse
  dsimp only
  split
  · split <;> rfl
  · rfl

@[simp] theorem Pkg.elapse_now (s : Pkg) (dt : Nat) : (s.elapse dt).now = s.now + dt := by rw [Pkg.elapse_eq]
@[simp] theorem Pkg.elapse_odo (s : Pkg) (dt : Nat) : (s.elapse dt).odo = s.odo := by rw [Pkg.elapse_eq]
@[simp] theorem Pkg.elapse_pins (s : Pkg) (dt : Nat) : (s.elapse dt).pins = s.pins := by rw [Pkg.elapse_eq]
@[simp] theorem Pkg.elapse_mem (s : Pkg) (dt : Nat) : (s.elapse dt).mem = s.mem := by rw [Pkg.elapse_eq]
@[simp] theorem Pkg.elapse_threads (s : Pkg) (dt : Nat) : (s.elapse dt).threads = s.threads := by rw [Pkg.elapse_eq]

/-- The only register that time changes is CAD_PHASE. -/
theorem Pkg.rd_elapse (s : Pkg) (dt o : Nat) (h : o ≠ cadBase + 0x10) : (s.elapse dt).rd o = s.rd o := by
  unfold Pkg.elapse
  dsimp only
  split
  · split
    · rfl
    · exact Pkg.rd_wf_other _ _ _ _ _ _ h
  · rfl

theorem Pkg.rb_elapse (s : Pkg) (dt o i : Nat) (h : o ≠ cadBase + 0x10) : (s.elapse dt).rb o i = s.rb o i := by
  unfold Pkg.rb
  rw [Pkg.rd_elapse _ _ _ h]

@[simp] theorem Pkg.scLive_elapse (s : Pkg) (dt : Nat) : (s.elapse dt).scLive = s.scLive := by
  simp only [Pkg.scLive, Pkg.elapse_pins]

@[simp] theorem Pkg.cadState_elapse (s : Pkg) (dt : Nat) : (s.elapse dt).cadState = s.cadState := by
  unfold Pkg.cadState Pkg.rf
  rw [Pkg.rd_elapse _ _ _ (by decide)]

/-! ### Commands of the system controller while it runs -/

theorem State.runSc_live {s : State} (l : s.pkg.scLive = true) (dt : Nat) (f : Pkg → Pkg) :
    s.runSc dt f = .next (s.withPkg (f (s.pkg.elapse dt))) := by
  simp [State.runSc, State.on, State.withPkg, l]

theorem State.runSc_eq {s : State} (l : s.pkg.scLive = true) {dt : Nat} {f : Pkg → Pkg} {q : Pkg} (e : f (s.pkg.elapse dt) = q) :
    s.runSc dt f = .next (s.withPkg q) := e ▸ State.runSc_live l dt f

theorem State.runNv_live {s : State} (l : s.pkg.scLive = true) (dt : Nat) (f : State → State) :
    s.runNv dt f = .next (f (s.withPkg (s.pkg.elapse dt))) := by
  simp [State.runNv, State.withPkg, l]

/-! ### The live record (17 R439, R440) -/

theorem Pkg.liveGet_of_rd {p q : Pkg} {o : Nat} (h : q.rd (odoLive o) = p.rd (odoLive o)) (n : Nat) : q.liveGet o n = p.liveGet o n := by
  unfold Pkg.liveGet Pkg.rf
  rw [h]

theorem Pkg.liveGet_elapse (s : Pkg) (dt o n : Nat) : (s.elapse dt).liveGet o n = s.liveGet o n :=
  Pkg.liveGet_of_rd (Pkg.rd_elapse _ _ _ (by unfold odoLive odoBase cadBase; omega)) n

/-- A field of the live record reads as it was written, cut to its bytes. -/
theorem Pkg.liveGet_livePut_same (s : Pkg) (o n x : Nat) (hn : 0 < n) (h : o % 8 + n ≤ 8) : (s.livePut o n x).liveGet o n = x % 2 ^ (8 * n) := by
  unfold Pkg.liveGet Pkg.livePut
  rw [Pkg.rf_wf_same _ _ _ _ _ (by omega) (by omega), show 8 * (o % 8 + n) - 1 - 8 * (o % 8) + 1 = 8 * n by omega]

/-- A live count grows by k, up to its greatest value. -/
theorem Pkg.liveGet_liveAdd_same (s : Pkg) (o n k : Nat) (hn : 0 < n) (h : o % 8 + n ≤ 8) :
    (s.liveAdd o n k).liveGet o n = min (s.liveGet o n + k) (2 ^ (8 * n) - 1) := by
  unfold Pkg.liveAdd
  rw [Pkg.liveGet_livePut_same _ _ _ _ hn h, Nat.mod_eq_of_lt]
  have := Nat.one_le_two_pow (n := 8 * n)
  omega

/-- q differs from p in registers other than r and in the values drawn since. -/
def Pkg.WritesBut (r : Nat) (p q : Pkg) : Prop := q.rd r = p.rd r ∧ q = { p with drs := q.drs, fresh := q.fresh }

section
variable {r : Nat} {p q : Pkg}

theorem Pkg.WritesBut.refl (r : Nat) (p : Pkg) : p.WritesBut r p := ⟨rfl, rfl⟩

theorem Pkg.WritesBut.wf (w : p.WritesBut r q) (o hi lo x : Nat) (h : r ≠ o) : p.WritesBut r (q.wf o hi lo x) := by
  obtain ⟨e, f⟩ := w
  refine ⟨(Pkg.rd_wf_other _ _ _ _ _ _ h).trans e, ?_⟩
  unfold Pkg.wf Pkg.wr
  rw [f]

theorem Pkg.WritesBut.livePut (w : p.WritesBut r q) (o n x : Nat) (h : r ≠ odoLive o) : p.WritesBut r (q.livePut o n x) := w.wf _ _ _ _ h
theorem Pkg.WritesBut.liveAdd (w : p.WritesBut r q) (o n k : Nat) (h : r ≠ odoLive o) : p.WritesBut r (q.liveAdd o n k) := w.livePut _ _ _ h
theorem Pkg.WritesBut.lifePpm (w : p.WritesBut r q) (h : r ≠ odoLive 0x50) : p.WritesBut r q.lifePpm := w.livePut _ _ _ h
theorem Pkg.WritesBut.draw (w : p.WritesBut r q) : p.WritesBut r q.draw.2 := by
  obtain ⟨e, f⟩ := w
  refine ⟨e, ?_⟩
  unfold Pkg.draw
  rw [f]

end

/-! ### ODOMETER_SECOND (R439) -/

/-- The counts of one second after the first: the bins of temperature and voltage, and the stress. -/
def Pkg.odoBins (s : Pkg) (t : Int) : Pkg :=
  let s := s.liveAdd (0x60 + 8 * tempBin t) 8 1
  match s.vMax with
  | some mv =>
    let s := s.liveAdd (0xE0 + 8 * voltBin mv) 8 1
    let (w, ex) := odoWeight t mv
    if ex then s.liveAdd 0x58 8 w
    else
      let (x, s) := s.draw
      s.liveAdd 0x58 8 (w + x.toNat % 2)
  | none =>
    let (x, s) := s.draw
    s.liveAdd 0x58 8 (x.toNat % 2 ^ 32)

theorem Pkg.odoSecond_due {s : Pkg} (l : s.odo.live = true) (h : s.odo.sec < s.now / 1000000000000) :
    s.odoSecond = (((({ s with odo := { s.odo with sec := s.now / 1000000000000 } } : Pkg).liveAdd 0x30 8 1).odoBins s.tjMax).odoThermal
      s.tjMax).lifePpm.inc odoBase 31 16 := by
  have due : (decide (s.now / 1000000000000 ≤ s.odo.sec) || !s.odo.live) = false := by simp [l]; omega
  unfold Pkg.odoSecond
  simp only [due]
  rfl

/-- The bins and the stress lie beside the live seconds. -/
theorem Pkg.odoBins_writes (s : Pkg) (t : Int) : s.WritesBut (odoLive 0x30) (s.odoBins t) := by
  have off : ∀ o, 0x38 ≤ o → odoLive 0x30 ≠ odoLive o := fun o h => by unfold odoLive; omega
  have bin : s.WritesBut (odoLive 0x30) (s.liveAdd (0x60 + 8 * tempBin t) 8 1) := (Pkg.WritesBut.refl ..).liveAdd _ _ _ (off _ (by omega))
  unfold Pkg.odoBins
  dsimp only
  split
  next mv _ =>
    have volt := bin.liveAdd (0xE0 + 8 * voltBin mv) 8 1 (off _ (by omega))
    split
    · exact volt.liveAdd _ _ _ (off _ (by omega))
    · exact volt.draw.liveAdd _ _ _ (off _ (by omega))
  next => exact bin.draw.liveAdd _ _ _ (off _ (by omega))

/-- The detector counts thermal cycles and keeps its own state in the Odometer. -/
theorem Pkg.odoThermal_keeps (s : Pkg) (t : Int) :
    (s.odoThermal t).odo.sec = s.odo.sec ∧ (s.odoThermal t).mem = s.mem ∧ (s.odoThermal t).threads = s.threads
      ∧ ∀ o, o ≠ odoLive 0x3C → (s.odoThermal t).rd o = s.rd o := by
  dsimp only [Pkg.odoThermal]
  split
  · split
    · exact ⟨rfl, rfl, rfl, fun o h => Pkg.rd_wf_other _ _ _ _ _ _ h⟩
    · exact ⟨rfl, rfl, rfl, fun _ _ => rfl⟩
  · split <;> exact ⟨rfl, rfl, rfl, fun _ _ => rfl⟩

/-- A second counts once in the live seconds. -/
theorem Pkg.odoSecond_counts {s : Pkg} (l : s.odo.live = true) (h : s.odo.sec < s.now / 1000000000000) :
    s.odoSecond.liveGet 0x30 8 = min (s.liveGet 0x30 8 + 1) (2 ^ 64 - 1) ∧ s.odoSecond.odo.sec = s.now / 1000000000000
      ∧ s.odoSecond.mem = s.mem ∧ s.odoSecond.threads = s.threads := by
  rw [Pkg.odoSecond_due l h]
  generalize hc : ({ s with odo := { s.odo with sec := s.now / 1000000000000 } } : Pkg).liveAdd 0x30 8 1 = c
  have cs : c.liveGet 0x30 8 = min (s.liveGet 0x30 8 + 1) (2 ^ 64 - 1) := by
    rw [← hc, Pkg.liveGet_liveAdd_same _ _ _ _ (by decide) (by decide)]
    rfl
  obtain ⟨rb, eb⟩ := c.odoBins_writes s.tjMax
  generalize c.odoBins s.tjMax = b at rb eb
  obtain ⟨sec, mem, thr, rt⟩ := b.odoThermal_keeps s.tjMax
  generalize b.odoThermal s.tjMax = t at sec mem thr rt
  have rl : ((t.lifePpm).inc odoBase 31 16).rd (odoLive 0x30) = c.rd (odoLive 0x30) := by
    rw [Pkg.rd_inc_other _ _ _ _ _ _ (by decide), show t.lifePpm.rd (odoLive 0x30) = t.rd (odoLive 0x30) from
      ((Pkg.WritesBut.refl ..).lifePpm (by decide)).1, rt _ (by decide), rb]
  rw [eb, ← hc] at sec mem thr
  exact ⟨(Pkg.liveGet_of_rd rl 8).trans cs, sec, mem, thr⟩

/-- The fuses of the years show in SC_ODOFUSE alone (R444). -/
theorem State.odoSecond_writes (s : State) : s.pkg.odoSecond.WritesBut (odoLive 0x30) s.odoSecond.pkg := by
  dsimp only [State.odoSecond]
  split
  · exact .refl ..
  · exact (Pkg.WritesBut.refl ..).wf _ _ _ _ (by decide)

theorem exec_odometerSecond {s : State} (l : s.pkg.scLive = true) (dt : Nat) (live : s.pkg.odo.live = true)
    (due : s.pkg.odo.sec < (s.pkg.elapse dt).now / 1000000000000) :
    ∃ q n, exec (.odometerSecond dt) s = .next { s with pkg := q, nv := n }
      ∧ q.liveGet 0x30 8 = min (s.pkg.liveGet 0x30 8 + 1) (2 ^ 64 - 1) ∧ q.odo.sec = (s.pkg.elapse dt).now / 1000000000000
      ∧ n = { s.nv with odofuse := n.odofuse } ∧ q.mem = s.pkg.mem ∧ q.threads = s.pkg.threads := by
  obtain ⟨sec, at_, mem, thr⟩ := Pkg.odoSecond_counts (s := s.pkg.elapse dt) (by simpa using live) (by simpa using due)
  obtain ⟨r, f⟩ := (s.withPkg (s.pkg.elapse dt)).odoSecond_writes
  refine ⟨((s.withPkg (s.pkg.elapse dt)).odoSecond).pkg, ((s.withPkg (s.pkg.elapse dt)).odoSecond).nv, State.runNv_live l dt _, ?_, ?_, rfl, ?_, ?_⟩
  · exact (Pkg.liveGet_of_rd r 8).trans (sec.trans (by rw [Pkg.liveGet_elapse]))
  · exact (congrArg (·.odo.sec) f).trans at_
  · exact (congrArg Pkg.mem f).trans (mem.trans (by simp))
  · exact (congrArg Pkg.threads f).trans (thr.trans (by simp))

/-! ### Records (R442, R443) -/

/-- What comes before the record of a write is taken: oscillators are measured, and life is reckoned. -/
def Pkg.odoMeasure (s : Pkg) : Pkg :=
  ((List.range 32).foldl (fun s k =>
    if s.coursePowered k then
      let (x, s) := s.draw
      let a := x.toNat % 65536
      (s.livePut (0x120 + 4 * k) 2 a).livePut (0x122 + 4 * k) 2 (max a (s.liveGet (0x122 + 4 * k) 2))
    else s) s).lifePpm

theorem Pkg.odoMeasure_odo (s : Pkg) : s.odoMeasure.odo = s.odo := by
  refine foldl_keeps (fun p : Pkg => p.odo = s.odo) _ (fun p k h => ?_) (List.range 32) s rfl
  dsimp only
  split
  · exact h
  · exact h

/-- The record that is taken: the live state, with FLAGS, the time and REASON (R440). -/
def Pkg.odoImage (s : Pkg) (reason : Nat) : List Word :=
  let fl := (if s.rf (cadBase + 8) 1 0 = 2 then 0 else 1) + 2 * s.rf odoBase 2 2 + 4 * s.rf odoBase 1 1
  (List.range 512).map (fun i =>
    let v := s.rd (odoLive (8 * i))
    if i = 0 then setBits v 63 48 fl else if i = 4 then s.rdtime else if i = 5 then setBits v 7 0 reason else v)

theorem Pkg.length_odoImage (s : Pkg) (reason : Nat) : (s.odoImage reason).length = 512 := (List.length_map ..).trans List.length_range

theorem Pkg.odoBegin_eq (s : Pkg) (reason : Nat) :
    s.odoBegin reason = ({ s.odoMeasure with odo := { s.odoMeasure.odo with
      writing := some reason, again := none, snap := s.odoMeasure.odoImage reason } } : Pkg).wb odoBase 0 true := by
  unfold Pkg.odoBegin Pkg.odoImage Pkg.odoMeasure
  rfl

theorem setBits_one_getLsbD (v : Word) (i : Nat) (h : i < 64) (b : Bool) : (setBits v i i (if b then 1 else 0)).getLsbD i = b := by
  rw [setBits_getLsbD _ _ _ _ _ h, if_pos (by omega)]
  cases b <;> simp

theorem Pkg.rb_wb_same (s : Pkg) (o i : Nat) (b : Bool) (h : i < 64) : (s.wb o i b).rb o i = b := by
  unfold Pkg.rb
  rw [Pkg.rd_wb_same, setBits_one_getLsbD _ _ h]

/-- A record that begins is being written and busy; nothing else of the Odometer changes. -/
theorem Pkg.odoBegin_begins (s : Pkg) (reason : Nat) :
    ∃ snap, snap.length = 512 ∧ (s.odoBegin reason).odo = { s.odo with writing := some reason, again := none, snap := snap }
      ∧ (s.odoBegin reason).rb odoBase 0 = true := by
  rw [Pkg.odoBegin_eq]
  exact ⟨_, Pkg.length_odoImage .., by rw [Pkg.wb_odo, Pkg.odoMeasure_odo], Pkg.rb_wb_same _ _ _ _ (by decide)⟩

/-- A record that is due begins at once: none is being written, the partition is known and usable, and no unscheduled one has been
written before. -/
theorem Pkg.odoRequest_begins {s : Pkg} {reason : Nat} (idle : s.odo.writing = none) (part : s.odo.part.isSome = true)
    (usable : s.rb odoBase 3 = false) (first : reason = 0 ∨ s.odo.lastUnsched = none) :
    ∃ snap, snap.length = 512 ∧ (s.odoRequest reason).rb odoBase 0 = true
      ∧ (s.odoRequest reason).odo = { s.odo with
          writing := some reason, again := none, snap := snap, lastUnsched := if reason = 0 then s.odo.lastUnsched else some s.now } := by
  have part' : s.odo.part.isNone = false := Option.isNone_eq_false_iff.mpr part
  have e : s.odoRequest reason
      = (if reason = 0 then s else { s with odo := { s.odo with lastUnsched := some s.now } }).odoBegin reason := by
    rcases first with rfl | h
    · simp [Pkg.odoRequest, idle, part', usable]
    · simp [Pkg.odoRequest, h, idle, part', usable]
  rw [e]
  obtain ⟨snap, len, odo, busy⟩ := Pkg.odoBegin_begins (if reason = 0 then s else { s with odo := { s.odo with lastUnsched := some s.now } }) reason
  refine ⟨snap, len, busy, odo.trans ?_⟩
  split <;> rfl

/-- An hour by the package's own clock, outside LOCKED, begins a record. -/
theorem Pkg.odoHourly_begins {s : Pkg} (idle : s.odo.writing = none) (part : s.odo.part.isSome = true) (usable : s.rb odoBase 3 = false)
    (unlocked : s.cadState ≠ 2) (due : s.odo.hourAt + 3600 * 1000000000000 ≤ s.now) :
    s.odoHourly.odo.writing = some 0 ∧ s.odoHourly.rb odoBase 0 = true ∧ s.odoHourly.odo.snap.length = 512 := by
  have hit : s.odoHourly = ({ s with odo := { s.odo with hour := s.cadSec / 3600, hourAt := s.now } } : Pkg).odoRequest 0 := by
    unfold Pkg.odoHourly
    rw [if_neg unlocked]
    simp [due]
  obtain ⟨snap, len, busy, odo⟩ := Pkg.odoRequest_begins
    (s := { s with odo := { s.odo with hour := s.cadSec / 3600, hourAt := s.now } }) (reason := 0) idle part usable (.inl rfl)
  rw [hit, odo]
  exact ⟨rfl, busy, len⟩

theorem exec_odometerHourly {s : State} (l : s.pkg.scLive = true) (dt : Nat) (idle : s.pkg.odo.writing = none)
    (part : s.pkg.odo.part.isSome = true) (usable : s.pkg.rb odoBase 3 = false) (unlocked : s.pkg.cadState ≠ 2)
    (due : s.pkg.odo.hourAt + 3600 * 1000000000000 ≤ (s.pkg.elapse dt).now) :
    ∃ q, exec (.odometerHourly dt) s = .next (s.withPkg q)
      ∧ q.odo.writing = some 0 ∧ q.rb odoBase 0 = true ∧ q.odo.snap.length = 512 :=
  ⟨_, State.runSc_live l dt _, Pkg.odoHourly_begins (by simpa using idle) (by simpa using part)
    (by rw [Pkg.rb_elapse _ _ _ _ (by decide)]; exact usable) (by simpa using unlocked) (by simpa using due)⟩

theorem exec_odoCmdSnap {s : State} (l : s.pkg.scLive = true) (idle : s.pkg.odo.writing = none)
    (part : s.pkg.odo.part.isSome = true) (usable : s.pkg.rb odoBase 3 = false) (first : s.pkg.odo.lastUnsched = none) :
    ∃ q, exec .odoCmdSnap s = .next (s.withPkg q) ∧ q.odo.writing = some 1 ∧ q.rb odoBase 0 = true
      ∧ q.odo.snap.length = 512 ∧ q.odo.lastUnsched = some s.pkg.now := by
  obtain ⟨snap, len, busy, odo⟩ := Pkg.odoRequest_begins (s := s.pkg.elapse 0) (reason := 1)
    (by simpa using idle) (by simpa using part) (by rw [Pkg.rb_elapse _ _ _ _ (by decide)]; exact usable) (.inr (by simpa using first))
  refine ⟨_, State.runSc_eq l (f := (·.odoCmd 1#64)) (if_pos (by decide)), ?_⟩
  rw [odo]
  exact ⟨rfl, busy, len, by simp⟩

/-! ### ODOMETER_WRITE_COMPLETE (R443) -/

/-- With no other record due the SC is idle again. -/
theorem Pkg.odoEnd_of_none {s : Pkg} (h : s.odo.again = none) :
    s.odoEnd = ({ s with odo := { s.odo with writing := none, again := none, snap := [] } } : Pkg).wb odoBase 0 false := by
  simp [Pkg.odoEnd, h]

/-- The registers show the record just written, in sector k with the next SEQ. -/
def Pkg.odoStored (s : Pkg) (k : Nat) : Pkg :=
  (({ s with odo := { s.odo with sector := some k, seq := s.odo.seq + 1 } } : Pkg).wf odoBase 13 8 k).wr (odoBase + 8) (BitVec.ofNat 64 (s.odo.seq + 1))

/-- A record written: the next sector of the flash holds it, under the next SEQ. -/
theorem State.odoWritten_done {s : State} {w part k : Nat} (writing : s.pkg.odo.writing = some w) (hp : s.pkg.odo.part = some part)
    (next : s.pkg.odo.next = some k) (again : s.pkg.odo.again = none) :
    ∃ q, s.odoWritten true = { s with pkg := q, nv := s.nv.program (part + 4096 * k) (odoBytes s.pkg.odo.snap (s.pkg.odo.seq + 1)) }
      ∧ q.odo.writing = none ∧ q.odo.sector = some k ∧ q.odo.seq = s.pkg.odo.seq + 1 ∧ q.rb odoBase 0 = false
      ∧ q.rd (odoBase + 8) = BitVec.ofNat 64 (s.pkg.odo.seq + 1) := by
  have e : s.odoWritten true
      = { s with pkg := (s.pkg.odoStored k).odoEnd, nv := s.nv.program (part + 4096 * k) (odoBytes s.pkg.odo.snap (s.pkg.odo.seq + 1)) } := by
    simp [State.odoWritten, Pkg.odoStored, writing, hp, next]
  refine ⟨_, e, ?_⟩
  rw [Pkg.odoEnd_of_none (show (s.pkg.odoStored k).odo.again = none from again)]
  refine ⟨rfl, rfl, rfl, Pkg.rb_wb_same _ _ _ _ (by decide), ?_⟩
  rw [Pkg.rd_wb_other _ _ _ _ _ (by decide)]
  exact Pkg.rd_wr_same ..

theorem exec_odometerWriteComplete {s : State} (l : s.pkg.scLive = true) {dt w part k : Nat} (writing : s.pkg.odo.writing = some w)
    (hp : s.pkg.odo.part = some part) (next : s.pkg.odo.next = some k) (again : s.pkg.odo.again = none) :
    ∃ q n, exec (.odometerWriteComplete dt true) s = .next { s with pkg := q, nv := n } ∧ q.odo.writing = none ∧ q.odo.sector = some k
      ∧ q.odo.seq = s.pkg.odo.seq + 1 ∧ q.rb odoBase 0 = false ∧ q.rd (odoBase + 8) = BitVec.ofNat 64 (s.pkg.odo.seq + 1)
      ∧ n = s.nv.program (part + 4096 * k) (odoBytes s.pkg.odo.snap (s.pkg.odo.seq + 1)) := by
  have odo : (s.withPkg (s.pkg.elapse dt)).pkg.odo = s.pkg.odo := Pkg.elapse_odo ..
  obtain ⟨q, e, idle, sector, seq, busy, reg⟩ := State.odoWritten_done (odo ▸ writing) (odo ▸ hp) (odo ▸ next) (odo ▸ again)
  rw [odo] at e seq reg
  exact ⟨q, _, (State.runNv_live l dt (·.odoWritten true)).trans (congrArg Host.Outcome.next e), idle, sector, seq, busy, reg, rfl⟩

/-! ### ODO_EVCODE_WRITE (R441) -/

/-- q differs from p in registers alone. -/
def Pkg.OnlyRegs (p q : Pkg) : Prop := q = { p with drs := q.drs }

theorem Pkg.OnlyRegs.refl (p : Pkg) : p.OnlyRegs p := rfl
theorem Pkg.OnlyRegs.wr {p q : Pkg} (w : p.OnlyRegs q) (o : Nat) (v : Word) : p.OnlyRegs (q.wr o v) := by
  unfold Pkg.OnlyRegs Pkg.wr
  rw [w]
theorem Pkg.OnlyRegs.livePut {p q : Pkg} (w : p.OnlyRegs q) (o n x : Nat) : p.OnlyRegs (q.livePut o n x) := w.wr _ _

/-- An event that asks for no record writes the ring, whose count grows by 1. -/
theorem Pkg.odoEvent_enters (s : Pkg) (code unit stop d0 d1 : Nat) (h : odoEventAsks code = false) :
    (s.odoEvent code unit stop d0 d1).liveGet 0x340 4 = (s.liveGet 0x340 4 + 1) % 2 ^ 32
      ∧ s.OnlyRegs (s.odoEvent code unit stop d0 d1) := by
  unfold Pkg.odoEvent
  simp only [h, Bool.false_eq_true, if_false]
  exact ⟨Pkg.liveGet_livePut_same _ _ _ _ (by decide) (by decide), ((((Pkg.OnlyRegs.refl s).livePut ..).wr ..).livePut ..).livePut .. |>.livePut ..⟩

theorem exec_odoEvcodeWrite {s : State} (l : s.pkg.scLive = true) (v : Word) :
    (bits v 7 0 < 0x80 → exec (.odoEvcodeWrite v) s = .next (s.withPkg ((s.pkg.elapse 0).wb odoBase 4 true)))
    ∧ (0x80 ≤ bits v 7 0 → ∃ q, exec (.odoEvcodeWrite v) s = .next (s.withPkg q)
      ∧ q.liveGet 0x340 4 = (s.pkg.liveGet 0x340 4 + 1) % 2 ^ 32 ∧ q = { s.pkg.elapse 0 with drs := q.drs }) := by
  refine ⟨fun small => ?_, fun large => ?_⟩
  · have e : (s.pkg.elapse 0).odoEvcode v = (s.pkg.elapse 0).wb odoBase 4 true := if_neg (by omega)
    exact State.runSc_eq l (f := (·.odoEvcode v)) e
  · have asks : odoEventAsks (bits v 7 0) = false := by simp [odoEventAsks]; omega
    obtain ⟨count, frame⟩ := (s.pkg.elapse 0).odoEvent_enters (bits v 7 0) 11 15
      ((s.pkg.elapse 0).rd (odoBase + 0x18)).toNat ((s.pkg.elapse 0).rd (odoBase + 0x20)).toNat asks
    rw [Pkg.liveGet_elapse] at count
    exact ⟨_, State.runSc_eq l (f := (·.odoEvcode v)) (if_pos large), count, frame⟩

/-! ### Register writes (00 R8) -/

theorem exec_registerWrite_unassigned {s : State} (live : s.pkg.live = true) {off : Nat} (v : Word) (h : regAt off = none) :
    exec (.registerWrite off v) s = .next s := by
  refine (State.run_live _ live).trans ?_
  have e : s.pkg.registerWrite off v = s.pkg := by simp [Pkg.registerWrite, Pkg.drsWrite, h]
  rw [e]
  rfl

theorem exec_registerWrite_core {s : State} (live : s.pkg.live = true) {off c o : Nat} {r : RegRow} (v : Word) (aligned : off % 8 = 0)
    (h : regAt off = some (.core c, o, r)) (up : s.pkg.proxied (.core c) o = false) (plain : o < 0x100 ∨ 0x140 ≤ o)
    (noWin : hasWindow (.core c) o = false) :
    exec (.registerWrite off v) s = .next (s.withPkg (s.pkg.wr off (regWriteBits r.flds false (s.pkg.rd off) v))) := by
  refine (State.run_live _ live).trans ?_
  have notCtl : ¬ (0x100 ≤ o ∧ o < 0x140) := by omega
  simp [Pkg.registerWrite, Pkg.drsWrite, aligned, h, up, notCtl, noWin]

/-! ### The management port's transfers (R446) -/

theorem leNat_append (l m : List Byte) : leNat (l ++ m) = leNat l + 256 ^ l.length * leNat m := by
  induction l with
  | nil => simp [leNat]
  | cons b t ih => simp only [List.cons_append, leNat, ih, List.length_cons]; ring

theorem leNat_lt (l : List Byte) : leNat l < 256 ^ l.length := by
  induction l with
  | nil => simp [leNat]
  | cons b t ih =>
    have := b.isLt
    simp only [leNat, List.length_cons, pow_succ]
    omega

theorem length_natLe (n x : Nat) : (natLe n x).length = n := (List.length_map ..).trans List.length_range

theorem natLe_mod (n x : Nat) : natLe n (x % 256 ^ n) = natLe n x := by
  refine List.map_congr_left fun k hk => BitVec.eq_of_toNat_eq ?_
  obtain ⟨j, rfl⟩ := Nat.exists_eq_add_of_lt (List.mem_range.mp hk)
  rw [BitVec.toNat_ofNat, BitVec.toNat_ofNat, show k + j + 1 = k + (j + 1) by omega, pow_add, Nat.mod_mul_right_div_self,
    pow_succ, Nat.mul_comm (256 ^ j), Nat.mod_mul_right_mod]

theorem natLe_add (m n x : Nat) : natLe (m + n) x = natLe m x ++ natLe n (x / 256 ^ m) := by
  unfold natLe
  rw [List.range_add, List.map_append, List.map_map]
  congr 1
  refine List.map_congr_left fun k _ => ?_
  simp [pow_add, Nat.div_div_eq_div_mul]

/-- A low unit is held until its high unit comes. -/
theorem Pkg.portWrite_low {s : Pkg} {o : Nat} (u : BitVec 32) (aligned : o % 8 = 0) (reg : (regAt (mgtBase + o)).isSome = true)
    (noBuf : portBuf o = false) : s.portWrite o u = { s with mgt := { s.mgt with low := some (o, u) } } := by
  simp [Pkg.portWrite, show o / 8 * 8 = o by omega, Option.isNone_eq_false_iff.mpr reg, noBuf, aligned]

/-- The high unit writes the register as a whole. -/
theorem Pkg.portWrite_high {s : Pkg} {o : Nat} {l : BitVec 32} (u : BitVec 32) (aligned : o % 8 = 0)
    (reg : (regAt (mgtBase + o)).isSome = true) (noBuf : portBuf o = false) (low : s.mgt.low = some (o, l)) :
    s.portWrite (o + 4) u
      = ({ s with mgt := { s.mgt with low := none } } : Pkg).drsWrite false (mgtBase + o) (BitVec.ofNat 64 (l.toNat + u.toNat * 2 ^ 32)) := by
  have noBuf' : portBuf (o + 4) = false := by
    unfold portBuf at noBuf ⊢
    rwa [show (o + 4) / 4096 = o / 4096 by omega]
  simp [Pkg.portWrite, show (o + 4) / 8 * 8 = o by omega, show (o + 4) % 8 ≠ 0 by omega, Option.isNone_eq_false_iff.mpr reg, noBuf', low]

/-- The two units of eight bytes make their number. -/
theorem units_toNat (a b c d e f g h : Byte) :
    (BitVec.ofNat 32 (leNat [a, b, c, d])).toNat + (BitVec.ofNat 32 (leNat [e, f, g, h])).toNat * 2 ^ 32 = leNat [a, b, c, d, e, f, g, h] := by
  have lo : leNat [a, b, c, d] < 2 ^ 32 := (leNat_lt [a, b, c, d]).trans_eq (by simp)
  have hi : leNat [e, f, g, h] < 2 ^ 32 := (leNat_lt [e, f, g, h]).trans_eq (by simp)
  have both := leNat_append [a, b, c, d] [e, f, g, h]
  rw [BitVec.toNat_ofNat, BitVec.toNat_ofNat, Nat.mod_eq_of_lt lo, Nat.mod_eq_of_lt hi]
  exact (both.trans (by rw [show (256 : Nat) ^ [a, b, c, d].length = 2 ^ 32 by simp, Nat.mul_comm])).symm

theorem Pkg.portWriteXfer_register (s : Pkg) (o : Nat) (l : List Byte) (len : l.length = 8) (h16 : o < 65536) (aligned : o % 8 = 0)
    (reg : (regAt (mgtBase + o)).isSome = true) (noBuf : portBuf o = false) :
    s.portWriteXfer o l false
      = ({ s with mgt := { s.mgt with low := none } } : Pkg).drsWrite false (mgtBase + o) (BitVec.ofNat 64 (leNat l)) := by
  match l, len with
  | [a, b, c, d, e, f, g, h], _ =>
    unfold Pkg.portWriteXfer
    simp only [show o % 4 = 0 by omega, Pkg.portWrites, show (o + 4) % 65536 = o + 4 by omega, Pkg.portWrite_low _ aligned reg noBuf]
    rw [if_neg (by simp), Pkg.portWrite_high _ aligned reg noBuf rfl, units_toNat]

theorem exec_mgtWriteTransfer {s : State} (l : s.pkg.scLive = true) (o : BitVec 16) (b : List Byte) (len : b.length = 8)
    (aligned : o.toNat % 8 = 0) (reg : (regAt (mgtBase + o.toNat)).isSome = true) (noBuf : portBuf o.toNat = false) :
    exec (.mgtWriteTransfer o b false) s = .next (s.withPkg (({ s.pkg.elapse 0 with mgt := { (s.pkg.elapse 0).mgt with low := none } } : Pkg).drsWrite
      false (mgtBase + o.toNat) (BitVec.ofNat 64 (leNat b)))) :=
  State.runSc_eq l (f := (·.portWriteXfer o.toNat b false)) (Pkg.portWriteXfer_register _ _ b len o.isLt aligned reg noBuf)

/-- The low unit of a register is read, and its high unit latched. -/
theorem Pkg.portRead_low (s : Pkg) {o : Nat} (aligned : o % 8 = 0) :
    (s.portRead o true).2 = (s.drsRead (mgtBase + o)).2.setWidth 32
      ∧ (s.portRead o true).1.mgt.latch = some (o, ((s.drsRead (mgtBase + o)).2 >>> 32).setWidth 32) := by
  simp [Pkg.portRead, Pkg.portValue, show o / 8 * 8 = o by omega, aligned]

/-- The high unit is read as latched. -/
theorem Pkg.portRead_high {s : Pkg} {o : Nat} {h : BitVec 32} (aligned : o % 8 = 0) (latch : s.mgt.latch = some (o, h)) :
    s.portRead (o + 4) true = (s, h) := by
  simp [Pkg.portRead, show (o + 4) % 8 ≠ 0 by omega, latch]

theorem natLe_units (v : Word) : natLe 4 (v.setWidth 32).toNat ++ natLe 4 ((v >>> 32).setWidth 32).toNat = natLe 8 v.toNat := by
  rw [natLe_add 4 4, BitVec.toNat_setWidth, BitVec.toNat_setWidth, BitVec.toNat_ushiftRight, Nat.shiftRight_eq_div_pow]
  exact congrArg₂ (· ++ ·) (natLe_mod 4 _) (natLe_mod 4 _)

theorem Pkg.portReadXfer_register (s : Pkg) {o : Nat} (h16 : o < 65536) (aligned : o % 8 = 0) :
    (s.portReadXfer o 8).reply = .bytes (natLe 8 (s.drsRead (mgtBase + o)).2.toNat) := by
  obtain ⟨low, latch⟩ := s.portRead_low aligned
  have e : (s.portReads o 8 8).2 = natLe 8 (s.drsRead (mgtBase + o)).2.toNat := by
    simp only [Pkg.portReads, show (o + 4) % 65536 = o + 4 by omega]
    rw [← natLe_units, ← low, decide_eq_true (by decide), decide_eq_true (by decide), Pkg.portRead_high aligned latch]
    simp [List.take_of_length_le, length_natLe]
  unfold Pkg.portReadXfer
  rw [if_neg (by omega)]
  exact congrArg Reply.bytes e

theorem exec_mgtReadTransfer {s : State} (l : s.pkg.scLive = true) (o : BitVec 16) (aligned : o.toNat % 8 = 0) :
    ∃ q, exec (.mgtReadTransfer o 8) s = .next (s.withPkg q)
      ∧ q.reply = .bytes (natLe 8 ((s.pkg.elapse 0).drsRead (mgtBase + o.toNat)).2.toNat) :=
  ⟨_, State.runSc_live l 0 (·.portReadXfer o.toNat 8), Pkg.portReadXfer_register _ o.isLt aligned⟩

/-! ### DBG_ACCESS (R465) -/

/-- The package with another access port and another last answer, which no register shows. -/
def Pkg.withPort (s : Pkg) (j : Jtag) (a : Reply) : Pkg := { s with jtag := j, reply := a }

theorem Pkg.proxied_withPort (s : Pkg) (j : Jtag) (a : Reply) (w : Win) (o : Nat) : (s.withPort j a).proxied w o = s.proxied w o := rfl

theorem Pkg.drsView_withPort (s : Pkg) (j : Jtag) (a : Reply) (w : Win) (o : Nat) (v : Word) : (s.withPort j a).drsView w o v = s.drsView w o v := by
  cases w <;> rfl

/-- A read of a register gives its value whatever the access port and the last answer are, and changes registers alone. -/
theorem Pkg.drsRead_withPort (s : Pkg) (j : Jtag) (a : Reply) (off : Nat) :
    ∃ d, (s.withPort j a).drsRead off = ({ s.withPort j a with drs := d }, (s.drsRead off).2) := by
  unfold Pkg.drsRead
  cases regAt off with
  | none => exact ⟨s.drs, rfl⟩
  | some x =>
    obtain ⟨w, o, r⟩ := x
    dsimp only
    rw [Pkg.proxied_withPort, Pkg.drsView_withPort]
    split
    · exact ⟨s.drs, rfl⟩
    · split
      · exact ⟨_, rfl⟩
      · exact ⟨s.drs, rfl⟩

theorem Pkg.drsLoad_withPort (s : Pkg) (j : Jtag) (a : Reply) (off n : Nat) :
    ∃ d, (s.withPort j a).drsLoad off n = ({ s.withPort j a with drs := d }, (s.drsLoad off n).2) := by
  obtain ⟨d, e⟩ := s.drsRead_withPort j a (off / 8 * 8)
  refine ⟨d, ?_⟩
  unfold Pkg.drsLoad
  rw [e]

theorem Pkg.scDrs_read {s q : Pkg} {off n x : Nat} (ok : drsErr off n false = none) (load : s.drsLoad off n = (q, x)) :
    s.scDrs off n none = (q, .ok x) := by
  simp [Pkg.scDrs, ok, load]

/-- An access to device register space outside Shimmy's registers. -/
theorem Pkg.dbgPhys_drs {s : Pkg} {pa : Nat} (n : Nat) (wr : Option Nat) (a : Cpl) (drs : region pa = 3)
    (notShm : pa - drsLo < shmBase ∨ shmBase + 0x1000000 ≤ pa - drsLo) : s.dbgPhys pa n wr a = s.scDrs (pa - drsLo) n wr := by
  have out : ¬ (shmBase ≤ pa - drsLo ∧ pa - drsLo < shmBase + 0x1000000 ∧ (!s.shmOpen) = true) := by omega
  simp only [Pkg.dbgPhys, drs, if_neg out]

/-- What a read of a register leaves: the last access's result as the answer, and the value captured with DONE. -/
theorem Pkg.dbgAccess_read {s : Pkg} {v : BitVec 128} {pa n : Nat} (a : Cpl) (tap : s.tapOn = true) (l : s.scLive = true) (isOpen : s.jtagOpen = true)
    (read : v.toNat % 4 = 0) (hpa : v.toNat / 2 ^ 6 % 2 ^ 58 = pa) (hn : 2 ^ (v.toNat / 4 % 4) = n) (drs : region pa = 3)
    (ok : drsErr (pa - drsLo) n false = none) (notShm : pa - drsLo < shmBase ∨ shmBase + 0x1000000 ≤ pa - drsLo) :
    (s.dbgAccess v a).reply = .bytes (natLe 16 s.jtag.dbg.toNat)
      ∧ (s.dbgAccess v a).jtag = { s.jtag with ir := .dbgAccess, dbg := BitVec.ofNat 128 ((s.drsLoad (pa - drsLo) n).2 * 2 ^ 64 + 16) }
      ∧ (s.dbgAccess v a).mem = s.mem ∧ (s.dbgAccess v a).threads = s.threads := by
  let c := s.withPort { s.jtag with ir := .dbgAccess } (.bytes (natLe 16 s.jtag.dbg.toNat))
  have capture : (s.tap .dbgAccess).answerBytes (natLe 16 s.jtag.dbg.toNat) = c := by simp only [Pkg.tap, tap, if_true]; rfl
  obtain ⟨d, load⟩ := s.drsLoad_withPort { s.jtag with ir := .dbgAccess } (.bytes (natLe 16 s.jtag.dbg.toNat)) (pa - drsLo) n
  have phys : c.dbgPhys pa n none a = ({ c with drs := d }, .ok (s.drsLoad (pa - drsLo) n).2) :=
    (Pkg.dbgPhys_drs n none a drs notShm).trans (Pkg.scDrs_read ok load)
  have e : s.dbgAccess v a
      = { c with drs := d, jtag := { c.jtag with dbg := BitVec.ofNat 128 ((s.drsLoad (pa - drsLo) n).2 * 2 ^ 64 + 16) } } := by
    have kind : v.toNat % 2 ^ 2 = 0 := by simpa using read
    have pa_ : v.toNat / 2 ^ 6 % 2 ^ (63 + 1 - 6) = pa := by simpa using hpa
    have n_ : 2 ^ (v.toNat / 2 ^ 2 % 2 ^ (3 + 1 - 2)) = n := by simpa using hn
    simp [Pkg.dbgAccess, -Nat.reducePow, tap, l, isOpen, kind, pa_, n_, capture, phys]
  rw [e]
  exact ⟨rfl, rfl, rfl, rfl⟩

theorem exec_dbgAccess_closed {s : State} (v : BitVec 128) (a : Cpl) (tap : s.pkg.tapOn = true) (l : s.pkg.scLive = true)
    (closed : s.pkg.jtagOpen = false) :
    exec (.dbgAccess v a) s = .next (s.withPkg ((s.pkg.tap .dbgAccess).answerBytes (natLe 16 0))) := by
  have e : s.pkg.dbgAccess v a = (s.pkg.tap .dbgAccess).answerBytes (natLe 16 0) := by simp [Pkg.dbgAccess, tap, l, closed]
  exact congrArg (fun q => Host.Outcome.next (s.withPkg q)) e

/-! ### The statement -/

/-- Settles O29: each clause is the lemma about its command. -/
theorem odometerAndRegisterPortsComplete : Obligations.OdometerAndRegisterPortsComplete := by
  intro s l
  refine ⟨fun dt => ?_, fun dt => ?_, fun dt w part k => ?_, fun v => ?_, fun live => ⟨?_, ?_⟩, ⟨?_, ?_⟩, fun v a tap => ⟨?_, ?_⟩⟩
  · exact fun live due => exec_odometerSecond l dt live due
  · exact fun idle part usable => ⟨exec_odometerHourly l dt idle part usable, exec_odoCmdSnap l idle part usable⟩
  · exact exec_odometerWriteComplete l
  · exact exec_odoEvcodeWrite l v
  · exact fun off v _ none_ => exec_registerWrite_unassigned live v none_
  · exact fun off v c o r aligned reg up plain noWin => exec_registerWrite_core live v aligned reg up plain noWin
  · exact fun o b len aligned reg noBuf => exec_mgtWriteTransfer l o b len aligned reg noBuf
  · exact fun o aligned => exec_mgtReadTransfer l o aligned
  · exact exec_dbgAccess_closed v a tap l
  · exact fun isOpen read drs ok notShm => ⟨_, rfl, Pkg.dbgAccess_read a tap l isOpen read rfl rfl drs ok notShm⟩

end Sys2Proof.Machine
end

section
/-! ## Package architecture (01_package_architecture)

What a line of DRAM and a byte of memory read as after a write, and that memory's canonical form is one per content. -/
namespace Sys2Proof.Machine

/-! ### A canonical table is given by what it reads as (log entry 5) -/

section
variable {α : Type} [DecidableEq α] {d : Nat → α}

theorem Map.wfFrom_cons {b k : Nat} {v : α} {t : Map α} :
    Map.wfFrom d b ((k, v) :: t) = true ↔ b ≤ k ∧ v ≠ d k ∧ Map.wfFrom d (k + 1) t = true := by
  simp [Map.wfFrom, and_assoc]

/-- A key below every listed one is unlisted. -/
theorem Map.get_of_lt_wfFrom {b q : Nat} {m : Map α} (w : Map.wfFrom d b m = true) (h : q < b) : Map.get d m q = d q := by
  induction m generalizing b with
  | nil => rfl
  | cons e t ih =>
    obtain ⟨k, v⟩ := e
    obtain ⟨hk, -, wt⟩ := Map.wfFrom_cons.mp w
    rw [Map.get, if_neg (by omega), ih wt (by omega)]

omit [DecidableEq α] in
theorem Map.get_head {k : Nat} {v : α} {t : Map α} : Map.get d ((k, v) :: t) k = v := if_pos rfl

/-- The first key of a canonical table is listed in every canonical table that reads the same, so not below that one's first key. -/
theorem Map.head_le {b c j k : Nat} {v x : α} {t u : Map α} (w : Map.wfFrom d b ((j, v) :: t) = true)
    (z : Map.wfFrom d c ((k, x) :: u) = true) (same : Map.get d ((j, v) :: t) j = Map.get d ((k, x) :: u) j) : k ≤ j := by
  obtain ⟨-, hv, -⟩ := Map.wfFrom_cons.mp w
  obtain ⟨-, hx, zu⟩ := Map.wfFrom_cons.mp z
  by_contra lt
  have unlisted : Map.wfFrom d k ((k, x) :: u) = true := Map.wfFrom_cons.mpr ⟨le_rfl, hx, zu⟩
  rw [Map.get_head, Map.get_of_lt_wfFrom unlisted (by omega)] at same
  exact hv same

/-- Below a common first entry two canonical tables that read the same still do. -/
theorem Map.get_tail_eq {k : Nat} {v : α} {t u : Map α} (wt : Map.wfFrom d (k + 1) t = true) (wu : Map.wfFrom d (k + 1) u = true)
    (same : ∀ a, Map.get d ((k, v) :: t) a = Map.get d ((k, v) :: u) a) (a : Nat) : Map.get d t a = Map.get d u a := by
  by_cases h : k = a
  · rw [Map.get_of_lt_wfFrom wt (by omega), Map.get_of_lt_wfFrom wu (by omega)]
  · simpa [Map.get, h] using same a

theorem Map.eq_of_get_eq {b c : Nat} {m n : Map α} (w : Map.wfFrom d b m = true) (z : Map.wfFrom d c n = true)
    (same : ∀ a, Map.get d m a = Map.get d n a) : m = n := by
  induction m generalizing b c n with
  | nil =>
    match n with
    | [] => rfl
    | (k, x) :: u => exact absurd ((same k).trans Map.get_head).symm (Map.wfFrom_cons.mp z).2.1
  | cons e t ih =>
    obtain ⟨j, v⟩ := e
    match n with
    | [] => exact absurd (Map.get_head.symm.trans (same j)) (Map.wfFrom_cons.mp w).2.1
    | (k, x) :: u =>
      obtain rfl : k = j := le_antisymm (Map.head_le w z (same j)) (Map.head_le z w (same k).symm)
      obtain rfl : v = x := Map.get_head.symm.trans ((same k).trans Map.get_head)
      obtain ⟨-, -, wt⟩ := Map.wfFrom_cons.mp w
      obtain ⟨-, -, zu⟩ := Map.wfFrom_cons.mp z
      rw [ih wt zu (Map.get_tail_eq wt zu same)]

end

/-! ### Bytes of DRAM -/

/-- A write of bytes changes memory alone. -/
theorem Pkg.memWrite_eq (s : Pkg) (a n x : Nat) : ∃ m, s.memWrite a n x = { s with mem := m } := by
  induction n generalizing s a x with
  | zero => exact ⟨s.mem, rfl⟩
  | succ n ih => exact ih (s.memSetByte a (BitVec.ofNat 8 x)) (a + 1) (x / 256)

theorem Pkg.memRead_congr {p q : Pkg} {a n : Nat} (same : ∀ j < n, q.memByte (a + j) = p.memByte (a + j)) : q.memRead a n = p.memRead a n := by
  induction n generalizing a with
  | zero => rfl
  | succ n ih =>
    have rest : q.memRead (a + 1) n = p.memRead (a + 1) n := ih fun j h => by
      simpa [Nat.add_assoc, Nat.add_comm 1] using same (j + 1) (by omega)
    have head : q.memByte a = p.memByte a := same 0 (by omega)
    rw [Pkg.memRead, Pkg.memRead, rest, head]

/-- Bytes that hold a number, least significant first (00 R6), read as it. -/
theorem Pkg.memRead_of_bytes {s : Pkg} {a n x : Nat} (bytes : ∀ j < n, s.memByte (a + j) = BitVec.ofNat 8 (x / 256 ^ j)) :
    s.memRead a n = x % 256 ^ n := by
  induction n generalizing a x with
  | zero => rw [Nat.pow_zero, Nat.mod_one, Pkg.memRead]
  | succ n ih =>
    have rest : s.memRead (a + 1) n = x / 256 % 256 ^ n := ih fun j h => by
      rw [Nat.div_div_eq_div_mul, ← Nat.pow_succ', ← bytes (j + 1) (by omega), Nat.add_assoc, Nat.add_comm 1]
    have head : s.memByte a = BitVec.ofNat 8 x := by simpa using bytes 0 (by omega)
    rw [Pkg.memRead, rest, head, BitVec.toNat_ofNat, Nat.pow_succ' (m := 256), Nat.mod_mul]

/-- The n bytes written read back as the number written, cut to n bytes. -/
theorem Pkg.memRead_memWrite (s : Pkg) (a n x : Nat) : (s.memWrite a n x).memRead a n = x % 256 ^ n :=
  Pkg.memRead_of_bytes fun j h => s.memByte_memWrite a n x j h

theorem toNat_lt_pow_256 {n : Nat} (x : BitVec (8 * n)) : x.toNat < 256 ^ n := x.isLt.trans_eq (Nat.pow_mul ..)

/-! ### Lines of DRAM (09 R245, R246) -/

/-- The newest write of a line that waits in its controller's queue. -/
def Pkg.queuedWrite (s : Pkg) (line : Nat) : Option McWr := (s.mc (mcOf line)).wq.reverse.find? (·.line == line)

theorem Pkg.queuedWrite_eq_none {s : Pkg} {line : Nat} (h : ∀ w ∈ (s.mc (mcOf line)).wq, w.line ≠ line) : s.queuedWrite line = none := by
  simpa [Pkg.queuedWrite] using h

theorem Pkg.dramLine_of_queued {s : Pkg} {line : Nat} {w : McWr} (loc : isGlobal line = false) (h : s.queuedWrite line = some w) :
    s.dramLine line = (w.data, w.poison) := by
  rw [Pkg.queuedWrite] at h
  simp [Pkg.dramLine, loc, h]

/-- What the devices hold of a line, decoded. -/
def Pkg.devLine (s : Pkg) (line : Nat) : DecOut :=
  decodeLine (BitVec.ofNat 512 (s.memRead (64 * line) 64)) (Map.get flag0 s.dpoison line) (Map.get sym0 s.dsym line)

theorem Pkg.dramLine_of_not_queued {s : Pkg} {line : Nat} (loc : isGlobal line = false) (h : s.queuedWrite line = none) :
    s.dramLine line = ((s.devLine line).data, (s.devLine line).poison) := by
  rw [Pkg.queuedWrite] at h
  simp [Pkg.dramLine, Pkg.devLine, loc, h]

/-- A local line reads the same in packages that queue and hold the same of it. -/
theorem Pkg.dramLine_congr {p q : Pkg} {line : Nat} (loc : isGlobal line = false) (queue : q.queuedWrite line = p.queuedWrite line)
    (dev : q.devLine line = p.devLine line) : q.dramLine line = p.dramLine line := by
  cases h : p.queuedWrite line with
  | none => rw [dramLine_of_not_queued loc h, dramLine_of_not_queued loc (queue.trans h), dev]
  | some w => rw [dramLine_of_queued loc h, dramLine_of_queued loc (queue.trans h)]

/-- A line without symbols in error is delivered as stored. -/
theorem decodeLine_of_no_errors (d : BitVec 512) (p : Bool) : (decodeLine d p []).data = d ∧ (decodeLine d p []).poison = p := by
  have clean : symNorm [] = [] := by decide
  simp [decodeLine, clean]

/-! ### A write to the devices (09 R246) -/

/-- A write to the devices changes memory, the line's poison and its symbols in error alone. -/
theorem Pkg.dramPut_eq (s : Pkg) (line : Nat) (d : BitVec 512) (b : Bool) :
    s.dramPut line d b = { s with
      mem := (s.memWrite (64 * line) 64 d.toNat).mem
      dpoison := Map.set flag0 s.dpoison line b
      dsym := Map.set sym0 s.dsym line [] } := by
  obtain ⟨m, e⟩ := s.memWrite_eq (64 * line) 64 d.toNat
  simp only [Pkg.dramPut, e]

theorem Pkg.queuedWrite_dramPut (s : Pkg) (line l : Nat) (d : BitVec 512) (b : Bool) : (s.dramPut line d b).queuedWrite l = s.queuedWrite l := by
  rw [Pkg.queuedWrite, Pkg.queuedWrite, Pkg.mc, Pkg.mc, Pkg.dramPut_eq]

theorem Pkg.devLine_dramPut_same (s : Pkg) (line : Nat) (d : BitVec 512) (b : Bool) :
    ((s.dramPut line d b).devLine line).data = d ∧ ((s.dramPut line d b).devLine line).poison = b := by
  have bytes : BitVec.ofNat 512 ((s.dramPut line d b).memRead (64 * line) 64) = d := by
    have written : (s.dramPut line d b).memRead (64 * line) 64 = (s.memWrite (64 * line) 64 d.toNat).memRead (64 * line) 64 :=
      Pkg.memRead_congr fun _ _ => rfl
    rw [written, Pkg.memRead_memWrite, Nat.mod_eq_of_lt (toNat_lt_pow_256 (n := 64) d), BitVec.ofNat_toNat, BitVec.setWidth_eq]
  have poison : Map.get flag0 (s.dramPut line d b).dpoison line = b := Map.get_set_same flag0 _ line b
  have errors : Map.get sym0 (s.dramPut line d b).dsym line = [] := Map.get_set_same sym0 _ line []
  rw [Pkg.devLine, bytes, poison, errors]
  exact decodeLine_of_no_errors d b

theorem Pkg.devLine_dramPut_other (s : Pkg) {line l : Nat} (d : BitVec 512) (b : Bool) (h : l ≠ line) :
    (s.dramPut line d b).devLine l = s.devLine l := by
  have bytes : (s.dramPut line d b).memRead (64 * l) 64 = s.memRead (64 * l) 64 :=
    Pkg.memRead_congr fun j _ => s.memByte_memWrite_other (64 * line) 64 d.toNat (64 * l + j) (by omega)
  have poison : Map.get flag0 (s.dramPut line d b).dpoison l = Map.get flag0 s.dpoison l := by
    rw [Pkg.dramPut_eq, Map.get_set_other flag0 _ line l b h]
  have errors : Map.get sym0 (s.dramPut line d b).dsym l = Map.get sym0 s.dsym l := by
    rw [Pkg.dramPut_eq, Map.get_set_other sym0 _ line l [] h]
  rw [Pkg.devLine, Pkg.devLine, bytes, poison, errors]

theorem Pkg.dramLine_dramPut_same {s : Pkg} {line : Nat} (d : BitVec 512) (b : Bool) (loc : isGlobal line = false)
    (unqueued : ∀ w ∈ (s.mc (mcOf line)).wq, w.line ≠ line) : (s.dramPut line d b).dramLine line = (d, b) := by
  obtain ⟨data, poison⟩ := s.devLine_dramPut_same line d b
  rw [dramLine_of_not_queued loc ((s.queuedWrite_dramPut ..).trans (queuedWrite_eq_none unqueued)), data, poison]

theorem Pkg.dramLine_dramPut_other (s : Pkg) {line l : Nat} (d : BitVec 512) (b : Bool) (h : l ≠ line) (loc : isGlobal l = false) :
    (s.dramPut line d b).dramLine l = s.dramLine l :=
  Pkg.dramLine_congr loc (s.queuedWrite_dramPut ..) (s.devLine_dramPut_other d b h)

/-! ### A write that enters its controller's queue (09 R248) -/

theorem Pkg.mc_updMc (s : Pkg) (i j : Nat) (f : Mc → Mc) : (s.updMc i f).mc j = if j = i then f (s.mc i) else s.mc j :=
  Map.get_set mc0 s.mcs i j (f (s.mc i))

theorem Pkg.wq_dramQueue (s : Pkg) (line i : Nat) (d : BitVec 512) (b : Bool) :
    ((s.dramQueue line d b).mc i).wq = if i = mcOf line then (s.mc i).wq ++ [⟨line, d, b⟩] else (s.mc i).wq := by
  rw [Pkg.dramQueue, Pkg.mc_updMc]
  split
  next h => rw [h]
  next => rfl

theorem Pkg.queuedWrite_dramQueue_same (s : Pkg) (line : Nat) (d : BitVec 512) (b : Bool) :
    (s.dramQueue line d b).queuedWrite line = some ⟨line, d, b⟩ := by
  simp [Pkg.queuedWrite, Pkg.wq_dramQueue]

theorem Pkg.queuedWrite_dramQueue_other (s : Pkg) {line l : Nat} (d : BitVec 512) (b : Bool) (h : l ≠ line) :
    (s.dramQueue line d b).queuedWrite l = s.queuedWrite l := by
  rw [Pkg.queuedWrite, Pkg.wq_dramQueue]
  split
  next => simp [Pkg.queuedWrite, h.symm]
  next => rfl

theorem Pkg.devLine_dramQueue (s : Pkg) (line l : Nat) (d : BitVec 512) (b : Bool) : (s.dramQueue line d b).devLine l = s.devLine l := by
  have bytes : (s.dramQueue line d b).memRead (64 * l) 64 = s.memRead (64 * l) 64 := Pkg.memRead_congr fun _ _ => rfl
  rw [Pkg.devLine, bytes]
  rfl

theorem Pkg.dramLine_dramQueue_same (s : Pkg) {line : Nat} (d : BitVec 512) (b : Bool) (loc : isGlobal line = false) :
    (s.dramQueue line d b).dramLine line = (d, b) :=
  Pkg.dramLine_of_queued loc (s.queuedWrite_dramQueue_same line d b)

theorem Pkg.dramLine_dramQueue_other (s : Pkg) {line l : Nat} (d : BitVec 512) (b : Bool) (h : l ≠ line) (loc : isGlobal l = false) :
    (s.dramQueue line d b).dramLine l = s.dramLine l :=
  Pkg.dramLine_congr loc (s.queuedWrite_dramQueue_other d b h) (s.devLine_dramQueue ..)

/-! ### The statement -/

/-- Settles O50: a line reads as its queue and its devices hold it, and a write changes these for its own line alone; a canonical table
lists exactly the keys that do not read as the default. -/
theorem memoryReadsBackAndStaysCanonical : Obligations.MemoryReadsBackAndStaysCanonical := by
  refine ⟨fun p line d b loc => ⟨?_, ?_, ?_, ?_, ?_⟩, ?_, ?_, ?_⟩
  · exact Pkg.dramLine_dramPut_same d b loc
  · exact fun l other hl => p.dramLine_dramPut_other d b other hl
  · exact p.dramLine_dramQueue_same d b loc
  · exact fun l other hl => p.dramLine_dramQueue_other d b other hl
  · exact p.wf_dramPut line d b
  · exact Pkg.memByte_memSetByte
  · exact Pkg.wf_memWrite
  · exact fun _ _ => Map.eq_of_get_eq

end Sys2Proof.Machine
end

section
/-! ## The thread selector (02_skevy_core)

What the selector picks (R36, R38), what of the package its cycles may change, and that a command of a head that has not been selected
selects it first. -/
namespace Sys2Proof.Machine

/-! ### The pick of a slot -/

/-- The first element in order that has an answer: whatever comes before it in the order has none. -/
theorem findSome?_first {α β : Type} {R : α → α → Prop} {f : α → Option β} {l : List α} {b : β} (sorted : l.Pairwise R)
    (h : l.findSome? f = some b) : ∃ a ∈ l, f a = some b ∧ ∀ c ∈ l, f c = none ∨ c = a ∨ R a c := by
  obtain ⟨l₁, a, l₂, rfl, fa, before⟩ := List.findSome?_eq_some_iff.mp h
  obtain ⟨-, after, -⟩ := List.pairwise_append.mp sorted
  refine ⟨a, by simp, fa, fun c hc => ?_⟩
  rcases List.mem_append.mp hc with h₁ | h₂
  · exact .inl (before c h₁)
  · rcases List.mem_cons.mp h₂ with rfl | h₂
    · exact .inr (.inl rfl)
    · exact .inr (.inr (List.rel_of_pairwise_cons after h₂))

theorem Sched.open_iff (k : Sched) (units : List (Nat × ExUnit)) (x : Cand) :
    k.open units x = true ↔ x.from' ≤ k.cyc ∧ k.divFree x ≤ k.cyc ∧ (∀ q ∈ units, q.1 ≠ x.t) ∧ unitFree units x.unit = true := by
  simp [Sched.open, Sched.readyNow, and_assoc]

theorem Sched.eff_lt {k : Sched} {x : Cand} (h : x.lev < 4) : k.eff x < 4 := by
  unfold Sched.eff
  split
  · decide
  · exact h

/-- How far after the pointer p a thread comes in the round. -/
def roundPos (p t : Nat) : Nat := (t + 7 - p % 8) % 8

theorem roundPos_lt (p t : Nat) : roundPos p t < 8 := Nat.mod_lt _ (by decide)

theorem eq_round_iff {p t i : Nat} (ht : t < 8) (hi : i < 8) : t = (p + 1 + i) % 8 ↔ i = roundPos p t := by
  unfold roundPos
  omega

/-- The search of one level: round-robin from its pointer. -/
def Sched.pickAt (k : Sched) (ptr : List Nat) (l : List Cand) (lv : Nat) : Option Cand :=
  (List.range 8).findSome? (fun i => l.find? (fun x => x.t == (k.from_ ptr lv + 1 + i) % 8 && k.eff x == lv && k.open k.slots x))

theorem Sched.pick_eq (k : Sched) (ptr : List Nat) (l : List Cand) : k.pick ptr l = [3, 2, 1, 0].findSome? (k.pickAt ptr l) := rfl

section
variable {k : Sched} {ptr : List Nat} {l : List Cand}

/-- A level at which a thread can be picked is not searched in vain. -/
theorem Sched.pickAt_isSome {y : Cand} (hy : y ∈ l) (ht : y.t < 8) (opn : k.open k.slots y = true) : k.pickAt ptr l (k.eff y) ≠ none := by
  intro none_
  have miss := List.findSome?_eq_none_iff.mp none_ (roundPos (k.from_ ptr (k.eff y)) y.t) (List.mem_range.mpr (roundPos_lt ..))
  have at_ := (eq_round_iff (p := k.from_ ptr (k.eff y)) ht (roundPos_lt ..)).mpr rfl
  have := List.find?_eq_none.mp miss y hy
  simp [opn, ← at_] at this

/-- The pick of a level is the first thread from its pointer on that can be picked at it. -/
theorem Sched.pickAt_some {x : Cand} {lv : Nat} (lt : ∀ y ∈ l, y.t < 8) (h : k.pickAt ptr l lv = some x) :
    x ∈ l ∧ k.open k.slots x = true ∧ k.eff x = lv
      ∧ ∀ y ∈ l, k.open k.slots y = true → k.eff y = lv → roundPos (k.from_ ptr lv) x.t ≤ roundPos (k.from_ ptr lv) y.t := by
  obtain ⟨i, hi, found, first⟩ := findSome?_first List.pairwise_lt_range h
  have hx := List.mem_of_find?_eq_some found
  obtain ⟨⟨at_, eff⟩, opn⟩ : (x.t = (k.from_ ptr lv + 1 + i) % 8 ∧ k.eff x = lv) ∧ k.open k.slots x = true := by
    simpa using List.find?_some found
  refine ⟨hx, opn, eff, fun y hy openY effY => ?_⟩
  rw [eq_round_iff (lt x hx) (List.mem_range.mp hi)] at at_
  have posY := (eq_round_iff (p := k.from_ ptr lv) (lt y hy) (roundPos_lt ..)).mpr rfl
  rcases first (roundPos (k.from_ ptr lv) y.t) (List.mem_range.mpr (roundPos_lt ..)) with miss | same | later
  · have := List.find?_eq_none.mp miss y hy
    simp [openY, effY, ← posY] at this
  · omega
  · omega

theorem Sched.pick_some {x : Cand} (lt : ∀ y ∈ l, y.t < 8 ∧ y.lev < 4) (h : k.pick ptr l = some x) :
    x ∈ l ∧ k.open k.slots x = true ∧ ∀ y ∈ l, k.open k.slots y = true → k.eff y ≤ k.eff x
      ∧ (k.eff y = k.eff x → roundPos (k.from_ ptr (k.eff x)) x.t ≤ roundPos (k.from_ ptr (k.eff x)) y.t) := by
  obtain ⟨lv, -, found, first⟩ := findSome?_first (R := (· > ·)) (by decide) ((k.pick_eq ptr l).symm.trans h)
  obtain ⟨hx, opn, rfl, least⟩ := Sched.pickAt_some (fun y hy => (lt y hy).1) found
  refine ⟨hx, opn, fun y hy openY => ⟨?_, least y hy openY⟩⟩
  have levY := Sched.eff_lt (k := k) (lt y hy).2
  rcases first (k.eff y) (by simp; omega) with miss | same | lower
  · exact absurd miss (Sched.pickAt_isSome hy (lt y hy).1 openY)
  · exact same.le
  · exact lower.le

theorem Sched.pick_none (lt : ∀ y ∈ l, y.t < 8 ∧ y.lev < 4) (h : k.pick ptr l = none) : ∀ y ∈ l, k.open k.slots y = false := by
  intro y hy
  by_contra opn
  have levY := Sched.eff_lt (k := k) (lt y hy).2
  exact Sched.pickAt_isSome hy (lt y hy).1 (Bool.not_eq_false _ ▸ opn)
    (List.findSome?_eq_none_iff.mp ((k.pick_eq ptr l).symm.trans h) (k.eff y) (by simp; omega))

end

/-! ### What the selector's cycles change -/

/-- q differs from p in cores and in Shimmy's registers and those after them alone. -/
def Pkg.OffShim (p q : Pkg) : Prop := (∀ o, o < shmBase → q.rd o = p.rd o) ∧ q = { p with cores := q.cores, drs := q.drs }

theorem Pkg.OffShim.refl (p : Pkg) : p.OffShim p := ⟨fun _ _ => rfl, rfl⟩

section
variable {p q : Pkg}

theorem Pkg.OffShim.updCore (w : p.OffShim q) (c : Nat) (f : Core → Core) : p.OffShim (q.updCore c f) := by
  obtain ⟨regs, rest⟩ := w
  refine ⟨regs, ?_⟩
  unfold Pkg.updCore Pkg.setCore
  rw [rest]

theorem Pkg.OffShim.wf (w : p.OffShim q) (o hi lo x : Nat) (h : shmBase ≤ o) : p.OffShim (q.wf o hi lo x) := by
  obtain ⟨regs, rest⟩ := w
  refine ⟨fun r hr => (Pkg.rd_wf_other _ _ _ _ _ _ (by omega)).trans (regs r hr), ?_⟩
  unfold Pkg.wf Pkg.wr
  rw [rest]

theorem shmBase_le_shmSlot (i k : Nat) : shmBase ≤ shmSlot i k := by
  unfold shmSlot
  omega

theorem Pkg.OffShim.shmDecide (w : p.OffShim q) (i : Nat) : p.OffShim (q.shmDecide i).1 := by
  have decided : ∀ x, p.OffShim ((q.wf (shmSlot i 6) 31 0 x).sat (shmSlot i 4) 47 0) :=
    fun x => (w.wf _ _ _ _ (shmBase_le_shmSlot ..)).wf _ _ _ _ (shmBase_le_shmSlot ..)
  exact iteInduction (motive := fun r : Pkg × Option Nat => p.OffShim r.1)
    (fun _ => (decided _).wf _ _ _ _ (shmBase_le_shmSlot ..)) (fun _ => decided _)

theorem Pkg.OffShim.shmAsk (w : p.OffShim q) (kind : Nat) (hit : Nat → Bool) : p.OffShim (q.shmAsk kind hit).1 := by
  unfold Pkg.shmAsk
  split
  · exact w
  · refine foldl_keeps (fun r : Pkg × List (Nat × Nat) => p.OffShim r.1) _ (fun r i wr => ?_) _ _ w
    have decided := wr.shmDecide i
    split
    · split
      next e => rwa [e] at decided
      next e => rwa [e] at decided
    · exact wr

theorem Pkg.OffShim.iter {f : Pkg → Pkg} (hf : ∀ r, p.OffShim r → p.OffShim (f r)) (n : Nat) (w : p.OffShim q) : p.OffShim (iter f n q) := by
  induction n generalizing q with
  | zero => exact w
  | succ n ih => exact ih (hf q w)

theorem Pkg.OffShim.shmSelect (w : p.OffShim q) (c n : Nat) : p.OffShim (q.shmSelect c n).1 := by
  unfold Pkg.shmSelect
  exact (Pkg.OffShim.iter (fun _ wr => wr.shmAsk 4 _) (n - 1) w).shmAsk 4 _

theorem Pkg.OffShim.cyclesPass (w : p.OffShim q) (c n : Nat) (l : List Cand) : p.OffShim (q.cyclesPass c l n) := by
  have selected := (w.updCore c (fun k => { k with sched := k.sched.pass l n })).shmSelect c n
  unfold Pkg.cyclesPass
  dsimp only
  split
  next e => rwa [e] at selected
  next e =>
    rw [e] at selected
    exact selected.updCore ..

theorem Pkg.OffShim.tdm (w : p.OffShim q) : q.tdm = p.tdm := by rw [w.2]

theorem Pkg.OffShim.thr (w : p.OffShim q) (h : Nat) : q.thr h = p.thr h := Pkg.thr_of_eq (by rw [w.2]) h

theorem Pkg.OffShim.live (w : p.OffShim q) : q.live = p.live := Pkg.live_of_eq (by rw [w.2]) (by rw [w.2])

end

/-- The selector's cycles up to its next pick change its core and Shimmy's registers alone. -/
theorem Pkg.turn_offShim {s r : Pkg} {c : Nat} {x : Cand} (e : s.turn c = some (r, x)) : s.OffShim r := by
  have passed := (Pkg.OffShim.refl s).cyclesPass c
  unfold Pkg.turn at e
  dsimp only at e
  split at e
  · cases e
    exact .refl s
  · split at e
    · cases e
    · split at e
      · cases e
        exact passed _ _
      · cases e

/-- A selection is the selector's cycles, the pick taken, and the thread's head marked as selected. -/
theorem Pkg.select_eq_some {s p : Pkg} {h : Nat} (e : s.select h = some p) :
    ∃ q, s.OffShim q ∧ p = q.updThr h (fun t => { t with sel := true }) := by
  unfold Pkg.select at e
  split at e
  · cases e
  next turn =>
    split at e
    · cases e
    · cases e
      exact ⟨_, (Pkg.turn_offShim turn).updCore .., rfl⟩

/-! ### Whether a head may go on -/

theorem Pkg.threadsRun_of_rd {p q : Pkg} (tdm : q.tdm = p.tdm) (state : q.rd tdmBase = p.rd tdmBase) : q.threadsRun = p.threadsRun := by
  unfold Pkg.threadsRun Pkg.tdmState Pkg.rf
  rw [tdm, state]

theorem Pkg.coreP_of_rd {p q : Pkg} {c : Nat} (power : q.rd (meshCpwr c) = p.rd (meshCpwr c)) : q.coreP c = p.coreP c := by
  unfold Pkg.coreP Pkg.rf
  rw [power]

theorem meshCpwr_lt_shmBase {c : Nat} (h : c < 256) : meshCpwr c < shmBase := by
  unfold meshCpwr meshBase tileBase footBase shmBase
  split_ifs <;> omega

/-- What a head's going on rests on. -/
theorem Pkg.mayGo_congr {p q : Pkg} {h : Nat} (st : (q.thr h).st = (p.thr h).st) (held : (q.thr h).held = (p.thr h).held)
    (walk : (q.thr h).walk = (p.thr h).walk) (ent : (q.thr h).ent = (p.thr h).ent) (await : (q.thr h).await = (p.thr h).await)
    (run : q.threadsRun = p.threadsRun) (power : q.coreP (h / 8) = p.coreP (h / 8)) : q.mayGo h = p.mayGo h := by
  simp only [Pkg.mayGo, st, held, walk, ent, await, run, power]

theorem Pkg.OffShim.mayGo_sel {s q : Pkg} (w : s.OffShim q) (h : Htid) : (q.updThr h (fun t => { t with sel := true })).mayGo h = s.mayGo h := by
  have run : q.threadsRun = s.threadsRun := Pkg.threadsRun_of_rd w.tdm (w.1 _ (by decide))
  have power : q.coreP (h / 8) = s.coreP (h / 8) := Pkg.coreP_of_rd (w.1 _ (meshCpwr_lt_shmBase (by omega)))
  exact Pkg.mayGo_congr (by simp [w.thr]) (by simp [w.thr]) (by simp [w.thr]) (by simp [w.thr]) (by simp [w.thr]) run power

/-! ### A head that has not been selected -/

/-- The head that has been selected executes: an ILLEGAL encoding raises vector 0, a serialising instruction waits for the load. -/
def Pkg.issueSelected (s : Pkg) (h : Nat) (w : Word32) (f : Pkg → Ins → Pkg) : Pkg :=
  match insDecode w with
  | none => (s.flushWake h).fault h 0 ((s.flushWake h).thr h).pc 0#64 0
  | some i => if i.serial && ((s.flushWake h).thr h).await.isSome then s.flushWake h else f (s.flushWake h) i

section
variable {s : Pkg} {h : Nat} {g : Grp} {w : Word32} (head : (s.thr h).head = some w) (grp : wordGrp w = g) (go : s.mayGo h = true)
include head grp go

theorem Pkg.issue_selected (sel : (s.thr h).sel = true) (f : Pkg → Ins → Pkg) : s.issue h g f = s.issueSelected h w f := by
  cases dec : insDecode w <;> simp [Pkg.issue, Pkg.issueSelected, head, grp, go, sel, dec]

theorem Pkg.issue_not_picked (sel : (s.thr h).sel = false) (none_ : s.select h = none) (f : Pkg → Ins → Pkg) : s.issue h g f = s := by
  simp [Pkg.issue, head, grp, go, sel, none_]

theorem Pkg.issue_picked (sel : (s.thr h).sel = false) {p : Pkg} (picked : s.select h = some p) (f : Pkg → Ins → Pkg) :
    s.issue h g f = p.issueSelected h w f := by
  cases dec : insDecode w <;> simp [Pkg.issue, Pkg.issueSelected, head, grp, go, sel, picked, dec]

end

/-- A command that executes a head instruction issues the head of its group. -/
theorem exec_of_headOf {c : Instr} {h : Htid} {g : Grp} (e : headOf c = some (h, g)) : ∃ f : Pkg → Ins → Pkg, ∀ s, exec c s = s.run (·.issue h g f) := by
  cases c with
  | integerOp | load =>
    rename_i chk
    cases chk <;> cases e
    exact ⟨_, fun _ => rfl⟩
  | branch | bal | balr | store | fpOp | fma | decOp | vecOp | cas | cas128 | amo | damoadd | mfsr | mtsr | scall | hcall | mcall | sret | eret
  | brk | trap | park | monitor | waitt | rdtime | htid | fence | fenceIo | fenceG | cva | iva | civa | csw | isw | cisw | tlbi | movb | fillb
  | cmpb | crcb =>
    cases e
    exact ⟨_, fun _ => rfl⟩
  | _ => cases e

theorem Thread.head_withSel (t : Thread) (b : Bool) : ({ t with sel := b } : Thread).head = t.head := rfl

section
variable {s : State} {h : Htid} {g : Grp} {w : Word32} (live : s.pkg.live = true) (sel : (s.pkg.thr h).sel = false) (go : s.pkg.mayGo h = true)
  (head : (s.pkg.thr h).head = some w) (grp : wordGrp w = g)
include live sel go head grp

theorem State.run_issue_none (f : Pkg → Ins → Pkg) (none_ : s.pkg.select h = none) : s.run (·.issue h g f) = .next s := by
  rw [State.run_live _ live, Pkg.issue_not_picked head grp go sel none_]
  rfl

theorem State.run_issue_select (f : Pkg → Ins → Pkg) {p : Pkg} (picked : s.pkg.select h = some p) :
    s.run (·.issue h g f) = (s.withPkg p).run (·.issue h g f) := by
  obtain ⟨q, off, marked⟩ := Pkg.select_eq_some picked
  have live' : p.live = true := by rw [marked]; exact off.live.trans live
  have go' : p.mayGo h = true := by rw [marked, off.mayGo_sel, go]
  have sel' : (p.thr h).sel = true := by rw [marked, Pkg.thr_updThr_same]
  have head' : (p.thr h).head = some w := by rw [marked, Pkg.thr_updThr_same, Thread.head_withSel, off.thr, head]
  rw [State.run_live _ live, State.run_live (s := s.withPkg p) _ live', Pkg.issue_picked head grp go sel picked]
  exact congrArg (fun r => Host.Outcome.next (s.withPkg r)) (Pkg.issue_selected head' grp go' sel' f).symm

end

/-! ### STARVATION_PROMOTION (R36) -/

theorem Pkg.promote_starved {s : Pkg} {h : Nat} (starved : 64 ≤ Map.get n0 (s.core (h / 8)).sched.starve (h % 8))
    (fresh : h % 8 ∉ (s.core (h / 8)).sched.noted) (u : s.Uncounted h) :
    s.promote h = s.updCore (h / 8) (fun q => { q with sched := { q.sched with noted := h % 8 :: q.sched.noted } }) := by
  have u' : (s.updCore (h / 8) (fun q => { q with sched := { q.sched with noted := h % 8 :: q.sched.noted } })).Uncounted h :=
    u.of_eq (by simp) (by simp)
  simp [Pkg.promote, starved, fresh, Pkg.pmu_uncounted u']

/-! ### The statement -/

/-- Settles O16: the pick by the order in which levels and threads are searched; a selection changes the selector, Shimmy's registers and
the mark of the head alone, so the command then meets the head as it was, selected. -/
theorem selectionIsStrictAndFair : Obligations.SelectionIsStrictAndFair := by
  refine ⟨fun k ptr l lt _ => ⟨fun x h => ?_, Sched.pick_none lt⟩, fun s live => ⟨fun c h g w e sel go head grp => ?_, fun h => ?_⟩⟩
  · obtain ⟨hx, opn, best⟩ := Sched.pick_some lt h
    obtain ⟨ready, div, other, unit⟩ := (k.open_iff ..).mp opn
    exact ⟨hx, ready, div, unit, other, best⟩
  · obtain ⟨f, run⟩ := exec_of_headOf e
    refine ⟨fun p picked => ?_, fun none_ => ?_⟩
    · rw [run, run, State.run_issue_select live sel go head grp f picked]
    · rw [run, State.run_issue_none live sel go head grp f none_]
  · intro k starved fresh u
    exact (State.run_live _ live).trans (by rw [Pkg.promote_starved starved fresh u])

end Sys2Proof.Machine
end

section
/-! ## Two statements that fail: merge buffers with a line twice, and a corrected error that wakes a thread (02_skevy_core) -/
namespace Sys2Proof.Machine

/-- A command that runs answers the state that its effect leaves. -/
theorem State.run_next {s : State} {f : Pkg → Pkg} {q : Pkg} (l : s.pkg.live = true) (e : s.run f = .next (s.withPkg q)) : f s.pkg = q :=
  congrArg State.pkg (Host.Outcome.next.inj ((State.run_live f l).symm.trans e))

/-! ### PERMISSION_GRANT (02 R49) -/

/-- Core 0 waits for permission of line 1, which its L2 holds in M. Its merge buffer has the line twice: without permission, and with it,
owed to a store of thread 0 that is ready to drain. -/
def twiceMerged : Pkg where
  pins := { vaux := true, pwrgood := true }
  threads := [(0, { st := .run, sb := [⟨64, 0, 8, 5⟩] })]
  cores := [(0, {
    merge := [{ line := 1, perm := false, ai := 0, data := 0#512, poison := false, last := 0 },
      { line := 1, perm := true, ai := 0, data := 0#512, poison := false, last := 0, owe := some 0 }]
    miss := [{ thr := 0, line := 1, kind := .perm, ai := 0, stream := false, data := none }] })]
  l2 := [(16, { line := 1, st := .M })]

/-- The store that is ready to drain comes first (R51): the grant waits, and its request stays. -/
theorem twiceMerged_grant_waits : ((twiceMerged.permGrant 0 1 0 .none).core 0).miss.length = 1 := by decide +kernel

/-- Refutes O18: a grant waits while the core's merge buffer holds the line, a second time, for a store that is ready to drain. -/
theorem not_storesAndBuffersReachTheirLines : ¬ Obligations.StoresAndBuffersReachTheirLines := by
  intro h
  have live : ({ pkg := twiceMerged } : State).pkg.live = true := by decide
  obtain ⟨-, -, -, grant, -⟩ := h { pkg := twiceMerged } live (by decide +kernel)
  obtain ⟨q, e, -, miss, -⟩ := grant 0 1 16 0 { thr := 0, line := 1, kind := .perm, ai := 0, stream := false, data := none }
    { line := 1, perm := false, ai := 0, data := 0#512, poison := false, last := 0 }
    (by decide +kernel) (by decide +kernel) rfl rfl (by decide +kernel) (.inl (by decide +kernel)) (by decide +kernel) rfl (by decide +kernel)
  have waits := twiceMerged_grant_waits
  have ended : ((twiceMerged.core 0).miss.filter (fun x => !(x.line == 1 && x.kind == .perm))).length = 0 := by decide +kernel
  rw [show twiceMerged.permGrant 0 1 0 .none = q from State.run_next live e] at waits
  exact absurd (waits.symm.trans ((congrArg List.length miss).trans ended)) (by decide)

/-! ### A corrected error at the threshold of its window (17 R433) -/

/-- Thread 0 is parked with interrupts enabled; core 0's ERR_WIN has the threshold 1, and its ERR_IRQ names vector 64 of that thread, which
its TIC enables. -/
def parkedAtThreshold : Pkg where
  threads := [(0, { st := .parked, sr := [(0x100, 7#64)] })]
  drs := [(Win.err (.core 0) + 0x28, 1#64), (Win.err (.core 0) + 0x30, 0x80400000#64), (ticEn 0, 1#64)]

theorem parkedAtThreshold_wakes : ((parkedAtThreshold.record (.core 0) { cls := 0, code := 1 }).thr 0).st = .run := by decide +kernel

/-- Refutes O51: a corrected error that reaches its window's threshold raises the unit's interrupt (17 R433), and the thread wakes. -/
theorem not_coreChecksRecordAndStop : ¬ Obligations.CoreChecksRecordAndStop := by
  intro h
  obtain ⟨-, -, -, -, -, -, -, counted⟩ :=
    h { pkg := { pins := { vaux := true, pwrgood := true } } } 0 { unit := 0, shared := false } (.integerOp 0) (by decide) (by decide) (.inl rfl)
  obtain ⟨-, threads⟩ := counted parkedAtThreshold { cls := 0, code := 1 } rfl
  have kept : ((parkedAtThreshold.record (.core 0) { cls := 0, code := 1 }).thr 0).st = .parked :=
    (congrArg Thread.st (Pkg.thr_of_eq threads 0)).trans rfl
  exact absurd (parkedAtThreshold_wakes.symm.trans kept) (by decide)

end Sys2Proof.Machine
end

section
/-! ## Fetch, held loads, fills and table walks (02_skevy_core, 05_address_translation)

What FETCH_BLOCK, LOAD_REISSUE, FILL_ARRIVAL and TABLE_WALK leave where each gives its thread what it waits for. -/
namespace Sys2Proof.Machine

/-! ### FETCH_BLOCK (02 R34) -/

/-- The port has served thread h: it is the last of the round, and its redirect is no longer pending. -/
def Pkg.served (s : Pkg) (h : Nat) : Pkg :=
  (s.updCore (h / 8) (fun q => { q with rrFetch := h % 8 })).updThr h (fun t => { t with redirect := false })

theorem Pkg.served_eq (s : Pkg) (h : Nat) :
    s.served h = (s.updCore (h / 8) (fun q => { q with rrFetch := h % 8 })).updThr h (fun t => { t with redirect := false }) := rfl

theorem Pkg.served_l1i (s : Pkg) (h : Nat) : (s.served h).l1i = s.l1i := rfl

theorem Pkg.served_thr_same (s : Pkg) (h : Nat) : (s.served h).thr h = { s.thr h with redirect := false } := by simp [Pkg.served]

theorem Pkg.served_thr_other (s : Pkg) {h k : Nat} (n : k ≠ h) : (s.served h).thr k = s.thr k := by
  simp [Pkg.served, Pkg.thr_updThr_other _ _ _ _ n]

theorem Pkg.served_core (s : Pkg) (h : Nat) : (s.served h).core (h / 8) = { s.core (h / 8) with rrFetch := h % 8 } := by simp [Pkg.served]

theorem Pkg.Uncounted.served {s : Pkg} {h : Nat} (u : s.Uncounted h) : (s.served h).Uncounted h :=
  u.of_eq (fun i _ => by rw [Pkg.served_thr_same]; rfl) (by rw [Pkg.served_core])

theorem Pkg.nextLine_off {s : Pkg} {h : Nat} (off : s.rb (coreBase (h / 8)) 0 = false) (pa ai : Nat) : s.nextLine h pa ai = s := by
  simp [Pkg.nextLine, off]

theorem Pkg.tlbCount_uncounted {s : Pkg} {h : Nat} (u : s.Uncounted h) (ev : Nat) (l : List (Bool × Bool × Bool)) : s.tlbCount h ev l = s := by
  simp [Pkg.tlbCount, Pkg.pmu_uncounted u]

/-- A block enters the queue as DE decodes it; fetch goes on behind it. -/
theorem Pkg.pushBlock_thr_same (s : Pkg) (h : Nat) (d : BitVec 512) :
    let b := deBlock (s.thr h).fpc (blockWords d ((s.thr h).fpc.toNat % 64))
    (s.pushBlock h d).thr h
      = { s.thr h with queue := (s.thr h).queue ++ b.1, fpc := b.2.1, fstall := (s.thr h).fstall || b.2.2, redirect := false } :=
  Pkg.thr_updThr_same ..

theorem Pkg.pushBlock_thr_other (s : Pkg) {h k : Nat} (d : BitVec 512) (n : k ≠ h) : (s.pushBlock h d).thr k = s.thr k :=
  Pkg.thr_updThr_other _ _ _ _ n

theorem Pkg.fetch_other {s : Pkg} {h : Nat} (turn : s.fetchTurn (h / 8) ≠ some (h % 8)) (par : Bool) : s.fetch h par = s := by
  simp [Pkg.fetch, turn]

/-- A line of the L1I becomes the youngest of its set (06 R170). -/
def Pkg.touchL1i (s : Pkg) (k : Nat) : Pkg := { s with l1i := Map.set line0 s.l1i k { Map.get line0 s.l1i k with age := 0 } }

@[simp] theorem Pkg.touchL1i_thr (s : Pkg) (k h : Nat) : (s.touchL1i k).thr h = s.thr h := rfl
@[simp] theorem Pkg.touchL1i_core (s : Pkg) (k c : Nat) : (s.touchL1i k).core c = s.core c := rfl

theorem Pkg.Uncounted.touchL1i {s : Pkg} {h : Nat} (u : s.Uncounted h) (k : Nat) : (s.touchL1i k).Uncounted h :=
  u.of_eq (fun _ _ => by rw [Pkg.touchL1i_thr]) (by rw [Pkg.touchL1i_core])

/-- The fetch that the port serves finds its line in the L1I. -/
theorem Pkg.fetch_hit {s : Pkg} {h pa ai k : Nat} (turn : s.fetchTurn (h / 8) = some (h % 8))
    (xl : (s.served h).xlate h (s.thr h).lvl (s.thr h).fpc .fetch = (s.served h, .ok pa ai)) (inRegion : (s.served h).regionErr pa ai = none)
    (hit : s.findL1i (h / 8) (pa / 64) = some k) (clean : (Map.get line0 s.l1i k).poison = false)
    (noPrefetch : s.rb (coreBase (h / 8)) 0 = false) (u : s.Uncounted h) :
    s.fetch h false = ((s.served h).touchL1i k).pushBlock h (Map.get line0 (s.served h).l1i k).data := by
  have hit' : (s.served h).findL1i (h / 8) (pa / 64) = some k := hit
  have clean' : (Map.get line0 (s.served h).l1i k).poison = false := clean
  have counted : ((s.served h).touchL1i k).tlbCount h 0x16 [(s.served h).tlbSeen h (s.thr h).lvl (s.thr h).fpc .fetch] = (s.served h).touchL1i k :=
    Pkg.tlbCount_uncounted (u.served.touchL1i k) ..
  have off : (((s.served h).touchL1i k).pushBlock h (Map.get line0 (s.served h).l1i k).data).rb (coreBase (h / 8)) 0 = false :=
    (Pkg.rb_of_drs (p := s) rfl ..).trans noPrefetch
  rw [Pkg.fetch, if_neg (by simp [turn])]
  simp only [← Pkg.served_eq, xl, inRegion, hit', Bool.false_eq_true, if_false]
  rw [if_neg (ne_true_of_eq_false clean')]
  exact (congrArg (fun p : Pkg => (p.pushBlock h (Map.get line0 (s.served h).l1i k).data).nextLine h pa ai) counted).trans (Pkg.nextLine_off off pa ai)

theorem exec_fetchBlock_hit {s : State} {h : Htid} {pa ai k : Nat} (live : s.pkg.live = true)
    (turn : s.pkg.fetchTurn (h / 8) = some ((h : Nat) % 8))
    (xl : (s.pkg.served h).xlate h (s.pkg.thr h).lvl (s.pkg.thr h).fpc .fetch = (s.pkg.served h, .ok pa ai))
    (inRegion : (s.pkg.served h).regionErr pa ai = none) (hit : s.pkg.findL1i (h / 8) (pa / 64) = some k)
    (clean : (Map.get line0 s.pkg.l1i k).poison = false) (noPrefetch : s.pkg.rb (coreBase (h / 8)) 0 = false) (u : s.pkg.Uncounted h) :
    let t := s.pkg.thr h
    ∃ q, exec (.fetchBlock ⟨h, false⟩) s = .next (s.withPkg q)
      ∧ (let b := deBlock t.fpc (blockWords (Map.get line0 s.pkg.l1i k).data (t.fpc.toNat % 64))
         q.thr h = { t with queue := t.queue ++ b.1, fpc := b.2.1, fstall := t.fstall || b.2.2, redirect := false })
      ∧ (∀ j, j ≠ (h : Nat) → q.thr j = s.pkg.thr j)
      ∧ q = { s.pkg with threads := q.threads, cores := q.cores, l1i := q.l1i } ∧ (q.core (h / 8)).rrFetch = h % 8 := by
  refine ⟨_, (State.run_live _ live).trans (by rw [Pkg.fetch_hit turn xl inRegion hit clean noPrefetch u]), ?_, fun j n => ?_, rfl, ?_⟩
  · dsimp only
    rw [Pkg.pushBlock_thr_same, Pkg.touchL1i_thr, Pkg.served_thr_same, Pkg.served_l1i]
  · exact (Pkg.pushBlock_thr_other _ _ n).trans (s.pkg.served_thr_other n)
  · exact congrArg Core.rrFetch (s.pkg.served_core h)

/-! ### LOAD_REISSUE (02 R47) -/

theorem Pkg.loadReissue_free {s : Pkg} {h : Nat} (held : (s.thr h).held = true) (free : s.loadHeld h (s.thr h).hparts = false) :
    s.loadReissue h = s.updThr h (fun t => { t with held := false, hparts := [] }) := by
  simp [Pkg.loadReissue, held, free]

/-! ### Lines that a tile does not hold -/

/-- A change of a core that leaves its merge buffer. -/
theorem Pkg.mergeOf_updCore (s : Pkg) (c d line : Nat) (f : Core → Core) (same : (f (s.core c)).merge = (s.core c).merge) :
    (s.updCore c f).mergeOf d line = s.mergeOf d line := by
  unfold Pkg.mergeOf
  by_cases h : d = c
  · rw [h, Pkg.core_updCore_same, same]
  · rw [Pkg.core_updCore_other _ _ _ _ h]

/-- The cores of a tile are a core and its sibling. -/
theorem core_of_tile {c d : Nat} (h : d = 2 * (c / 2) ∨ d = 2 * (c / 2) + 1) : d = c ∨ d = sibling c := by
  unfold sibling
  split <;> omega

theorem Pkg.owing_unmerged {s : Pkg} {c line : Nat} (own : s.mergeOf c line = none) (other : s.mergeOf (sibling c) line = none) :
    s.owing (c / 2) line = false := by
  have unmerged : ∀ d, d = 2 * (c / 2) ∨ d = 2 * (c / 2) + 1 → ∀ m ∈ (s.core d).merge, (m.line == line) = false := fun d hd m hm => by
    have none_ : s.mergeOf d line = none := by rcases core_of_tile hd with rfl | rfl <;> assumption
    simpa using List.find?_eq_none.mp none_ m hm
  unfold Pkg.owing
  rw [List.any_eq_false]
  intro d hd
  rw [Bool.not_eq_true, List.any_eq_false]
  intro m hm
  simp [unmerged d (by simpa using hd) m hm]

theorem Pkg.find_permitted_unmerged {s : Pkg} {c line : Nat} (h : s.mergeOf c line = none) :
    (s.core c).merge.find? (fun m => m.line == line && m.perm) = none := by
  rw [List.find?_eq_none]
  exact fun m hm both => List.find?_eq_none.mp h m hm (Bool.and_eq_true_iff.mp both).1

theorem Pkg.releaseMerge_unmerged {s : Pkg} {c line : Nat} (h : s.mergeOf c line = none) : s.releaseMerge c line = s := by
  simp [Pkg.releaseMerge, Pkg.find_permitted_unmerged h]

theorem Pkg.lookTile_absent {s : Pkg} {c line : Nat} (l1 : s.findL1d c line = none) (own : s.mergeOf c line = none)
    (other : s.mergeOf (sibling c) line = none) (l2 : s.findL2 (c / 2) line = none) (stream : Bool) : s.lookTile c line stream = (s, none) := by
  simp [Pkg.lookTile, l1, Pkg.find_permitted_unmerged own, Pkg.releaseMerge_unmerged other, l2]

/-! ### A waiting load takes its value (02 R53) -/

theorem Pkg.chunkLimit_alone {s : Pkg} (p : s.paired = false) (h : Nat) : s.chunkLimit h = s := by
  simp [Pkg.chunkLimit, Pkg.commit_alone p]

theorem Thread.await_deliver (t : Thread) (d : Dest) (x : Nat) : (t.deliver d x).await = t.await := by
  cases d <;> simp [Thread.deliver]

theorem partsValue_one (p : Part) {x : Nat} (got : p.got = some x) : partsValue [p] = some (x % 2 ^ (8 * p.n)) := by
  simp [partsValue, got]

/-- A load of one part. -/
theorem Pkg.partDone_one {s : Pkg} {h : Nat} {a : Await} {p : Part} (alone : s.paired = false) (await : (s.thr h).await = some a) (one : a.parts = [p])
    (notBuf : a.dest ≠ .buf) (notBlk : a.blk = false) (noFlags : a.dflags = false) (x : Nat) :
    (s.partDone h 0 x).thr h = Thread.deliver { s.thr h with await := none } a.dest (x % 2 ^ (8 * p.n))
      ∧ (∀ k, k ≠ h → (s.partDone h 0 x).thr k = s.thr k) ∧ ∃ l, s.partDone h 0 x = { s with threads := l } := by
  have e : s.partDone h 0 x
      = (s.updThr h (fun t => { t with await := some { a with parts := [{ p with got := some x }] } })).updThr h
          (fun t => Thread.deliver { t with await := none } a.dest (x % 2 ^ (8 * p.n))) := by
    have got : s.partDone h 0 x = (s.updThr h (fun t => { t with await := some { a with parts := [{ p with got := some x }] } })).loadDone h := by
      simp [Pkg.partDone, Pkg.updThr, await, one]
    have value : partsValue [{ p with got := some x }] = some (x % 2 ^ (8 * p.n)) := partsValue_one _ rfl
    rw [got, Pkg.loadDone, Pkg.thr_updThr_same]
    simp only [value, beq_eq_false_iff_ne.mpr notBuf, notBlk, noFlags, Bool.false_eq_true, if_false]
    exact Pkg.chunkLimit_alone (by exact alone) h
  rw [e]
  exact ⟨by simp, fun k n => by rw [Pkg.thr_updThr_other _ _ _ _ n, Pkg.thr_updThr_other _ _ _ _ n], _, rfl⟩

/-- With its line just arrived, a load of one part that no older store answers is complete. -/
theorem Pkg.loadGo_given {s : Pkg} {h pa ai n : Nat} {a : Await} (alone : s.paired = false) (await : (s.thr h).await = some a)
    (one : a.parts = [⟨pa, ai, n, none⟩]) (notBuf : a.dest ≠ .buf) (notBlk : a.blk = false) (noFlags : a.dflags = false)
    (noStore : forwardOf ((s.thr h).sb.take a.nsb) pa n = .none) (d : BitVec 512) (fuel : Nat) :
    s.loadGo h (some (pa / 64, some (d, false))) (fuel + 2) = s.partDone h 0 (lineGet d (pa % 64) n) := by
  obtain ⟨thr, -, -⟩ := Pkg.partDone_one alone await one notBuf notBlk noFlags (lineGet d (pa % 64) n)
  have done : ((s.partDone h 0 (lineGet d (pa % 64) n)).thr h).await = none := by rw [thr, Thread.await_deliver]
  have finds : a.parts.findIdx? (·.got.isNone) = some 0 := by simp [one]
  have first : a.parts.getD 0 ⟨0, 0, 0, none⟩ = ⟨pa, ai, n, none⟩ := by simp [one]
  have arrived : s.lineAt h (pa / 64) (some (pa / 64, some (d, false))) = (s, some (d, false)) := by simp [Pkg.lineAt, Option.filter]
  rw [Pkg.loadGo]
  simp only [await, finds, first, Pkg.sigWait_alone alone, Bool.false_eq_true, if_false, noStore, arrived, Pkg.chunkRead_alone alone]
  rw [Pkg.loadGo]
  simp only [done]

theorem lineGet_mod (d : BitVec 512) (o n : Nat) : lineGet d o n % 2 ^ (8 * n) = lineGet d o n := Nat.mod_mod _ _

/-! ### FILL_ARRIVAL (02 R52, R53) -/

/-- Miss entry j of core c is free again. -/
def Pkg.endMiss (s : Pkg) (c j : Nat) : Pkg := s.updCore c (fun k => { k with miss := k.miss.eraseIdx j })

theorem Pkg.endMiss_eq (s : Pkg) (c j : Nat) : s.endMiss c j = s.updCore c (fun k => { k with miss := k.miss.eraseIdx j }) := rfl

@[simp] theorem Pkg.endMiss_thr (s : Pkg) (c j h : Nat) : (s.endMiss c j).thr h = s.thr h := rfl

theorem Pkg.endMiss_miss (s : Pkg) (c j : Nat) : ((s.endMiss c j).core c).miss = (s.core c).miss.eraseIdx j := by simp [Pkg.endMiss]

theorem Pkg.endMiss_mergeOf (s : Pkg) (c j d line : Nat) : (s.endMiss c j).mergeOf d line = s.mergeOf d line :=
  Pkg.mergeOf_updCore s c d line _ rfl

section
variable {s : Pkg} {c j : Nat} {m : Miss} {a : Await} {pa ai n : Nat} {d : BitVec 512}

/-- A line that the home has delivered without a copy goes to the waiting load alone. -/
theorem Pkg.fillLoad_delivered (alone : s.tdmState = 0) (noErr : m.err = none) (data : m.data = some (d, false)) (notAsked : m.asked = none)
    (await : (s.thr (8 * c + m.thr)).await = some a) (one : a.parts = [⟨pa, ai, n, none⟩]) (notBuf : a.dest ≠ .buf) (notBlk : a.blk = false)
    (noFlags : a.dflags = false) (line : pa / 64 = m.line) (noStore : forwardOf ((s.thr (8 * c + m.thr)).sb.take a.nsb) pa n = .none)
    (l1 : s.findL1d c m.line = none) (own : s.mergeOf c m.line = none) (other : s.mergeOf (sibling c) m.line = none)
    (l2 : s.findL2 (c / 2) m.line = none) (ns : Nat) :
    s.fillLoad c j ns .none m
      = (s.endMiss c j).partDone (8 * c + m.thr) 0 (lineGet d (pa % 64) n) := by
  have paired := Pkg.paired_off alone
  have looked : (s.endMiss c j).lookTile c m.line m.stream = (s.endMiss c j, none) :=
    Pkg.lookTile_absent (s := s.endMiss c j) l1 ((s.endMiss_mergeOf ..).trans own) ((s.endMiss_mergeOf ..).trans other) l2 _
  have go := Pkg.loadGo_given (s := s.endMiss c j) paired await one notBuf notBlk noFlags noStore d 1
  rw [line] at go
  simp only [Pkg.fillLoad, Pkg.sigWait_alone paired, Pkg.owing_unmerged own other, Bool.or_self, Bool.false_eq_true, if_false, notAsked, noErr, data,
    Option.isNone_some, ← Pkg.endMiss_eq, looked]
  exact go

theorem Pkg.fillArrival_load (entry : (s.core c).miss[j]? = some m) (load : m.kind = .load) (noTrk : s.trkOf m.line = none)
    (data : m.data = some (d, false)) (ns : Nat) (e : ArrErr) : s.fillArrival c j ns e = s.fillLoad c j ns e m := by
  simp [Pkg.fillArrival, entry, load, noTrk, data]

end

/-! ### TABLE_WALK (05 R146) -/

theorem Pkg.fetchMeets_next {s : Pkg} {h : Nat} (queue : (s.thr h).queue = []) (await : (s.thr h).await = none) (next : (s.thr h).fpc = (s.thr h).pc)
    (notLagged : (s.thr h).lagged = false) (quiet : s.pickVector h = none) (f : Pkg → Pkg) : s.fetchMeets h f = f s := by
  simp [Pkg.fetchMeets, queue, await, next, notLagged, quiet]

section
variable {s : Pkg} {h : Nat} {w : WalkReq} (walk : (s.thr h).walk = some w)
  (go : (s.updThr h (fun t => { t with walk := none })).mayGo h = true)
include walk go

theorem Pkg.tableWalk_fetch (fetch : w.kind = .fetch) (queue : (s.thr h).queue = []) (await : (s.thr h).await = none)
    (next : (s.thr h).fpc = (s.thr h).pc) (notLagged : (s.thr h).lagged = false) (quiet : s.pickVector h = none) {p : Pkg} {x : Nat × Nat}
    (xl : s.xlateNow h (s.thr h).lvl (s.thr h).fpc .fetch = (p, .ok x)) (u : p.Uncounted h) :
    s.tableWalk h = p.updThr h (fun t => { t with walk := none }) := by
  simp only [Pkg.tableWalk, walk, go, fetch, Bool.not_true, Bool.false_eq_true, if_false, if_true,
    Pkg.fetchMeets_next queue await next notLagged quiet, xl]
  exact Pkg.tlbCount_uncounted (u.updThr (fun _ _ => rfl)) ..

theorem Pkg.tableWalk_data (data : w.kind ≠ .fetch) {e : Word32} {i : Ins} (head : (s.thr h).head = some e) (dec : insDecode e = some i) :
    s.tableWalk h = (s.updThr h (fun t => { t with walk := none })).execIns h true i := by
  simp [Pkg.tableWalk, walk, go, data, head, dec]

end

/-! ### The statement -/

/-- Settles O17: each clause is the lemma about its command. -/
theorem fetchWalkAndFillGiveThreadsWhatTheyWaitFor : Obligations.FetchWalkAndFillGiveThreadsWhatTheyWaitFor := by
  intro s live alone
  refine ⟨?_, fun h par turn => ?_, fun h held free => ?_, ?_, ?_, ?_⟩
  · exact fun h pa ai k turn xl inRegion hit clean noPrefetch u => exec_fetchBlock_hit live turn xl inRegion hit clean noPrefetch u
  · exact (State.run_live _ live).trans (by rw [Pkg.fetch_other turn]; rfl)
  · exact (State.run_live _ live).trans (by rw [Pkg.loadReissue_free held free])
  · intro c j ns m a pa ai n d entry load noErr data notAsked noTrk h await one notBuf notBlk noFlags line _ noStore l1 own other l2
    have fill := Pkg.fillLoad_delivered (j := j) alone noErr data notAsked await one notBuf notBlk noFlags line noStore l1 own other l2 ns
    obtain ⟨thr, others, l, rest⟩ := Pkg.partDone_one (s := s.pkg.endMiss c j) (Pkg.paired_off alone) await one notBuf notBlk noFlags (lineGet d (pa % 64) n)
    refine ⟨_, (State.run_live _ live).trans (by rw [Pkg.fillArrival_load entry load noTrk data, fill]), ?_, fun k hk => ?_, ?_, ?_, ?_⟩
    · rw [thr, lineGet_mod, Pkg.endMiss_thr]
    · rw [others k hk, Pkg.endMiss_thr]
    · rw [rest]
      exact s.pkg.endMiss_miss c j
    · rw [rest]; rfl
    · rw [rest]; rfl
  · intro h p x w walk fetch go queue await next notLagged quiet xl u
    exact (State.run_live _ live).trans (by rw [Pkg.tableWalk_fetch walk go fetch queue await next notLagged quiet xl u])
  · intro h w e i walk data go head dec
    exact (State.run_live _ live).trans (by rw [Pkg.tableWalk_data walk go data head dec])

end Sys2Proof.Machine
end

section
/-! ## Thread commands, wakes and interrupts (02_skevy_core, 03_instruction_set, 04_privilege_exceptions_interrupts)

What the commands of CORE_THR_CTL, time, counters and the TIC's inputs do to threads in a package that is in no pair, Shimmy off. -/
namespace Sys2Proof.Machine

/-! ### Time that passes, and Shimmy off -/

@[simp] theorem Pkg.elapse_shm (s : Pkg) (dt : Nat) : (s.elapse dt).shm = s.shm := by rw [Pkg.elapse_eq]
@[simp] theorem Pkg.elapse_boot (s : Pkg) (dt : Nat) : (s.elapse dt).boot = s.boot := by rw [Pkg.elapse_eq]
@[simp] theorem Pkg.elapse_thr (s : Pkg) (dt h : Nat) : (s.elapse dt).thr h = s.thr h := Pkg.thr_of_eq (s.elapse_threads dt) h

theorem Pkg.live_elapse (s : Pkg) (dt : Nat) : (s.elapse dt).live = s.live := Pkg.live_of_eq (s.elapse_boot dt) (s.elapse_pins dt)

theorem Pkg.tdmState_elapse (s : Pkg) (dt : Nat) : (s.elapse dt).tdmState = s.tdmState := by
  unfold Pkg.tdmState Pkg.rf
  rw [Pkg.rd_elapse _ _ _ (by decide)]

theorem State.runAt_live {s : State} (l : s.pkg.live = true) (dt : Nat) (f : Pkg → Pkg) :
    s.runAt dt f = .next (s.withPkg (f (s.pkg.elapse dt))) := by
  simp [State.runAt, State.on, Pkg.ifLive, State.withPkg, Pkg.live_elapse, l]

theorem Pkg.shmHas_idle {s : Pkg} (idle : s.shm.acts = []) (kind what : Nat) : s.shmHas kind what = false := by
  simp [Pkg.shmHas, idle]

theorem Pkg.shmSkew_off {s : Pkg} (off : s.shm.on = false) (bit what arg : Nat) (k : Pkg → Pkg) : s.shmSkew bit what arg k = k s := by
  simp [Pkg.shmSkew, Pkg.shmAsk, off, shmSum]

/-! ### What a change in a TIC leaves -/

/-- Cores, and every thread's system registers, are as before. -/
def Pkg.SameSr (p q : Pkg) : Prop := q.cores = p.cores ∧ ∀ k, (q.thr k).sr = (p.thr k).sr

theorem Pkg.SameSr.refl (p : Pkg) : p.SameSr p := ⟨rfl, fun _ => rfl⟩

theorem Pkg.SameSr.trans {p q r : Pkg} (a : p.SameSr q) (b : q.SameSr r) : p.SameSr r :=
  ⟨b.1.trans a.1, fun k => (b.2 k).trans (a.2 k)⟩

theorem Pkg.SameSr.rs {p q : Pkg} (a : p.SameSr q) (k n : Nat) : (q.thr k).rs n = (p.thr k).rs n := by
  unfold Thread.rs
  rw [a.2]

theorem Pkg.sameSr_updThr (s : Pkg) {h : Nat} {f : Thread → Thread} (hf : (f (s.thr h)).sr = (s.thr h).sr) : s.SameSr (s.updThr h f) := by
  refine ⟨rfl, fun k => ?_⟩
  by_cases e : k = h
  · rw [e, Pkg.thr_updThr_same, hf]
  · rw [Pkg.thr_updThr_other _ _ _ _ e]

theorem Thread.sr_wake (t : Thread) (reason : Nat) : (t.wake reason).sr = t.sr := by
  unfold Thread.wake
  split
  · rfl
  · split
    · rw [Thread.wg_sr]
    · rfl
  · rfl

/-- A wake changes threads alone. -/
theorem Pkg.wakeThr_eq (s : Pkg) (h reason : Nat) : ∃ l, s.wakeThr h reason = { s with threads := l } := by
  unfold Pkg.wakeThr
  split
  · exact ⟨s.threads, rfl⟩
  · exact ⟨_, rfl⟩

theorem Pkg.sameSr_wakeThr (s : Pkg) (h reason : Nat) : s.SameSr (s.wakeThr h reason) := by
  unfold Pkg.wakeThr
  split
  · exact .refl s
  · exact s.sameSr_updThr (Thread.sr_wake ..)

theorem Pkg.evalWake_cases (s : Pkg) (h : Nat) : s.evalWake h = s ∨ s.evalWake h = s.wakeThr h 2 := by
  unfold Pkg.evalWake
  split
  · split
    · exact .inr rfl
    · exact .inl rfl
  · split
    · exact .inr rfl
    · exact .inl rfl
  · exact .inl rfl

/-- A thread that runs has nothing to be woken for. -/
theorem Pkg.evalWake_run {s : Pkg} {h : Nat} (run : (s.thr h).st = .run) : s.evalWake h = s := by
  simp [Pkg.evalWake, run]

theorem Pkg.sameSr_evalWake (s : Pkg) (h : Nat) : s.SameSr (s.evalWake h) := by
  rcases s.evalWake_cases h with e | e <;> rw [e]
  · exact .refl s
  · exact s.sameSr_wakeThr ..

theorem Pkg.rd_evalWake (s : Pkg) (h o : Nat) : (s.evalWake h).rd o = s.rd o := by
  rcases s.evalWake_cases h with e | e
  · rw [e]
  · obtain ⟨l, e'⟩ := s.wakeThr_eq h 2
    rw [e, e']
    rfl

/-- A sleeping L2 begins to wake with its core. -/
def Pkg.wakeL2 (s : Pkg) (n : Nat) : Pkg := if s.l2P n = 2 then s.wf (meshL2pwr n) 2 1 3 else s

/-- The NoC's note that an interrupt woke a core. -/
def Pkg.wokenBy (s : Pkg) (c : Nat) (byInt : Bool) : Pkg :=
  if byInt then { s with noc := { s.noc with wokeInt := c :: s.noc.wokeInt } } else s

theorem Pkg.wakeCore_def (s : Pkg) (c : Nat) (b : Bool) :
    s.wakeCore c b = if s.coreP c = 1 then s.wf (meshCpwr c) 5 4 0
      else if s.coreP c = 2 then ((s.wf (meshCpwr c) 5 4 3).wakeL2 (c / 2)).wokenBy c b else s := rfl

theorem Pkg.rd_wakeL2 (s : Pkg) {n o : Nat} (l2 : o ≠ meshL2pwr n) : (s.wakeL2 n).rd o = s.rd o := by
  unfold Pkg.wakeL2
  split
  · exact Pkg.rd_wf_other _ _ _ _ _ _ l2
  · rfl

theorem Pkg.rd_wokenBy (s : Pkg) (c o : Nat) (b : Bool) : (s.wokenBy c b).rd o = s.rd o := by
  cases b <;> rfl

theorem Pkg.rd_wakeCore (s : Pkg) {c o : Nat} (core : o ≠ meshCpwr c) (l2 : o ≠ meshL2pwr (c / 2)) (b : Bool) : (s.wakeCore c b).rd o = s.rd o := by
  rw [Pkg.wakeCore_def]
  split
  · rw [Pkg.rd_wf_other _ _ _ _ _ _ core]
  · split
    · rw [Pkg.rd_wokenBy, Pkg.rd_wakeL2 _ l2, Pkg.rd_wf_other _ _ _ _ _ _ core]
    · rfl

theorem Pkg.wakeL2_threads (s : Pkg) (n : Nat) : (s.wakeL2 n).threads = s.threads ∧ (s.wakeL2 n).cores = s.cores := by
  unfold Pkg.wakeL2
  split
  · exact ⟨Pkg.wf_threads .., Pkg.wf_cores ..⟩
  · exact ⟨rfl, rfl⟩

theorem Pkg.wokenBy_threads (s : Pkg) (c : Nat) (b : Bool) : (s.wokenBy c b).threads = s.threads ∧ (s.wokenBy c b).cores = s.cores := by
  cases b <;> exact ⟨rfl, rfl⟩

theorem Pkg.sameSr_of_eq {p q : Pkg} (e : q.threads = p.threads ∧ q.cores = p.cores) : p.SameSr q :=
  ⟨e.2, fun k => congrArg Thread.sr (Pkg.thr_of_eq e.1 k)⟩

theorem Pkg.sameSr_wakeCore (s : Pkg) (c : Nat) (b : Bool) : s.SameSr (s.wakeCore c b) := by
  rw [Pkg.wakeCore_def]
  split
  · exact Pkg.sameSr_of_eq ⟨Pkg.wf_threads .., Pkg.wf_cores ..⟩
  · split
    · have asleep : s.SameSr (s.wf (meshCpwr c) 5 4 3) := Pkg.sameSr_of_eq ⟨Pkg.wf_threads .., Pkg.wf_cores ..⟩
      exact (asleep.trans (Pkg.sameSr_of_eq (Pkg.wakeL2_threads ..))).trans (Pkg.sameSr_of_eq (Pkg.wokenBy_threads ..))
    · exact .refl s

theorem Pkg.sameSr_ticChanged (s : Pkg) (h : Nat) (old : List Nat) : s.SameSr (s.ticChanged h old) := by
  unfold Pkg.ticChanged
  refine Pkg.SameSr.trans ?_ (Pkg.sameSr_evalWake ..)
  split
  · exact s.sameSr_wakeCore (h / 8) true
  · exact .refl s

theorem Pkg.rd_ticChanged (s : Pkg) {h o : Nat} (core : o ≠ meshCpwr (h / 8)) (l2 : o ≠ meshL2pwr (h / 8 / 2)) (old : List Nat) :
    (s.ticChanged h old).rd o = s.rd o := by
  unfold Pkg.ticChanged
  rw [Pkg.rd_evalWake]
  split
  · exact s.rd_wakeCore core l2 true
  · rfl

/-- The registers of a TIC are not those of its core's power. -/
theorem tic_ne_power {h k : Nat} (lt : h < 2048) (off : k < 0x1000) : ticBase h + k ≠ meshCpwr (h / 8) ∧ ticBase h + k ≠ meshL2pwr (h / 8 / 2) := by
  have tile : h / 8 / 2 = h / 16 := by omega
  unfold ticBase meshCpwr meshL2pwr meshBase tileBase
  rw [tile, if_neg (by omega), if_pos (by omega)]
  constructor <;> omega

theorem Pkg.pendv_congr {p q : Pkg} {h : Nat} (sys : q.rd (ticSyspend h) = p.rd (ticSyspend h)) (ext : q.rd (ticPend h) = p.rd (ticPend h)) (v : Nat) :
    q.pendv h v = p.pendv h v := by
  unfold Pkg.pendv Pkg.rb
  rw [sys, ext]

theorem Pkg.pendv_ticChanged (s : Pkg) {h : Nat} (lt : h < 2048) (old : List Nat) (v : Nat) : (s.ticChanged h old).pendv h v = s.pendv h v :=
  have sys := tic_ne_power (k := 0x20) lt (by decide)
  have ext := tic_ne_power (k := 8) lt (by decide)
  Pkg.pendv_congr (s.rd_ticChanged sys.1 sys.2 old) (s.rd_ticChanged ext.1 ext.2 old) v

theorem Pkg.pendv_putPend_same (s : Pkg) (h : Nat) {v : Nat} (b : Bool) (lt : v < 128) : (s.putPend h v b).pendv h v = b := by
  unfold Pkg.putPend Pkg.pendv
  split
  · exact Pkg.rb_wb_same _ _ _ _ (by omega)
  · exact Pkg.rb_wb_same _ _ _ _ (by omega)

/-! ### Sources of vectors (04 R130 to R132) -/

theorem Pkg.pendv_setLevel (s : Pkg) {h v : Nat} (lt : h < 2048) (hv : v < 128) (on : Bool) : (s.setLevel h v on).pendv h v = on := by
  unfold Pkg.setLevel
  split
  next same => exact same
  next => rw [Pkg.pendv_ticChanged _ lt, Pkg.pendv_putPend_same _ _ _ hv]

theorem Pkg.sameSr_putPend (s : Pkg) (h v : Nat) (b : Bool) : s.SameSr (s.putPend h v b) := by
  unfold Pkg.putPend
  split
  · exact Pkg.sameSr_of_eq ⟨Pkg.wb_threads .., Pkg.wb_cores ..⟩
  · exact Pkg.sameSr_of_eq ⟨Pkg.wb_threads .., Pkg.wb_cores ..⟩

theorem Pkg.sameSr_setLevel (s : Pkg) (h v : Nat) (on : Bool) : s.SameSr (s.setLevel h v on) := by
  unfold Pkg.setLevel
  split
  · exact .refl s
  · exact (s.sameSr_putPend ..).trans (Pkg.sameSr_ticChanged ..)

theorem Pkg.pendv_raiseVec (s : Pkg) {h v : Nat} (lt : h < 2048) (hv : v < 128) (fin : Word) : (s.raiseVec h v fin).pendv h v = true := by
  unfold Pkg.raiseVec
  rw [Pkg.pendv_ticChanged _ lt, Pkg.pendv_putPend_same _ _ _ hv]

theorem Pkg.ticSet_alone {s : Pkg} (t : s.tdmState = 0) (h v : Nat) : s.ticSet h v = s.raiseVec h v := by
  simp [Pkg.ticSet, Pkg.replaying_off t, Pkg.inb, Pkg.paired_off t]

theorem Pkg.pendv_ticSet {s : Pkg} (t : s.tdmState = 0) {h v : Nat} (lt : h < 2048) (hv : v < 128) : (s.ticSet h v).pendv h v = true := by
  rw [Pkg.ticSet_alone t]
  exact s.pendv_raiseVec lt hv _

theorem Pkg.msiIn_vector {s : Pkg} (t : s.tdmState = 0) (h : Nat) {x : Nat} (isVec : 64 ≤ x ∧ x ≤ 127) : s.msiIn h x = s.ticSet h x := by
  simp [Pkg.msiIn, Pkg.replaying_off t, isVec]

theorem Pkg.msiIn_bad {s : Pkg} (t : s.tdmState = 0) (h : Nat) {x : Nat} (bad : ¬ (64 ≤ x ∧ x ≤ 127)) :
    s.msiIn h x = (s.wb (ticStatus h) 0 true).sat (ticStatus h) 15 8 := by
  rw [Pkg.msiIn, Pkg.replaying_off t, if_neg (by decide), if_neg bad, Pkg.msiWrite, if_neg bad]

theorem getLsbD_setBits_other (v : Word) (hi lo x i : Nat) (h : i < 64) (out : i < lo) : (setBits v hi lo x).getLsbD i = v.getLsbD i := by
  rw [setBits_getLsbD _ _ _ _ _ h, if_neg (by omega)]

/-- BADMSI counts, up to its greatest value, and the status is set (04 R131). -/
theorem Pkg.badMsi (s : Pkg) (o : Nat) :
    let q := (s.wb o 0 true).sat o 15 8
    q.rb o 0 = true ∧ q.rf o 15 8 = min (s.rf o 15 8 + 1) 255 ∧ s.DrsBut q [o] ∧ q = { s with drs := q.drs } := by
  have before : (s.wb o 0 true).rf o 15 8 = s.rf o 15 8 := Pkg.rf_wf_other _ _ _ _ _ _ _ (by decide) (by decide) (by decide) (by decide)
  refine ⟨?_, ?_, fun r hr => ?_, rfl⟩
  · unfold Pkg.sat Pkg.rb
    rw [Pkg.rd_wf_same, getLsbD_setBits_other _ _ _ _ _ (by decide) (by decide)]
    exact s.rb_wb_same o 0 true (by decide)
  · unfold Pkg.sat
    rw [Pkg.rf_wf_same _ _ _ _ _ (by decide) (by decide), before]
    omega
  · have hr : r ≠ o := by simpa using hr
    rw [Pkg.rd_sat_other _ _ _ _ _ _ hr, Pkg.rd_wb_other _ _ _ _ _ hr]

/-! ### TIMER and WAITT (03 R92, 13 R348) -/

/-- With Shimmy off, TIMER follows the time. -/
theorem Pkg.timerLevel_off {s : Pkg} (off : s.shm.on = false) (idle : s.shm.acts = []) (h : Nat) :
    s.timerLevel h = s.setLevel h 34 (decide (((s.thr h).rs 0x401).toNat ≤ s.timeNs % 2 ^ 64)) := by
  unfold Pkg.timerLevel
  rw [Pkg.shmHas_idle idle, Pkg.shmSkew_off off]
  dsimp only
  split
  next rises =>
    rw [Bool.and_eq_true] at rises
    rw [if_neg (by decide)]
    exact congrArg (s.setLevel h 34) rises.1.symm
  next => rfl

/-- A WAITT completes with reason 0: its thread runs, and nothing else changes. -/
theorem Pkg.waittDue_off {s : Pkg} {h rd : Nat} {w : Word} (t : s.tdmState = 0) (off : s.shm.on = false) (idle : s.shm.acts = [])
    (sleeps : (s.thr h).st = .timewait) (waitt : (s.thr h).waitt = some (w, rd)) (due : w.toNat ≤ s.timeNs % 2 ^ 64) :
    (s.waittDue h).thr h = Thread.wg { s.thr h with st := .run, waitt := none } rd 0#64 ∧ ∀ k, k ≠ h → (s.waittDue h).thr k = s.thr k := by
  have e : s.waittDue h = s.wakeThr h 0 := by
    have passed : decide (s.timeNs % 2 ^ 64 < w.toNat) = false := decide_eq_false (Nat.not_lt.mpr due)
    rw [Pkg.waittDue, sleeps, waitt]
    dsimp only
    rw [passed, Pkg.shmHas_idle idle, Pkg.shmSkew_off off]
    rfl
  have woken : ({ (s.thr h).wake 0 with wreason := (s.thr h).wreason } : Thread) = Thread.wg { s.thr h with st := .run, waitt := none } rd 0#64 := by
    simp only [Thread.wake, sleeps, waitt]
    unfold Thread.wg
    split <;> rfl
  rw [e]
  simp only [Pkg.wakeThr, Pkg.replaying_off t, Pkg.paired_off t, Bool.false_and, Bool.false_eq_true, if_false, ite_self, Pkg.thr_updThr_same]
  exact ⟨woken, fun k n => Pkg.thr_updThr_other _ _ _ _ n⟩

/-! ### PMC_WRAP (02 R66) -/

theorem getLsbD_or_two_pow (v : Word) {i : Nat} (h : i < 64) : (v ||| BitVec.ofNat 64 (2 ^ i)).getLsbD i = true := by
  rw [BitVec.getLsbD_or, BitVec.getLsbD_ofNat, Nat.testBit_two_pow_self, decide_eq_true h]
  simp

/-- A thread's own counter. -/
theorem Pkg.pmcWrap_own (s : Pkg) (h : Nat) {i : Nat} (hi : i < 8) :
    ((s.pmcWrap h i).thr h).rs (0x500 + i) = 0#64 ∧ (((s.pmcWrap h i).thr h).rs 0x510).getLsbD i = true := by
  rw [Pkg.pmcWrap, if_pos hi, Pkg.pmuLevel, (Pkg.sameSr_setLevel ..).rs, (Pkg.sameSr_setLevel ..).rs, Pkg.thr_updThr_same]
  refine ⟨?_, ?_⟩
  · rw [Thread.rs_ws, if_neg (by omega), Thread.rs_ws, if_pos rfl]
  · rw [Thread.rs_ws, if_pos rfl]
    exact getLsbD_or_two_pow _ (by omega)

theorem Pkg.pmuCore_cores (s : Pkg) (c : Nat) : (s.pmuCore c).cores = s.cores :=
  foldl_keeps (fun p : Pkg => p.cores = s.cores) _ (fun p _ k => (p.sameSr_setLevel ..).1.trans k) (List.range 8) s rfl

/-- A counter that the core's threads share. -/
theorem Pkg.pmcWrap_shared (s : Pkg) (h : Nat) {i : Nat} (lo : 8 ≤ i) (hi : i < 16) :
    Map.get w0 ((s.pmcWrap h i).core (h / 8)).csr (0x520 + i - 8) = 0#64 ∧ (Map.get w0 ((s.pmcWrap h i).core (h / 8)).csr 0x510).getLsbD i = true := by
  rw [Pkg.pmcWrap, if_neg (by omega), Pkg.core_of_eq (Pkg.pmuCore_cores ..), Pkg.core_updCore_same]
  refine ⟨?_, ?_⟩
  · rw [Map.get_set_other _ _ _ _ _ (by omega), Map.get_set_same]
  · rw [Map.get_set_same]
    exact getLsbD_or_two_pow _ (by omega)

theorem Pkg.pmcWraps_own {s : Pkg} {h i : Nat} (up : s.coreP (h / 8) = 0) (hi : i < 8) (runs : (s.thr h).cycles ((s.thr h).rs (0x508 + i)) false = true)
    (thawed : (s.thr h).frozen = false) : s.pmcWraps h i = s.pmcWrap h i := by
  simp [Pkg.pmcWraps, up, hi, runs, thawed]

theorem Pkg.pmcWraps_shared {s : Pkg} {h i u : Nat} (up : s.coreP (h / 8) = 0) (hi : 8 ≤ i) (hu : u < 8)
    (counts : (Map.get w0 (s.core (h / 8)).csr (0x528 + i - 8)).getLsbD (16 + u) = true)
    (runs : (s.thr (8 * (h / 8) + u)).cycles (Map.get w0 (s.core (h / 8)).csr (0x528 + i - 8)) true = true) : s.pmcWraps h i = s.pmcWrap h i := by
  have any : (List.range 8).any (fun u => (Map.get w0 (s.core (h / 8)).csr (0x528 + i - 8)).getLsbD (16 + u)
      && (s.thr (8 * (h / 8) + u)).cycles (Map.get w0 (s.core (h / 8)).csr (0x528 + i - 8)) true) = true :=
    List.any_eq_true.mpr ⟨u, List.mem_range.mpr hu, Bool.and_eq_true_iff.mpr ⟨counts, runs⟩⟩
  simp only [Pkg.pmcWraps, Nat.not_lt.mpr hi, if_false, any, up, beq_self_eq_true, Bool.and_self, if_true]

/-! ### Commands of CORE_THR_CTL (02 R55 to R58) -/

section
variable {s : Pkg} {h : Nat}

theorem Pkg.thrCmd_up (up : s.coreUp h = true) (f : Pkg → Pkg) : s.thrCmd h f = f s := if_pos up

theorem Pkg.thrStart_off (t : s.tdmState = 0) (off : (s.thr h).st = .off) :
    s.thrStart h = (s.updThr h (fun t => { ((t.setPs 3#64).ws 0x600 0#64) with st := .run, chunk := none })).redirect h
      (((s.rd (coreBase (h / 8) + 0x140 + 8 * (h % 8))).setWidth 57).signExtend 64) := by
  have run : (((s.updThr h (fun t => { ((t.setPs 3#64).ws 0x600 0#64) with st := .run, chunk := none })).redirect h
      (((s.rd (coreBase (h / 8) + 0x140 + 8 * (h % 8))).setWidth 57).signExtend 64)).thr h).st = .run := by
    simp [Pkg.redirect]
  rw [Pkg.thrStart, if_pos off]
  dsimp only
  rw [Pkg.evalWake_run run]
  exact Pkg.updChunk_alone (by exact Pkg.paired_off t) ..

theorem Pkg.thrStart_else (on : (s.thr h).st ≠ .off) : s.thrStart h = s.thrErr h := if_neg on

theorem Pkg.thrHalt_awake (st : (s.thr h).st = .run ∨ (s.thr h).st = .parked ∨ (s.thr h).st = .timewait) :
    s.thrHalt h = s.updThr h (fun t => { t with halting := true }) := by
  rcases st with e | e | e <;> simp [Pkg.thrHalt, e]

theorem Pkg.thrHalt_else (st : ¬ ((s.thr h).st = .run ∨ (s.thr h).st = .parked ∨ (s.thr h).st = .timewait)) : s.thrHalt h = s.thrErr h := by
  cases e : (s.thr h).st <;> simp [Pkg.thrHalt, e] at st ⊢

theorem Pkg.thrResume_run (t : s.tdmState = 0) (halted : (s.thr h).st = .halted) (prior : (s.thr h).prior = .run) :
    s.thrResume h = s.updThr h (fun t => { t with st := t.prior, prior := .off, redirect := true }) := by
  have run : ((s.updThr h (fun t => { t with st := t.prior, prior := .off, redirect := true })).thr h).st = .run := by simp [prior]
  have due : (s.updThr h (fun t => { t with st := t.prior, prior := .off, redirect := true })).waittDue h
      = s.updThr h (fun t => { t with st := t.prior, prior := .off, redirect := true }) := by simp [Pkg.waittDue, prior]
  rw [Pkg.thrResume, if_pos halted]
  dsimp only
  rw [Pkg.updChunk_alone (by exact Pkg.paired_off t), run, if_neg (by simp), due, Pkg.evalWake_run run]

theorem Pkg.thrResume_else (st : (s.thr h).st ≠ .halted) : s.thrResume h = s.thrErr h := if_neg st

theorem Pkg.thrStop_stopped (t : s.tdmState = 0) (st : (s.thr h).st = .halted ∨ (s.thr h).st = .faulted) :
    s.thrStop h = (s.updThr h (fun t => { t with st := .off, prior := .off, chunk := none, mon := none, monWake := false, waitt := none })).coreGateAuto (h / 8) := by
  rcases st with e | e <;> simp [Pkg.thrStop, e, Pkg.commit_alone (Pkg.paired_off t)]

theorem Pkg.thrStop_else (h1 : (s.thr h).st ≠ .halted) (h2 : (s.thr h).st ≠ .faulted) : s.thrStop h = s.thrErr h := by
  cases e : (s.thr h).st <;> simp_all [Pkg.thrStop]

end

/-! ### A core that gates leaves its threads (08 R220, R221) -/

/-- What is written back or sent on leaves threads. -/
theorem Pkg.toStore_threads (s : Pkg) (line : Nat) (d : BitVec 512) (p : Bool) (h : Option Nat) : (s.toStore line d p h).threads = s.threads := by
  unfold Pkg.toStore
  split <;> rfl

theorem Pkg.writeThrough_threads (s : Pkg) (line : Nat) (d : BitVec 512) (p : Bool) (h : Option Nat) : (s.writeThrough line d p h).threads = s.threads := by
  unfold Pkg.writeThrough
  rw [Pkg.toStore_threads]
  split <;> rfl

theorem Pkg.fillL3_threads (s : Pkg) (line : Nat) (d : BitVec 512) (p dirty stream : Bool) : (s.fillL3 line d p dirty stream).threads = s.threads := by
  unfold Pkg.fillL3
  dsimp only
  split
  · rfl
  · split
    · split
      · rw [Pkg.toStore_threads]
      · rfl
    · change (if _ then _ else _ : Pkg).threads = _
      split
      · rw [Pkg.toStore_threads]
      · rfl

theorem Pkg.writeHome_threads (s : Pkg) (line : Nat) (d : BitVec 512) (p : Bool) (h : Option Nat) : (s.writeHome line d p h).threads = s.threads := by
  unfold Pkg.writeHome
  dsimp only
  split
  · rw [Pkg.fillL3_threads]
  · split
    · split
      · rw [Pkg.toStore_threads]; rfl
      · rfl
    · rw [Pkg.toStore_threads]

theorem Pkg.releaseMerge_threads (s : Pkg) (c line : Nat) (h : Option Nat) : (s.releaseMerge c line h).threads = s.threads := by
  unfold Pkg.releaseMerge
  split
  · rfl
  · dsimp only
    split
    · rfl
    · split
      · split
        · exact (Pkg.writeThrough_threads ..).trans rfl
        · rfl
      · change (if _ then _ else _ : Pkg).threads = _
        split
        · rw [Pkg.writeThrough_threads]; rfl
        · rw [Pkg.writeHome_threads]; rfl

theorem Pkg.wcSend_threads (s : Pkg) (c : Nat) (b : WcBuf) : (s.wcSend c b).threads = s.threads := by
  unfold Pkg.wcSend
  dsimp only
  split <;> rfl

theorem Pkg.wcFlush_threads (s : Pkg) (c : Nat) (q : WcBuf → Bool) : (s.wcFlush c q).threads = s.threads := by
  unfold Pkg.wcFlush
  dsimp only
  split
  · exact foldl_keeps (fun p : Pkg => p.threads = s.threads) _ (fun p b k => (p.wcSend_threads c b).trans k) _ s rfl
  · rfl

theorem Pkg.coreGateAuto_threads (s : Pkg) (c : Nat) : (s.coreGateAuto c).threads = s.threads := by
  unfold Pkg.coreGateAuto
  split
  · unfold Pkg.coreGating
    rw [Pkg.wf_threads, Pkg.wcFlush_threads]
    exact foldl_keeps (fun p : Pkg => p.threads = s.threads) _ (fun p m k => (p.releaseMerge_threads ..).trans k) _ s rfl
  · rfl

/-! ### HALT_COMPLETE and INTERRUPT_TAKE (02 R56, 04 R126, R128) -/

/-- What taking a vector does to its pending bit: 34 and 37 follow a level and keep it. -/
def Pkg.takePend (s : Pkg) (h v : Nat) : Pkg := if v = 34 ∨ v = 37 then s else s.putPend h v false

theorem Pkg.live_takePend (s : Pkg) (h v : Nat) : (s.takePend h v).live = s.live := by
  unfold Pkg.takePend Pkg.putPend
  split
  · rfl
  · split
    · exact Pkg.live_of_eq (Pkg.wb_boot ..) (Pkg.wb_pins ..)
    · exact Pkg.live_of_eq (Pkg.wb_boot ..) (Pkg.wb_pins ..)

/-- The registers of a TIC are not the register of Tandem's state. -/
theorem tdm_ne_tic (h : Nat) : tdmBase ≠ ticSyspend h ∧ tdmBase ≠ ticPend h := by
  unfold tdmBase ticSyspend ticPend ticBase footBase tileBase
  constructor <;> omega

theorem Pkg.tdmState_takePend (s : Pkg) (h v : Nat) : (s.takePend h v).tdmState = s.tdmState := by
  have kept : (s.takePend h v).rd tdmBase = s.rd tdmBase := by
    unfold Pkg.takePend Pkg.putPend
    split
    · rfl
    · split
      · exact Pkg.rd_wb_other _ _ _ _ _ (tdm_ne_tic h).1
      · exact Pkg.rd_wb_other _ _ _ _ _ (tdm_ne_tic h).2
  unfold Pkg.tdmState Pkg.rf
  rw [kept]

/-- In a package alone no chunk is cut before an entry. -/
theorem Pkg.enter_alone {s : Pkg} (live : s.live = true) (t : s.tdmState = 0) (h v : Nat) (pc fa fin : Word) (async : Bool) :
    s.enter h v pc fa fin async = s.enterAt h v pc fa fin async := by
  rw [Pkg.enter, Pkg.stop_isSome_of_live live, Pkg.commit_alone (Pkg.paired_off t), Pkg.commit_alone (Pkg.paired_off t)]
  simp

section
variable {s : Pkg} {h : Nat} (t : s.tdmState = 0) (await : (s.thr h).await = none) (sb : (s.thr h).sb = []) (ent : (s.thr h).ent = none)
  (sel : (s.thr h).sel = false) (ebuf : (s.thr h).ebuf = []) (wreason : (s.thr h).wreason = none)
include t await sb ent sel ebuf wreason

theorem Pkg.thrHalted_quiet (halting : (s.thr h).halting = true) :
    s.thrHalted h = (s.updThr h (fun t => { t with
      st := .halted, prior := t.st, halting := false, queue := [], fpc := t.pc, fstall := false, walk := none, long := false
      held := false, hparts := [], sel := false })).updThr h (fun t => { t with chunk := none }) := by
  simp only [Pkg.thrHalted, halting, await, sb, ent, sel, ebuf, Pkg.flushWake_none wreason, Option.isNone_none, List.isEmpty_nil, Bool.not_false,
    Bool.true_or, Bool.and_self, if_true]
  exact congrArg (fun p : Pkg => p.updThr h (fun t => { t with chunk := none })) (Pkg.commit_alone (by exact Pkg.paired_off t) ..)

theorem Pkg.interruptTake_quiet {v : Nat} (live : s.live = true) (run : s.threadsRun = true) (st : (s.thr h).st = .run)
    (halting : (s.thr h).halting = false) (lagged : (s.thr h).lagged = false) (up : s.coreP (h / 8) = 0) (pick : s.pickVector h = some v) :
    s.interruptTake h = (s.takePend h v).enterAt h v (s.thr h).pc 0#64
      (if v = 32 then (s.thr h).fin32 else if v = 33 then (s.thr h).fin33 else 0#64) true := by
  have take : s.interruptTake h = s.takeVector h v := by
    simp [Pkg.interruptTake, run, st, halting, lagged, up, Pkg.quiet, await, sb, sel, ebuf, ent, pick, Pkg.flushWake_none wreason]
  have taken : (s.takePend h v).live = true ∧ (s.takePend h v).tdmState = 0 :=
    ⟨(Pkg.live_takePend ..).trans live, (Pkg.tdmState_takePend s h v).trans t⟩
  exact take.trans (Pkg.enter_alone taken.1 taken.2 ..)

end

/-! ### The statement's clauses -/

section
variable {s : State} (live : s.pkg.live = true) (t : s.pkg.tdmState = 0)
include live

theorem State.run_to {f : Pkg → Pkg} {q : Pkg} (e : f s.pkg = q) : s.run f = .next (s.withPkg q) := by
  rw [State.run_live _ live, e]

/-- A command of CORE_THR_CTL for a thread whose core is up. -/
theorem State.run_thrCmd {h : Htid} (up : s.pkg.coreUp h = true) {f : Pkg → Pkg} {q : Pkg} (e : f s.pkg = q) :
    s.run (fun p => p.thrCmd h f) = .next (s.withPkg q) := by
  rw [State.run_live _ live, Pkg.thrCmd_up up, e]

include t

theorem threadStart_off {h : Htid} (up : s.pkg.coreUp h = true) (off : (s.pkg.thr h).st = .off) :
    let pc := ((s.pkg.rd (coreBase (h / 8) + 0x140 + 8 * (h % 8))).setWidth 57).signExtend 64
    ∃ q, exec (.threadStart h) s = .next (s.withPkg q) ∧ (q.thr h).st = .run ∧ (q.thr h).pc = pc ∧ (q.thr h).fpc = pc
      ∧ (q.thr h).queue = [] ∧ (q.thr h).ps = 3#64 ∧ (q.thr h).g = (s.pkg.thr h).g ∧ (∀ k, k ≠ (h : Nat) → q.thr k = s.pkg.thr k) := by
  refine ⟨_, State.run_thrCmd live up (Pkg.thrStart_off t off), ?_⟩
  simp only [Pkg.redirect, Pkg.thr_updThr_same, true_and]
  refine ⟨?_, rfl, fun k n => ?_⟩
  · change (((s.pkg.thr h).setPs 3#64).ws 0x600 0#64).rs 0x100 = 3#64
    rw [Thread.rs_ws, if_neg (by decide)]
    exact Thread.ps_setPs ..
  · rw [Pkg.thr_updThr_other _ _ _ _ n, Pkg.thr_updThr_other _ _ _ _ n]

theorem threadResume_run {h : Htid} (up : s.pkg.coreUp h = true) (halted : (s.pkg.thr h).st = .halted) (prior : (s.pkg.thr h).prior = .run) :
    ∃ q, exec (.threadResume h) s = .next (s.withPkg q)
      ∧ q.thr h = { s.pkg.thr h with st := .run, prior := .off, redirect := true } ∧ (∀ k, k ≠ (h : Nat) → q.thr k = s.pkg.thr k) := by
  refine ⟨_, State.run_thrCmd live up (Pkg.thrResume_run t halted prior), ?_, fun k n => ?_⟩
  · rw [Pkg.thr_updThr_same, prior]
  · exact Pkg.thr_updThr_other _ _ _ _ n

theorem threadStop_stopped {h : Htid} (up : s.pkg.coreUp h = true) (st : (s.pkg.thr h).st = .halted ∨ (s.pkg.thr h).st = .faulted) :
    ∃ q, exec (.threadStop h) s = .next (s.withPkg q)
      ∧ q.thr h = { s.pkg.thr h with st := .off, prior := .off, chunk := none, mon := none, monWake := false, waitt := none }
      ∧ (∀ k, k ≠ (h : Nat) → q.thr k = s.pkg.thr k) := by
  refine ⟨_, State.run_thrCmd live up (Pkg.thrStop_stopped t st), ?_, fun k n => ?_⟩
  · rw [Pkg.thr_of_eq (Pkg.coreGateAuto_threads ..), Pkg.thr_updThr_same]
  · rw [Pkg.thr_of_eq (Pkg.coreGateAuto_threads ..), Pkg.thr_updThr_other _ _ _ _ n]

theorem haltComplete_quiet {h : Htid} (halting : (s.pkg.thr h).halting = true) (await : (s.pkg.thr h).await = none) (sb : (s.pkg.thr h).sb = [])
    (ent : (s.pkg.thr h).ent = none) (sel : (s.pkg.thr h).sel = false) (ebuf : (s.pkg.thr h).ebuf = []) (wreason : (s.pkg.thr h).wreason = none) :
    let t := s.pkg.thr h
    ∃ q, exec (.haltComplete h) s = .next (s.withPkg q)
      ∧ q.thr h = { t with st := .halted, prior := t.st, halting := false, queue := [], fpc := t.pc, fstall := false, walk := none, long := false, held := false, hparts := [], sel := false, chunk := none }
      ∧ (∀ k, k ≠ (h : Nat) → q.thr k = s.pkg.thr k) ∧ q.drs = s.pkg.drs ∧ q.mem = s.pkg.mem := by
  refine ⟨_, State.run_to live (Pkg.thrHalted_quiet t await sb ent sel ebuf wreason halting),
    ?_, fun k n => ?_, rfl, rfl⟩
  · rw [Pkg.thr_updThr_same, Pkg.thr_updThr_same]
  · rw [Pkg.thr_updThr_other _ _ _ _ n, Pkg.thr_updThr_other _ _ _ _ n]

theorem exec_ticMsiWrite_vector {h : Htid} {v : Word32} (isVec : 64 ≤ v.toNat ∧ v.toNat ≤ 127) :
    ∃ q, exec (.ticMsiWrite h v) s = .next (s.withPkg q) ∧ q.pendv h v.toNat = true := by
  refine ⟨_, State.run_live _ live, ?_⟩
  rw [Pkg.msiIn_vector t h isVec]
  exact Pkg.pendv_ticSet t h.isLt (by omega)

theorem exec_ticMsiWrite_bad {h : Htid} {v : Word32} (bad : ¬ (64 ≤ v.toNat ∧ v.toNat ≤ 127)) :
    ∃ q, exec (.ticMsiWrite h v) s = .next (s.withPkg q) ∧ q.rb (ticStatus h) 0 = true
      ∧ q.rf (ticStatus h) 15 8 = min (s.pkg.rf (ticStatus h) 15 8 + 1) 255 ∧ s.pkg.DrsBut q [ticStatus h] ∧ q = { s.pkg with drs := q.drs } :=
  ⟨_, State.run_to live (Pkg.msiIn_bad t h bad), s.pkg.badMsi (ticStatus h)⟩

variable (off : s.pkg.shm.on = false) (idle : s.pkg.shm.acts = [])
include off idle

theorem waittTimeReached_due {h : Htid} {dt rd : Nat} {w : Word} (sleeps : (s.pkg.thr h).st = .timewait)
    (waitt : (s.pkg.thr h).waitt = some (w, rd)) (due : w.toNat ≤ (s.pkg.elapse dt).timeNs % 2 ^ 64) :
    ∃ q, exec (.waittTimeReached h dt) s = .next (s.withPkg q)
      ∧ q.thr h = Thread.wg { s.pkg.thr h with st := .run, waitt := none } rd 0#64 ∧ (∀ k, k ≠ (h : Nat) → q.thr k = s.pkg.thr k) := by
  have woken := Pkg.waittDue_off (s := s.pkg.elapse dt) (h := h) (rd := rd) (w := w) ((Pkg.tdmState_elapse ..).trans t)
    (by rw [Pkg.elapse_shm, off]) (by rw [Pkg.elapse_shm, idle]) (by rw [Pkg.elapse_thr, sleeps]) (by rw [Pkg.elapse_thr, waitt]) due
  simp only [Pkg.elapse_thr] at woken
  exact ⟨_, State.runAt_live live dt _, woken⟩

theorem timerPending_level (h : Htid) (dt : Nat) : ∃ q, exec (.timerPending h dt) s = .next (s.withPkg q)
    ∧ (q.pendv h 34 = true ↔ ((s.pkg.thr h).rs 0x401).toNat ≤ (s.pkg.elapse dt).timeNs % 2 ^ 64) := by
  refine ⟨_, State.runAt_live live dt _, ?_⟩
  have alone : (s.pkg.elapse dt).replaying = false := Pkg.replaying_off ((Pkg.tdmState_elapse ..).trans t)
  rw [Pkg.timerDue, alone, if_neg (by decide), Pkg.timerLevel_off (by rw [Pkg.elapse_shm, off]) (by rw [Pkg.elapse_shm, idle]),
    Pkg.pendv_setLevel _ h.isLt (by decide), Pkg.elapse_thr, decide_eq_true_iff]

end

/-- Settles O19: each command is the model's own function on a package that runs; Shimmy off, the commands of time follow the time. -/
theorem threadsStartHaltWakeAndTakeInterrupts : Obligations.ThreadsStartHaltWakeAndTakeInterrupts := by
  unfold Obligations.ThreadsStartHaltWakeAndTakeInterrupts
  intro s live t off idle
  refine ⟨fun h up => ?_, fun h halting await sb ent sel ebuf wreason => haltComplete_quiet live t halting await sb ent sel ebuf wreason,
    fun h dt rd w sleeps waitt due => waittTimeReached_due live t off idle sleeps waitt due, timerPending_level live t off idle,
    fun h i up => ⟨fun hi runs thawed => ?_, fun hi counted => ?_⟩, fun h v run st halting lagged up await sb sel ebuf ent wreason pick => ?_,
    fun h v => ⟨exec_ticMsiWrite_vector live t, exec_ticMsiWrite_bad live t, _, State.run_live _ live, Pkg.pendv_ticSet t h.isLt (by decide)⟩⟩
  · exact ⟨threadStart_off live t up, fun on => State.run_thrCmd live up (Pkg.thrStart_else on), fun st => State.run_thrCmd live up (Pkg.thrHalt_awake st),
      fun st => State.run_thrCmd live up (Pkg.thrHalt_else st), threadResume_run live t up, fun st => State.run_thrCmd live up (Pkg.thrResume_else st),
      threadStop_stopped live t up, fun h1 h2 => State.run_thrCmd live up (Pkg.thrStop_else h1 h2)⟩
  · refine ⟨_, State.run_live _ live, ?_⟩
    rw [Pkg.pmcWraps_own up hi runs thawed]
    exact s.pkg.pmcWrap_own h hi
  · obtain ⟨u, hu, counts, runs⟩ := counted
    refine ⟨_, State.run_live _ live, ?_⟩
    rw [Pkg.pmcWraps_shared up hi hu counts runs]
    exact s.pkg.pmcWrap_shared h hi i.isLt
  · exact State.run_to live (Pkg.interruptTake_quiet t await sb ent sel ebuf wreason live run st halting lagged up pick)

end Sys2Proof.Machine
end

section
/-! ## The instruction set (03_instruction_set) -/
namespace Sys2Proof.Machine

/-! ### The fields of a format (R71) -/

section
variable (op : BitVec 7) (rd ra rb rc fn : BitVec 5)

theorem encR_op : (encR op rd ra rb rc fn).extractLsb' 0 7 = op := BitVec.extractLsb'_append_eq_right
theorem encR_fields :
    (encR op rd ra rb rc fn).extractLsb' 7 5 = rd ∧ (encR op rd ra rb rc fn).extractLsb' 12 5 = ra ∧ (encR op rd ra rb rc fn).extractLsb' 17 5 = rb
    ∧ (encR op rd ra rb rc fn).extractLsb' 22 5 = rc ∧ (encR op rd ra rb rc fn).extractLsb' 27 5 = fn := by
  unfold encR
  refine ⟨?_, ?_, ?_, ?_, ?_⟩ <;> ext i hi <;> simp <;> grind
/-- The parts of rc that FP, DEC and AMO use, and those of fn that FMA uses. -/
theorem encR_parts :
    (encR op rd ra rb rc fn)[22] = rc[0] ∧ (encR op rd ra rb rc fn).extractLsb' 23 3 = rc.extractLsb' 1 3
    ∧ (encR op rd ra rb rc fn).extractLsb' 27 2 = fn.extractLsb' 0 2 ∧ (encR op rd ra rb rc fn)[29] = fn[2] := by
  unfold encR
  refine ⟨by grind, ?_, ?_, by grind⟩ <;> ext i hi <;> simp <;> grind
end

section
variable (op : BitVec 7) (rd ra : Reg) (fn : BitVec 3) (imm : BitVec 12)

theorem encI_op : (encI op rd ra fn imm).extractLsb' 0 7 = op := BitVec.extractLsb'_append_eq_right
theorem encI_fields :
    (encI op rd ra fn imm).extractLsb' 7 5 = rd ∧ (encI op rd ra fn imm).extractLsb' 12 5 = ra ∧ (encI op rd ra fn imm).extractLsb' 17 3 = fn
    ∧ (encI op rd ra fn imm).extractLsb' 20 12 = imm := by
  unfold encI
  refine ⟨?_, ?_, ?_, ?_⟩ <;> ext i hi <;> simp <;> grind
/-! The low bits of the sys field, of which TRAP, maintenance and TLBI use their own number. -/

theorem encI_trap (n : BitVec 7) : (encI op rd ra fn (0#5 ++ n)).extractLsb' 20 7 = n := by
  unfold encI; ext i hi; simp; grind
theorem encI_cma (cs : BitVec 5) : (encI op rd ra fn (0#7 ++ cs)).extractLsb' 20 5 = cs := by
  unfold encI; ext i hi; simp; grind
theorem encI_csw (what : BitVec 2) : (encI op rd ra fn (0#10 ++ what)).extractLsb' 20 2 = what := by
  unfold encI; ext i hi; simp; grind
theorem encI_tlbi (ty : BitVec 3) : (encI op rd ra fn (0#9 ++ ty)).extractLsb' 20 3 = ty := by
  unfold encI; ext i hi; simp; grind
end

section
variable (op : BitVec 7) (rd ra rb : Reg) (fn : BitVec 3) (imm : BitVec 12) (imm20 : BitVec 20)

theorem encS_op : (encS op ra rb fn imm).extractLsb' 0 7 = op := BitVec.extractLsb'_append_eq_right
theorem encS_fields :
    (encS op ra rb fn imm).extractLsb' 12 5 = ra ∧ (encS op ra rb fn imm).extractLsb' 17 5 = rb ∧ (encS op ra rb fn imm).extractLsb' 22 3 = fn
    ∧ (encS op ra rb fn imm).extractLsb' 25 7 = imm.extractLsb' 5 7 ∧ (encS op ra rb fn imm).extractLsb' 7 5 = imm.extractLsb' 0 5 := by
  unfold encS
  refine ⟨?_, ?_, ?_, ?_, ?_⟩ <;> ext i hi <;> simp <;> grind
theorem immS_parts : (imm.extractLsb' 5 7 ++ imm.extractLsb' 0 5 : BitVec 12) = imm := by
  ext i hi
  change (imm.extractLsb' 5 7 ++ imm.extractLsb' 0 5)[i] = imm[i]
  simp only [BitVec.getElem_append, BitVec.getElem_extractLsb']
  grind
theorem encB_op : (encB op fn ra rb imm).extractLsb' 0 7 = op := BitVec.extractLsb'_append_eq_right
theorem encB_fields :
    (encB op fn ra rb imm).extractLsb' 7 3 = fn ∧ (encB op fn ra rb imm).extractLsb' 10 5 = ra ∧ (encB op fn ra rb imm).extractLsb' 15 5 = rb
    ∧ (encB op fn ra rb imm).extractLsb' 20 12 = imm := by
  unfold encB
  refine ⟨?_, ?_, ?_, ?_⟩ <;> ext i hi <;> simp <;> grind
theorem encL_op : (encL op rd imm20).extractLsb' 0 7 = op := BitVec.extractLsb'_append_eq_right
theorem encL_fields : (encL op rd imm20).extractLsb' 7 5 = rd ∧ (encL op rd imm20).extractLsb' 12 20 = imm20 := by
  unfold encL
  refine ⟨?_, ?_⟩ <;> ext i hi <;> simp <;> grind
end

theorem bit1_low (n : Nat) (x : BitVec n) (b : Bool) : (x ++ bit1 b)[0] = b := by
  simp [bit1, BitVec.getElem_append]
theorem rm_of_rc (rm : BitVec 3) (p : Bool) : (0#1 ++ rm ++ bit1 p : BitVec 5).extractLsb' 1 3 = rm := by
  ext i hi; simp [bit1]; grind
theorem fma_parts (p : Bool) (fn : BitVec 2) :
    (0#2 ++ bit1 p ++ fn : BitVec 5).extractLsb' 0 2 = fn ∧ (0#2 ++ bit1 p ++ fn : BitVec 5)[2] = p := by
  refine ⟨BitVec.extractLsb'_append_eq_right, ?_⟩
  unfold bit1; grind

/-- The decoder reads the fields of every instruction from its encoding, legal or not. -/
theorem rawDecode_encode (i : Ins) : rawDecode i.encode = some i := by
  cases i <;>
    simp [rawDecode, Ins.encode, encY, encR_op, encR_fields, encR_parts, encI_op, encI_fields, encI_trap, encI_cma, encI_csw, encI_tlbi, encS_op, encS_fields, encB_op, encB_fields,
      encL_op, encL_fields, bit1_low, rm_of_rc, fma_parts, immS_parts]

theorem insDecode_eq_some_iff (w : Word32) (i : Ins) : insDecode w = some i ↔ i.legal = true ∧ i.encode = w := by
  constructor
  · intro h
    unfold insDecode at h
    split at h
    next j _ =>
      split at h
      next ok =>
        obtain rfl := Option.some.inj h
        simpa using ok
      · cases h
    · cases h
  · rintro ⟨legal, rfl⟩
    simp [insDecode, rawDecode_encode, legal]

/-- Settles O59: the decoder reads the fields back from every encoding, and accepts them only where they encode to the word. -/
theorem everyInstructionDecodesFromItsEncoding : Obligations.EveryInstructionDecodesFromItsEncoding := by
  refine ⟨insDecode_eq_some_iff, ?_⟩
  decide
end Sys2Proof.Machine
end

section
/-! ## Instructions that change their thread alone (03_instruction_set) -/
namespace Sys2Proof.Machine

/-! ### A ready head that steps -/

section
variable {s : State} {h : Nat} {i : Ins} {g : Grp} {op : Pkg → Ins → Pkg} {f : Thread → Thread}

/-- A change of the thread, its retiring and the end of its step, on a package that is alone. -/
theorem Pkg.updRetireEnd_alone {s : Pkg} (t : s.tdmState = 0) (u : s.Uncounted h)
    (hf : ∀ i, i < 8 → (f (s.thr h)).rs (0x508 + i) = (s.thr h).rs (0x508 + i)) (c a fl d v n : Nat) :
    ((s.updThr h f).retire h).stepEnd h c a fl d v n = (s.updThr h f).updThr h Thread.stepped :=
  Pkg.retireEnd_alone (by simpa using t) (u.updThr hf) ..

/-- The command of a group whose operation changes the thread by `f` and steps it. -/
theorem State.run_stepped (r : s.pkg.Ready h i) (hg : i.grp = g) (e : op s.pkg i = (s.pkg.updThr h f).updThr h Thread.stepped) :
    ∃ q, s.run (·.issue h g op) = .next (s.withPkg q) ∧ s.pkg.Moves q h (f (s.pkg.thr h)).stepped :=
  ⟨_, State.run_issue r hg _, e ▸ Pkg.moves_stepped ..⟩

/-- The same for an operation that is done. -/
theorem State.run_done (r : s.pkg.Ready h i) (hg : i.grp = g) (e : op s.pkg i = s.pkg.done h f)
    (hf : ∀ i, i < 8 → (f (s.pkg.thr h)).rs (0x508 + i) = (s.pkg.thr h).rs (0x508 + i)) :
    ∃ q, s.run (·.issue h g op) = .next (s.withPkg q) ∧ s.pkg.Moves q h (f (s.pkg.thr h)).stepped := by
  obtain ⟨-, alone, -, -, -, -, -, counts, -⟩ := id r
  exact State.run_stepped r hg (e.trans (Pkg.done_alone alone counts f hf))
end

/-! ### INTEGER_OP (R75) -/

theorem State.run_intOp {s : State} {h : Htid} {i : Ins} (r : s.pkg.Ready h i) (hg : i.grp = .intOp) :
    ∃ q, exec (.integerOp h none) s = .next (s.withPkg q)
      ∧ s.pkg.Moves q h ((s.pkg.thr h).wg ((s.pkg.thr h).intResult i).1.toNat ((s.pkg.thr h).intResult i).2).stepped :=
  State.run_done r hg (f := fun t => t.wg ((s.pkg.thr h).intResult i).1.toNat ((s.pkg.thr h).intResult i).2)
    (by obtain ⟨-, -, -, -, -, -, -, -, watch⟩ := id r; simp [Pkg.opInteger, Pkg.watchX_unwatched watch])
    (fun _ _ => Thread.rs_wg ..)

/-- Settles O2: each instruction is a write of one register, its thread's retiring and no more. -/
theorem registerInstructionsComplete : Obligations.RegisterInstructionsComplete := by
  intro s h i r
  obtain ⟨-, alone, -, -, -, -, -, counts, watch⟩ := id r
  refine ⟨fun hg => State.run_intOp r hg, ?_, ?_, ?_⟩
  · rintro rd ra rfl
    exact State.run_done r rfl (f := fun t => t.wg rd.toNat (BitVec.ofNat 64 h)) (by simp only [Pkg.opHtid, Pkg.watchX_unwatched watch])
      (fun _ _ => Thread.rs_wg ..)
  · rintro rd ra rfl
    refine State.run_stepped r rfl (f := fun t => t.wg rd.toNat (BitVec.ofNat 64 s.pkg.timeNs)) ?_
    simp only [Pkg.opRdtime, Pkg.watchX_unwatched watch, Pkg.replaying_off alone, Bool.false_eq_true, if_false]
    exact Pkg.updRetireEnd_alone alone counts (fun _ _ => Thread.rs_wg ..) ..
  · rintro rd n rfl ok
    refine State.run_stepped r rfl (f := fun t => t.wg rd.toNat (s.pkg.srRead h n.toNat)) ?_
    simp only [Pkg.opMfsr, ok, Pkg.watchX_unwatched watch, Pkg.replaying_off alone, Bool.false_eq_true, if_false]
    split
    · exact Pkg.updRetireEnd_alone alone counts (fun _ _ => Thread.rs_wg ..) ..
    · exact Pkg.done_alone alone counts _ (fun _ _ => Thread.rs_wg ..)

/-! ### The table of R75 -/

theorem mulh_toInt (a b : Word) (c : Nat) : (intOp 11 a b c).toInt = a.toInt * b.toInt / 2 ^ 64 := by
  have ha := a.toInt_lt; have ha' := a.le_toInt; have hb := b.toInt_lt; have hb' := b.le_toInt
  have hab : |a.toInt * b.toInt| ≤ 2 ^ 63 * 2 ^ 63 := by
    rw [abs_mul]
    exact mul_le_mul (abs_le.mpr ⟨ha', ha.le⟩) (abs_le.mpr ⟨hb', hb.le⟩) (abs_nonneg _) (by norm_num)
  rw [abs_le] at hab
  change (BitVec.ofInt 64 (a.toInt * b.toInt / 2 ^ 64)).toInt = _
  rw [BitVec.toInt_ofInt, Int.bmod_eq_of_le] <;> omega

theorem mulhu_toNat (a b : Word) (c : Nat) : (intOp 12 a b c).toNat = a.toNat * b.toNat / 2 ^ 64 := by
  change (BitVec.ofNat 64 (a.toNat * b.toNat / 2 ^ 64)).toNat = _
  rw [BitVec.toNat_ofNat, Nat.mod_eq_of_lt]
  exact Nat.div_lt_of_lt_mul (Nat.mul_lt_mul'' a.isLt b.isLt)

theorem div_eq_sdiv (a b : Word) : BitVec.ofInt 64 (a.toInt.tdiv b.toInt) = a.sdiv b := by
  apply BitVec.eq_of_toInt_eq
  rw [BitVec.toInt_ofInt, BitVec.toInt_sdiv]

theorem rem_eq_srem (a b : Word) : BitVec.ofInt 64 (a.toInt.tmod b.toInt) = a.srem b := by
  apply BitVec.eq_of_toInt_eq
  rw [← BitVec.toInt_srem, BitVec.ofInt_toInt]

theorem clz64_bounds {a : Word} (h : a ≠ 0#64) :
    2 ^ (63 - clz64 a) ≤ a.toNat ∧ a.toNat < 2 ^ (64 - clz64 a) ∧ clz64 a < 64 := by
  have hz : a.toNat ≠ 0 := fun e => h (BitVec.eq_of_toNat_eq e)
  have hl : Nat.log2 a.toNat < 64 := (Nat.log2_lt hz).mpr a.isLt
  have e : clz64 a = 63 - Nat.log2 a.toNat := if_neg h
  rw [e, show 63 - (63 - Nat.log2 a.toNat) = Nat.log2 a.toNat by omega, show 64 - (63 - Nat.log2 a.toNat) = Nat.log2 a.toNat + 1 by omega]
  exact ⟨Nat.log2_self_le hz, Nat.lt_log2_self, by omega⟩

theorem ctz64_first {a : Word} (h : a ≠ 0#64) : ctz64 a < 64 ∧ a.getLsbD (ctz64 a) = true ∧ ∀ k, k < ctz64 a → a.getLsbD k = false := by
  unfold ctz64
  cases e : (List.range 64).find? (fun i => a.getLsbD i) with
  | none =>
    refine absurd (BitVec.eq_of_getLsbD_eq fun i hi => ?_) h
    rw [List.find?_eq_none] at e
    simpa using e i (List.mem_range.mpr hi)
  | some k =>
    obtain ⟨hk, hlt, first⟩ := List.find?_range_eq_some.mp e
    exact ⟨List.mem_range.mp hlt, hk, fun j hj => by simpa using first j hj⟩

theorem popc_lt (a : Word) : popc a < 2 ^ 64 := (List.length_filter_le ..).trans_lt (by simp)

section
variable (a b : Word) (c : Nat)

theorem slt_value : intOp 8 a b c = if a.toInt < b.toInt then 1#64 else 0#64 := by simp [intOp, BitVec.slt]
theorem sltu_value : intOp 9 a b c = if a.toNat < b.toNat then 1#64 else 0#64 := by simp [intOp, BitVec.ult]
theorem div_value : intOp 13 a b c = if b = 0#64 then BitVec.allOnes 64 else a.sdiv b := by simp only [intOp, div_eq_sdiv]
theorem rem_value : intOp 15 a b c = if b = 0#64 then a else a.srem b := by simp only [intOp, rem_eq_srem]
theorem min_toInt : (intOp 17 a b c).toInt = min a.toInt b.toInt := by simp only [intOp, BitVec.slt]; grind
theorem max_toInt : (intOp 18 a b c).toInt = max a.toInt b.toInt := by simp only [intOp, BitVec.slt]; grind
theorem minu_toNat : (intOp 19 a b c).toNat = min a.toNat b.toNat := by simp only [intOp, BitVec.ult]; grind
theorem maxu_toNat : (intOp 20 a b c).toNat = max a.toNat b.toNat := by simp only [intOp, BitVec.ult]; grind
theorem clz_toNat {k : Nat} (e : clz64 a = k) (h : k < 2 ^ 64) : (intOp 21 a b c).toNat = k := by
  simp only [intOp, e, BitVec.toNat_ofNat, Nat.mod_eq_of_lt h]
theorem ctz_toNat {k : Nat} (e : ctz64 a = k) (h : k < 2 ^ 64) : (intOp 22 a b c).toNat = k := by
  simp only [intOp, e, BitVec.toNat_ofNat, Nat.mod_eq_of_lt h]
theorem popc_toNat : (intOp 23 a b c).toNat = popc a := by simp only [intOp, BitVec.toNat_ofNat, Nat.mod_eq_of_lt (popc_lt a)]
theorem crc_toNat : (intOp 24 a b c).toNat = (crcBytes (a.setWidth 32) (2 ^ c) b.toNat).toNat :=
  (BitVec.toNat_setWidth ..).trans (Nat.mod_eq_of_lt ((BitVec.isLt _).trans (by decide)))
end

/-- Settles O3: the first part of each clause is INTEGER_OP's rule; the value is the table's, entry by entry. -/
theorem integerResultsAreThoseOfTheTable : Obligations.IntegerResultsAreThoseOfTheTable := by
  refine ⟨fun s h fn rd ra rb rc r => ?_, fun s h fn rd ra imm r => ?_, fun s h rd imm => ⟨fun r => State.run_intOp r rfl, fun r => State.run_intOp r rfl⟩⟩
  · obtain ⟨q, e, m⟩ := State.run_intOp r rfl
    intro a b
    refine ⟨q, intOp fn.toNat a b rc.toNat, e, m, ?_⟩
    clear e m r
    clear_value a b
    refine ⟨?_, ?_, ?_, ?_, ?_, ?_, ?_, ?_, ?_, ?_, ?_, ?_, ?_, ?_, ?_, ?_, ?_, ?_, ?_, ?_, ?_, ?_, ?_, ?_, ?_, ?_, ?_⟩ <;> rintro rfl
    exacts [rfl, rfl, rfl, rfl, rfl, rfl, rfl, rfl, slt_value .., sltu_value .., rfl, mulh_toInt .., mulhu_toNat .., div_value .., rfl, rem_value .., rfl,
      min_toInt .., max_toInt .., minu_toNat .., maxu_toNat .., fun z => by subst z; rfl,
      fun z => by
        obtain ⟨lo, hi, lt⟩ := clz64_bounds z
        rw [show (21#5).toNat = 21 from rfl, clz_toNat a b _ rfl (by omega)]
        exact ⟨lo, hi, lt⟩,
      fun z => by subst z; rfl,
      fun z => by
        obtain ⟨lt, one, zeros⟩ := ctz64_first z
        rw [show (22#5).toNat = 22 from rfl, ctz_toNat a b _ rfl (by omega)]
        exact ⟨lt, one, zeros⟩,
      popc_toNat .., crc_toNat ..]
  · obtain ⟨q, e, m⟩ := State.run_intOp r rfl
    intro a b
    refine ⟨q, intOpi fn.toNat a imm, e, m, ?_⟩
    clear e m r
    clear_value a
    refine ⟨?_, ?_, ?_, ?_, ?_, ?_, ?_, ?_, ?_⟩ <;> rintro rfl
    exacts [rfl, by simp [intOpi, BitVec.slt, b], by simp [intOpi, BitVec.ult, b], rfl, rfl, rfl, fun k => by simp [intOpi, k], fun k => by simp [intOpi, k],
      fun k => by simp [intOpi, k]]
end Sys2Proof.Machine
end

section
/-! ## Branches, calls and faults (03_instruction_set) -/
namespace Sys2Proof.Machine

section
variable {s : State} {h : Nat} {i : Ins} {g : Grp} {op : Pkg → Ins → Pkg} {q : Pkg} {t : Thread}

/-- The command of a group whose operation, on this package, only changes the thread. -/
theorem State.run_moves (r : s.pkg.Ready h i) (hg : i.grp = g) (e : op s.pkg i = q) (m : s.pkg.Moves q h t) :
    ∃ q, s.run (·.issue h g op) = .next (s.withPkg q) ∧ s.pkg.Moves q h t :=
  ⟨q, e ▸ State.run_issue r hg _, m⟩

/-- What a head decodes to is legal (R73). -/
theorem Pkg.Ready.legal {p : Pkg} (r : p.Ready h i) : i.legal = true := by
  obtain ⟨-, -, -, -, -, -, ⟨w, -, d⟩, -⟩ := r
  exact ((insDecode_eq_some_iff w i).mp d).1

/-- Two changes of the thread. -/
theorem Pkg.moves_updThr_updThr (p : Pkg) (f k : Thread → Thread) : p.Moves ((p.updThr h f).updThr h k) h (k (f (p.thr h))) :=
  ((Pkg.Moves.refl p h).updThr f).updThr k

end

/-! ### BRANCH, BAL and BALR (R75, 02 R43) -/

theorem branchTaken_iff {fn : BitVec 3} (k : fn.toNat ≤ 5) (a b : Word) : branchTaken fn.toNat a b = true ↔
    (fn = 0#3 ∧ a = b) ∨ (fn = 1#3 ∧ a ≠ b) ∨ (fn = 2#3 ∧ a.toInt < b.toInt) ∨ (fn = 3#3 ∧ b.toInt ≤ a.toInt)
      ∨ (fn = 4#3 ∧ a.toNat < b.toNat) ∨ (fn = 5#3 ∧ b.toNat ≤ a.toNat) := by
  obtain rfl | rfl | rfl | rfl | rfl | rfl : fn = 0#3 ∨ fn = 1#3 ∨ fn = 2#3 ∨ fn = 3#3 ∨ fn = 4#3 ∨ fn = 5#3 := by bv_omega
  all_goals simp [branchTaken, BitVec.slt, BitVec.ult]

/-- A change of the thread and a branch taken. -/
theorem Pkg.moves_jumpEnd {s : Pkg} {h : Nat} (t : s.tdmState = 0) (u : s.Uncounted h) (pc : Word) :
    s.Moves ((s.jump h pc).stepEnd h 0) h ((s.thr h).stepped.sentTo pc) := by
  rw [Pkg.jumpEnd_alone t u]
  exact Pkg.moves_updThr_updThr ..

theorem Pkg.opBranch_taken {s : Pkg} {h : Nat} {fn : BitVec 3} {ra rb : Reg} {off : BitVec 12}
    (watch : (s.thr h).Unwatched) (counts : s.Uncounted h) (k : branchTaken fn.toNat ((s.thr h).rg ra.toNat) ((s.thr h).rg rb.toNat) = true) :
    s.opBranch h (.branch fn ra rb off) = (s.jump h ((s.thr h).pc + ((off.signExtend 64) <<< 2))).stepEnd h 0 := by
  simp only [Pkg.opBranch, Pkg.watchX_unwatched watch, Pkg.pmu_uncounted counts, k, if_true]

theorem Pkg.opBranch_not_taken {s : Pkg} {h : Nat} {fn : BitVec 3} {ra rb : Reg} {off : BitVec 12}
    (watch : (s.thr h).Unwatched) (counts : s.Uncounted h) (k : ¬ branchTaken fn.toNat ((s.thr h).rg ra.toNat) ((s.thr h).rg rb.toNat) = true) :
    s.opBranch h (.branch fn ra rb off)
      = s.done h (fun t => { t with fstall := (t.queue.drop 1).any (fun q => stallsFetch q.2) }) := by
  simp only [Pkg.opBranch, Pkg.watchX_unwatched watch, Pkg.pmu_uncounted counts, k, if_false, Bool.false_eq_true]

/-- Where BAL's thread goes on once it has stepped: what it fetched from the target is kept. -/
def Thread.continuesAt (t : Thread) (tgt : Word) : Thread :=
  match t.queue with
  | (pc, _) :: _ => if pc = tgt then { t with pc := tgt } else t.sentTo tgt
  | [] => if t.fpc = tgt then { t with pc := tgt } else t.sentTo tgt

theorem Thread.continuesAt_cases (t : Thread) (tgt : Word) :
    t.continuesAt tgt = { t with pc := tgt } ∨ t.continuesAt tgt = t.sentTo tgt := by
  unfold Thread.continuesAt
  split <;> split <;> simp

theorem Thread.continuesAt_fetched {t : Thread} {tgt : Word} {w : Word32} {l : List (Word × Word32)} (e : t.queue = (tgt, w) :: l) :
    t.continuesAt tgt = { t with pc := tgt } := by simp [Thread.continuesAt, e]

theorem Pkg.updThr_congr {s : Pkg} {h : Nat} {f k : Thread → Thread} (e : f (s.thr h) = k (s.thr h)) : s.updThr h f = s.updThr h k :=
  congrArg (s.setThr h) e

theorem Pkg.opBal_eq {s : Pkg} {h : Nat} (alone : s.tdmState = 0) (watch : (s.thr h).Unwatched) (counts : s.Uncounted h) (rd : Reg) (imm : BitVec 20) :
    s.opBal h (.bal rd imm) = ((s.updThr h (fun t => t.wg rd.toNat (t.pc + 4#64))).updThr h Thread.stepped).updThr h
      (fun t => t.continuesAt ((s.thr h).pc + ((imm.signExtend 64) <<< 2))) := by
  have u1 : (s.updThr h (fun t => t.wg rd.toNat (t.pc + 4#64))).Uncounted h := counts.updThr (fun i _ => Thread.rs_wg ..)
  have u2 := u1.updThr (f := Thread.stepped) (fun i _ => Thread.stepped_sel _ i)
  simp only [Pkg.opBal, Pkg.watchX_unwatched watch, Pkg.retire_alone (by simpa using alone) u1, Pkg.pmu_uncounted u2, ite_self]
  generalize hs : (s.updThr h (fun t => t.wg rd.toNat (t.pc + 4#64))).updThr h Thread.stepped = q
  have off (f : Thread → Thread) : (q.updThr h f).paired = false := Pkg.paired_off (by subst hs; simpa using alone)
  cases e : (q.thr h).queue with
  | nil =>
    simp only
    split
    · rw [Pkg.stepEnd_alone (off _)]
      exact Pkg.updThr_congr (by simp [Thread.continuesAt, *])
    · rw [Pkg.redirect, Pkg.stepEnd_alone (off _)]
      exact Pkg.updThr_congr (by simp [Thread.continuesAt, *, Thread.sentTo])
  | cons x l =>
    simp only
    split
    · rw [Pkg.stepEnd_alone (off _)]
      exact Pkg.updThr_congr (by simp [Thread.continuesAt, *])
    · rw [Pkg.redirect, Pkg.stepEnd_alone (off _)]
      exact Pkg.updThr_congr (by simp [Thread.continuesAt, *, Thread.sentTo])

theorem Pkg.opBalr_eq {s : Pkg} {h : Nat} {rd ra : Reg} {imm : BitVec 12} (watch : (s.thr h).Unwatched)
    (aligned : ((s.thr h).rg ra.toNat + imm.signExtend 64).toNat % 4 = 0) :
    s.opBalr h (.balr rd ra imm) = ((s.updThr h (fun t => t.wg rd.toNat (t.pc + 4#64))).jump h
      ((s.thr h).rg ra.toNat + imm.signExtend 64)).stepEnd h 0 := by
  simp only [Pkg.opBalr, aligned, ne_eq, not_true_eq_false, if_false, Pkg.watchX_unwatched watch]

/-- Settles O4: a branch taken and BALR are jumps, BAL goes on at its target, a branch not taken only steps. -/
theorem branchesGoWhereTheySay : Obligations.BranchesGoWhereTheySay := by
  intro s h i r
  obtain ⟨-, alone, -, -, -, -, -, counts, watch⟩ := id r
  refine ⟨?_, ?_, ?_⟩
  · rintro fn ra rb off rfl a b taken
    have legal : fn.toNat ≤ 5 := of_decide_eq_true r.legal
    have iff : branchTaken fn.toNat a b = true ↔ taken := branchTaken_iff legal a b
    by_cases k : branchTaken fn.toNat a b = true
    · obtain ⟨q, e, m⟩ := State.run_moves r rfl (op := fun p => p.opBranch h) (Pkg.opBranch_taken watch counts k) (Pkg.moves_jumpEnd alone counts _)
      exact ⟨q, _, e, m, fun _ => rfl, fun n => absurd (iff.mp k) n⟩
    · obtain ⟨q, e, m⟩ := State.run_done r rfl (op := fun p => p.opBranch h) (Pkg.opBranch_not_taken watch counts k) (fun _ _ => rfl)
      exact ⟨q, _, e, m, fun y => absurd (iff.mpr y) k, fun _ => rfl⟩
  · rintro rd imm rfl tgt u
    obtain ⟨q, e, m⟩ := State.run_moves r rfl (op := fun p => p.opBal h) (Pkg.opBal_eq alone watch counts rd imm) ((Pkg.moves_updThr_updThr ..).updThr _)
    exact ⟨q, _, e, m, Thread.continuesAt_cases u tgt, fun w l k => Thread.continuesAt_fetched k⟩
  · rintro rd ra imm rfl tgt aligned
    have u1 : (s.pkg.updThr h (fun t => t.wg rd.toNat (t.pc + 4#64))).Uncounted h := counts.updThr (fun i _ => Thread.rs_wg ..)
    refine State.run_moves r rfl (Pkg.opBalr_eq watch aligned) ?_
    rw [Pkg.jumpEnd_alone (by simpa using alone) u1]
    exact (Pkg.moves_updThr_updThr ..).updThr _

/-! ### Exceptions of an instruction (04 R108, R112) -/

section
variable {s : State} {h : Nat} {i : Ins} {g : Grp} {op : Pkg → Ins → Pkg} {v fin : Nat} {pc fa : Word}

/-- The command of a group whose operation is an exception, with nothing of the thread before it. -/
theorem State.run_fault (r : s.pkg.Ready h i) (sb : (s.pkg.thr h).sb = []) (hg : i.grp = g) (e : op s.pkg i = s.pkg.fault h v pc fa fin) :
    s.run (·.issue h g op) = .next (s.withPkg (s.pkg.enterAt h v pc fa (BitVec.ofNat 64 fin) false)) := by
  rw [State.run_issue r hg, e, Pkg.fault_ready r, if_pos sb]

end

theorem Pkg.priv_above {s : Pkg} {h n : Nat} (k : n ≤ (s.thr h).lvl) (f : Pkg → Pkg) : s.priv h n f = f s :=
  if_neg (Nat.not_lt.mpr k)

/-- A call at a level that may make it: the frame's PC is the next instruction's (R112). -/
theorem Pkg.callVec_eq {s : Pkg} {h n : Nat} (watch : (s.thr h).Unwatched) (k : n ≤ (s.thr h).lvl) (v : Nat) :
    s.callVec h v n = s.fault h v ((s.thr h).pc + 4#64) 0#64 0 := by
  rw [Pkg.callVec, Pkg.priv_above k, Pkg.watchX_unwatched watch]

/-- SCALL whose fast path is closed (04 R120). -/
theorem Pkg.opScall_slow {s : Pkg} {h : Nat} (watch : (s.thr h).Unwatched)
    (closed : ((s.thr h).rs 0x302).getLsbD 0 = false ∨ ((s.thr h).rs 0x304).getLsbD 7 = true ∨ bits ((s.thr h).rs 0x302) 2 1 < (s.thr h).lvl) :
    s.opScall h = s.fault h 16 ((s.thr h).pc + 4#64) 0#64 0 := by
  have shut : (((s.thr h).rs 0x302).getLsbD 0 && !((s.thr h).rs 0x304).getLsbD 7
      && decide (bits ((s.thr h).rs 0x302) 2 1 ≥ (s.thr h).lvl)) = false := by
    obtain k | k | k := closed
    · rw [k]; rfl
    · rw [k]; simp
    · simp [k]
  simp only [Pkg.opScall, shut, Bool.false_eq_true, if_false]
  exact Pkg.callVec_eq watch (Nat.zero_le _) 16

/-- Settles O6: each call is an exception of its instruction. -/
theorem callsEnterTheirVector : Obligations.CallsEnterTheirVector := by
  intro s h i r sb
  obtain ⟨-, -, -, -, -, -, -, -, watch⟩ := id r
  refine ⟨?_, ?_, ?_, ?_, ?_⟩
  · rintro rfl closed
    exact State.run_fault r sb rfl (op := fun p _ => p.opScall h) (Pkg.opScall_slow watch closed)
  · rintro rfl lvl
    exact State.run_fault r sb rfl (op := fun p _ => p.opHcall h) (Pkg.callVec_eq watch lvl 17)
  · rintro rfl lvl
    exact State.run_fault r sb rfl (op := fun p _ => p.opMcall h) (Pkg.callVec_eq watch lvl 18)
  · rintro n rfl
    exact State.run_fault r sb rfl (op := fun p => p.opTrap h) (Pkg.callVec_eq watch (Nat.zero_le _) (128 + n.toNat))
  · rintro rfl
    exact State.run_fault r sb rfl (op := fun p _ => p.opBrk h) (Pkg.watchX_unwatched watch _)

/-- A word that is no instruction enters vector 0 (R73). -/
theorem State.run_illegal {s : State} {h : Nat} {w : Word32} (live : s.pkg.live = true) (alone : s.pkg.tdmState = 0) (go : s.pkg.mayGo h = true)
    (sel : (s.pkg.thr h).sel = true) (await : (s.pkg.thr h).await = none) (wreason : (s.pkg.thr h).wreason = none) (sb : (s.pkg.thr h).sb = [])
    (head : (s.pkg.thr h).head = some w) (illegal : insDecode w = none) (f : Pkg → Ins → Pkg) :
    s.run (·.issue h .intOp f) = .next (s.withPkg (s.pkg.enterAt h 0 (s.pkg.thr h).pc 0#64 0#64 false)) := by
  have fault : s.pkg.fault h 0 (s.pkg.thr h).pc 0#64 0 = s.pkg.enterAt h 0 (s.pkg.thr h).pc 0#64 0#64 false := by
    simp [Pkg.fault, await, sb, Pkg.enter, Pkg.stop_isSome_of_live live, Pkg.commit_alone (Pkg.paired_off alone)]
  rw [State.run_live _ live]
  simp [Pkg.issue, head, wordGrp, illegal, go, sel, Pkg.flushWake_none wreason, fault]

theorem Pkg.atomic_misaligned {s : Pkg} {h : Nat} {ra : Reg} {a : AtomOp} (k : ((s.thr h).rg ra.toNat).toNat % a.n ≠ 0) (d : Dest) :
    s.atomic h false ra d a = s.fault h 2 (s.thr h).pc ((s.thr h).rg ra.toNat) 3072 := if_pos k

theorem Ins.grp_amo {fn : BitVec 5} (lo : 2 ≤ fn.toNat) (hi : fn.toNat ≤ 9) (w32 : Bool) (rd ra rb : Reg) : (Ins.amo fn w32 rd ra rb).grp = .amo := by
  have k0 : fn ≠ 0#5 := by bv_omega
  have k1 : fn ≠ 1#5 := by bv_omega
  have k10 : fn ≠ 10#5 := by bv_omega
  simp [Ins.grp, k0, k1, k10]

/-- Settles O9: each clause is an exception that the instruction's operation raises before anything else. -/
theorem faultsTakeTheirVector : Obligations.FaultsTakeTheirVector := by
  refine ⟨fun s h w live alone go sel await wreason sb head illegal => State.run_illegal live alone go sel await wreason sb head illegal _, ?_⟩
  intro s h i r sb
  refine ⟨?_, ?_, ?_, ?_, ?_, ?_, ?_, ?_, ?_, ?_, ?_, ?_, ?_, ?_, ?_⟩
  · rintro rfl lvl
    exact State.run_fault r sb rfl (op := fun p _ => p.opHcall h) (if_pos lvl)
  · rintro rfl lvl
    exact State.run_fault r sb rfl (op := fun p _ => p.opMcall h) (if_pos lvl)
  · rintro rfl lvl
    exact State.run_fault r sb rfl (op := fun p _ => p.opSret h) (if_pos lvl)
  · rintro rfl lvl dead
    exact State.run_fault r sb rfl (op := fun p _ => p.opSret h) (by simp only [Pkg.opSret, Pkg.priv_above lvl, dead, Bool.not_false, if_true])
  · rintro rfl lvl
    exact State.run_fault r sb rfl (op := fun p _ => p.opEret h) (if_pos lvl)
  · rintro cs ra rfl iva lvl
    exact State.run_fault r sb (by simp [Ins.grp, iva]) (op := fun p => p.opIva h false) (if_pos lvl)
  · rintro ty ra rfl lvl
    have low : (s.pkg.thr h).lvl < if ty = 3#3 ∨ ty = 5#3 then 2 else 1 := by
      obtain k | ⟨high, k⟩ := lvl
      · split <;> omega
      · rwa [if_pos high]
    exact State.run_fault r sb rfl (op := fun p => p.opTlbi h) (if_pos low)
  · refine fun ra lvl => ⟨?_, ?_, ?_⟩ <;> rintro rfl
    · exact State.run_fault r sb rfl (op := fun p => p.opCsw h) (if_pos lvl)
    · exact State.run_fault r sb rfl (op := fun p => p.opIsw h) (if_pos lvl)
    · exact State.run_fault r sb rfl (op := fun p => p.opCisw h) (if_pos lvl)
  · rintro rd n v rfl k
    exact State.run_fault r sb rfl (op := fun p => p.opMfsr h) (by simp only [Pkg.opMfsr, k])
  · rintro ra n v rfl k
    exact State.run_fault r sb rfl (op := fun p => p.opMtsr h) (by simp only [Pkg.opMtsr, k])
  · rintro rd ra imm rfl k
    exact State.run_fault r sb rfl (op := fun p => p.opBalr h) (if_pos k)
  · rintro w32 rd ra rb rfl k
    exact State.run_fault r sb rfl (op := fun p => p.opCas h false) (Pkg.atomic_misaligned k _)
  · rintro w32 rd ra rb rfl k
    exact State.run_fault r sb rfl (op := fun p => p.opCas128 h false) (Pkg.atomic_misaligned k _)
  · rintro w32 rd ra rb rfl k
    exact State.run_fault r sb rfl (op := fun p => p.opDamoadd h false) (Pkg.atomic_misaligned k _)
  · rintro fn w32 rd ra rb rfl lo hi k
    exact State.run_fault r sb (Ins.grp_amo lo hi ..) (op := fun p => p.opAmo h false) (Pkg.atomic_misaligned k _)

end Sys2Proof.Machine
end

section
/-! ## Waits, fences and floating point (03_instruction_set) -/
namespace Sys2Proof.Machine

/-! ### PARK, MONITOR and WAITT (R92, R93) -/

/-- Retiring, one more change of the thread, and the end of the step. -/
theorem Pkg.retireUpdEnd_alone {s : Pkg} {h : Nat} (t : s.tdmState = 0) (u : s.Uncounted h) (f : Thread → Thread) (c a fl d v n : Nat) :
    ((s.retire h).updThr h f).stepEnd h c a fl d v n = (s.updThr h Thread.stepped).updThr h f := by
  rw [Pkg.retire_alone t u]
  exact Pkg.stepEnd_alone (Pkg.paired_off (by simpa using t)) ..

theorem Pkg.opPark_eq {s : Pkg} {h : Nat} (alone : s.tdmState = 0) (watch : (s.thr h).Unwatched) :
    s.opPark h = if (s.thr h).monWake then s.done h (fun t => { t with mon := none, monWake := false })
      else ((s.retire h).updThr h (fun t => { t with st := .parked })).stepEnd h 11 := by
  simp only [Pkg.opPark, Pkg.watchX_unwatched watch, Pkg.replaying_off alone, Bool.false_eq_true, if_false]

/-- MONITOR of a byte outside AI 0 and 1 meets BUS_ERR 8 (R93). -/
def Pkg.monitorErr (s : Pkg) (x : Piece) : Option Nat :=
  match s.regionErr x.pa x.ai with
  | some e => some e
  | none => if x.ai ≤ 1 then none else some 8

theorem Pkg.opMonitor_eq {s : Pkg} {h : Nat} {n : BitVec 12} {rd ra : Reg} {x : Piece} {l : List Piece}
    (alone : s.tdmState = 0) (watch : (s.thr h).Unwatched) (counts : s.Uncounted h)
    (reach : s.Reaches h .load ((s.thr h).rg ra.toNat) 1 Pkg.monitorErr (x :: l)) :
    s.opMonitor h false (.sys n rd ra) = s.done h (fun t => { t with mon := some (x.pa / 64), monWake := false }) := by
  unfold Pkg.opMonitor
  exact Pkg.access_reaches reach alone watch true false counts _

theorem Pkg.opWaitt_eq {s : Pkg} {h : Nat} {n : BitVec 12} {rd ra : Reg} (alone : s.tdmState = 0) (watch : (s.thr h).Unwatched) :
    s.opWaitt h (.sys n rd ra) = if ((s.thr h).rg ra.toNat).toNat ≤ s.timeNs % 2 ^ 64
      then ((s.updThr h (fun t => t.wg rd.toNat 0#64)).retire h).stepEnd h 5 0 0 0 0 8
      else ((s.retire h).updThr h (fun t => { t with st := .timewait, waitt := some ((s.thr h).rg ra.toNat, rd.toNat) })).stepEnd h 11 := by
  simp only [Pkg.opWaitt, Pkg.watchX_unwatched watch, Pkg.replaying_off alone, Bool.false_eq_true, if_false, ge_iff_le]

/-! ### The fences (R91) -/

theorem Pkg.wcFlush_none {s : Pkg} {c : Nat} (e : (s.core c).wc = []) (q : WcBuf → Bool) : s.wcFlush c q = s := by
  simp [Pkg.wcFlush, e]

theorem Pkg.quiet_iff {s : Pkg} {h : Nat} (await : (s.thr h).await = none) : s.quiet h = true ↔ (s.thr h).sb = [] := by
  simp [Pkg.quiet, await]

/-- A fence that completes (02 R43). -/
theorem Pkg.moves_fenced {s : Pkg} {h : Nat} (alone : s.tdmState = 0) (counts : s.Uncounted h) (c : Nat) :
    s.Moves (s.fenced h c) h ((s.thr h).stepped.sentTo ((s.thr h).pc + 4#64)) := by
  have e : s.fenced h c = (s.updThr h Thread.stepped).updThr h (fun t => t.sentTo ((s.thr h).pc + 4#64)) := by
    simp only [Pkg.fenced, Pkg.redirect, Pkg.pmu_uncounted counts, Pkg.retire_alone alone counts, Pkg.thr_updThr_same]
    exact Pkg.stepEnd_alone (Pkg.paired_off (by simpa using alone)) ..
  rw [e]
  exact Pkg.moves_updThr_updThr ..

section
variable {s : State} {h : Nat} {i : Ins} {g : Grp} {op : Pkg → Ins → Pkg} {q : Pkg}

theorem State.run_op (r : s.pkg.Ready h i) (hg : i.grp = g) (e : op s.pkg i = q) : s.run (·.issue h g op) = .next (s.withPkg q) :=
  e ▸ State.run_issue r hg op

/-- An instruction that waits. -/
theorem State.run_waits (r : s.pkg.Ready h i) (hg : i.grp = g) (e : op s.pkg i = s.pkg) : s.run (·.issue h g op) = .next s :=
  State.run_op r hg e
end

/-- Settles O10: an instruction whose condition holds steps its thread, the others wait. -/
theorem waitsAndFencesComplete : Obligations.WaitsAndFencesComplete := by
  intro s h i r
  obtain ⟨-, alone, -, -, await, -, -, counts, watch⟩ := id r
  have quiet := Pkg.quiet_iff (s := s.pkg) (h := h) await
  refine ⟨?_, ?_, ?_, ?_, ?_, ?_⟩
  · rintro rfl
    have e := Pkg.opPark_eq alone watch
    refine ⟨fun k => State.run_done r rfl (op := fun p _ => p.opPark h) (e.trans (if_pos k)) (fun _ _ => rfl), fun k => ?_⟩
    refine State.run_moves r rfl (op := fun p _ => p.opPark h) (e.trans (if_neg (by simp [k]))) ?_
    rw [Pkg.retireUpdEnd_alone alone counts]
    exact Pkg.moves_updThr_updThr ..
  · rintro ra ps rfl reach x l rfl
    exact State.run_done r rfl (op := fun p => p.opMonitor h false) (Pkg.opMonitor_eq alone watch counts reach) (fun _ _ => rfl)
  · rintro rd ra rfl
    have e := Pkg.opWaitt_eq (n := 0xA#12) (rd := rd) (ra := ra) alone watch
    refine ⟨fun k => ?_, fun k => ?_⟩
    · refine State.run_stepped r rfl (op := fun p => p.opWaitt h) (f := fun t => t.wg rd.toNat 0#64) ((e.trans (if_pos k)).trans ?_)
      exact Pkg.updRetireEnd_alone alone counts (fun _ _ => Thread.rs_wg ..) ..
    · refine State.run_moves r rfl (op := fun p => p.opWaitt h) (e.trans (if_neg (Nat.not_le.mpr k))) ?_
      rw [Pkg.retireUpdEnd_alone alone counts]
      exact Pkg.moves_updThr_updThr ..
  · rintro rfl
    refine ⟨fun sb => State.run_moves r rfl (op := fun p _ => p.opFence h) ?_ (Pkg.moves_fenced alone counts 0),
      fun sb => State.run_waits r rfl (op := fun p _ => p.opFence h) ?_⟩
    all_goals simp [Pkg.opFence, Pkg.watchX_unwatched watch, quiet, sb]
  · rintro rfl
    refine ⟨fun sb wc io => State.run_moves r rfl (op := fun p _ => p.opFenceIo h) ?_ (Pkg.moves_fenced alone counts 10),
      fun sb => State.run_waits r rfl (op := fun p _ => p.opFenceIo h) ?_⟩
    · simp [Pkg.opFenceIo, Pkg.watchX_unwatched watch, quiet.mpr sb, Pkg.wcFlush_none wc, io]
    · simp [Pkg.opFenceIo, Pkg.watchX_unwatched watch, mt quiet.mp sb]
  · rintro rfl
    refine ⟨fun sb out => State.run_moves r rfl (op := fun p _ => p.opFenceG h) ?_ (Pkg.moves_fenced alone counts 10),
      fun sb out => State.run_op r rfl (op := fun p _ => p.opFenceG h) ?_,
      fun sb => State.run_waits r rfl (op := fun p _ => p.opFenceG h) ?_⟩
    · simp [Pkg.opFenceG, Pkg.watchX_unwatched watch, quiet.mpr sb, out]
    · simp [Pkg.opFenceG, Pkg.watchX_unwatched watch, quiet.mpr sb, out]
    · simp [Pkg.opFenceG, Pkg.watchX_unwatched watch, mt quiet.mp sb]

/-! ### FP_OP, FMA, DEC_OP and VEC_OP (R78 to R87) -/

section
variable {s : Pkg} {h e : Nat} {dec : Bool} {f : Thread → Thread} {ev : Nat}

/-- The flags are ORed into FPCR: no trap of theirs is enabled. -/
theorem Pkg.fpDone_untrapped (alone : s.tdmState = 0) (counts : s.Uncounted h) (watch : (s.thr h).Unwatched) (hf : (f (s.thr h)).sr = (s.thr h).sr)
    (no : e &&& bits (s.thr h).fpcrV 28 24 = 0) :
    s.fpDone h e dec f ev = (s.updThr h (fun t => (f t).ws 0x018
      ((s.thr h).fpcrV ||| BitVec.ofNat 64 (e * if dec then 65536 else 256)))).updThr h Thread.stepped := by
  have sel : ∀ v : Word, ∀ i, i < 8 → ((f (s.thr h)).ws 0x018 v).rs (0x508 + i) = (s.thr h).rs (0x508 + i) := by
    intro v i hi
    rw [Thread.rs_ws, if_neg (by omega), Thread.rs, hf, Thread.rs]
  simp only [Pkg.fpDone, Pkg.watchX_unwatched watch, no, ne_eq, not_true_eq_false, if_false]
  rw [Pkg.done_alone alone counts _ (sel _)]
  exact Pkg.pmu_uncounted ((counts.updThr (sel _)).updThr (fun i _ => Thread.stepped_sel _ i)) ev 1

/-- A trap of theirs is enabled. -/
theorem Pkg.fpDone_trapped (watch : (s.thr h).Unwatched) (trap : e &&& bits (s.thr h).fpcrV 28 24 ≠ 0) :
    s.fpDone h e dec f ev = s.fault h 13 (s.thr h).pc 0#64 (e + if dec then 32 else 0) := by
  simp only [Pkg.fpDone, Pkg.watchX_unwatched watch, trap, ne_eq, not_false_eq_true, if_true]
end

@[simp] theorem Thread.wFw_sr (t : Thread) (p : Bool) (r : Reg) (x : Nat) : (t.wFw p r x).sr = t.sr := by
  unfold Thread.wFw
  split <;> simp

theorem Pkg.moves_fpDone {s : Pkg} {h e : Nat} {dec : Bool} {f : Thread → Thread} {ev : Nat} (alone : s.tdmState = 0) (counts : s.Uncounted h)
    (watch : (s.thr h).Unwatched) (hf : (f (s.thr h)).sr = (s.thr h).sr) (no : e &&& bits (s.thr h).fpcrV 28 24 = 0) :
    s.Moves (s.fpDone h e dec f ev) h
      ((f (s.thr h)).ws 0x018 ((s.thr h).fpcrV ||| BitVec.ofNat 64 (e * if dec then 65536 else 256))).stepped := by
  rw [Pkg.fpDone_untrapped alone counts watch hf no]
  exact Pkg.moves_updThr_updThr ..

/-- Settles O5: each operation's result and flags go through `Pkg.fpDone`; a free decimal result is drawn before it. -/
theorem floatingPointInstructionsComplete : Obligations.FloatingPointInstructionsComplete := by
  intro s h i r
  obtain ⟨-, alone, -, -, -, -, -, counts, watch⟩ := id r
  refine ⟨?_, ?_, ?_, ?_⟩
  · rintro fn rm p rd ra rb rfl d x e k
    cases d with
    | f =>
      have eq : s.pkg.opFp h (.fp fn rm p rd ra rb) = s.pkg.fpDone h e false (fun t => t.wF rd.toNat x) := by simp only [Pkg.opFp, k]
      exact ⟨fun no => ⟨_, State.run_op r rfl (op := fun p => p.opFp h) eq, Pkg.moves_fpDone alone counts watch (Thread.wF_sr ..) no⟩,
        fun trap => State.run_op r rfl (op := fun p => p.opFp h) (eq.trans (Pkg.fpDone_trapped watch trap))⟩
    | g =>
      have eq : s.pkg.opFp h (.fp fn rm p rd ra rb) = s.pkg.fpDone h e false (fun t => t.wg rd.toNat x) := by simp only [Pkg.opFp, k]
      exact ⟨fun no => ⟨_, State.run_op r rfl (op := fun p => p.opFp h) eq, Pkg.moves_fpDone alone counts watch (Thread.wg_sr ..) no⟩,
        fun trap => State.run_op r rfl (op := fun p => p.opFp h) (eq.trans (Pkg.fpDone_trapped watch trap))⟩
  · rintro fn p rd ra rb rc rfl x e k
    have eq : s.pkg.opFma h (.fma fn p rd ra rb rc) = s.pkg.fpDone h e false (fun t => t.wF rd.toNat x) := by simp only [Pkg.opFma, k]
    exact ⟨fun no => ⟨_, State.run_op r rfl (op := fun p => p.opFma h) eq, Pkg.moves_fpDone alone counts watch (Thread.wF_sr ..) no⟩,
      fun trap => State.run_op r rfl (op := fun p => p.opFma h) (eq.trans (Pkg.fpDone_trapped watch trap))⟩
  · rintro fn rm p rd ra rb rfl d x e k
    cases d with
    | f =>
      have eq : s.pkg.opDec h (.dec fn rm p rd ra rb) = s.pkg.fpDone h e true (fun t => t.wFw p rd x) 0x1A := by simp only [Pkg.opDec, k]
      exact ⟨fun no => ⟨_, 0, 0, State.run_op r rfl (op := fun p => p.opDec h) eq, Pkg.moves_fpDone alone counts watch (Thread.wFw_sr ..) no,
          fun _ => rfl, nofun⟩,
        fun trap _ => State.run_op r rfl (op := fun p => p.opDec h) (eq.trans (Pkg.fpDone_trapped watch trap)), nofun⟩
    | g =>
      have eq : s.pkg.opDec h (.dec fn rm p rd ra rb) = s.pkg.fpDone h e true (fun t => t.wg rd.toNat (BitVec.ofNat 64 x)) 0x1A := by
        simp only [Pkg.opDec, k]
      exact ⟨fun no => ⟨_, 0, 0, State.run_op r rfl (op := fun p => p.opDec h) eq, Pkg.moves_fpDone alone counts watch (Thread.wg_sr ..) no,
          fun _ => rfl, nofun⟩,
        fun trap _ => State.run_op r rfl (op := fun p => p.opDec h) (eq.trans (Pkg.fpDone_trapped watch trap)), nofun⟩
    | free nan neg =>
      let y := freeD p nan neg ((Config.free s.pkg.fresh).toNat + (Config.free (s.pkg.fresh + 1)).toNat * 2 ^ 64)
      have eq : s.pkg.opDec h (.dec fn rm p rd ra rb) = Pkg.fpDone { s.pkg with fresh := s.pkg.fresh + 2 } h e true (fun t => t.wFw p rd y) 0x1A := by
        simp only [Pkg.opDec, k, Pkg.draw, y]
      refine ⟨fun no => ⟨_, y, 2, State.run_op r rfl (op := fun p => p.opDec h) eq,
          Pkg.moves_fpDone (s := { s.pkg with fresh := s.pkg.fresh + 2 }) alone counts watch (Thread.wFw_sr ..) no, nofun, ?_⟩, nofun,
        fun trap _ _ _ => State.run_op r rfl (op := fun p => p.opDec h)
          (eq.trans (Pkg.fpDone_trapped (s := { s.pkg with fresh := s.pkg.fresh + 2 }) watch trap))⟩
      rintro _ _ ⟨⟩
      exact ⟨rfl, rfl⟩
  · rintro fn rd ra rb rc rfl o v1 v2 v3
    have sr : v3.sr = (s.pkg.thr h).sr := by
      have e1 : v1.sr = (s.pkg.thr h).sr := by
        unfold v1
        cases o.v <;> rfl
      have e2 : v2.sr = v1.sr := by
        unfold v2
        cases o.v1 <;> rfl
      have e3 : v3.sr = v2.sr := by
        unfold v3
        cases o.g
        · rfl
        · exact Thread.wg_sr ..
      rw [e3, e2, e1]
    exact ⟨fun no => ⟨_, State.run_op r rfl (op := fun p => p.opVec h) rfl, Pkg.moves_fpDone alone counts watch sr no⟩,
      fun trap => State.run_op r rfl (op := fun p => p.opVec h) (Pkg.fpDone_trapped watch trap)⟩

end Sys2Proof.Machine
end

section
/-! ## Cache maintenance (03_instruction_set) -/
namespace Sys2Proof.Machine

/-- A running package whose thread 0 (level M, untranslated) is at a CVA with the I bit, of the device byte 2^51 (AI 2); an L1I entry has its line. -/
def cvaDevice : Pkg :=
  { pins := { vaux := true, pwrgood := true }
    threads := [(0, { st := .run, sel := true, g := [(2, 0x8000000000000#64)], queue := [(0#64, (Ins.cma 0x10#5 2#5).encode)] })]
    l1i := [(0, { line := 2 ^ 45 })] }

/-- The piece that the CVA reaches. -/
def cvaDevicePiece : Piece := { va := 0x8000000000000#64, n := 1, pa := 2 ^ 51, ai := 2 }

theorem cvaDevice_ready : cvaDevice.Ready 0 (.cma 0x10#5 2#5) :=
  ⟨rfl, rfl, by decide +kernel, rfl, rfl, rfl, ⟨_, rfl, by decide⟩, ⟨by decide +kernel, by decide +kernel⟩, by unfold Thread.Unwatched; decide +kernel⟩

theorem cvaDevice_reaches : cvaDevice.Reaches 0 .load 0x8000000000000#64 1
    (fun p y => if 2 ≤ y.ai ∧ y.ai ≤ 4 then none else p.regionErr y.pa y.ai) [cvaDevicePiece] :=
  ⟨_, rfl, rfl, by decide +kernel⟩

/-- The model's CVA does nothing to a device line: the L1I entry stays. -/
theorem cvaDevice_opCva : cvaDevice.opCva 0 false (.cma 0x10#5 2#5) = (cvaDevice.updThr 0 Thread.stepped) := by
  decide +kernel

/-- Refutes O14: of a byte with AI 2 to 4 the model's CVA has no effect even with the I bit, where the statement has the line leave every L1I. -/
theorem not_cacheMaintenanceCompletes : ¬ Obligations.CacheMaintenanceCompletes := by
  unfold Obligations.CacheMaintenanceCompletes
  intro claim
  obtain ⟨byAddress, -⟩ := claim { pkg := cvaDevice } 0 _ cvaDevice_ready rfl
  obtain ⟨cva, -⟩ := byAddress 0x10#5 2#5 cvaDevicePiece rfl rfl rfl
  obtain ⟨q, ran, ⟨-, -, rest⟩, -⟩ := cva rfl cvaDevice_reaches
  have stays : exec (.cva 0) { pkg := cvaDevice } = .next (State.withPkg { pkg := cvaDevice } (cvaDevice.updThr 0 Thread.stepped)) :=
    State.run_op (s := { pkg := cvaDevice }) cvaDevice_ready rfl (op := fun p => p.opCva 0 false) cvaDevice_opCva
  have same : q = cvaDevice.updThr 0 Thread.stepped := by
    rw [stays] at ran
    exact (congrArg State.pkg (Host.Outcome.next.inj ran)).symm
  have dropped : q.l1i = [] := (congrArg Pkg.l1i rest).trans rfl
  rw [same] at dropped
  exact absurd dropped (by decide)

end Sys2Proof.Machine
end

section
/-! ## Loads and stores (03_instruction_set, 02 R46 to R53) -/
namespace Sys2Proof.Machine

/-! ### A load delivers its value -/

@[simp] theorem Thread.deliver_sr (t : Thread) (d : Dest) (x : Nat) : (t.deliver d x).sr = t.sr := by
  cases d <;> simp [Thread.deliver]

theorem Thread.wg_stepped (t : Thread) (r : Nat) (v : Word) : (t.wg r v).stepped = t.stepped.wg r v := by
  unfold Thread.wg
  split <;> rfl

theorem Thread.deliver_stepped (t : Thread) (d : Dest) (x : Nat) : (t.deliver d x).stepped = t.stepped.deliver d x := by
  cases d with
  | g => exact Thread.wg_stepped ..
  | gg => exact (Thread.wg_stepped ..).trans (congrArg (fun t => Thread.wg t _ _) (Thread.wg_stepped ..))
  | _ => rfl

theorem Thread.deliver_rs (t : Thread) (d : Dest) (x n : Nat) : (t.deliver d x).rs n = t.rs n := by
  unfold Thread.rs
  rw [Thread.deliver_sr]

theorem Ins.loadForm_notBuf {i : Ins} {d : Dest} {n : Nat} {ra : Reg} {imm : BitVec 12} (f : i.loadForm = some (d, n, ra, imm)) : d ≠ .buf := by
  rintro rfl
  cases i <;> simp [Ins.loadForm] at f

theorem Ins.grp_of_loadForm {i : Ins} {l : Dest × Nat × Reg × BitVec 12} (f : i.loadForm = some l) : i.grp = .load := by
  cases i with
  | load | loadf | loadv => rfl
  | _ => cases f

theorem Thread.grp_of_storeForm {t : Thread} {i : Ins} {l : Nat × Reg × BitVec 12 × Nat} (f : t.storeForm i = some l) : i.grp = .store := by
  cases i with
  | store | storef | storev => rfl
  | _ => cases f

/-- What completes a blocking load of value v. -/
def Thread.loaded (t : Thread) (d : Dest) (v : Nat) : Thread := Thread.deliver { t with await := none } d v

theorem Pkg.loadDone_blocking {s : Pkg} {h v : Nat} {a : Await} (alone : s.tdmState = 0) (counts : s.Uncounted h)
    (await : (s.thr h).await = some a) (value : partsValue a.parts = some v) (notBuf : a.dest ≠ .buf) (blk : a.blk = true)
    (noFlags : a.dflags = false) : s.loadDone h = (s.updThr h (·.loaded a.dest v)).updThr h Thread.stepped := by
  have u : (s.updThr h (·.loaded a.dest v)).Uncounted h := counts.updThr (fun _ _ => Thread.deliver_rs ..)
  simp only [Pkg.loadDone, await, value, beq_eq_false_iff_ne.mpr notBuf, blk, noFlags, Bool.false_eq_true, if_false, if_true]
  exact Pkg.retireEnd_alone (s := s.updThr h (·.loaded a.dest v)) (by simpa using alone) u ..

/-- A blocking load's only part has its value: the load is complete and the thread steps. -/
theorem Pkg.moves_partDone {s q : Pkg} {h : Nat} {t : Thread} {a : Await} {p : Part} (m : s.Moves q h t) (alone : q.tdmState = 0)
    (counts : q.Uncounted h) (await : t.await = some a) (one : a.parts = [p]) (notBuf : a.dest ≠ .buf) (blk : a.blk = true)
    (noFlags : a.dflags = false) (x : Nat) :
    s.Moves (q.partDone h 0 x) h (t.loaded a.dest (x % 2 ^ (8 * p.n))).stepped := by
  obtain ⟨thr, -, -⟩ := id m
  let b : Await := { a with parts := [{ p with got := some x }] }
  have got : q.partDone h 0 x = (q.updThr h (fun t => { t with await := some b })).loadDone h := by
    simp [Pkg.partDone, Pkg.updThr, thr, await, one, b]
  rw [got, Pkg.loadDone_blocking (a := b) (by simpa using alone) (counts.updThr (fun _ _ => rfl)) (by simp) (partsValue_one _ rfl) notBuf blk noFlags]
  exact ((m.updThr _).updThr _).updThr Thread.stepped

/-- A waiting load of one part whose value is at hand. -/
theorem Pkg.loadGo_part {s q : Pkg} {h : Nat} {a : Await} {p : Part} {x : Nat} (alone : s.paired = false) (await : (s.thr h).await = some a)
    (one : a.parts = [p]) (ungot : p.got = none)
    (value : forwardOf ((s.thr h).sb.take a.nsb) p.pa p.n = .data x ∧ q = s
      ∨ forwardOf ((s.thr h).sb.take a.nsb) p.pa p.n = .none ∧ ∃ d, s.lineAt h (p.pa / 64) none = (q, some (d, false)) ∧ x = lineGet d (p.pa % 64) p.n)
    (paired : q.paired = false) (done : ((q.partDone h 0 x).thr h).await = none) (fuel : Nat) :
    s.loadGo h none (fuel + 2) = q.partDone h 0 x := by
  have finds : a.parts.findIdx? (·.got.isNone) = some 0 := by simp [one, ungot]
  have first : a.parts.getD 0 ⟨0, 0, 0, none⟩ = p := by simp [one]
  have stop : (q.partDone h 0 x).loadGo h none (fuel + 1) = q.partDone h 0 x := by
    rw [Pkg.loadGo]
    simp only [done]
  rw [Pkg.loadGo]
  obtain ⟨fwd, rfl⟩ | ⟨fwd, d, at_, rfl⟩ := value
  · simp only [await, finds, first, Pkg.sigWait_alone alone, Bool.false_eq_true, if_false, fwd, Pkg.chunkRead_alone alone, stop]
  · simp only [await, finds, first, Pkg.sigWait_alone alone, Bool.false_eq_true, if_false, fwd, at_, Pkg.chunkRead_alone paired, stop]

/-! ### LOAD at M1 (02 R47, R50, R53) -/

section
variable {s : Pkg} {h : Nat} {d : Dest} {va : Word} {x : Piece} {a : Await}

/-- The part of a load's piece, its value still to come. -/
def Piece.part (x : Piece) : Part := ⟨x.pa, x.ai, x.n, none⟩

/-- What a load of the head at pc waits with, at first. -/
def Thread.awaits (t : Thread) (d : Dest) (va : Word) (x : Piece) (now : Nat) : Await :=
  { dest := d, parts := [x.part], va := va, pc := t.pc, blk := true, nsb := t.sb.length, t0 := now }

/-- A cacheable part takes what the store buffer says (07 R202 is of the others). -/
theorem Thread.fwd_part (t : Thread) {x : Piece} (plain : x.ai ≤ 1 ∨ x.ai = 6) : t.fwd x.part = t.forward x.pa x.n :=
  if_neg (by simp only [Piece.part]; omega)

theorem Piece.part_plain {x : Piece} (plain : x.ai ≤ 1 ∨ x.ai = 6) : x.part.plain = true := by
  rw [Part.plain, Bool.or_eq_true, decide_eq_true_iff, beq_iff_eq]
  exact plain

theorem Pkg.loadHeld_false (await : (s.thr h).await = none) (plain : x.ai ≤ 1 ∨ x.ai = 6) (fwd : (s.thr h).forward x.pa x.n ≠ .hold)
    (room : (s.thr h).forward x.pa x.n ≠ .none ∨ s.inCore (h / 8) (x.pa / 64) = true ∨ s.missRoom h = true) :
    s.loadHeld h [x.part] = false := by
  simp only [Pkg.loadHeld, await, List.any_cons, List.any_nil, Bool.or_false, Thread.fwd_part _ plain, Piece.part_plain plain,
    Option.isSome_none, Bool.false_or, beq_eq_false_iff_ne.mpr fwd, Bool.true_and]
  obtain k | k | k := room
  · rw [beq_eq_false_iff_ne.mpr k]; rfl
  · simp [Piece.part, k]
  · simp [k]

theorem Pkg.loadPerform_plain (alone : s.tdmState = 0) (plain : x.ai ≤ 1 ∨ x.ai = 6) (held : s.loadHeld h [x.part] = false) :
    s.loadPerform h d va [x] = s.loadPlain h ((s.thr h).awaits d va x s.now) := by
  have all : ([x].map (fun p => (⟨p.pa, p.ai, p.n, none⟩ : Part))).all (·.plain) = true :=
    (Bool.and_true _).trans (Piece.part_plain plain)
  have clear : ([x].map (fun p => (⟨p.pa, p.ai, p.n, none⟩ : Part))).any (fun p => s.sigWait (some h) (p.pa / 64) false) = false := by
    simp [Pkg.sigWait_alone (Pkg.paired_off alone)]
  unfold Pkg.loadPerform
  extract_lets
  exact (if_neg (by simp [Pkg.replaying_off alone])).trans ((if_neg (ne_true_of_eq_false held)).trans
    ((if_pos all).trans (if_neg (ne_true_of_eq_false clear))))

/-- The thread waits for the load. -/
def Pkg.awaiting (s : Pkg) (h : Nat) (a : Await) : Pkg := s.updThr h (fun t => { t with await := some { a with nsb := t.sb.length } })

/-- What the destination of a load that misses keeps for the undoing of the load. -/
def Thread.snapshot (t : Thread) : Snap := { g := t.g, f := t.f, v := t.v, sr := t.sr, chunk := t.chunk }

/-- A load at M1 after the reads that it can do at once. -/
def Pkg.loadRest (s : Pkg) (h : Nat) (snap : Snap) : Pkg :=
  match (s.thr h).await with
  | none => s
  | some b =>
    if b.err.isSome then s else ((s.updThr h (fun t => { t with await := some { b with blk := false, snap := some snap } })).retire h).stepEnd h 0

theorem Pkg.loadPlain_eq (counts : s.Uncounted h) : s.loadPlain h a = ((s.awaiting h a).loadGo h none 3).loadRest h (s.thr h).snapshot := by
  simp only [Pkg.loadPlain, Pkg.pmu_uncounted counts, ite_self]
  rfl

theorem Pkg.loadRest_done {snap : Snap} (done : (s.thr h).await = none) : s.loadRest h snap = s := by
  simp only [Pkg.loadRest, done]

theorem Pkg.loadRest_waits {snap : Snap} (alone : s.tdmState = 0) (counts : s.Uncounted h) (waits : (s.thr h).await = some a) (noErr : a.err = none) :
    s.loadRest h snap = (s.updThr h (fun t => { t with await := some { a with blk := false, snap := some snap } })).updThr h Thread.stepped := by
  simp only [Pkg.loadRest, waits, noErr, Option.isSome_none, Bool.false_eq_true, if_false]
  exact Pkg.retireEnd_alone (by simpa using alone) (counts.updThr (fun _ _ => rfl)) ..

theorem Pkg.moves_awaiting (s : Pkg) (h : Nat) (a : Await) :
    s.Moves (s.awaiting h a) h { s.thr h with await := some { a with nsb := (s.thr h).sb.length } } :=
  (Pkg.Moves.refl s h).updThr _

theorem Pkg.awaiting_uncounted (counts : s.Uncounted h) (a : Await) : (s.awaiting h a).Uncounted h := counts.updThr (fun _ _ => rfl)

/-- A load that takes its value at once, from the store buffer or from a line: its destination has it and the thread steps. -/
theorem Pkg.moves_loadPlain {p q : Pkg} {v : Nat} (alone : s.tdmState = 0) (counts : s.Uncounted h) (await : (s.thr h).await = none)
    (notBuf : d ≠ .buf) {a : Await} (ha : a = (s.thr h).awaits d va x s.now)
    (value : (s.thr h).forward x.pa x.n = .data v ∧ q = s.awaiting h a
      ∨ (s.thr h).forward x.pa x.n = .none ∧ ∃ l, (s.awaiting h a).lineAt h (x.pa / 64) none = (q, some (l, false)) ∧ v = lineGet l (x.pa % 64) x.n)
    (m : p.Moves q h { s.thr h with await := some { a with nsb := (s.thr h).sb.length } }) (aloneQ : q.tdmState = 0) (countsQ : q.Uncounted h) :
    p.Moves (s.loadPlain h a) h ((s.thr h).deliver d (v % 2 ^ (8 * x.n))).stepped := by
  have moved := Pkg.moves_partDone (p := x.part) m aloneQ countsQ rfl (by rw [ha]; rfl) (by rw [ha]; exact notBuf) (by rw [ha]; rfl) (by rw [ha]; rfl) v
  obtain ⟨thr, -, -⟩ := id moved
  have done : ((q.partDone h 0 v).thr h).await = none := by rw [thr]; exact Thread.await_deliver ..
  obtain ⟨thr1, -, -⟩ := Pkg.moves_awaiting s h a
  have sb : ((s.awaiting h a).thr h).sb.take (s.thr h).sb.length = (s.thr h).sb := by rw [thr1]; exact List.take_length
  have go : (s.awaiting h a).loadGo h none 3 = q.partDone h 0 v :=
    Pkg.loadGo_part (s := s.awaiting h a) (a := { a with nsb := (s.thr h).sb.length }) (p := x.part) (Pkg.paired_off alone) (by rw [thr1]) (by rw [ha]; rfl) rfl
      (by rw [sb]; exact value) (Pkg.paired_off aloneQ) done 1
  rw [Pkg.loadPlain_eq counts, go, Pkg.loadRest_done done]
  have same : ({ s.thr h with await := none } : Thread) = s.thr h := by rw [← await]
  have dest : a.dest = d := by rw [ha]; rfl
  change p.Moves _ h (Thread.deliver { s.thr h with await := none } a.dest (v % 2 ^ (8 * x.n))).stepped at moved
  rwa [same, dest] at moved

/-- The core's state with line k of its L1D just used. -/
def Pkg.usedL1d (s : Pkg) (k : Nat) : Pkg := { s with l1d := Map.set line0 s.l1d k { Map.get line0 s.l1d k with age := 0 } }

theorem Pkg.inCore_of_findL1d {c line k : Nat} (hit : s.findL1d c line = some k) : s.inCore c line = true := by simp [Pkg.inCore, hit]

theorem Pkg.lineAt_hit (counts : s.Uncounted h) {line k : Nat} (hit : s.findL1d (h / 8) line = some k) :
    s.lineAt h line none = (s.usedL1d k, some ((Map.get line0 s.l1d k).data, (Map.get line0 s.l1d k).poison)) := by
  simp [Pkg.lineAt, Option.filter, Pkg.inCore_of_findL1d hit, Pkg.pmu_uncounted counts, Pkg.lookTile, hit, Pkg.usedL1d]

/-- A load that hits in the L1D. -/
theorem Pkg.moves_loadPerform_hit (alone : s.tdmState = 0) (counts : s.Uncounted h) (await : (s.thr h).await = none) (notBuf : d ≠ .buf)
    (plain : x.ai ≤ 1 ∨ x.ai = 6) (fwd : (s.thr h).forward x.pa x.n = .none) {k : Nat} (hit : s.findL1d (h / 8) (x.pa / 64) = some k)
    (good : (Map.get line0 s.l1d k).poison = false) :
    (s.usedL1d k).Moves (s.loadPerform h d va [x]) h ((s.thr h).stepped.deliver d (lineGet (Map.get line0 s.l1d k).data (x.pa % 64) x.n)) := by
  rw [Pkg.loadPerform_plain alone plain (Pkg.loadHeld_false await plain (by simp [fwd]) (.inr (.inl (Pkg.inCore_of_findL1d hit)))),
    ← Thread.deliver_stepped, ← lineGet_mod]
  have countsA := Pkg.awaiting_uncounted (s := s) counts ((s.thr h).awaits d va x s.now)
  refine Pkg.moves_loadPlain alone counts await notBuf rfl (.inr ⟨fwd, _, ?_, rfl⟩)
    (Pkg.moves_awaiting (s.usedL1d k) h _) alone countsA
  rw [Pkg.lineAt_hit countsA hit]
  exact congrArg (fun b => (_, some (_, b))) good

/-- A load that the store buffer answers. -/
theorem Pkg.moves_loadPerform_forward (alone : s.tdmState = 0) (counts : s.Uncounted h) (await : (s.thr h).await = none) (notBuf : d ≠ .buf)
    (plain : x.ai ≤ 1 ∨ x.ai = 6) {v : Nat} (fwd : (s.thr h).forward x.pa x.n = .data v) :
    s.Moves (s.loadPerform h d va [x]) h ((s.thr h).stepped.deliver d (v % 2 ^ (8 * x.n))) := by
  rw [Pkg.loadPerform_plain alone plain (Pkg.loadHeld_false await plain (by simp [fwd]) (.inl (by simp [fwd]))), ← Thread.deliver_stepped]
  exact Pkg.moves_loadPlain alone counts await notBuf rfl (.inl ⟨fwd, rfl⟩) (Pkg.moves_awaiting s h _) alone
    (Pkg.awaiting_uncounted counts _)

theorem Core.stridden_csr (k : Core) (line : Nat) : (k.stridden line).1.csr = k.csr := by
  unfold Core.stridden
  split
  · rfl
  · split <;> rfl

/-- The miss entry that a load takes for its line. -/
def Pkg.loadEntry (s : Pkg) (h line ai : Nat) : Miss :=
  { thr := h % 8, line := line, kind := .load, ai := ai, stream := ((s.core (h / 8)).stridden line).2 || false, data := none }

theorem Pkg.addMiss_load (s : Pkg) (h line ai : Nat) : s.addMiss h line .load ai false
    = s.updCore (h / 8) (fun k => { (k.stridden line).1 with miss := (k.stridden line).1.miss ++ [s.loadEntry h line ai] }) := rfl

theorem Pkg.addMiss_load_uncounted {line ai : Nat} (counts : s.Uncounted h) : (s.addMiss h line .load ai false).Uncounted h :=
  counts.of_eq (fun _ _ => rfl) (by rw [Pkg.addMiss_load, Pkg.core_updCore_same]; exact Core.stridden_csr ..)

/-- The load misses: the thread goes on with the destination awaited (02 R50). -/
theorem Pkg.loadPlain_miss (alone : s.tdmState = 0) (counts : s.Uncounted h) {a : Await} (ha : a = (s.thr h).awaits d va x s.now)
    (fwd : (s.thr h).forward x.pa x.n = .none) (absent : s.inCore (h / 8) (x.pa / 64) = false) (room : s.missRoom h = true)
    (new : ∀ m ∈ (s.core (h / 8)).miss, ¬ (m.line = x.pa / 64 ∧ m.kind = .load ∧ m.thr = h % 8)) :
    s.loadPlain h a = (((s.awaiting h a).addMiss h (x.pa / 64) .load x.ai false).updThr h
      (fun t => { t with await := some { a with nsb := (s.thr h).sb.length, blk := false, snap := some (s.thr h).snapshot } })).updThr h Thread.stepped := by
  obtain ⟨thr1, -, -⟩ := Pkg.moves_awaiting s h a
  have counts1 : (s.awaiting h a).Uncounted h := Pkg.awaiting_uncounted counts a
  have counts2 := Pkg.addMiss_load_uncounted (line := x.pa / 64) (ai := x.ai) counts1
  have noStore : forwardOf (s.thr h).sb x.part.pa x.part.n = .none := fwd
  have parts : a.parts = [x.part] := by rw [ha]; rfl
  have line : (s.awaiting h a).lineAt h (x.pa / 64) none = (s.awaiting h a, none) := by
    simp only [Pkg.lineAt, Option.filter]
    exact if_neg (ne_true_of_eq_false absent)
  have first : ((s.awaiting h a).core (h / 8)).miss.any (fun m => m.line == x.pa / 64 && m.kind == .load && m.thr == h % 8) = false := by
    rw [List.any_eq_false]
    intro m hm
    simpa [and_assoc] using new m hm
  have go : (s.awaiting h a).loadGo h none 3 = (s.awaiting h a).addMiss h (x.pa / 64) .load x.ai false := by
    rw [Pkg.loadGo]
    have finds : a.parts.findIdx? (·.got.isNone) = some 0 := by simp [parts, Piece.part]
    have part : a.parts.getD 0 ⟨0, 0, 0, none⟩ = x.part := by simp [parts]
    have miss : (s.awaiting h a).loadMiss h (x.pa / 64) x.ai = (s.awaiting h a).addMiss h (x.pa / 64) .load x.ai false := by
      have roomA : (s.awaiting h a).missRoom h = true := room
      simp only [Pkg.loadMiss, first, roomA, Bool.not_true, Bool.or_self, Bool.false_eq_true, if_false, Pkg.pmu_uncounted counts2]
    simp only [thr1, finds, part, Pkg.sigWait_alone (s := s.awaiting h a) (Pkg.paired_off alone), Bool.false_eq_true, if_false,
      List.take_length, noStore]
    simp only [Piece.part, line, miss]
  have waits : (((s.awaiting h a).addMiss h (x.pa / 64) .load x.ai false).thr h).await = some { a with nsb := (s.thr h).sb.length } := by
    change ((s.awaiting h a).thr h).await = _
    rw [thr1]
  have noErr : a.err = none := by rw [ha]; rfl
  rw [Pkg.loadPlain_eq counts, go, Pkg.loadRest_waits (by exact alone) counts2 waits noErr]

end

/-! ### A store that does not find its entries free (02 R46) -/

/-- The selector picks a thread that offers something. -/
theorem Pkg.turn_cand {s q : Pkg} {c : Nat} {x : Cand} (e : s.turn c = some (q, x)) : ∃ t, t < 8 ∧ s.cand (8 * c + t) = some x := by
  have offered {k : Sched} {ptr : List Nat} (p : k.pick ptr ((List.range 8).filterMap (fun t => s.cand (8 * c + t))) = some x) :
      ∃ t, t < 8 ∧ s.cand (8 * c + t) = some x := by
    obtain ⟨lv, -, found⟩ := List.exists_of_findSome?_eq_some p
    obtain ⟨i, -, found⟩ := List.exists_of_findSome?_eq_some found
    obtain ⟨t, ht, e⟩ := List.mem_filterMap.mp (List.mem_of_find?_eq_some found)
    exact ⟨t, List.mem_range.mp ht, e⟩
  unfold Pkg.turn at e
  dsimp only at e
  split at e
  next _ _ found =>
    cases e
    split at found
    · exact offered found
    · cases found
  · split at e
    · cases e
    · split at e
      next _ _ found =>
        cases e
        exact offered found
      · cases e

theorem Pkg.cand_t {s : Pkg} {h : Nat} {x : Cand} (e : s.cand h = some x) : x.t = h % 8 := by
  unfold Pkg.cand at e
  dsimp only at e
  split at e
  · cases e
  · split at e
    · cases e
    · split at e
      · split at e <;> cases e
        rfl
      · split at e <;> cases e
        rfl

theorem Pkg.select_none {s : Pkg} {h : Nat} (none_ : s.cand h = none) : s.select h = none := by
  unfold Pkg.select
  split
  · rfl
  next turn =>
    obtain ⟨t, ht, e⟩ := Pkg.turn_cand turn
    refine if_pos fun same => ?_
    have place : 8 * (h / 8) + t = h := by
      have := (Pkg.cand_t e).symm.trans same
      omega
    rw [place, none_] at e
    cases e

theorem Pkg.cand_noRoom {s : Pkg} {h : Nat} {w : Word32} {i : Ins} (head : (s.thr h).head = some w) (dec : insDecode w = some i)
    (room : (s.thr h).storeRoom i = false) : s.cand h = none := by
  simp [Pkg.cand, head, dec, room]

/-- A head that is not selected does not execute. -/
theorem Pkg.issue_unselected {s : Pkg} {h : Nat} (sel : (s.thr h).sel = false) (none_ : s.select h = none) (g : Grp) (f : Pkg → Ins → Pkg) :
    s.issue h g f = s := by
  unfold Pkg.issue
  cases (s.thr h).head with
  | none => rfl
  | some w => simp [sel, none_]

theorem State.run_keeps {s : State} {f : Pkg → Pkg} (e : f s.pkg = s.pkg) : s.run f = .next s := by
  unfold State.run State.on Pkg.ifLive
  rw [e, ite_self]

/-- Settles O12: the load's three ways through M1, the store's entries, and a selector that passes over a store without room. -/
theorem loadsAndStoresComplete : Obligations.LoadsAndStoresComplete := by
  refine ⟨?_, ?_⟩
  · intro s h i r
    obtain ⟨-, alone, -, -, await, -, -, counts, watch⟩ := id r
    refine ⟨?_, ?_⟩
    · intro d n ra imm x form reach plain
      have notBuf := Ins.loadForm_notBuf form
      have run : exec (.load h none) s = .next (s.withPkg (s.pkg.loadPerform h d ((s.pkg.thr h).rg ra.toNat + imm.signExtend 64) [x])) := by
        refine State.run_op r (Ins.grp_of_loadForm form) (op := fun p => p.opLoad h false) ?_
        simp only [Pkg.opLoad, form]
        exact Pkg.access_reaches reach alone watch true false counts _
      refine ⟨fun k fwd hit good => ⟨_, run, Pkg.moves_loadPerform_hit alone counts await notBuf plain fwd hit good⟩,
        fun v fwd => ⟨_, run, Pkg.moves_loadPerform_forward alone counts await notBuf plain fwd⟩, fun fwd absent room new => ⟨_, run, ?_⟩⟩
      have held := Pkg.loadHeld_false await plain (by simp [fwd]) (.inr (.inr room))
      rw [Pkg.loadPerform_plain alone plain held, Pkg.loadPlain_miss alone counts rfl fwd absent room new]
      generalize ha : (s.pkg.thr h).awaits d ((s.pkg.thr h).rg ra.toNat + imm.signExtend 64) x s.pkg.now = a
      obtain ⟨thr1, other1, -⟩ := Pkg.moves_awaiting s.pkg h a
      have thr2 : ((s.pkg.awaiting h a).addMiss h (x.pa / 64) .load x.ai false).thr h = _ := thr1
      refine ⟨?_, fun k hk => ?_, ?_, (s.pkg.awaiting h a).loadEntry h (x.pa / 64) x.ai, ?_, rfl, rfl, rfl⟩
      · rw [Pkg.thr_updThr_same, Pkg.thr_updThr_same, thr2, ← ha]
        rfl
      · rw [Pkg.thr_updThr_other _ _ _ _ hk, Pkg.thr_updThr_other _ _ _ _ hk]
        exact other1 k hk
      · simp only [Pkg.addMiss_load, Pkg.updCore, Pkg.setCore, Pkg.awaiting, Pkg.updThr, Pkg.setThr]
      · rw [Pkg.core_updThr, Pkg.core_updThr, Pkg.addMiss_load, Pkg.core_updCore_same]
        exact List.mem_append_right _ (List.mem_singleton_self _)
    · intro n ra imm x form ps reach
      refine State.run_done r (Thread.grp_of_storeForm form) (op := fun p => p.opStore h false) (f := fun t => { t with sb := t.sb ++ sbOf ps x }) ?_
        (fun _ _ => rfl)
      simp only [Pkg.opStore, form]
      exact Pkg.access_reaches reach alone watch false true counts _
  · intro s h w i head dec sel n ra imm x form full
    have room : (s.pkg.thr h).storeRoom i = false := by
      simp only [Thread.storeRoom, form, decide_eq_false_iff_not]
      omega
    exact State.run_keeps (Pkg.issue_unselected sel (Pkg.select_none (Pkg.cand_noRoom head dec room)) ..)

end Sys2Proof.Machine
end

section
/-! ## Atomics (03_instruction_set R88, R89) -/
namespace Sys2Proof.Machine

/-! ### What a store's visibility leaves of every thread -/

/-- The registers, the PC and the system registers are the same. -/
def Thread.SameRegs (t u : Thread) : Prop := u.g = t.g ∧ u.f = t.f ∧ u.pc = t.pc ∧ u.sr = t.sr

theorem Thread.SameRegs.refl (t : Thread) : t.SameRegs t := ⟨rfl, rfl, rfl, rfl⟩

theorem Thread.SameRegs.trans {t u v : Thread} (m : t.SameRegs u) (n : u.SameRegs v) : t.SameRegs v := by
  obtain ⟨g, f, pc, sr⟩ := m
  obtain ⟨g', f', pc', sr'⟩ := n
  exact ⟨g'.trans g, f'.trans f, pc'.trans pc, sr'.trans sr⟩

/-- Every thread's registers, PC and system registers are the same. -/
def Pkg.SameRegs (p q : Pkg) : Prop := ∀ k, (p.thr k).SameRegs (q.thr k)

theorem Pkg.SameRegs.updThr {p q : Pkg} (m : p.SameRegs q) (h : Nat) {f : Thread → Thread} (hf : (q.thr h).SameRegs (f (q.thr h))) :
    p.SameRegs (q.updThr h f) := by
  intro k
  by_cases e : k = h
  · subst e
    rw [Pkg.thr_updThr_same]
    exact (m k).trans hf
  · rw [Pkg.thr_updThr_other _ _ _ _ e]
    exact m k

/-- Only the threads differ, and their registers are the same. -/
theorem Pkg.monHit_keeps (s : Pkg) (line : Nat) : s.SameRegs (s.monHit line) ∧ s.monHit line = { s with threads := (s.monHit line).threads } := by
  unfold Pkg.monHit
  generalize s.threads.filter (fun p => p.2.mon = some line) = l
  refine foldl_keeps (fun q : Pkg => s.SameRegs q ∧ q = { s with threads := q.threads }) _ (fun q a k => ⟨k.1.updThr _ ?_, ?_⟩) l s
    ⟨fun _ => .refl _, rfl⟩
  · dsimp only
    split
    next parked =>
      split
      · exact ⟨rfl, rfl, rfl, rfl⟩
      · simp only [Thread.wake, parked]
        exact ⟨rfl, rfl, rfl, rfl⟩
    · exact ⟨rfl, rfl, rfl, rfl⟩
  · conv_lhs => rw [k.2]
    rfl

/-! ### A store's bytes in the merge buffer (02 R49) -/

/-- A line of the merge buffer after a store of n bytes at o of `line`. -/
def MergeLine.written (m : MergeLine) (line o n x now : Nat) : MergeLine :=
  if m.line = line then { m with data := linePut m.data o n x, poison := m.poison && !decide (n = 64), last := now, dirty := true, owe := none } else m

theorem MergeLine.written_line (m : MergeLine) (line o n x now : Nat) : (m.written line o n x now).line = m.line := by
  unfold MergeLine.written
  split <;> rfl

theorem MergeLine.written_perm (m : MergeLine) (line o n x now : Nat) : (m.written line o n x now).perm = m.perm := by
  unfold MergeLine.written
  split <;> rfl

/-- Only the L1Ds and the L2s differ, and not in the L2s' data. -/
def Pkg.CacheOnly (p q : Pkg) : Prop := ∃ a b, q = { p with l1d := a, l2 := b } ∧ ∀ k, (q.getL2 k).data = (p.getL2 k).data

theorem Pkg.CacheOnly.refl (p : Pkg) : p.CacheOnly p := ⟨p.l1d, p.l2, rfl, fun _ => rfl⟩

theorem Pkg.CacheOnly.putL2_st {p q : Pkg} (m : p.CacheOnly q) (k : Nat) (st : Moesi) : p.CacheOnly (q.putL2 k { q.getL2 k with st := st }) := by
  obtain ⟨a, b, rfl, d⟩ := m
  refine ⟨_, _, rfl, fun j => ?_⟩
  rw [← d j]
  unfold Pkg.putL2 Pkg.getL2
  dsimp only
  rw [Map.get_set]
  split
  next same => rw [same]
  · rfl

theorem Pkg.CacheOnly.l1d {p q : Pkg} (m : p.CacheOnly q) (l : Map CLine) : p.CacheOnly { q with l1d := l } := by
  obtain ⟨a, b, rfl, d⟩ := m
  exact ⟨_, _, rfl, d⟩

/-- The L2's copy of a stored line, whose merge buffer line has AI ai. -/
def Pkg.storeL2 (s : Pkg) (c line ai : Nat) : Pkg :=
  match s.findL2 (c / 2) line with
  | some k => if ai = 1 || s.noalloc then s else s.putL2 k { s.getL2 k with st := .M }
  | none => s

/-- The L1D's copy of a stored line. -/
def Pkg.storeL1d (s : Pkg) (c line o n x : Nat) : Pkg :=
  match s.findL1d c line with
  | some k =>
    let l := Map.get line0 s.l1d k
    { s with l1d := Map.set line0 s.l1d k { l with data := linePut l.data o n x, poison := l.poison && !decide (n = 64), age := 0 } }
  | none => s

/-- The merge buffer line of a store. -/
def Pkg.storeMerge (s : Pkg) (c line o n x : Nat) : Pkg :=
  s.updCore c (fun k => { k with merge := k.merge.map (·.written line o n x s.now) })

/-- A store's bytes: the merge buffer's line, then the copies in the caches and the monitors. -/
theorem Pkg.mergeWrite_eq (s : Pkg) (c line o n x : Nat) : s.mergeWrite c line o n x
    = ((((s.storeMerge c line o n x).storeL2 c line (match s.mergeOf c line with | some m => m.ai | none => 0)).storeL1d c line o n x).monHit line) := rfl

theorem Pkg.CacheOnly.storeL2 {p q : Pkg} (m : p.CacheOnly q) (c line ai : Nat) : p.CacheOnly (q.storeL2 c line ai) := by
  unfold Pkg.storeL2
  split
  · split
    · exact m
    · exact m.putL2_st ..
  · exact m

theorem Pkg.CacheOnly.storeL1d {p q : Pkg} (m : p.CacheOnly q) (c line o n x : Nat) : p.CacheOnly (q.storeL1d c line o n x) := by
  unfold Pkg.storeL1d
  split
  · exact m.l1d _
  · exact m

/-- What an atomic's or a store's write of a line keeps: registers of threads, CSRs of cores, the L2s' data, and all else but the merge buffers
and the L1Ds. -/
def Pkg.LineWritten (p q : Pkg) : Prop :=
  p.SameRegs q ∧ (∀ c, (q.core c).csr = (p.core c).csr) ∧ (∀ k, (q.getL2 k).data = (p.getL2 k).data)
    ∧ ∃ a b l m, q = { p with threads := a, cores := b, l1d := l, l2 := m }

theorem Pkg.LineWritten.refl (p : Pkg) : p.LineWritten p := ⟨fun _ => .refl _, fun _ => rfl, fun _ => rfl, _, _, _, _, rfl⟩

theorem Pkg.mergeWrite_written (s : Pkg) (c line o n x : Nat) : s.LineWritten (s.mergeWrite c line o n x)
    ∧ ((s.mergeWrite c line o n x).core c).merge = (s.core c).merge.map (·.written line o n x s.now) := by
  rw [Pkg.mergeWrite_eq]
  generalize (match s.mergeOf c line with | some m => m.ai | none => 0) = ai
  obtain ⟨a, b, caches, data⟩ := ((Pkg.CacheOnly.refl (s.storeMerge c line o n x)).storeL2 c line ai).storeL1d c line o n x
  rw [caches] at data ⊢
  generalize hq : ({ s.storeMerge c line o n x with l1d := a, l2 := b } : Pkg) = q at data ⊢
  obtain ⟨same, rest⟩ := Pkg.monHit_keeps q line
  have core (d : Nat) : (q.monHit line).core d = (s.storeMerge c line o n x).core d := by
    rw [rest, ← hq]
    rfl
  refine ⟨⟨?_, fun d => ?_, fun k => ?_, ?_⟩, ?_⟩
  · intro k
    rw [← hq] at same ⊢
    exact same k
  · rw [core]
    by_cases e : d = c
    · subst e
      simp [Pkg.storeMerge]
    · rw [Pkg.storeMerge, Pkg.core_updCore_other _ _ _ _ e]
  · rw [rest]
    exact data k
  · rw [rest, ← hq]
    exact ⟨_, _, _, _, rfl⟩
  · rw [core, Pkg.storeMerge, Pkg.core_updCore_same]

/-! ### An atomic on a line that the core may write -/

theorem Pkg.find_permitted {s : Pkg} {c line : Nat} {m : MergeLine} (own : s.mergeOf c line = some m) (perm : m.perm = true) :
    (s.core c).merge.find? (fun e => e.line == line && e.perm) = some m := by
  obtain ⟨hm, as, bs, e, before⟩ := List.find?_eq_some_iff_append.mp own
  refine List.find?_eq_some_iff_append.mpr ⟨by simp [hm, perm], as, bs, e, fun y hy => ?_⟩
  have other : ¬ y.line = line := by simpa using before y hy
  simp [other]

theorem find_written (l : List MergeLine) (line o n x now : Nat) :
    (l.map (·.written line o n x now)).find? (fun e => e.line == line && e.perm)
      = (l.find? (fun e => e.line == line && e.perm)).map (·.written line o n x now) := by
  rw [List.find?_map]
  congr 2
  funext e
  simp only [Function.comp, MergeLine.written_line, MergeLine.written_perm]

/-- The thread after an atomic whose old value is `old`. -/
def Thread.atomDone (t : Thread) (d : Dest) (a : AtomOp) (old : Nat) : Thread :=
  if a.op = 10 then (t.deliver d old).ws 0x018 ((t.deliver d old).rs 0x018 ||| BitVec.ofNat 64 ((a.apply old).2 * 65536)) else t.deliver d old

/-- The package after an atomic's write, if it writes. -/
def Pkg.atomWrite (s : Pkg) (c pa n : Nat) : Option Nat → Pkg
  | some x => s.mergeWrite c (pa / 64) (pa % 64) n x
  | none => s

/-- A line's data after an atomic's write, if it writes. -/
def MergeLine.atomData (m : MergeLine) (pa n : Nat) : Option Nat → BitVec 512
  | some x => linePut m.data (pa % 64) n x
  | none => m.data

theorem Pkg.atomWrite_written (s : Pkg) (c pa n : Nat) (x : Option Nat) : s.LineWritten (s.atomWrite c pa n x) := by
  cases x
  · exact .refl s
  · exact (Pkg.mergeWrite_written ..).1

theorem Pkg.atomWrite_line {s : Pkg} {c pa : Nat} {m : MergeLine} (own : s.mergeOf c (pa / 64) = some m) (perm : m.perm = true) (n : Nat) (x : Option Nat) :
    ∃ m', ((s.atomWrite c pa n x).core c).merge.find? (fun e => e.line == pa / 64 && e.perm) = some m' ∧ m'.data = m.atomData pa n x := by
  have found := Pkg.find_permitted own perm
  cases x with
  | none => exact ⟨m, found, rfl⟩
  | some x =>
    have here : m.line = pa / 64 := by simpa using List.find?_some own
    refine ⟨m.written (pa / 64) (pa % 64) n x s.now, ?_, ?_⟩
    · rw [Pkg.atomWrite, (Pkg.mergeWrite_written ..).2, find_written, found]
      rfl
    · simp [MergeLine.written, here, MergeLine.atomData]

theorem Thread.atomDone_sel (t : Thread) (d : Dest) (a : AtomOp) (old i : Nat) (hi : i < 8) :
    (t.atomDone d a old).rs (0x508 + i) = t.rs (0x508 + i) := by
  unfold Thread.atomDone
  split
  · rw [Thread.rs_ws, if_neg (by omega), Thread.deliver_rs]
  · exact Thread.deliver_rs ..

section
variable {s : Pkg} {h : Nat} {d : Dest} {a : AtomOp} {x : Piece} {m : MergeLine}

theorem Pkg.acquire_permitted {c line ai : Nat} (own : s.mergeOf c line = some m) (perm : m.perm = true) : s.acquire c line ai = s := by
  have held : (s.core c).merge.any (fun m => m.line == line && m.perm) = true :=
    List.any_eq_true.mpr ⟨m, List.mem_of_find?_eq_some own, by simpa [perm] using List.find?_some own⟩
  exact if_pos held

theorem Pkg.LineWritten.alone {p q : Pkg} (w : p.LineWritten q) (alone : p.tdmState = 0) : q.tdmState = 0 := by
  obtain ⟨-, -, -, _, _, _, _, rfl⟩ := w
  exact alone

theorem Pkg.LineWritten.uncounted {p q : Pkg} (w : p.LineWritten q) (counts : p.Uncounted h) : q.Uncounted h := by
  obtain ⟨regs, csr, -, -⟩ := w
  obtain ⟨-, -, -, sr⟩ := regs h
  refine counts.of_eq (fun i _ => ?_) (csr _)
  unfold Thread.rs
  rw [sr]

theorem Pkg.atomPerform_near (alone : s.tdmState = 0) (counts : s.Uncounted h) (quiet : s.quiet h = true) (wc : (s.core (h / 8)).wc = [])
    (near : x.ai = 0) (own : s.mergeOf (h / 8) (x.pa / 64) = some m) (perm : m.perm = true) (good : m.poison = false)
    (idle : s.trkOf (x.pa / 64) = none) (drained : s.cores.any (fun q => s.owing (q.1 / 2) (x.pa / 64)) = false) :
    s.atomPerform h d a x = ((s.atomWrite (h / 8) x.pa a.n (a.apply (lineGet m.data (x.pa % 64) a.n)).1).updThr h
      (fun t => t.atomDone d a (lineGet m.data (x.pa % 64) a.n))).updThr h Thread.stepped := by
  have paired := Pkg.paired_off alone
  have w := s.atomWrite_written (h / 8) x.pa a.n (a.apply (lineGet m.data (x.pa % 64) a.n)).1
  have u := (w.uncounted counts).updThr (f := fun t => t.atomDone d a (lineGet m.data (x.pa % 64) a.n)) (fun i hi => Thread.atomDone_sel _ _ _ _ i hi)
  simp only [Pkg.atomPerform, quiet, near, Pkg.replaying_off alone, Pkg.sigWait_alone paired, idle, drained, Pkg.wcFlush_none wc,
    Pkg.acquire_permitted own perm, Pkg.find_permitted own perm, good, Pkg.chunkRead_alone paired, Pkg.chunkWrite_alone paired,
    Bool.not_true, Bool.false_and, Bool.false_eq_true, if_false, Nat.zero_le, if_true, Option.isSome_none, Bool.or_self, zero_ne_one]
  change ((((s.atomWrite (h / 8) x.pa a.n (a.apply (lineGet m.data (x.pa % 64) a.n)).1).updThr h
    (fun t => t.atomDone d a (lineGet m.data (x.pa % 64) a.n))).pmu h 0x1C).retire h).stepEnd h 0 = _
  rw [Pkg.pmu_uncounted u]
  exact Pkg.retireEnd_alone (by simpa using w.alone alone) u ..

theorem Thread.SameRegs.wg {t u : Thread} (k : t.SameRegs u) (r : Nat) (v : Word) : (t.wg r v).SameRegs (u.wg r v) := by
  obtain ⟨g, f, pc, sr⟩ := id k
  unfold Thread.wg
  split
  · exact k
  · exact ⟨congrArg (Map.set w0 · r v) g, f, pc, sr⟩

theorem Thread.SameRegs.deliver {t u : Thread} (k : t.SameRegs u) (d : Dest) (x : Nat) : (t.deliver d x).SameRegs (u.deliver d x) := by
  obtain ⟨g, f, pc, sr⟩ := id k
  cases d with
  | g => exact k.wg ..
  | gg => exact (k.wg ..).wg ..
  | f r n => exact ⟨g, congrArg (Map.set w0 · r _) f, pc, sr⟩
  | v | buf => exact ⟨g, f, pc, sr⟩

theorem Thread.SameRegs.atomDone {t u : Thread} (k : t.SameRegs u) (d : Dest) (a : AtomOp) (old : Nat) :
    (t.atomDone d a old).SameRegs (u.atomDone d a old) := by
  obtain ⟨g, f, pc, sr⟩ := k.deliver d old
  unfold Thread.atomDone
  split
  · exact ⟨g, f, pc, by simp only [Thread.ws, Thread.rs, sr]⟩
  · exact ⟨g, f, pc, sr⟩

theorem Thread.atomDone_regs (t : Thread) (d : Dest) (a : AtomOp) (old : Nat) :
    (t.atomDone d a old).g = (t.deliver d old).g ∧ (t.atomDone d a old).f = (t.deliver d old).f ∧ (t.atomDone d a old).pc = t.pc := by
  unfold Thread.atomDone
  split <;> exact ⟨rfl, rfl, by cases d <;> simp [Thread.deliver]⟩

theorem Thread.stepped_rs (t : Thread) {n : Nat} (other : n ≠ 0x100) : t.stepped.rs n = t.rs n := by
  change (t.setPs (setBits t.ps 4 3 0)).rs n = t.rs n
  rw [Thread.setPs, Thread.rs_ws, if_neg other]

/-- What a completed atomic leaves: the thread's registers are u's, its FPCR is fpcr, the line has the data; the other threads' registers, the
L2s' data and all but threads, buffers and caches are kept. -/
def Pkg.AtomDone (p q : Pkg) (h pa : Nat) (u : Thread) (fpcr : Word) (data : BitVec 512) : Prop :=
  (q.thr h).pc = (p.thr h).pc + 4#64 ∧ (∀ r, r < 32 → (q.thr h).rg r = u.rg r ∧ (q.thr h).rF r = u.rF r) ∧ (q.thr h).rs 0x018 = fpcr
    ∧ (∀ k, k ≠ h → (q.thr k).g = (p.thr k).g ∧ (q.thr k).pc = (p.thr k).pc)
    ∧ (∃ m', (q.core (h / 8)).merge.find? (fun e => e.line == pa / 64 && e.perm) = some m' ∧ m'.data = data)
    ∧ q = { p with threads := q.threads, cores := q.cores, l1d := q.l1d, l2 := q.l2 } ∧ ∀ k, (q.getL2 k).data = (p.getL2 k).data

theorem Pkg.atomDone_leaves {q : Pkg} {pa : Nat} {y : Option Nat} {old : Nat} (own : s.mergeOf (h / 8) (pa / 64) = some m) (perm : m.perm = true) {n : Nat}
    (e : q = ((s.atomWrite (h / 8) pa n y).updThr h (fun t => t.atomDone d a old)).updThr h Thread.stepped) :
    s.AtomDone q h pa ((s.thr h).deliver d old) (((s.thr h).atomDone d a old).rs 0x018) (m.atomData pa n y) := by
  obtain ⟨regs, -, data, rest⟩ := s.atomWrite_written (h / 8) pa n y
  have line := Pkg.atomWrite_line own perm n y
  obtain ⟨g, f, pc, sr⟩ := (regs h).atomDone d a old
  obtain ⟨atG, atF, atPc⟩ := (s.thr h).atomDone_regs d a old
  generalize s.atomWrite (h / 8) pa n y = w at *
  subst e
  have thr : ((w.updThr h (fun t => t.atomDone d a old)).updThr h Thread.stepped).thr h = ((w.thr h).atomDone d a old).stepped := by
    rw [Pkg.thr_updThr_same, Pkg.thr_updThr_same]
  refine ⟨?_, ?_, ?_, ?_, line, ?_, data⟩
  · rw [thr, ← atPc]
    exact congrArg (· + 4#64) pc
  · intro r _
    rw [thr]
    exact ⟨congrArg (fun g => if r = 0 then 0#64 else Map.get w0 g r) (g.trans atG), congrArg (Map.get w0 · r) (f.trans atF)⟩
  · rw [thr, Thread.stepped_rs _ (by decide), Thread.rs, sr]
    rfl
  · intro k hk
    rw [Pkg.thr_updThr_other _ _ _ _ hk, Pkg.thr_updThr_other _ _ _ _ hk]
    obtain ⟨g, -, pc, -⟩ := regs k
    exact ⟨g, pc⟩
  · obtain ⟨_, _, _, _, rfl⟩ := rest
    rfl

end

/-- The command of an atomic instruction at an aligned address of AI 0, on a line that its core may write. -/
theorem State.run_atomic {s : State} {h : Nat} {i : Ins} {g : Grp} {op : Pkg → Ins → Pkg} {ra : Reg} {d : Dest} {a : AtomOp} {x : Piece} {m : MergeLine}
    (r : s.pkg.Ready h i) (sb : (s.pkg.thr h).sb = []) (wc : (s.pkg.core (h / 8)).wc = []) (hg : i.grp = g) (e : op s.pkg i = s.pkg.atomic h false ra d a)
    (aligned : ((s.pkg.thr h).rg ra.toNat).toNat % a.n = 0)
    (reach : s.pkg.Reaches h .atomic ((s.pkg.thr h).rg ra.toNat) a.n (fun p y => p.pieceErr h .atomic y) [x]) (near : x.ai = 0)
    (own : s.pkg.mergeOf (h / 8) (x.pa / 64) = some m) (perm : m.perm = true) (good : m.poison = false)
    (idle : s.pkg.trkOf (x.pa / 64) = none) (drained : s.pkg.cores.any (fun q => s.pkg.owing (q.1 / 2) (x.pa / 64)) = false) :
    ∃ q, s.run (·.issue h g op) = .next (s.withPkg q)
      ∧ s.pkg.AtomDone q h x.pa ((s.pkg.thr h).deliver d (lineGet m.data (x.pa % 64) a.n)) (((s.pkg.thr h).atomDone d a (lineGet m.data (x.pa % 64) a.n)).rs 0x018)
        (m.atomData x.pa a.n (a.apply (lineGet m.data (x.pa % 64) a.n)).1) := by
  obtain ⟨-, alone, -, -, await, -, -, counts, watch⟩ := id r
  refine ⟨_, State.run_op r hg (e.trans ?_), Pkg.atomDone_leaves own perm rfl⟩
  have once : s.pkg.atomic h false ra d a = s.pkg.atomPerform h d a x :=
    (if_neg (not_not.mpr aligned)).trans (Pkg.access_reaches reach alone watch true true counts _)
  rw [once, Pkg.atomPerform_near alone counts ((Pkg.quiet_iff await).mpr sb) wc near own perm good idle drained]

theorem AtomOp.apply_amo {fn : Nat} (lo : 2 ≤ fn) (hi : fn ≤ 9) (n y c rm old : Nat) :
    AtomOp.apply ⟨fn, n, y, c, rm⟩ old = (some (amoOp fn n old y), 0) := by
  unfold AtomOp.apply
  split
  next e =>
    dsimp only at e
    omega
  next e =>
    dsimp only at e
    omega
  next e =>
    dsimp only at e
    omega
  · rfl

theorem Thread.atomDone_fpcr {t : Thread} {d : Dest} {a : AtomOp} {old : Nat} (plain : a.op ≠ 10) : (t.atomDone d a old).rs 0x018 = t.fpcrV := by
  unfold Thread.atomDone
  rw [if_neg plain]
  exact Thread.deliver_rs ..

theorem Thread.atomDone_fpcr_flags {t : Thread} {d : Dest} {a : AtomOp} {old : Nat} (dec : a.op = 10) :
    (t.atomDone d a old).rs 0x018 = t.fpcrV ||| BitVec.ofNat 64 ((a.apply old).2 * 65536) := by
  unfold Thread.atomDone
  rw [if_pos dec, Thread.rs_ws, if_pos rfl, Thread.deliver_rs]
  rfl

/-- The 32-bit forms are those of the integer AMOs (R88). -/
theorem Ins.legal_amo {fn : BitVec 5} {w32 : Bool} {rd ra rb : Reg} (legal : (Ins.amo fn w32 rd ra rb).legal = true)
    (wide : fn.toNat ≤ 1 ∨ fn.toNat = 10) : w32 = false := by
  simp only [Ins.legal, if_pos wide, Bool.and_eq_true, Bool.not_eq_true'] at legal
  obtain ⟨⟨-, w⟩, -⟩ := legal
  exact w

/-- Settles O13: each form is `State.run_atomic` at its operation. -/
theorem atomicsReadModifyAndWrite : Obligations.AtomicsReadModifyAndWrite := by
  intro s h i r sb wc t rd ra rb fn w32 x m hi n aligned reach near own perm good idle drained old wide go
  subst hi
  refine ⟨?_, ?_, ?_, ?_⟩
  · rintro rfl
    obtain rfl := Ins.legal_amo r.legal (by decide)
    obtain ⟨q, e, pc, regs, fpcr, other, line, rest, data⟩ := State.run_atomic r sb wc rfl (op := fun p => p.opCas h false)
      (a := ⟨0, 8, (t.rg rb.toNat).toNat, (t.rg rd.toNat).toNat, 0⟩) rfl aligned reach near own perm good idle drained
    exact ⟨q, e, pc, regs, fpcr.trans (Thread.atomDone_fpcr (show 0 ≠ 10 by decide)), other, line, rest, data⟩
  · rintro rfl
    obtain ⟨q, e, pc, regs, fpcr, other, line, rest, data⟩ := State.run_atomic r sb wc rfl (op := fun p => p.opCas128 h false)
      (a := ⟨1, 16, wide rb, wide rd, 0⟩) rfl aligned reach near own perm good idle drained
    exact ⟨q, e, pc, regs, fpcr.trans (Thread.atomDone_fpcr (show 1 ≠ 10 by decide)), other, line, rest, data⟩
  · intro lo hi
    have size : n = if w32 then 4 else 8 := if_neg (by rintro rfl; simp at lo)
    have op : s.pkg.opAmo h false (.amo fn w32 rd ra rb) = s.pkg.atomic h false ra (.g rd.toNat n w32)
      ⟨fn.toNat, n, (t.rg rb.toNat).toNat % 2 ^ (8 * n), 0, 0⟩ := by rw [size]; rfl
    obtain ⟨q, e, pc, regs, fpcr, other, line, rest, data⟩ := State.run_atomic r sb wc (Ins.grp_amo lo hi ..) (op := fun p => p.opAmo h false)
      op aligned reach near own perm good idle drained
    rw [AtomOp.apply_amo lo hi] at line
    exact ⟨q, e, pc, regs, fpcr.trans (Thread.atomDone_fpcr (by dsimp only; omega)), other, line, rest, data⟩
  · rintro rfl
    obtain rfl := Ins.legal_amo r.legal (by decide)
    obtain ⟨q, e, pc, regs, fpcr, other, line, rest, data⟩ := State.run_atomic r sb wc rfl (op := fun p => p.opDamoadd h false)
      (a := ⟨10, 8, (t.rF rb.toNat).toNat, 0, bits t.fpcrV 6 4⟩) rfl aligned reach near own perm good idle drained
    exact ⟨q, e, pc, regs, fpcr.trans (Thread.atomDone_fpcr_flags rfl), other, line, rest, data⟩

end Sys2Proof.Machine
end

section
/-! ## A thread that goes on running -/
namespace Sys2Proof.Machine

/-! ### What goes on -/

/-- A register of the performance counters that counting itself writes. -/
def pmuCounter (n : Nat) : Prop := (0x500 ≤ n ∧ n ≤ 0x507) ∨ n = 0x510 ∨ (0x520 ≤ n ∧ n ≤ 0x527)

/-- What a thread keeps while it goes on: its state, its G registers, its PC and its system registers, counters aside. -/
structure Thread.GoesOn (t u : Thread) : Prop where
  st : u.st = t.st
  g : u.g = t.g
  pc : u.pc = t.pc
  rs : ∀ n, ¬ pmuCounter n → u.rs n = t.rs n

theorem Thread.GoesOn.refl (t : Thread) : t.GoesOn t := ⟨rfl, rfl, rfl, fun _ _ => rfl⟩

theorem Thread.GoesOn.trans {t u v : Thread} (a : t.GoesOn u) (b : u.GoesOn v) : t.GoesOn v :=
  ⟨b.st.trans a.st, b.g.trans a.g, b.pc.trans a.pc, fun n k => (b.rs n k).trans (a.rs n k)⟩

/-- Thread h, running in a package that is alone, runs on; its core's shared registers are kept too. -/
structure Pkg.GoesOn (p : Pkg) (h : Nat) (q : Pkg) : Prop where
  run : (q.thr h).st = .run
  alone : q.tdmState = 0
  thr : (p.thr h).GoesOn (q.thr h)
  csr : ∀ n, ¬ pmuCounter n → Map.get w0 (q.core (h / 8)).csr n = Map.get w0 (p.core (h / 8)).csr n

section
variable {p q r : Pkg} {h : Nat}

theorem Pkg.GoesOn.refl (run : (p.thr h).st = .run) (alone : p.tdmState = 0) : p.GoesOn h p := ⟨run, alone, .refl _, fun _ _ => rfl⟩

theorem Pkg.GoesOn.of_eq (k : p.GoesOn h q) (threads : r.threads = q.threads) (cores : r.cores = q.cores) (tdm : r.rd tdmBase = q.rd tdmBase) :
    p.GoesOn h r := by
  have state : r.tdmState = q.tdmState := by
    unfold Pkg.tdmState Pkg.rf
    rw [tdm]
  exact ⟨by rw [Pkg.thr_of_eq threads, k.run], by rw [state, k.alone], by rw [Pkg.thr_of_eq threads]; exact k.thr,
    fun n hn => by rw [Pkg.core_of_eq cores, k.csr n hn]⟩

theorem Pkg.GoesOn.wf (k : p.GoesOn h q) {o : Nat} (other : tdmBase ≠ o) (hi lo x : Nat) : p.GoesOn h (q.wf o hi lo x) :=
  k.of_eq (Pkg.wf_threads ..) (Pkg.wf_cores ..) (Pkg.rd_wf_other _ _ _ _ _ _ other)

theorem Pkg.GoesOn.wb (k : p.GoesOn h q) {o : Nat} (other : tdmBase ≠ o) (i : Nat) (b : Bool) : p.GoesOn h (q.wb o i b) := k.wf other ..

theorem Pkg.GoesOn.updThr (k : p.GoesOn h q) (j : Nat) {f : Thread → Thread} (hf : j = h → (q.thr h).GoesOn (f (q.thr h))) :
    p.GoesOn h (q.updThr j f) := by
  by_cases e : j = h
  · subst e
    have on := hf rfl
    refine ⟨?_, k.alone, ?_, k.csr⟩ <;> rw [Pkg.thr_updThr_same]
    · rw [on.st, k.run]
    · exact k.thr.trans on
  · refine ⟨?_, k.alone, ?_, k.csr⟩ <;> rw [Pkg.thr_updThr_other _ _ _ _ (Ne.symm e)]
    · exact k.run
    · exact k.thr

theorem Pkg.GoesOn.updCore (k : p.GoesOn h q) (c : Nat) {f : Core → Core}
    (hf : c = h / 8 → ∀ n, ¬ pmuCounter n → Map.get w0 (f (q.core (h / 8))).csr n = Map.get w0 (q.core (h / 8)).csr n) :
    p.GoesOn h (q.updCore c f) := by
  refine ⟨k.run, k.alone, k.thr, fun n hn => ?_⟩
  by_cases e : c = h / 8
  · subst e
    rw [Pkg.core_updCore_same, hf rfl n hn, k.csr n hn]
  · rw [Pkg.core_updCore_other _ _ _ _ (Ne.symm e), k.csr n hn]

theorem Pkg.GoesOn.foldl (k : p.GoesOn h q) {α : Type} {f : Pkg → α → Pkg} (l : List α) (hf : ∀ r, p.GoesOn h r → ∀ a ∈ l, p.GoesOn h (f r a)) :
    p.GoesOn h (l.foldl f q) :=
  List.foldlRecOn l f k hf

/-! ### Wakes and levels -/

/-- The registers of the cores' and the L2s' power, and of the TICs, are not the register of Tandem's state. -/
theorem tdm_ne_power (c : Nat) : tdmBase ≠ meshCpwr c ∧ tdmBase ≠ meshL2pwr (c / 2) := by
  unfold tdmBase meshCpwr meshL2pwr meshBase footBase tileBase
  constructor
  · split <;> [skip; split] <;> omega
  · split <;> [skip; split] <;> omega

theorem Pkg.GoesOn.evalWake (k : p.GoesOn h q) (j : Nat) : p.GoesOn h (q.evalWake j) := by
  by_cases e : j = h
  · rw [e, Pkg.evalWake_run k.run]
    exact k
  · rcases q.evalWake_cases j with w | w <;> rw [w]
    · exact k
    · unfold Pkg.wakeThr
      split
      · exact k
      · exact k.updThr j (fun same => absurd same e)

theorem Pkg.GoesOn.wakeCore (k : p.GoesOn h q) (c : Nat) (b : Bool) : p.GoesOn h (q.wakeCore c b) := by
  have other := tdm_ne_power c
  refine k.of_eq ?_ ?_ (q.rd_wakeCore other.1 other.2 b)
  all_goals
    rw [Pkg.wakeCore_def]
    split
    · simp
    · split
      · simp [Pkg.wokenBy_threads, Pkg.wakeL2_threads]
      · rfl

theorem Pkg.GoesOn.ticChanged (k : p.GoesOn h q) (j : Nat) (old : List Nat) : p.GoesOn h (q.ticChanged j old) := by
  unfold Pkg.ticChanged
  apply Pkg.GoesOn.evalWake
  split
  · exact k.wakeCore ..
  · exact k

theorem Pkg.GoesOn.putPend (k : p.GoesOn h q) (j v : Nat) (b : Bool) : p.GoesOn h (q.putPend j v b) := by
  unfold Pkg.putPend
  split
  · exact k.wb (tdm_ne_tic j).1 ..
  · exact k.wb (tdm_ne_tic j).2 ..

theorem Pkg.GoesOn.setLevel (k : p.GoesOn h q) (j v : Nat) (on : Bool) : p.GoesOn h (q.setLevel j v on) := by
  unfold Pkg.setLevel
  split
  · exact k
  · exact (k.putPend j v on).ticChanged ..

/-! ### Counting (04 R126, R127) -/

theorem Pkg.GoesOn.pmuLevel (k : p.GoesOn h q) (j : Nat) : p.GoesOn h (q.pmuLevel j) := k.setLevel j 37 _

theorem Pkg.GoesOn.pmuCore (k : p.GoesOn h q) (c : Nat) : p.GoesOn h (q.pmuCore c) := k.foldl _ (fun _ k _ _ => k.setLevel ..)

theorem Thread.GoesOn.ws (t : Thread) {n : Nat} (counter : pmuCounter n) (v : Word) : t.GoesOn (t.ws n v) :=
  ⟨rfl, rfl, rfl, fun m hm => by rw [Thread.rs_ws, if_neg (fun e : m = n => hm (e ▸ counter))]⟩

theorem Map.get_set_counter (m : Map Word) {n k : Nat} (counter : pmuCounter n) (hk : ¬ pmuCounter k) (v : Word) :
    Map.get w0 (Map.set w0 m n v) k = Map.get w0 m k :=
  Map.get_set_other _ _ _ _ _ (fun e => hk (e ▸ counter))

theorem Pkg.GoesOn.pmcWrap (k : p.GoesOn h q) (j : Nat) {i : Nat} (hi : i < 16) : p.GoesOn h (q.pmcWrap j i) := by
  unfold Pkg.pmcWrap
  split
  next own =>
    exact (k.updThr j (fun _ => (Thread.GoesOn.ws _ (.inl (by omega)) _).trans (Thread.GoesOn.ws _ (.inr (.inl rfl)) _))).setLevel ..
  next shared =>
    refine (k.updCore (j / 8) (fun _ n hn => ?_)).pmuCore _
    rw [Map.get_set_counter _ (.inr (.inl rfl)) hn, Map.get_set_counter _ (.inr (.inr (by omega))) hn]

/-- Events that are counted change counters alone. -/
theorem Pkg.GoesOn.pmu (k : p.GoesOn h q) (j ev n : Nat) : p.GoesOn h (q.pmu j ev n) := by
  have own : ∀ i < 8, pmuCounter (0x500 + i) := fun i hi => .inl (by omega)
  have shared : ∀ i < 8, pmuCounter (0x520 + i) := fun i hi => .inr (.inr (by omega))
  unfold Pkg.pmu
  extract_lets t
  split
  · exact k
  · refine Pkg.GoesOn.foldl (k.foldl _ fun r k i hi => ?_) _ fun r k i hi => ?_
    · have hi := List.mem_range.mp hi
      split
      · extract_lets x
        split
        · exact (k.pmcWrap j (by omega)).updThr j (fun _ => .ws _ (own i hi) _)
        · exact k.updThr j (fun _ => .ws _ (own i hi) _)
      · exact k
    · have hi := List.mem_range.mp hi
      have put {r : Pkg} (k : p.GoesOn h r) (x : Word) :
          p.GoesOn h (r.updCore (j / 8) (fun k => { k with csr := Map.set w0 k.csr (0x520 + i) x })) :=
        k.updCore _ (fun _ m hm => Map.get_set_counter _ (shared i hi) hm _)
      extract_lets sel
      split
      · split
        · exact put (k.pmcWrap j (by omega)) _
        · exact put k _
      · exact k

/-- The thread's head retires: it has stepped, whatever counts it. -/
theorem Pkg.retireEnd_goesOn (run : (q.thr h).st = .run) (alone : q.tdmState = 0) :
    (q.updThr h Thread.stepped).GoesOn h ((q.retire h).stepEnd h 0) := by
  have stepped : (q.updThr h Thread.stepped).GoesOn h (q.retireQ h) :=
    Pkg.GoesOn.pmu (q := q.updThr h Thread.stepped) (.refl (by rw [Pkg.thr_updThr_same]; exact run) alone) h 0x02 1
  rw [Pkg.retire, Pkg.chunkStep_alone stepped.alone, Pkg.stepEnd_alone (Pkg.paired_off stepped.alone)]
  exact stepped

end
end Sys2Proof.Machine
end

section
/-! ## MTSR and TLBI (03_instruction_set R94, R98) -/
namespace Sys2Proof.Machine

/-! ### Fields of a word -/

theorem bits_lt (v : Word) (hi lo : Nat) : bits v hi lo < 2 ^ (hi - lo + 1) := Nat.mod_lt _ (by positivity)

/-- A field outside a mask is not seen through it. -/
theorem setBits_and_of_disjoint {hi lo : Nat} {m : Word} (apart : fmask hi lo &&& m = 0#64) (v : Word) (x : Nat) : setBits v hi lo x &&& m = v &&& m := by
  apply BitVec.eq_of_getLsbD_eq
  intro i hi'
  have bit := congrArg (·.getLsbD i) apart
  simp only [BitVec.getLsbD_and, BitVec.getLsbD_zero, fmask_getLsbD] at bit
  rw [BitVec.getLsbD_and, BitVec.getLsbD_and, setBits_getLsbD _ _ _ _ _ hi']
  split
  next within =>
    have out : m.getLsbD i = false := by simpa [hi', within] using bit
    rw [out, Bool.and_false, Bool.and_false]
  · rfl

theorem keep_getLsbD (v : Word) (hi lo i : Nat) : (keep v hi lo).getLsbD i = (v.getLsbD i && (decide (i < 64) && decide (lo ≤ i) && decide (i - lo < hi - lo + 1))) := by
  rw [keep, BitVec.getLsbD_and, fmask_getLsbD]

/-- A field that is kept. -/
theorem bits_keep_within (v : Word) {hi lo p q : Nat} (lower : lo ≤ q) (upper : p ≤ hi) (field : q ≤ p) (word : hi < 64) :
    bits (keep v hi lo) p q = bits v p q := by
  apply Nat.eq_of_testBit_eq
  intro i
  rw [bits_testBit, bits_testBit, keep_getLsbD]
  by_cases a : i < p - q + 1
  · simp [a, show q + i < 64 by omega, show lo ≤ q + i by omega, show q + i - lo < hi - lo + 1 by omega]
  · simp [a]

/-- A field above what is kept. -/
theorem bits_keep_above (v : Word) {hi lo p q : Nat} (above : hi < q) (order : lo ≤ hi) : bits (keep v hi lo) p q = 0 := by
  apply Nat.eq_of_testBit_eq
  intro i
  rw [bits_testBit, keep_getLsbD, Nat.zero_testBit]
  simp [show ¬ q + i - lo < hi - lo + 1 by omega]

/-! ### The registers with fields of their own -/

theorem fpcr_bits (old v : Word) : bits (fpcr old v) 2 0 = (if 5 ≤ bits v 2 0 then bits old 2 0 else bits v 2 0)
    ∧ bits (fpcr old v) 6 4 = (if 5 ≤ bits v 6 4 then bits old 6 4 else bits v 6 4) ∧ fpcr old v &&& ~~~0x77#64 = v &&& 0x1F1F1F00#64 := by
  have field (w : Word) (hi lo : Nat) (three : hi - lo = 2) : bits w hi lo % 2 ^ (hi - lo + 1) = bits w hi lo := Nat.mod_eq_of_lt (bits_lt ..)
  unfold fpcr
  refine ⟨?_, ?_, ?_⟩
  · rw [bits_setBits_other _ _ _ _ _ _ (by decide) (by decide) (by decide) (by decide), bits_setBits_same _ _ _ _ (by decide) (by decide)]
    split <;> exact field _ 2 0 rfl
  · rw [bits_setBits_same _ _ _ _ (by decide) (by decide)]
    split <;> exact field _ 6 4 rfl
  · rw [setBits_and_of_disjoint (by decide), setBits_and_of_disjoint (by decide), BitVec.and_assoc]
    rfl

theorem wpctl_bits (old v : Word) (lvl : Nat) : bits (wpctl old v lvl) 3 0 = bits v 3 0
    ∧ bits (wpctl old v lvl) 9 4 = min (bits v 9 4) 56 ∧ bits (wpctl old v lvl) 63 14 = 0
    ∧ ∀ k, k < 4 → (wpctl old v lvl).getLsbD (10 + k) = if k ≤ lvl then v.getLsbD (10 + k) else old.getLsbD (10 + k) := by
  unfold wpctl
  refine ⟨?_, ?_, ?_, fun k hk => ?_⟩
  · rw [bits_setBits_other _ _ _ _ _ _ (by decide) (by decide) (by decide) (by decide),
      bits_setBits_other _ _ _ _ _ _ (by decide) (by decide) (by decide) (by decide), bits_keep_within _ (by decide) (by decide) (by decide) (by decide)]
  · rw [bits_setBits_other _ _ _ _ _ _ (by decide) (by decide) (by decide) (by decide), bits_setBits_same _ _ _ _ (by decide) (by decide)]
    exact Nat.mod_eq_of_lt (by omega)
  · rw [bits_setBits_other _ _ _ _ _ _ (by decide) (by decide) (by decide) (by decide),
      bits_setBits_other _ _ _ _ _ _ (by decide) (by decide) (by decide) (by decide), bits_keep_above _ (by decide) (by decide)]
  · rw [setBits_getLsbD _ _ _ _ _ (by omega), if_pos (by omega), Nat.add_sub_cancel_left, Nat.add_comm (_ % _), Nat.mul_comm (_ / _),
      Nat.testBit_two_pow_mul_add _ (Nat.mod_lt _ (by positivity)), Nat.testBit_mod_two_pow, Nat.testBit_div_two_pow, bits_testBit, bits_testBit]
    by_cases a : k ≤ lvl
    · simp [a, show k < lvl + 1 by omega, hk]
    · simp [a, show ¬ k < lvl + 1 by omega, hk, show k - (lvl + 1) + (lvl + 1) = k by omega]

theorem delegMask_getLsbD (fixed : Nat → Bool) (j : Nat) {k : Nat} (hk : k < 64) : (delegMask fixed j).getLsbD k = !fixed (64 * j + k) := by
  have bit : ∀ n, ((List.range n).foldl (fun a i => if fixed (64 * j + i) then a else a ||| BitVec.ofNat 64 (2 ^ i)) 0#64).getLsbD k
      = (decide (k < n) && !fixed (64 * j + k)) := by
    intro n
    induction n with
    | zero => simp
    | succ n ih =>
      rw [List.range_succ, List.foldl_append, List.foldl_cons, List.foldl_nil]
      split
      next f =>
        rw [ih]
        by_cases e : k = n
        · simp [e, f]
        · simp [show k < n + 1 ↔ k < n by omega]
      next f =>
        rw [BitVec.getLsbD_or, ih, BitVec.getLsbD_ofNat, Nat.testBit_two_pow]
        by_cases e : k = n
        · subst e
          simp [f, hk]
        · simp [show k < n + 1 ↔ k < n by omega, Ne.symm e]
  rw [delegMask, bit 64]
  simp [hk]

/-! ### What a register keeps of a written value (R94) -/

/-- The new value of a register of the thread, from its old one, PS and the writer's level. -/
def srValue (n lvl : Nat) (old ps v : Word) : Word :=
  if n = 0x010 then BitVec.ofNat 64 (if lvl = 1 ∧ bits v 1 0 = 3 then 2 else bits v 1 0)
  else if n = 0x018 then fpcr old v
  else if n = 0x100 then setBits ps 2 2 (bits v 2 2)
  else if n = 0x104 then keep v 57 12
  else if 0x108 ≤ n ∧ n ≤ 0x10B then v &&& delegMask mdelegFixed (n - 0x108)
  else if 0x10C ≤ n ∧ n ≤ 0x10F then v &&& delegMask hdelegFixed (n - 0x10C)
  else if 0x120 ≤ n ∧ n < 0x180 then
    if n % 0x20 = 0 then keep v 63 11
    else if n % 0x20 = 1 ∨ n % 0x20 = 2 then keep v 63 6
    else if n % 0x20 = 3 then (if v.getLsbD 0 then 0#64 else old)
    else v
  else if 0x180 ≤ n ∧ n ≤ 0x187 then (if n % 2 = 0 then keep v 56 0 else wpctl old v lvl)
  else if 0x200 ≤ n ∧ n ≤ 0x202 then keep v 57 12
  else if n = 0x204 then keep v 15 0
  else if n = 0x208 then keep v 2 0
  else if n = 0x209 ∨ n = 0x20A then keep v 1 0
  else if n = 0x210 then keep v 31 16 ||| keep v 1 0
  else if n = 0x211 then keep v 57 13
  else if n = 0x300 then keep v 63 2
  else if n = 0x302 then setBits (keep v 3 0) 2 1 (if bits v 2 1 = 0 ∨ bits v 2 1 > lvl then bits old 2 1 else bits v 2 1)
  else if n = 0x304 then keep v 7 7 ||| keep v 4 0
  else if 0x500 ≤ n ∧ n ≤ 0x507 then keep v 47 0
  else if n = 0x511 then keep v 1 0
  else v

theorem ite_apply_of {α β : Type} (f : α → β) {c : Prop} [Decidable c] {x y : α} {b₁ b₂ : β} (yes : c → b₁ = f x) (no : ¬ c → b₂ = f y) :
    (if c then b₁ else b₂) = f (if c then x else y) := by
  split
  next k => exact yes k
  next k => exact no k

/-- A register that is the thread's alone. -/
theorem Pkg.srWrite_own (s : Pkg) (h : Nat) {n : Nat} (v : Word) (own : n < 0x400 ∨ (0x500 ≤ n ∧ n ≤ 0x507) ∨ n = 0x511) :
    s.srWrite h n v = s.updThr h (·.ws n (srValue n (s.thr h).lvl ((s.thr h).rs n) (s.thr h).ps v)) := by
  unfold Pkg.srWrite srValue
  extract_lets t lvl put
  change _ = put _
  iterate 6 refine ite_apply_of put (fun _ => rfl) fun _ => ?_
  refine ite_apply_of put (fun _ => ?_) fun _ => ?_
  · generalize n % 0x20 = o
    match o with
    | 0 | 1 | 2 | 3 => rfl
    | _ + 4 => rfl
  iterate 10 refine ite_apply_of put (fun _ => rfl) fun _ => ?_
  rw [if_neg (by omega)]
  refine ite_apply_of put (fun _ => rfl) fun _ => ?_
  rw [if_neg (by omega), if_neg (by omega)]
  refine ite_apply_of put (fun _ => rfl) fun _ => ?_
  rw [if_neg (by omega), if_neg (by omega)]

section
variable {n lvl : Nat} {old ps v : Word}

theorem srValue_mdeleg (lo : 0x108 ≤ n) (hi : n ≤ 0x10B) : srValue n lvl old ps v = v &&& delegMask mdelegFixed (n - 0x108) := by
  unfold srValue
  iterate 4 rw [if_neg (by omega)]
  rw [if_pos ⟨lo, hi⟩]

theorem srValue_hdeleg (lo : 0x10C ≤ n) (hi : n ≤ 0x10F) : srValue n lvl old ps v = v &&& delegMask hdelegFixed (n - 0x10C) := by
  unfold srValue
  iterate 5 rw [if_neg (by omega)]
  rw [if_pos ⟨lo, hi⟩]

theorem srValue_trap (lo : 0x120 ≤ n) (hi : n < 0x180) : srValue n lvl old ps v = if n % 0x20 = 0 then keep v 63 11
    else if n % 0x20 = 1 ∨ n % 0x20 = 2 then keep v 63 6 else if n % 0x20 = 3 then (if v.getLsbD 0 then 0#64 else old) else v := by
  unfold srValue
  iterate 6 rw [if_neg (by omega)]
  rw [if_pos ⟨lo, hi⟩]

theorem srValue_watch (lo : 0x180 ≤ n) (hi : n ≤ 0x187) : srValue n lvl old ps v = if n % 2 = 0 then keep v 56 0 else wpctl old v lvl := by
  unfold srValue
  iterate 7 rw [if_neg (by omega)]
  rw [if_pos ⟨lo, hi⟩]

theorem srValue_root (lo : 0x200 ≤ n) (hi : n ≤ 0x202) : srValue n lvl old ps v = keep v 57 12 := by
  unfold srValue
  iterate 8 rw [if_neg (by omega)]
  rw [if_pos ⟨lo, hi⟩]

theorem srValue_count (lo : 0x500 ≤ n) (hi : n ≤ 0x507) : srValue n lvl old ps v = keep v 47 0 := by
  unfold srValue
  iterate 17 rw [if_neg (by omega)]
  rw [if_pos ⟨lo, hi⟩]

end

/-- What MTSR leaves in a register of the thread alone. -/
def KeptBits (m lvl : Nat) (old ps v x : Word) : Prop :=
  (m = 0x010 → x = BitVec.ofNat 64 (if lvl = 1 ∧ bits v 1 0 = 3 then 2 else bits v 1 0))
  ∧ (m = 0x018 → bits x 2 0 = (if 5 ≤ bits v 2 0 then bits old 2 0 else bits v 2 0)
    ∧ bits x 6 4 = (if 5 ≤ bits v 6 4 then bits old 6 4 else bits v 6 4) ∧ x &&& ~~~0x77#64 = v &&& 0x1F1F1F00#64)
  ∧ (m = 0x100 → x = setBits ps 2 2 (bits v 2 2))
  ∧ (m = 0x104 → x = v &&& 0x03FFFFFFFFFFF000#64)
  ∧ (0x108 ≤ m ∧ m ≤ 0x10B → ∀ k, k < 64 → x.getLsbD k = (v.getLsbD k && !mdelegFixed (64 * (m - 0x108) + k)))
  ∧ (0x10C ≤ m ∧ m ≤ 0x10F → ∀ k, k < 64 → x.getLsbD k = (v.getLsbD k && !hdelegFixed (64 * (m - 0x10C) + k)))
  ∧ (0x120 ≤ m ∧ m < 0x180 → (m % 32 = 0 → x = v &&& 0xFFFFFFFFFFFFF800#64) ∧ (m % 32 = 1 ∨ m % 32 = 2 → x = v &&& 0xFFFFFFFFFFFFFFC0#64)
    ∧ (m % 32 = 3 → x = if v.getLsbD 0 then 0#64 else old) ∧ (8 ≤ m % 32 → x = v))
  ∧ (0x180 ≤ m ∧ m ≤ 0x187 → (m % 2 = 0 → x = v &&& 0x01FFFFFFFFFFFFFF#64)
    ∧ (m % 2 = 1 → bits x 3 0 = bits v 3 0 ∧ bits x 9 4 = min (bits v 9 4) 56 ∧ bits x 63 14 = 0
      ∧ ∀ k, k < 4 → x.getLsbD (10 + k) = if k ≤ lvl then v.getLsbD (10 + k) else old.getLsbD (10 + k)))
  ∧ (0x200 ≤ m ∧ m ≤ 0x202 → x = v &&& 0x03FFFFFFFFFFF000#64) ∧ (m = 0x204 → x = v &&& 0xFFFF#64)
  ∧ (m = 0x208 → x = v &&& 7#64) ∧ (m = 0x209 ∨ m = 0x20A → x = v &&& 3#64)
  ∧ (m = 0x210 → x = v &&& 0xFFFF0003#64) ∧ (m = 0x211 → x = v &&& 0x03FFFFFFFFFFE000#64)
  ∧ (m = 0x300 → x = v &&& 0xFFFFFFFFFFFFFFFC#64) ∧ (m = 0x301 ∨ m = 0x303 → x = v)
  ∧ (m = 0x302 → x = setBits (v &&& 0xF#64) 2 1 (if bits v 2 1 = 0 ∨ lvl < bits v 2 1 then bits old 2 1 else bits v 2 1))
  ∧ (m = 0x304 → x = v &&& 0x9F#64)
  ∧ (0x500 ≤ m ∧ m ≤ 0x507 → x = v &&& 0xFFFFFFFFFFFF#64) ∧ (m = 0x511 → x = v &&& 3#64)

theorem srValue_keptBits (m lvl : Nat) (old ps v : Word) : KeptBits m lvl old ps v (srValue m lvl old ps v) := by
  refine ⟨?_, ?_, ?_, ?_, ?_, ?_, ?_, ?_, ?_, ?_, ?_, ?_, ?_, ?_, ?_, ?_, ?_, ?_, ?_, ?_⟩
  · rintro rfl; rfl
  · rintro rfl
    exact fpcr_bits old v
  · rintro rfl; rfl
  · rintro rfl; rfl
  · rintro ⟨lo, hi⟩ k hk
    rw [srValue_mdeleg lo hi, BitVec.getLsbD_and, delegMask_getLsbD _ _ hk]
  · rintro ⟨lo, hi⟩ k hk
    rw [srValue_hdeleg lo hi, BitVec.getLsbD_and, delegMask_getLsbD _ _ hk]
  · rintro ⟨lo, hi⟩
    rw [srValue_trap lo hi]
    refine ⟨fun e => ?_, fun e => ?_, fun e => ?_, fun e => ?_⟩
    · rw [if_pos e]; rfl
    · rw [if_neg (by omega), if_pos e]; rfl
    · rw [if_neg (by omega), if_neg (by omega), if_pos e]
    · rw [if_neg (by omega), if_neg (by omega), if_neg (by omega)]
  · rintro ⟨lo, hi⟩
    rw [srValue_watch lo hi]
    refine ⟨fun e => ?_, fun e => ?_⟩
    · rw [if_pos e]; rfl
    · rw [if_neg (by omega)]
      exact wpctl_bits old v lvl
  · rintro ⟨lo, hi⟩
    exact srValue_root lo hi
  · rintro rfl; rfl
  · rintro rfl; rfl
  · rintro (rfl | rfl) <;> rfl
  · rintro rfl
    exact BitVec.and_or_distrib_left.symm
  · rintro rfl; rfl
  · rintro rfl; rfl
  · rintro (rfl | rfl) <;> rfl
  · rintro rfl; rfl
  · rintro rfl
    exact BitVec.and_or_distrib_left.symm
  · rintro ⟨lo, hi⟩
    exact srValue_count lo hi
  · rintro rfl; rfl

/-! ### MTSR (R94) -/

theorem Pkg.opMtsr_eq {s : Pkg} {h : Nat} {ra : Reg} {n : BitVec 12} (watch : (s.thr h).Unwatched) (may : srFault n.toNat (s.thr h).lvl (s.uread h) true = none) :
    s.opMtsr h (.mtsr ra n) = ((s.srWrite h n.toNat ((s.thr h).rg ra.toNat)).retire h).stepEnd h 0 := by
  simp only [Pkg.opMtsr, may, Pkg.watchX_unwatched watch]

theorem Pkg.Ready.run {p : Pkg} {h : Nat} {i : Ins} (r : p.Ready h i) : (p.thr h).st = .run := by
  obtain ⟨-, -, go, -⟩ := r
  simp only [Pkg.mayGo, Bool.and_eq_true, beq_iff_eq] at go
  exact go.1.1.1.1.1.1

theorem Pkg.Ready.coreP {p : Pkg} {h : Nat} {i : Ins} (r : p.Ready h i) : p.coreP (h / 8) = 0 := by
  obtain ⟨-, -, go, -⟩ := r
  simp only [Pkg.mayGo, Bool.and_eq_true, beq_iff_eq] at go
  exact go.1.1.1.1.2

section
variable {s : Pkg} {h : Nat}

/-- A level of a thread that runs changes its bit alone. -/
theorem Pkg.setLevel_running (lt : h < 2048) (run : (s.thr h).st = .run) (up : s.coreP (h / 8) = 0) (v : Nat) (on : Bool) :
    s.setLevel h v on = if s.pendv h v = on then s else s.putPend h v on := by
  have pend : meshCpwr (h / 8) ≠ ticPend h := (tic_ne_power (k := 8) lt (by decide)).1.symm
  have sys : meshCpwr (h / 8) ≠ ticSyspend h := (tic_ne_power (k := 0x20) lt (by decide)).1.symm
  have up' : (s.putPend h v on).coreP (h / 8) = 0 := by
    rw [← up]
    unfold Pkg.coreP Pkg.rf Pkg.putPend
    split
    · rw [Pkg.rd_wb_other _ _ _ _ _ sys]
    · rw [Pkg.rd_wb_other _ _ _ _ _ pend]
  have run' : ((s.putPend h v on).thr h).st = .run := by
    rw [← run, Pkg.thr_of_eq (q := s.putPend h v on) (p := s)]
    unfold Pkg.putPend
    split <;> exact Pkg.wb_threads ..
  unfold Pkg.setLevel
  congr 1
  rw [Pkg.ticChanged, up', if_neg (by simp), Pkg.evalWake_run run']

/-- A change of a register that the core's threads share. -/
def Pkg.updCsr (s : Pkg) (c n : Nat) (f : Word → Word) : Pkg :=
  s.updCore c (fun k => { k with csr := Map.set w0 k.csr n (f (Map.get w0 k.csr n)) })

theorem Pkg.updCsr_thr (s : Pkg) (c n : Nat) (f : Word → Word) (k : Nat) : (s.updCsr c n f).thr k = s.thr k := rfl

theorem Pkg.updCsr_csr (s : Pkg) (c n m : Nat) (f : Word → Word) :
    Map.get w0 ((s.updCsr c n f).core c).csr m = if m = n then f (Map.get w0 (s.core c).csr n) else Map.get w0 (s.core c).csr m := by
  rw [Pkg.updCsr, Pkg.core_updCore_same, Map.get_set]

theorem Pkg.Uncounted.updCsr {s : Pkg} {h : Nat} (counts : s.Uncounted h) {n : Nat} (other : n < 0x528) (f : Word → Word) : (s.updCsr (h / 8) n f).Uncounted h := by
  refine ⟨counts.1, fun i hi => ?_⟩
  rw [Pkg.updCsr_csr, if_neg (by omega)]
  exact counts.2 i hi

/-- The registers whose write reaches beyond the thread's own. -/
theorem Pkg.srWrite_beyond {n : Nat} (lo : 0x400 < n) (hi : n < 0x530) (v : Word) : s.srWrite h n v =
    if n = 0x401 then (s.updThr h (·.ws n v)).timerLevel h
    else if 0x500 ≤ n ∧ n ≤ 0x507 then s.updThr h (·.ws n (keep v 47 0))
    else if 0x508 ≤ n ∧ n ≤ 0x50F then (s.updThr h (·.ws n (keep v 13 0))).pmuLevel h
    else if n = 0x510 then
      ((s.updThr h (·.ws n ((s.thr h).rs n &&& ~~~(keep v 7 0)))).updCore (h / 8)
        (fun k => { k with csr := Map.set w0 k.csr 0x510 (Map.get w0 k.csr 0x510 &&& ~~~(keep v 15 8)) })).pmuCore (h / 8)
    else if n = 0x511 then s.updThr h (·.ws n (keep v 1 0))
    else if 0x520 ≤ n ∧ n ≤ 0x527 then s.updCore (h / 8) (fun k => { k with csr := Map.set w0 k.csr n (keep v 47 0) })
    else if 0x528 ≤ n ∧ n ≤ 0x52F then
      (s.updCore (h / 8) (fun k => { k with csr := Map.set w0 k.csr n (keep v 23 16 ||| keep v 13 0) })).pmuCore (h / 8)
    else s.updThr h (·.ws n v) := by
  unfold Pkg.srWrite
  extract_lets
  iterate 17 rw [if_neg (by omega)]

theorem Pkg.srWrite_timer (v : Word) : s.srWrite h 0x401 v = (s.updThr h (·.ws 0x401 v)).timerLevel h := by
  rw [Pkg.srWrite_beyond (by decide) (by decide), if_pos rfl]

theorem Pkg.srWrite_select {n : Nat} (lo : 0x508 ≤ n) (hi : n ≤ 0x50F) (v : Word) :
    s.srWrite h n v = (s.updThr h (·.ws n (keep v 13 0))).pmuLevel h := by
  rw [Pkg.srWrite_beyond (by omega) (by omega), if_neg (by omega), if_neg (by omega), if_pos ⟨lo, hi⟩]

theorem Pkg.srWrite_overflow (v : Word) : s.srWrite h 0x510 v =
    ((s.updThr h (·.ws 0x510 ((s.thr h).rs 0x510 &&& ~~~(v &&& 0xFF#64)))).updCsr (h / 8) 0x510 (· &&& ~~~(v &&& 0xFF00#64))).pmuCore (h / 8) := by
  rw [Pkg.srWrite_beyond (by decide) (by decide), if_neg (by decide), if_neg (by decide), if_neg (by decide), if_pos rfl]
  rfl

theorem Pkg.srWrite_shared_count {n : Nat} (lo : 0x520 ≤ n) (hi : n ≤ 0x527) (v : Word) :
    s.srWrite h n v = s.updCsr (h / 8) n (fun _ => v &&& 0xFFFFFFFFFFFF#64) := by
  rw [Pkg.srWrite_beyond (by omega) (by omega), if_neg (by omega), if_neg (by omega), if_neg (by omega), if_neg (by omega), if_neg (by omega),
    if_pos ⟨lo, hi⟩]
  rfl

theorem Pkg.srWrite_shared_select {n : Nat} (lo : 0x528 ≤ n) (hi : n ≤ 0x52F) (v : Word) :
    s.srWrite h n v = (s.updCsr (h / 8) n (fun _ => v &&& 0xFF3FFF#64)).pmuCore (h / 8) := by
  have both : keep v 23 16 ||| keep v 13 0 = v &&& 0xFF3FFF#64 := BitVec.and_or_distrib_left.symm
  rw [Pkg.srWrite_beyond (by omega) (by omega), if_neg (by omega), if_neg (by omega), if_neg (by omega), if_neg (by omega), if_neg (by omega),
    if_neg (by omega), if_pos ⟨lo, hi⟩, both]
  rfl

/-- TIMER's level, of a thread that runs. -/
theorem Pkg.setTimer_running (lt : h < 2048) (run : (s.thr h).st = .run) (up : s.coreP (h / 8) = 0) (on : Bool) :
    let q := s.setLevel h 34 on
    q.threads = s.threads ∧ q.cores = s.cores ∧ s.DrsBut q [ticSyspend h] := by
  intro q
  have e : q = if s.pendv h 34 = on then s else s.wb (ticSyspend h) 2 on := Pkg.setLevel_running lt run up 34 on
  rw [e]
  split
  · exact ⟨rfl, rfl, fun _ _ => rfl⟩
  · refine ⟨Pkg.wb_threads .., Pkg.wb_cores .., fun o out => ?_⟩
    exact Pkg.rd_wb_other _ _ _ _ _ (by simpa using out)

theorem Pkg.pendv_updThr (s : Pkg) (h : Nat) (f : Thread → Thread) (k v : Nat) : (s.updThr h f).pendv k v = s.pendv k v :=
  Pkg.pendv_congr rfl rfl v

/-- The write of TCMP (03 R92). -/
theorem Pkg.written_timer (lt : h < 2048) (run : (s.thr h).st = .run) (up : s.coreP (h / 8) = 0) (alone : s.tdmState = 0) (counts : s.Uncounted h)
    (off : s.shm.on = false) (idle : s.shm.acts = []) (v : Word) :
    let q := ((s.srWrite h 0x401 v).retire h).stepEnd h 0
    q.thr h = ((s.thr h).ws 0x401 v).stepped ∧ (∀ k, k ≠ h → q.thr k = s.thr k)
      ∧ q.pendv h 34 = decide (v.toNat ≤ s.timeNs % 2 ^ 64) ∧ s.DrsBut q [ticSyspend h] := by
  intro q
  have value : ((s.updThr h (·.ws 0x401 v)).thr h).rs 0x401 = v := by rw [Pkg.thr_updThr_same, Thread.rs_ws, if_pos rfl]
  have run' : ((s.updThr h (·.ws 0x401 v)).thr h).st = .run := by rw [Pkg.thr_updThr_same]; exact run
  obtain ⟨threads, cores, but⟩ := Pkg.setTimer_running (s := s.updThr h (·.ws 0x401 v)) lt run' up (decide (v.toNat ≤ s.timeNs % 2 ^ 64))
  have written : s.srWrite h 0x401 v = (s.updThr h (·.ws 0x401 v)).setLevel h 34 (decide (v.toNat ≤ s.timeNs % 2 ^ 64)) := by
    rw [Pkg.srWrite_timer, Pkg.timerLevel_off (s := s.updThr h (·.ws 0x401 v)) off idle, value]
    rfl
  have goesOn := Pkg.GoesOn.setLevel (.refl run' alone) h 34 (decide (v.toNat ≤ s.timeNs % 2 ^ 64))
  have pend := Pkg.pendv_setLevel (s.updThr h (·.ws 0x401 v)) lt (v := 34) (by decide) (decide (v.toNat ≤ s.timeNs % 2 ^ 64))
  rw [← written] at threads cores but goesOn pend
  have e : q = (s.srWrite h 0x401 v).updThr h Thread.stepped :=
    Pkg.retireEnd_alone goesOn.alone (counts.of_eq
      (fun i _ => by rw [Pkg.thr_of_eq threads, Pkg.thr_updThr_same, Thread.rs_ws, if_neg (by omega)]) (by rw [Pkg.core_of_eq cores]; rfl)) ..
  rw [e]
  refine ⟨?_, fun k other => ?_, ?_, fun o out => ?_⟩
  · rw [Pkg.thr_updThr_same, Pkg.thr_of_eq threads, Pkg.thr_updThr_same]
  · rw [Pkg.thr_updThr_other _ _ _ _ other, Pkg.thr_of_eq threads, Pkg.thr_updThr_other _ _ _ _ other]
  · rw [Pkg.pendv_updThr, pend]
  · rw [Pkg.rd_updThr, but o out, Pkg.rd_updThr]

/-- What a retired write leaves of what the thread goes on with. -/
theorem Pkg.GoesOn.retired {p q : Pkg} (k : p.GoesOn h q) :
    let r := (q.retire h).stepEnd h 0
    (r.thr h).pc = (p.thr h).pc + 4#64 ∧ (r.thr h).g = (p.thr h).g
      ∧ (∀ n, ¬ pmuCounter n → n ≠ 0x100 → (r.thr h).rs n = (p.thr h).rs n)
      ∧ ∀ n, ¬ pmuCounter n → Map.get w0 (r.core (h / 8)).csr n = Map.get w0 (p.core (h / 8)).csr n := by
  intro r
  have on := Pkg.retireEnd_goesOn k.run k.alone
  have thr := on.thr
  rw [Pkg.thr_updThr_same] at thr
  refine ⟨?_, ?_, fun n hn hn' => ?_, fun n hn => ?_⟩
  · rw [thr.pc, ← k.thr.pc]; rfl
  · rw [thr.g, ← k.thr.g]; rfl
  · rw [thr.rs n hn, Thread.stepped_rs _ hn', k.thr.rs n hn]
  · rw [on.csr n hn, ← k.csr n hn]; rfl

theorem Pkg.sameSr_pmuCore (s : Pkg) (c : Nat) : s.SameSr (s.pmuCore c) :=
  foldl_keeps s.SameSr _ (fun p _ k => k.trans (p.sameSr_setLevel ..)) (List.range 8) s (.refl s)

section
variable (run : (s.thr h).st = .run) (alone : s.tdmState = 0) {n : Nat} (v : Word)

/-- The write of a shared counter. -/
theorem Pkg.written_shared_count (alone : s.tdmState = 0) (counts : s.Uncounted h) (lo : 0x520 ≤ n) (hi : n ≤ 0x527) :
    let q := ((s.srWrite h n v).retire h).stepEnd h 0
    Map.get w0 (q.core (h / 8)).csr n = v &&& 0xFFFFFFFFFFFF#64 ∧ (q.thr h).pc = (s.thr h).pc + 4#64 ∧ (q.thr h).g = (s.thr h).g := by
  intro q
  have e : q = (s.updCsr (h / 8) n (fun _ => v &&& 0xFFFFFFFFFFFF#64)).updThr h Thread.stepped := by
    have counts' := counts.updCsr (n := n) (by omega) (fun _ => v &&& 0xFFFFFFFFFFFF#64)
    rw [← Pkg.retireEnd_alone (s := s.updCsr (h / 8) n _) alone counts' 0 0 0 0 0 0, ← Pkg.srWrite_shared_count lo hi]
  rw [e, Pkg.thr_updThr_same]
  refine ⟨?_, rfl, rfl⟩
  rw [Pkg.core_updThr, Pkg.updCsr_csr, if_pos rfl]

include run alone

/-- The write of a counter's selector. -/
theorem Pkg.written_select (lo : 0x508 ≤ n) (hi : n ≤ 0x50F) :
    let q := ((s.srWrite h n v).retire h).stepEnd h 0
    (q.thr h).rs n = v &&& 0x3FFF#64 ∧ (q.thr h).pc = (s.thr h).pc + 4#64 ∧ (q.thr h).g = (s.thr h).g := by
  intro q
  have start : (s.updThr h (·.ws n (keep v 13 0))).GoesOn h (s.updThr h (·.ws n (keep v 13 0))) := .refl (by rw [Pkg.thr_updThr_same]; exact run) alone
  have goesOn : (s.updThr h (·.ws n (keep v 13 0))).GoesOn h (s.srWrite h n v) := by
    rw [Pkg.srWrite_select lo hi]
    exact start.pmuLevel h
  obtain ⟨pc, g, rs, -⟩ := goesOn.retired
  rw [Pkg.thr_updThr_same] at pc g rs
  refine ⟨?_, pc, g⟩
  rw [rs n (by unfold pmuCounter; omega) (by omega), Thread.rs_ws, if_pos rfl]
  rfl

/-- The write of a shared counter's selector. -/
theorem Pkg.written_shared_select (lo : 0x528 ≤ n) (hi : n ≤ 0x52F) :
    let q := ((s.srWrite h n v).retire h).stepEnd h 0
    Map.get w0 (q.core (h / 8)).csr n = v &&& 0xFF3FFF#64 ∧ (q.thr h).pc = (s.thr h).pc + 4#64 ∧ (q.thr h).g = (s.thr h).g := by
  intro q
  have start : (s.updCsr (h / 8) n (fun _ => v &&& 0xFF3FFF#64)).GoesOn h (s.updCsr (h / 8) n (fun _ => v &&& 0xFF3FFF#64)) := .refl run alone
  obtain ⟨pc, g, -, csr⟩ := Pkg.GoesOn.retired (Pkg.srWrite_shared_select lo hi v ▸ start.pmuCore (h / 8))
  refine ⟨?_, pc, g⟩
  rw [csr n (by unfold pmuCounter; omega), Pkg.updCsr_csr, if_pos rfl]

/-- The write of the overflow bits. -/
theorem Pkg.written_overflow (counts : s.Uncounted h) :
    let q := ((s.srWrite h 0x510 v).retire h).stepEnd h 0
    (q.thr h).rs 0x510 = (s.thr h).rs 0x510 &&& ~~~(v &&& 0xFF#64)
      ∧ Map.get w0 (q.core (h / 8)).csr 0x510 = Map.get w0 (s.core (h / 8)).csr 0x510 &&& ~~~(v &&& 0xFF00#64)
      ∧ (q.thr h).pc = (s.thr h).pc + 4#64 ∧ (q.thr h).g = (s.thr h).g := by
  intro q
  obtain ⟨own, hown⟩ : ∃ own, own = (s.thr h).rs 0x510 &&& ~~~(v &&& 0xFF#64) := ⟨_, rfl⟩
  obtain ⟨p, hp⟩ : ∃ p, p = (s.updThr h (·.ws 0x510 own)).updCsr (h / 8) 0x510 (· &&& ~~~(v &&& 0xFF00#64)) := ⟨_, rfl⟩
  have thr : p.thr h = (s.thr h).ws 0x510 own := by rw [hp, Pkg.updCsr_thr, Pkg.thr_updThr_same]
  have alone' : p.tdmState = 0 := by rw [hp]; exact alone
  have counts' : p.Uncounted h := by
    rw [hp]
    exact Pkg.Uncounted.updCsr (counts.updThr fun i _ => by rw [Thread.rs_ws, if_neg (by omega)]) (by decide) _
  have written : s.srWrite h 0x510 v = p.pmuCore (h / 8) := by rw [hp, hown, Pkg.srWrite_overflow]
  have same : p.SameSr (s.srWrite h 0x510 v) := written ▸ Pkg.sameSr_pmuCore ..
  have start : p.GoesOn h p := .refl (by rw [thr]; exact run) alone'
  have goesOn : p.GoesOn h (s.srWrite h 0x510 v) := written ▸ start.pmuCore (h / 8)
  have e : q = (s.srWrite h 0x510 v).updThr h Thread.stepped :=
    Pkg.retireEnd_alone goesOn.alone (counts'.of_eq (fun i _ => same.rs ..) (by rw [Pkg.core_of_eq same.1])) ..
  obtain ⟨pc, g, -, -⟩ := goesOn.retired
  rw [thr] at pc g
  refine ⟨?_, ?_, pc, g⟩
  · rw [e, Pkg.thr_updThr_same, Thread.stepped_rs _ (by decide), same.rs, thr, Thread.rs_ws, if_pos rfl, hown]
  · rw [e, Pkg.core_updThr, Pkg.core_of_eq same.1, hp, Pkg.updCsr_csr, if_pos rfl]
    rfl

end

end
/-! ### TLBI (R98, R157) -/

/-- What TLBI keeps of a core's translation entries. -/
def Core.shot (k : Core) (ty : Nat) (op : Word) (vm lvl : Nat) : Core :=
  let keep := fun e => !tlbiHits ty op vm lvl e
  { k with itlb := k.itlb.filter keep, dtlb := k.dtlb.filter keep, tlb2 := k.tlb2.filter keep
           walkc := k.walkc.filter (fun w => !tlbiHitsWalk ty op vm lvl w) }

theorem Core.shot_shot (k : Core) (ty : Nat) (op : Word) (vm lvl : Nat) : (k.shot ty op vm lvl).shot ty op vm lvl = k.shot ty op vm lvl := by
  simp [Core.shot, List.filter_filter]

theorem Map.get_of_not_mem {α : Type} (d : Nat → α) (m : Map α) (k : Nat) (out : k ∉ m.map Prod.fst) : Map.get d m k = d k := by
  induction m with
  | nil => rfl
  | cons x m ih =>
    obtain ⟨j, v⟩ := x
    simp only [List.map_cons, List.mem_cons, not_or] at out
    rw [Map.get, if_neg (Ne.symm out.1), ih out.2]

/-- A change of every listed core that changes nothing the second time. -/
theorem Pkg.core_foldl_updCore {f : Core → Core} (again : ∀ k, f (f k) = f k) (l : List (Nat × Core)) (s : Pkg) (c : Nat) :
    (l.foldl (fun s p => s.updCore p.1 f) s).core c = if c ∈ l.map Prod.fst then f (s.core c) else s.core c := by
  induction l generalizing s with
  | nil => rfl
  | cons x l ih =>
    rw [List.foldl_cons, ih]
    by_cases e : c = x.1
    · subst e
      rw [Pkg.core_updCore_same, again]
      simp
    · rw [Pkg.core_updCore_other _ _ _ _ e]
      exact if_congr (by simp [e]) rfl rfl

theorem Pkg.tlbi_core (s : Pkg) (ty : Nat) (op : Word) (vm lvl c : Nat) : (s.tlbi ty op vm lvl).core c = (s.core c).shot ty op vm lvl := by
  have e := Pkg.core_foldl_updCore (f := (Core.shot · ty op vm lvl)) (Core.shot_shot · ty op vm lvl) s.cores s c
  refine e.trans ?_
  split
  · rfl
  next absent => rw [Pkg.core, Map.get_of_not_mem _ _ _ absent]; rfl

theorem Pkg.tlbi_eq (s : Pkg) (ty : Nat) (op : Word) (vm lvl : Nat) : s.tlbi ty op vm lvl = { s with cores := (s.tlbi ty op vm lvl).cores } :=
  foldl_keeps (fun q : Pkg => q = { s with cores := q.cores }) _ (fun _ _ k => by rw [k]; rfl) s.cores s rfl

theorem Pkg.tlbi_thr (s : Pkg) (ty : Nat) (op : Word) (vm lvl h : Nat) : (s.tlbi ty op vm lvl).thr h = s.thr h :=
  Pkg.thr_of_eq (congrArg Pkg.threads (s.tlbi_eq ty op vm lvl)) h

theorem Pkg.tlbi_tdmState (s : Pkg) (ty : Nat) (op : Word) (vm lvl : Nat) : (s.tlbi ty op vm lvl).tdmState = s.tdmState := by
  have drs : (s.tlbi ty op vm lvl).drs = s.drs := by rw [Pkg.tlbi_eq]
  exact Pkg.tdmState_of_drs drs

theorem Pkg.opTlbi_eq {s : Pkg} {h : Nat} {ty : BitVec 3} {ra : Reg} (alone : s.tdmState = 0) (counts : s.Uncounted h) (watch : (s.thr h).Unwatched)
    (level : (if ty = 3#3 ∨ ty = 5#3 then 2 else 1) ≤ (s.thr h).lvl) (operand : tlbiOperandOk ty.toNat ((s.thr h).rg ra.toNat) = true)
    (quiet : s.quiet h = true) :
    s.opTlbi h (.tlbi ty ra)
      = (s.tlbi ty.toNat ((s.thr h).rg ra.toNat) (bits ((s.thr h).rs 0x210) 31 16) (s.thr h).lvl).updThr h Thread.stepped := by
  simp only [Pkg.opTlbi, Pkg.priv_above level, operand, Bool.not_true, Bool.false_eq_true, if_false, Pkg.watchX_unwatched watch, quiet, if_true]
  refine Pkg.retireEnd_alone ?_ (counts.of_eq (fun i _ => ?_) ?_) ..
  · rw [Pkg.tlbi_tdmState, alone]
  · rw [Pkg.tlbi_thr]
  · rw [Pkg.tlbi_core]
    rfl

/-- Settles O11: a register keeps of the value what it has; every core's entries that match are removed. -/
theorem mtsrAndTlbiWriteWhatTheyName : Obligations.MtsrAndTlbiWriteWhatTheyName := by
  intro s h i r
  obtain ⟨-, alone, -, -, await, -, -, counts, watch⟩ := id r
  refine ⟨?_, ?_⟩
  · rintro ra n rfl may
    have e := Pkg.opMtsr_eq (ra := ra) watch may
    intro v old m
    refine ⟨fun own => ?_, fun m_eq off idle => ?_, fun k => ?_, fun m_eq => ?_, fun k => ?_⟩
    · have step : s.pkg.opMtsr h (.mtsr ra n) = (s.pkg.updThr h (·.ws m (srValue m (s.pkg.thr h).lvl old (s.pkg.thr h).ps v))).updThr h Thread.stepped := by
        rw [e, Pkg.srWrite_own _ _ _ own]
        exact Pkg.updRetireEnd_alone alone counts (fun i _ => by rw [Thread.rs_ws, if_neg (by omega)]) ..
      obtain ⟨q, next, moves⟩ := State.run_stepped (op := fun p i => p.opMtsr h i) r rfl step
      exact ⟨q, _, next, moves, srValue_keptBits ..⟩
    · refine ⟨_, State.run_op (op := fun p i => p.opMtsr h i) r rfl e, ?_⟩
      rw [show n.toNat = 0x401 from m_eq]
      exact Pkg.written_timer h.isLt r.run r.coreP alone counts off idle v
    · exact ⟨_, State.run_op (op := fun p i => p.opMtsr h i) r rfl e, Pkg.written_select r.run alone v k.1 k.2⟩
    · refine ⟨_, State.run_op (op := fun p i => p.opMtsr h i) r rfl e, ?_⟩
      have overflow := Pkg.written_overflow r.run alone v counts
      rw [← show n.toNat = 0x510 from m_eq] at overflow
      rw [← show n.toNat = 0x510 from m_eq]
      exact overflow
    · refine ⟨_, State.run_op (op := fun p i => p.opMtsr h i) r rfl e, ?_⟩
      split
      next low => exact Pkg.written_shared_count v alone counts k.1 low
      next high => exact Pkg.written_shared_select r.run alone v (by omega) k.2
  · rintro ty ra rfl level operand sb
    have e := Pkg.opTlbi_eq alone counts watch level operand ((Pkg.quiet_iff await).mpr sb)
    have kept := s.pkg.tlbi_eq ty.toNat ((s.pkg.thr h).rg ra.toNat) (bits ((s.pkg.thr h).rs 0x210) 31 16) (s.pkg.thr h).lvl
    refine ⟨_, State.run_op (op := fun p i => p.opTlbi h i) r rfl e, ?_, fun k other => ?_, ?_, fun c => ?_⟩
    · rw [Pkg.thr_updThr_same, Pkg.tlbi_thr]
    · rw [Pkg.thr_updThr_other _ _ _ _ other, Pkg.tlbi_thr]
    · rw [kept]
      rfl
    · rw [Pkg.core_updThr, Pkg.tlbi_core]
      exact ⟨rfl, rfl, rfl, rfl, rfl⟩

end Sys2Proof.Machine
end

section
/-! ## What the memory system does while a thread goes on running -/
namespace Sys2Proof.Machine

section
variable {p q r : Pkg} {h : Nat}

theorem Pkg.GoesOn.ite {c : Prop} [Decidable c] (a : p.GoesOn h q) (b : p.GoesOn h r) : p.GoesOn h (if c then q else r) := by
  split
  · exact a
  · exact b

/-- A change beside threads, cores and registers. -/
theorem Pkg.GoesOn.beside (k : p.GoesOn h q) (threads : r.threads = q.threads) (cores : r.cores = q.cores) (drs : r.drs = q.drs) : p.GoesOn h r :=
  k.of_eq threads cores (Pkg.rd_of_drs drs _)

theorem Pkg.GoesOn.wr (k : p.GoesOn h q) {o : Nat} (other : tdmBase ≠ o) (v : Word) : p.GoesOn h (q.wr o v) :=
  k.of_eq rfl rfl (Pkg.rd_wr_other _ _ _ _ other)

theorem Pkg.GoesOn.sat (k : p.GoesOn h q) {o : Nat} (other : tdmBase ≠ o) (hi lo n : Nat) : p.GoesOn h (q.sat o hi lo n) := k.wf other ..

theorem Pkg.GoesOn.inc (k : p.GoesOn h q) {o : Nat} (other : tdmBase ≠ o) (hi lo n : Nat) : p.GoesOn h (q.inc o hi lo n) := k.wf other ..

/-! ### Interrupts from a unit (04 R131; 09 R251) -/

theorem Pkg.GoesOn.raiseVec (k : p.GoesOn h q) (j v : Nat) (fin : Word) : p.GoesOn h (q.raiseVec j v fin) := by
  unfold Pkg.raiseVec
  extract_lets s
  have kept : p.GoesOn h s :=
    .ite k (.ite (k.updThr j fun _ => ⟨rfl, rfl, rfl, fun _ _ => rfl⟩) (.ite (k.updThr j fun _ => ⟨rfl, rfl, rfl, fun _ _ => rfl⟩) k))
  exact (kept.putPend j v true).ticChanged j _

theorem tdm_ne_ticStatus (j : Nat) : tdmBase ≠ ticStatus j := by
  unfold tdmBase ticStatus ticBase footBase tileBase
  omega

theorem Pkg.GoesOn.msiWrite (k : p.GoesOn h q) (j x : Nat) : p.GoesOn h (q.msiWrite j x) := by
  have other := tdm_ne_ticStatus j
  exact .ite (k.raiseVec ..) ((k.wb other ..).sat other ..)

theorem Pkg.GoesOn.irqOf (k : p.GoesOn h q) (o : Nat) : p.GoesOn h (q.irqOf o) := by
  unfold Pkg.irqOf Pkg.msiIn
  rw [Pkg.replaying_off k.alone, Pkg.ticSet_alone k.alone]
  exact .ite (.ite k (.ite (k.raiseVec ..) (k.msiWrite ..))) k

/-! ### Odometer and error records (17) -/

theorem Pkg.GoesOn.livePut (k : p.GoesOn h q) (o n x : Nat) : p.GoesOn h (q.livePut o n x) := by
  have other : tdmBase ≠ odoLive o := by
    unfold tdmBase odoLive odoBase footBase
    omega
  exact k.wf other ..

theorem tdm_ne_odo : tdmBase ≠ odoBase := by decide

theorem Pkg.GoesOn.odoBegin (k : p.GoesOn h q) (reason : Nat) : p.GoesOn h (q.odoBegin reason) := by
  have measured : p.GoesOn h q.odoMeasure := by
    refine Pkg.GoesOn.livePut (k.foldl _ fun r k c _ => ?_) ..
    have drawn : p.GoesOn h r.draw.2 := k.beside rfl rfl rfl
    split
    · exact (drawn.livePut ..).livePut ..
    · exact k
  have taken : p.GoesOn h { q.odoMeasure with odo := { q.odoMeasure.odo with writing := some reason, again := none, snap := q.odoMeasure.odoImage reason } } :=
    measured.beside rfl rfl rfl
  rw [Pkg.odoBegin_eq]
  exact taken.wb tdm_ne_odo 0 true

theorem Pkg.GoesOn.odoRequest (k : p.GoesOn h q) (reason : Nat) : p.GoesOn h (q.odoRequest reason) := by
  unfold Pkg.odoRequest
  extract_lets soon again s
  have kept : p.GoesOn h s := .ite k (k.beside rfl rfl rfl)
  split
  · exact k.sat tdm_ne_odo ..
  · split
    · exact k.beside rfl rfl rfl
    · exact .ite k (kept.odoBegin reason)

theorem Pkg.GoesOn.odoEvent (k : p.GoesOn h q) (code unit stop d0 d1 : Nat) : p.GoesOn h (q.odoEvent code unit stop d0 d1) := by
  unfold Pkg.odoEvent
  extract_lets n b s1 s2 s3 s4 s5
  have other : tdmBase ≠ odoLive (b + 8) := by
    unfold tdmBase odoLive odoBase footBase
    omega
  have k2 : p.GoesOn h s2 := (k.livePut ..).wr other _
  have kept : p.GoesOn h s5 := ((k2.livePut ..).livePut ..).livePut ..
  exact .ite (kept.odoRequest 2) kept

theorem tdm_ne_mc (i : Nat) {o : Nat} (low : o < 0x800000) : tdmBase ≠ mcBase i + o := by
  unfold tdmBase mcBase footBase
  omega

theorem Pkg.GoesOn.record (k : p.GoesOn h q) (i : Nat) (e : Err) : p.GoesOn h (q.record (.mc i) e) := by
  have low (o : Nat) (lt : o < 0x1000) : tdmBase ≠ (Win.mc i).err + o := by
    have at' : (Win.mc i).err + o = mcBase i + (0xC00 + o) := Nat.add_assoc ..
    rw [at']
    exact tdm_ne_mc i (by omega)
  have status : tdmBase ≠ (Win.mc i).err := low 0 (by decide)
  have addr := low 8 (by decide)
  have info := low 0x10 (by decide)
  have time := low 0x18 (by decide)
  have count := low 0x20 (by decide)
  have window := low 0x38 (by decide)
  have pend : tdmBase ≠ mgtBase + 0x210 := by decide
  unfold Pkg.record
  extract_lets b quiet v old take w1 w2 w3 s1 s2 o s3 s4 nv th hit w4 s5
  have k1 : p.GoesOn h s1 := by
    unfold s1
    split
    · exact (((k.wr status _).wr addr _).wr info _).wr time _
    · split
      · exact k.wb status ..
      · exact k
  have k2 : p.GoesOn h s2 := by
    unfold s2
    split
    · exact k1.inc count ..
    · exact k1.sat count ..
  have k3 : p.GoesOn h s3 := by
    unfold s3
    repeat' split
    all_goals exact k2.livePut ..
  have k4 : p.GoesOn h s4 := .ite (k3.odoEvent ..) k3
  have k5 : p.GoesOn h s5 := by
    unfold s5
    split
    · split
      · exact ((k4.wr window _).irqOf _).odoEvent ..
      · exact k4.wr window _
    · split
      · exact k4.irqOf _
      · exact k4
  split
  · exact k5.wb pend ..
  · exact k5

end
end Sys2Proof.Machine
end

section
/-! ## What the caches do while a thread goes on running -/
namespace Sys2Proof.Machine

section
variable {p q : Pkg} {h : Nat}

/-! ### Memory controllers (09 R245 to R251) -/

theorem Pkg.GoesOn.pprDue (k : p.GoesOn h q) (i e : Nat) : p.GoesOn h (q.pprDue i e) := by
  unfold Pkg.pprDue
  split
  · exact k
  · exact k.beside rfl rfl rfl

/-- The entries that count corrected errors are sixteen. -/
theorem Pkg.ceSlot_lt {s : Pkg} {i key e : Nat} (slot : s.ceSlot i key = some e) : e < 16 := by
  have listed {f : Nat → Bool} {e : Nat} (found : (List.range 16).find? f = some e) : e < 16 := List.mem_range.mp (List.mem_of_find?_eq_some found)
  unfold Pkg.ceSlot at slot
  dsimp only at slot
  split at slot
  next found => exact listed (slot ▸ found)
  next =>
    split at slot
    next found => exact listed (slot ▸ found)
    next =>
      refine List.foldlRecOn (motive := fun a : Option Nat => ∀ e, a = some e → e < 16) _ _ (by simp) (fun a ih b hb => ?_) e slot
      have lt : b < 16 := List.mem_range.mp (List.mem_filter.mp hb).1
      split
      · rintro _ ⟨⟩
        exact lt
      · split
        · rintro _ ⟨⟩
          exact lt
        · exact ih

theorem Pkg.GoesOn.rowCharge (k : p.GoesOn h q) (i line kind dev : Nat) : p.GoesOn h (q.rowCharge i line kind dev) := by
  have stat : tdmBase ≠ mcBase i + 0x18 := tdm_ne_mc i (by decide)
  have entry {e : Nat} (lt : e < 16) (o : Nat) (low : o < 0x20) : tdmBase ≠ mcCe i e + o := by
    have at' : mcCe i e + o = mcBase i + (0x1000 + 0x20 * e + o) := by unfold mcCe; omega
    rw [at']
    exact tdm_ne_mc i (by omega)
  unfold Pkg.rowCharge
  extract_lets +onlyGivenNames key sreg slot s1
  have k1 : p.GoesOn h s1 := k.record ..
  cases hs : slot with
  | none => exact k1.sat stat ..
  | some e =>
    have lt : e < 16 := Pkg.ceSlot_lt hs
    have head : tdmBase ≠ mcCe i e := entry lt 0 (by decide)
    have addr := entry lt 8 (by decide)
    have start := entry lt 0x10 (by decide)
    have last := entry lt 0x18 (by decide)
    dsimp -zeta only
    extract_lets +onlyGivenNames a fresh s2 now s3 s4 s5 s6 th marked told due charged s7
    have k2 : p.GoesOn h s2 := by
      unfold s2
      split
      · exact (((k1.wr head _).wr addr _).wr start _).wr last _
      · exact k1
    have k3 : p.GoesOn h s3 := by
      unfold s3
      split
      · exact (k2.wr start _).wf head ..
      · exact k2
    have k6 : p.GoesOn h s6 := ((((k3.sat head ..).wf head ..).wf head ..).wr addr _).wr last _
    have ktold : p.GoesOn h told := (k6.wb head 1 true).irqOf _
    have kdue : p.GoesOn h due := by
      unfold due
      split
      · exact ktold.pprDue ..
      · exact ktold
    have k7 : p.GoesOn h s7 := by
      unfold s7
      split
      · exact (kdue.record ..).odoEvent ..
      · exact k6
    exact k7.inc stat ..

theorem Pkg.GoesOn.mcUe (k : p.GoesOn h q) (i line : Nat) (trowel : Bool) : p.GoesOn h (q.mcUe i line trowel) :=
  (k.sat (tdm_ne_mc i (o := 0x18) (by decide)) ..).record ..

theorem Pkg.GoesOn.dramQueue (k : p.GoesOn h q) (line : Nat) (d : BitVec 512) (b : Bool) : p.GoesOn h (q.dramQueue line d b) :=
  k.beside rfl rfl rfl

/-! ### Lines that move (07 R167, R187, R188) -/

theorem Pkg.GoesOn.toStore (k : p.GoesOn h q) (line : Nat) (d : BitVec 512) (b : Bool) (u : Option Nat) : p.GoesOn h (q.toStore line d b u) := by
  unfold Pkg.toStore
  split
  · exact k.beside rfl rfl rfl
  · exact k.dramQueue ..

theorem Pkg.GoesOn.putL3 (k : p.GoesOn h q) (j : Nat) (l : CLine) : p.GoesOn h (q.putL3 j l) := k.beside rfl rfl rfl
theorem Pkg.GoesOn.putL2 (k : p.GoesOn h q) (j : Nat) (l : CLine) : p.GoesOn h (q.putL2 j l) := k.beside rfl rfl rfl
theorem Pkg.GoesOn.stReq (k : p.GoesOn h q) (b n : Nat) : p.GoesOn h (q.stReq b n) := k.beside rfl rfl rfl
theorem Pkg.GoesOn.stRd (k : p.GoesOn h q) (b n ns : Nat) : p.GoesOn h (q.stRd b n ns) := k.beside rfl rfl rfl

theorem Pkg.GoesOn.fillL3 (k : p.GoesOn h q) (line : Nat) (d : BitVec 512) (b dirty stream : Bool) : p.GoesOn h (q.fillL3 line d b dirty stream) := by
  unfold Pkg.fillL3
  extract_lets +onlyGivenNames st
  split
  · exact k.putL3 ..
  · extract_lets +onlyGivenNames cand
    split
    · split
      · exact k.toStore ..
      · exact k
    · extract_lets +onlyGivenNames v s1 s2 n
      have k1 : p.GoesOn h s1 := .ite (k.toStore ..) k
      have k2 : p.GoesOn h s2 := k1.beside rfl rfl rfl
      exact k2.putL3 ..

theorem Pkg.GoesOn.writeHome (k : p.GoesOn h q) (line : Nat) (d : BitVec 512) (b : Bool) (u : Option Nat) : p.GoesOn h (q.writeHome line d b u) := by
  unfold Pkg.writeHome
  extract_lets +onlyGivenNames n
  split
  · exact k.fillL3 ..
  · split
    · split
      · exact (k.putL3 ..).toStore ..
      · exact k.putL3 ..
    · exact k.toStore ..

theorem Pkg.GoesOn.writeThrough (k : p.GoesOn h q) (line : Nat) (d : BitVec 512) (b : Bool) (u : Option Nat) : p.GoesOn h (q.writeThrough line d b u) := by
  unfold Pkg.writeThrough
  split
  · exact (k.putL3 ..).toStore ..
  · exact k.toStore ..

theorem Pkg.GoesOn.seen (k : p.GoesOn h q) (line : Nat) : p.GoesOn h (q.seen line) := by
  unfold Pkg.seen
  extract_lets +onlyGivenNames i
  split
  · exact k
  · extract_lets +onlyGivenNames o s
    have kept : p.GoesOn h s := by
      unfold s
      split
      · extract_lets +onlyGivenNames r
        exact .ite ((k.rowCharge ..).dramQueue ..) (k.rowCharge ..)
      · exact k
    exact .ite (kept.mcUe ..) kept

theorem Pkg.GoesOn.dirtyPage (k : p.GoesOn h q) (line : Nat) : p.GoesOn h (q.dirtyPage line) := by
  unfold Pkg.dirtyPage
  dsimp only
  split
  · exact k.beside rfl rfl rfl
  · exact k

theorem Pkg.GoesOn.dirSync (k : p.GoesOn h q) (line : Nat) : p.GoesOn h (q.dirSync line) := by
  unfold Pkg.dirSync
  dsimp only
  split
  · exact k
  · split
    · exact k.beside rfl rfl rfl
    · exact k.beside rfl rfl rfl

theorem Pkg.GoesOn.dropL1 (k : p.GoesOn h q) (c line : Nat) (instr : Bool) : p.GoesOn h (q.dropL1 c line instr) := by
  unfold Pkg.dropL1
  extract_lets +onlyGivenNames s
  have kept : p.GoesOn h s := by
    unfold s
    split
    · exact k.beside rfl rfl rfl
    · exact k
  split
  · split
    · exact kept.beside rfl rfl rfl
    · exact kept
  · exact kept

/-- A change of a core that leaves its shared registers. -/
theorem Pkg.GoesOn.updCore_csr (k : p.GoesOn h q) (c : Nat) {f : Core → Core} (hf : (f (q.core c)).csr = (q.core c).csr) : p.GoesOn h (q.updCore c f) :=
  k.updCore c (fun e n _ => by subst e; rw [hf])

theorem Pkg.GoesOn.releaseMerge (k : p.GoesOn h q) (c line : Nat) (u : Option Nat) : p.GoesOn h (q.releaseMerge c line u) := by
  unfold Pkg.releaseMerge
  split
  · exact k
  next m _ =>
    extract_lets +onlyGivenNames s
    have kept : p.GoesOn h s := k.updCore_csr c rfl
    split
    · exact kept
    · split
      · split
        · exact ((kept.putL2 ..).writeThrough ..).stReq ..
        · exact kept.putL2 ..
      · split
        · exact (kept.writeThrough ..).stReq ..
        · exact (kept.writeHome ..).stReq ..

theorem Pkg.GoesOn.releaseTile (k : p.GoesOn h q) (t line : Nat) (u : Option Nat) : p.GoesOn h (q.releaseTile t line u) :=
  (k.releaseMerge ..).releaseMerge ..

theorem Pkg.GoesOn.purgeTile (k : p.GoesOn h q) (t line : Nat) : p.GoesOn h (q.purgeTile t line) := by
  unfold Pkg.purgeTile
  extract_lets +onlyGivenNames s1 s2 s3
  have k1 : p.GoesOn h s1 := (k.dropL1 ..).dropL1 ..
  have k2 : p.GoesOn h s2 := k1.updCore_csr _ rfl
  have k3 : p.GoesOn h s3 := k2.updCore_csr _ rfl
  split
  · exact k3.putL2 ..
  · exact k3

theorem Pkg.leaving_alone {s : Pkg} (alone : s.tdmState = 0) (t line : Nat) : s.leaving t line = s := by
  simp [Pkg.leaving, Pkg.paired_off alone]

theorem Pkg.GoesOn.evictL2 (k : p.GoesOn h q) (t line : Nat) (u : Option Nat) : p.GoesOn h (q.evictL2 t line u) := by
  unfold Pkg.evictL2
  extract_lets +onlyGivenNames s
  have k0 : p.GoesOn h s := k.releaseTile ..
  split
  · exact k0
  · extract_lets +onlyGivenNames l s1 s2 s3
    have k1 : p.GoesOn h s1 := by
      unfold s1
      rw [Pkg.leaving_alone k0.alone]
      exact k0.purgeTile ..
    have k2 : p.GoesOn h s2 := k1.writeHome ..
    have k3 : p.GoesOn h s3 := by
      unfold s3
      split
      · split
        · exact k2.stReq ..
        · exact k2
      · exact k1
    exact k3.dirSync _

theorem Pkg.GoesOn.dirRoom (k : p.GoesOn h q) (line : Nat) : p.GoesOn h (q.dirRoom line) := by
  unfold Pkg.dirRoom
  split
  · exact k
  · extract_lets +onlyGivenNames ks
    split
    · exact k
    · extract_lets +onlyGivenNames m
      split
      · exact k
      · extract_lets +onlyGivenNames v s
        have aged : p.GoesOn h s := k.beside rfl rfl rfl
        exact aged.foldl _ (fun _ k _ _ => k.evictL2 ..)

theorem Pkg.GoesOn.fillL2 (k : p.GoesOn h q) (t line : Nat) (st : Moesi) (d : BitVec 512) (b stream : Bool) (u : Option Nat) :
    p.GoesOn h (q.fillL2 t line st d b stream u) := by
  unfold Pkg.fillL2
  extract_lets +onlyGivenNames s
  have k0 : p.GoesOn h s := k.dirRoom line
  split
  · exact (k0.putL2 ..).dirSync _
  · extract_lets +onlyGivenNames ks cand
    split
    · exact k0
    · extract_lets +onlyGivenNames v s1 s2
      have k1 : p.GoesOn h s1 := k0.beside rfl rfl rfl
      have k2 : p.GoesOn h s2 := .ite k1 (k1.evictL2 ..)
      exact (k2.putL2 ..).dirSync _

theorem Pkg.GoesOn.fillL1d (k : p.GoesOn h q) (c line : Nat) (d : BitVec 512) (b stream : Bool) : p.GoesOn h (q.fillL1d c line d b stream) := by
  unfold Pkg.fillL1d
  extract_lets +onlyGivenNames cand
  split
  · exact k
  · split
    · exact k.beside rfl rfl rfl
    · split
      · exact k
      · split
        · exact k
        · exact k.beside rfl rfl rfl

theorem Pkg.GoesOn.purgeOthers (k : p.GoesOn h q) (t : Option Nat) (line : Nat) : p.GoesOn h (q.purgeOthers t line) :=
  (k.foldl _ (fun _ k _ _ => k.purgeTile ..)).dirSync _

theorem Pkg.GoesOn.mergeRoom (k : p.GoesOn h q) (c : Nat) : p.GoesOn h (q.mergeRoom c) := by
  unfold Pkg.mergeRoom
  split
  · exact k
  · split
    · exact k.releaseMerge ..
    · split
      · exact k
      · split
        · exact k.releaseMerge ..
        · exact k

theorem Pkg.GoesOn.giveUnique (k : p.GoesOn h q) (t line ai : Nat) (d : BitVec 512) (b stream : Bool) (c : Nat) :
    p.GoesOn h (q.giveUnique t line ai d b stream c) := by
  unfold Pkg.giveUnique
  extract_lets +onlyGivenNames dirty2 slice dirty keep s s1 s2
  have k0 : p.GoesOn h s := (k.purgeOthers ..).dirtyPage _
  have k1 : p.GoesOn h s1 := k0.writeThrough ..
  have k2 : p.GoesOn h s2 := by
    unfold s2
    cases slice with
    | some j => exact k0.putL3 ..
    | none => exact k0
  split
  · exact .ite (k1.fillL2 ..) k1
  · split
    · exact k2.fillL2 ..
    · exact .ite (k0.writeHome ..) k0

theorem Pkg.GoesOn.mergeIn (k : p.GoesOn h q) (c line ai : Nat) (d : BitVec 512) (b : Bool) (owe : Option Nat) : p.GoesOn h (q.mergeIn c line ai d b owe) := by
  unfold Pkg.mergeIn
  extract_lets +onlyGivenNames s
  have kept : p.GoesOn h s := by
    unfold s
    split
    · exact k
    · exact k.mergeRoom c
  exact kept.updCore_csr c rfl

theorem Pkg.GoesOn.sliceTake (k : p.GoesOn h q) (line : Nat) (stream : Bool) : p.GoesOn h (q.sliceTake line stream) := by
  unfold Pkg.sliceTake
  split
  · exact .ite ((k.seen line).fillL3 ..) (k.seen line)
  · split
    · exact k.putL3 ..
    · exact k

/-! ### Accesses done at once (02 R49, R50; 07 R192) -/

theorem Pkg.GoesOn.acquire (k : p.GoesOn h q) (c line ai : Nat) (stream : Bool) : p.GoesOn h (q.acquire c line ai stream) := by
  unfold Pkg.acquire
  extract_lets +onlyGivenNames st s1 s2 s3
  have k1 : p.GoesOn h s1 := .ite k ((k.stReq ..).stRd ..)
  have k3 : p.GoesOn h s3 := ((k1.sliceTake ..).releaseMerge ..).dropL1 ..
  exact .ite k ((k3.giveUnique ..).mergeIn ..)

theorem Pkg.GoesOn.monHit (k : p.GoesOn h q) (line : Nat) : p.GoesOn h (q.monHit line) := by
  refine k.foldl _ fun r k e _ => k.updThr e.1 fun _ => ?_
  have run : (r.thr h).st = .run := k.run
  simp only [run]
  exact ⟨run.symm, rfl, rfl, fun _ _ => rfl⟩

theorem Pkg.GoesOn.mergeWrite (k : p.GoesOn h q) (c line o n x : Nat) : p.GoesOn h (q.mergeWrite c line o n x) := by
  unfold Pkg.mergeWrite
  extract_lets +onlyGivenNames ai s1 s2 s3
  have k1 : p.GoesOn h s1 := k.updCore_csr c rfl
  have k2 : p.GoesOn h s2 := by
    unfold s2
    split
    · exact .ite k1 (k1.putL2 ..)
    · exact k1
  have k3 : p.GoesOn h s3 := by
    unfold s3
    split
    · exact k2.beside rfl rfl rfl
    · exact k2
  exact k3.monHit line

theorem Pkg.GoesOn.coreWrite (k : p.GoesOn h q) (c ai pa n x : Nat) (stream : Bool) : p.GoesOn h (q.coreWrite c ai pa n x stream) :=
  (k.acquire ..).mergeWrite ..

theorem Pkg.GoesOn.lookTile (k : p.GoesOn h q) (c line : Nat) (stream : Bool) : p.GoesOn h (q.lookTile c line stream).1 := by
  have released := k.releaseMerge (sibling c) line none
  unfold Pkg.lookTile
  split
  · exact k.beside rfl rfl rfl
  · split
    · exact k.fillL1d ..
    · dsimp only
      split
      · exact (released.putL2 ..).fillL1d ..
      · exact released

theorem Pkg.GoesOn.giveShared (k : p.GoesOn h q) (t line ai : Nat) (d : BitVec 512) (b stream : Bool) (c : Nat) :
    p.GoesOn h (q.giveShared t line ai d b stream c) := by
  have dirtied := k.dirtyPage line
  unfold Pkg.giveShared
  extract_lets +onlyGivenNames others slice
  split
  · exact k
  · split
    · exact k.fillL2 ..
    · cases slice with
      | some j => exact .ite ((dirtied.writeThrough ..).fillL2 ..) ((dirtied.putL3 ..).fillL2 ..)
      | none => exact dirtied.fillL2 ..

theorem Pkg.GoesOn.shareDown (k : p.GoesOn h q) (line t : Nat) : p.GoesOn h (q.shareDown line t) := by
  unfold Pkg.shareDown
  extract_lets +onlyGivenNames s
  have kept : p.GoesOn h s := k.releaseTile ..
  split
  · exact (kept.putL2 ..).dirSync _
  · exact kept

theorem Pkg.GoesOn.coreRead (k : p.GoesOn h q) (c ai pa n : Nat) (stream : Bool) : p.GoesOn h (q.coreRead c ai pa n stream).1 := by
  unfold Pkg.coreRead
  extract_lets +onlyGivenNames line
  have looked := k.lookTile c line stream
  split
  next s d b e =>
    rw [e] at looked
    exact looked
  next s e =>
    rw [e] at looked
    extract_lets +onlyGivenNames hs s1
    have shared : p.GoesOn h s1 := looked.foldl _ (fun _ k _ _ => k.shareDown ..)
    exact ((((shared.stReq ..).stRd ..).sliceTake ..).giveShared ..).fillL1d ..

theorem Pkg.GoesOn.homeTake (k : p.GoesOn h q) (pa n : Nat) : p.GoesOn h (q.homeTake pa n).1 := by
  have taken := k.seen (pa / 64)
  unfold Pkg.homeTake
  dsimp only
  split
  · exact taken.putL3 ..
  · exact taken

theorem Pkg.GoesOn.setTrk (k : p.GoesOn h q) (n : Nat) (l : List Tracker) : p.GoesOn h (q.setTrk n l) := k.beside rfl rfl rfl

theorem Pkg.GoesOn.homeWriteMasked (k : p.GoesOn h q) (line : Nat) (be : BitVec 64) (x : BitVec 512) : p.GoesOn h (q.homeWriteMasked line be x) := by
  unfold Pkg.homeWriteMasked
  extract_lets +onlyGivenNames m put whole
  split
  extract_lets +onlyGivenNames s1 nd np s2 s3 n s4
  have k1 : p.GoesOn h s1 := .ite k (k.seen line)
  have k2 : p.GoesOn h s2 := k1.purgeOthers ..
  have k3 : p.GoesOn h s3 := by
    unfold s3
    split
    · exact .ite ((k2.putL3 ..).toStore ..) (k2.putL3 ..)
    · exact k2.toStore ..
  have k4 : p.GoesOn h s4 := by
    unfold s4
    split
    · exact k3.setTrk ..
    · exact k3
  exact (k4.dirtyPage line).monHit line

end
end Sys2Proof.Machine
end

section
/-! ## Long instructions (03_instruction_set R99 to R101) -/
namespace Sys2Proof.Machine

section
variable {p q : Pkg} {h : Nat}

/-! ### Reads and writes of a granule (R481) -/

theorem Pkg.GoesOn.askBuf (k : p.GoesOn h q) (j : Nat) (kind : AccKind) (va : Word) (l : List Part) : p.GoesOn h (q.askBuf j kind va l) := by
  unfold Pkg.askBuf
  extract_lets +onlyGivenNames t l s
  have kept : p.GoesOn h s := k.updThr j fun _ => ⟨rfl, rfl, rfl, fun _ _ => rfl⟩
  split
  · exact k
  · refine kept.foldl _ fun r k e _ => ?_
    have counted := k.stReq (stCore (j / 8)) 0
    split
    · exact counted.beside rfl rfl rfl
    · exact counted.beside rfl rfl rfl

theorem Pkg.GoesOn.bufAsk (k : p.GoesOn h q) (j : Nat) (kind : AccKind) (va : Word) (l : List Part) : p.GoesOn h (q.bufAsk j kind va l).1 := by
  unfold Pkg.bufAsk
  split
  · exact k
  · split
    · exact k.beside rfl rfl rfl
    · exact k.askBuf ..

theorem Pkg.GoesOn.takeGlobal (k : p.GoesOn h q) (j : Nat) (kind : AccKind) (va : Word) (pa n : Nat) (stream : Bool) :
    p.GoesOn h (q.takeGlobal j kind va pa n stream).1 := by
  unfold Pkg.takeGlobal
  extract_lets +onlyGivenNames c line
  have asked := k.bufAsk j kind va [⟨64 * line, 6, 64, none⟩]
  split
  · exact k.coreRead ..
  · split
    next s x e =>
      rw [e] at asked
      dsimp only
      split
      · exact (asked.fillL3 ..).giveShared ..
      · exact asked.giveShared ..
    next s e =>
      rw [e] at asked
      exact asked

theorem Pkg.GoesOn.chunkWrite (k : p.GoesOn h q) (j line : Nat) : p.GoesOn h (q.chunkWrite j line) := by
  rw [Pkg.chunkWrite_alone (Pkg.paired_off k.alone)]
  exact k

theorem Pkg.GoesOn.output_dev (k : p.GoesOn h q) (cls : Nat) (u : Option Nat) (d : DevReq) : p.GoesOn h (q.output cls u (.dev d)) := by
  unfold Pkg.output
  rw [Pkg.paired_off k.alone, Pkg.replaying_off k.alone, if_neg (by decide), if_neg (by decide)]
  split
  · exact k.beside rfl rfl rfl
  · exact k.beside rfl rfl rfl

theorem Pkg.GoesOn.emitDev (k : p.GoesOn h q) (j : Nat) (d : DevReq) : p.GoesOn h (q.emitDev j d) := k.output_dev ..

theorem Pkg.GoesOn.sendGlobal (k : p.GoesOn h q) (kind : GKind) (pa n data op : Nat) (who : GFor) : p.GoesOn h (q.sendGlobal kind pa n data op who) :=
  k.beside rfl rfl rfl

theorem Pkg.GoesOn.granRead (k : p.GoesOn h q) (j : Nat) (x : Piece) : p.GoesOn h (q.granRead j x).1 := by
  have taken := k.takeGlobal j .load x.va x.pa x.n true
  unfold Pkg.granRead
  split
  · exact k.coreRead ..
  · split
    · split
      next e =>
        rw [e] at taken
        exact taken
      next e =>
        rw [e] at taken
        exact taken
    · split
      · exact k.homeTake x.pa x.n
      · split
        · exact k
        · exact k.beside rfl rfl rfl

theorem Pkg.GoesOn.granWrite (k : p.GoesOn h q) (j : Nat) (x : Piece) (v : Nat) : p.GoesOn h (q.granWrite j x v) := by
  unfold Pkg.granWrite
  split
  · dsimp only
    split
    · exact k.coreWrite ..
    · exact (k.takeGlobal ..).coreWrite ..
  · split
    · exact (k.chunkWrite ..).coreWrite ..
    · split
      · exact (k.stReq ..).sendGlobal ..
      · split
        · exact (k.chunkWrite ..).homeWriteMasked ..
        · exact k.emitDev ..

theorem Pkg.GoesOn.granLoads (k : p.GoesOn h q) (j : Nat) (sides : List Side) : p.GoesOn h (q.granLoads j sides).1 := by
  unfold Pkg.granLoads
  refine List.foldlRecOn (motive := fun a : Pkg × List (Side × List (BitVec 8)) => p.GoesOn h a.1) _ _ k fun a k x _ => ?_
  split
  · exact k.granRead ..
  · exact k

theorem Pkg.GoesOn.granWrites (k : p.GoesOn h q) (j : Nat) (sides : List Side) (x : Side → Nat) :
    p.GoesOn h (sides.foldl (fun s e => s.granWrite j e.p (x e)) q) :=
  k.foldl _ (fun _ k _ _ => k.granWrite ..)

theorem Pkg.GoesOn.wcFlush (k : p.GoesOn h q) (c : Nat) (f : WcBuf → Bool) : p.GoesOn h (q.wcFlush c f) := by
  unfold Pkg.wcFlush
  extract_lets +onlyGivenNames bs
  split
  · refine Pkg.GoesOn.updCore_csr (k.foldl _ fun r k b _ => ?_) _ rfl
    unfold Pkg.wcSend
    extract_lets +onlyGivenNames hs s
    have sent : p.GoesOn h s := .ite k (k.stReq ..)
    exact sent.beside rfl rfl rfl
  · exact k

/-! ### The registers of a granule (R99, R100) -/

/-- What the encoding of a long instruction says of its registers (R99). -/
structure BlockRegs (fn rd ra rb rc : BitVec 5) : Prop where
  kind : fn = 0#5 ∨ fn = 1#5 ∨ fn = 2#5 ∨ fn = 3#5
  first_pos : ra.toNat ≠ 0
  count_pos : rc.toNat ≠ 0
  first_count : ra.toNat ≠ rc.toNat
  second_first : rb.toNat ≠ ra.toNat
  second_count : rb.toNat ≠ rc.toNat
  dest_first : rd.toNat ≠ ra.toNat
  dest_second : rd.toNat ≠ rb.toNat
  dest_count : rd.toNat ≠ rc.toNat
  second_pos : fn ≠ 3#5 → rb.toNat ≠ 0
  dest_pos : fn = 2#5 ∨ fn = 3#5 → rd.toNat ≠ 0

theorem blockRegs_of_legal {fn rd ra rb rc : BitVec 5} (legal : (Ins.block fn rd ra rb rc).legal = true) : BlockRegs fn rd ra rb rc := by
  have pos {r : BitVec 5} (k : (r != 0#5) = true) : r.toNat ≠ 0 := fun e => by simp [BitVec.eq_of_toNat_eq (y := 0#5) e] at k
  have zero {r : BitVec 5} (k : (r == 0#5) = true) : r.toNat = 0 := by rw [beq_iff_eq.mp k]; rfl
  have apart {r q : BitVec 5} (k : (r != q) = true) : r.toNat ≠ q.toNat := fun e => by simp [BitVec.eq_of_toNat_eq e] at k
  have named (n : Nat) (lt : n < 4) (e : fn.toNat = n) : fn = BitVec.ofNat 5 n :=
    BitVec.eq_of_toNat_eq (by rw [e, BitVec.toNat_ofNat, Nat.mod_eq_of_lt (by omega)])
  simp only [Ins.legal] at legal
  split at legal
  · next e =>
    rw [named 0 (by decide) e]
    simp only [Bool.and_eq_true] at legal
    obtain ⟨⟨⟨⟨⟨⟨d0, a0⟩, b0⟩, c0⟩, ab⟩, ac⟩, bc⟩ := legal
    refine ⟨.inl rfl, pos a0, pos c0, apart ac, (apart ab).symm, apart bc, ?_, ?_, ?_, fun _ => pos b0, by simp⟩
    all_goals rw [zero d0]
    exacts [(pos a0).symm, (pos b0).symm, (pos c0).symm]
  · next e =>
    rw [named 1 (by decide) e]
    simp only [Bool.and_eq_true] at legal
    obtain ⟨⟨⟨⟨⟨⟨d0, a0⟩, b0⟩, c0⟩, ab⟩, ac⟩, bc⟩ := legal
    refine ⟨.inr (.inl rfl), pos a0, pos c0, apart ac, (apart ab).symm, apart bc, ?_, ?_, ?_, fun _ => pos b0, by simp⟩
    all_goals rw [zero d0]
    exacts [(pos a0).symm, (pos b0).symm, (pos c0).symm]
  · next e =>
    rw [named 2 (by decide) e]
    simp only [Bool.and_eq_true] at legal
    obtain ⟨⟨⟨⟨⟨⟨⟨⟨⟨d0, a0⟩, b0⟩, c0⟩, ab⟩, ac⟩, bc⟩, da⟩, db⟩, dc⟩ := legal
    exact ⟨.inr (.inr (.inl rfl)), pos a0, pos c0, apart ac, (apart ab).symm, apart bc, apart da, apart db, apart dc, fun _ => pos b0, fun _ => pos d0⟩
  · next e =>
    rw [named 3 (by decide) e]
    simp only [Bool.and_eq_true] at legal
    obtain ⟨⟨⟨⟨⟨⟨b0, d0⟩, a0⟩, c0⟩, ac⟩, da⟩, dc⟩ := legal
    refine ⟨.inr (.inr (.inr rfl)), pos a0, pos c0, apart ac, ?_, ?_, apart da, ?_, apart dc, by simp, fun _ => pos d0⟩
    all_goals rw [zero b0]
    exacts [(pos a0).symm, (pos c0).symm, pos d0]
  · cases legal

/-- The pointers and the count after k bytes from those of a thread. -/
def Thread.advance (t from' : Thread) (ra rb rc k : Nat) (both : Bool) : Thread :=
  let t := (t.wg ra (from'.rg ra + BitVec.ofNat 64 k)).wg rc (from'.rg rc - BitVec.ofNat 64 k)
  if both then t.wg rb (t.rg rb + BitVec.ofNat 64 k) else t

/-- The thread with nothing more of what its granule has had read. -/
def Thread.emptied (t : Thread) : Thread := { t with ebuf := [] }

/-- The G registers of u are those of t after k bytes, with x in the destination d. -/
structure Thread.Advanced (t u : Thread) (d a b c k : Nat) (both : Bool) (x : Word) : Prop where
  first : u.rg a = t.rg a + BitVec.ofNat 64 k
  count : u.rg c = t.rg c - BitVec.ofNat 64 k
  second : u.rg b = if both then t.rg b + BitVec.ofNat 64 k else t.rg b
  dest : u.rg d = x
  other : ∀ r, r ≠ d → r ≠ a → r ≠ b → r ≠ c → u.rg r = t.rg r

theorem Thread.rg_of_g {t u : Thread} (e : u.g = t.g) (r : Nat) : u.rg r = t.rg r := by
  unfold Thread.rg
  rw [e]

section
variable {fn rd ra rb rc : BitVec 5} {t u : Thread} {d a b c k : Nat} {both : Bool} {x : Word}

theorem Thread.Advanced.of_g (m : t.Advanced u d a b c k both x) {v : Thread} (e : v.g = u.g) : t.Advanced v d a b c k both x := by
  have g := Thread.rg_of_g e
  exact ⟨(g _).trans m.first, (g _).trans m.count, (g _).trans m.second, (g _).trans m.dest, fun r d a b c => (g r).trans (m.other r d a b c)⟩

theorem Thread.advance_rg (t u : Thread) (first : a ≠ 0) (count : c ≠ 0) (second : both = true → b ≠ 0) (ba : b ≠ a) (bc : b ≠ c) (r : Nat) :
    (t.advance u a b c k both).rg r = if both = true ∧ r = b then t.rg b + BitVec.ofNat 64 k
      else if r = c then u.rg c - BitVec.ofNat 64 k else if r = a then u.rg a + BitVec.ofNat 64 k else t.rg r := by
  have moved (r : Nat) : ((t.wg a (u.rg a + BitVec.ofNat 64 k)).wg c (u.rg c - BitVec.ofNat 64 k)).rg r
      = if r = c then u.rg c - BitVec.ofNat 64 k else if r = a then u.rg a + BitVec.ofNat 64 k else t.rg r := by
    rw [Thread.rg_wg, Thread.rg_wg]
    by_cases zero : r = 0
    · subst zero
      rw [if_pos rfl, if_neg count.symm, if_neg first.symm, Thread.rg_zero]
    · rw [if_neg zero, if_neg zero]
  unfold Thread.advance
  cases both with
  | false => simpa using moved r
  | true =>
    rw [if_pos rfl, Thread.rg_wg, moved b, if_neg bc, if_neg ba, moved r]
    by_cases e : r = b
    · rw [if_neg (e ▸ second rfl), if_pos e, if_pos ⟨rfl, e⟩]
    · rw [if_neg e, if_neg (c := true = true ∧ r = b) (fun k => e k.2)]
      split
      next zero => rw [zero, if_neg count.symm, if_neg first.symm, Thread.rg_zero]
      · rfl

theorem Thread.advance_advanced (regs : BlockRegs fn rd ra rb rc) (same : t.g = u.g) (k : Nat) (two : both = true → fn ≠ 3#5) :
    u.Advanced (t.advance u ra.toNat rb.toNat rc.toNat k both) rd.toNat ra.toNat rb.toNat rc.toNat k both (u.rg rd.toNat) := by
  have moved := t.advance_rg u (k := k) regs.first_pos regs.count_pos (fun k => regs.second_pos (two k)) regs.second_first regs.second_count
  simp only [Thread.rg_of_g same] at moved
  refine ⟨?_, ?_, ?_, ?_, fun r d a b c => ?_⟩ <;> rw [moved]
  · rw [if_neg (fun e => regs.second_first e.2.symm), if_neg regs.first_count, if_pos rfl]
  · rw [if_neg (fun e => regs.second_count e.2.symm), if_pos rfl]
  · cases both with
    | true => rw [if_pos ⟨rfl, rfl⟩, if_pos rfl]
    | false => rw [if_neg (by simp), if_neg regs.second_count, if_neg regs.second_first, if_neg (by simp)]
  · rw [if_neg (fun e => regs.dest_second e.2), if_neg regs.dest_count, if_neg regs.dest_first]
  · rw [if_neg (fun e => b e.2), if_neg c, if_neg a]

theorem Thread.advance_kept (t u : Thread) (a b c k : Nat) (both : Bool) : (t.advance u a b c k both).sr = t.sr ∧ (t.advance u a b c k both).pc = t.pc := by
  unfold Thread.advance
  cases both <;> simp

theorem Thread.Advanced.emptied (m : t.Advanced u d a b c k both x) : t.Advanced u.emptied d a b c k both x := m.of_g rfl

/-- The destination is written. -/
theorem Thread.Advanced.wg (m : t.Advanced u rd.toNat ra.toNat rb.toNat rc.toNat k both x) (regs : BlockRegs fn rd ra rb rc)
    (result : fn = 2#5 ∨ fn = 3#5) (v : Word) : t.Advanced (u.wg rd.toNat v) rd.toNat ra.toNat rb.toNat rc.toNat k both v := by
  have kept (r : Nat) (other : r ≠ rd.toNat) : (u.wg rd.toNat v).rg r = u.rg r := by
    rw [Thread.rg_wg, if_neg other]
    split
    next zero => rw [zero, Thread.rg_zero]
    · rfl
  exact ⟨(kept _ regs.dest_first.symm).trans m.first, (kept _ regs.dest_count.symm).trans m.count, (kept _ regs.dest_second.symm).trans m.second,
    Thread.rg_wg_same _ _ _ (regs.dest_pos result), fun r d a b c => (kept r d).trans (m.other r d a b c)⟩

end

/-! ### The end of a granule -/

/-- The registers of a granule are written: its instruction completes, or goes on from where it is. -/
def Pkg.granNext (s : Pkg) (h : Nat) (cnt : Word) (cause k : Nat) (f : Thread → Thread) : Pkg :=
  let s := (s.updThr h f).pmu h 0x20
  if cnt.toNat = k then (s.retire h).stepEnd h cause
  else ((s.updThr h (fun t => t.setPs (setBits t.ps 4 3 1))).chunkStep h).stepEnd h cause

theorem Thread.rs_of_sr {t u : Thread} (e : u.sr = t.sr) (n : Nat) : u.rs n = t.rs n := by
  unfold Thread.rs
  rw [e]

theorem Pkg.granNext_thr {s : Pkg} (alone : s.tdmState = 0) (counts : s.Uncounted h) {f : Thread → Thread} (sr : (f (s.thr h)).sr = (s.thr h).sr)
    (cnt : Word) (cause k : Nat) : (s.granNext h cnt cause k f).thr h
      = if cnt.toNat = k then (f (s.thr h)).stepped else (f (s.thr h)).setPs (setBits (f (s.thr h)).ps 4 3 1) := by
  have counts' : (s.updThr h f).Uncounted h := counts.updThr fun i _ => Thread.rs_of_sr sr _
  have alone' : (s.updThr h f).tdmState = 0 := by rw [Pkg.tdmState_updThr, alone]
  have alone2 (f2 : Thread → Thread) : ((s.updThr h f).updThr h f2).tdmState = 0 := by rw [Pkg.tdmState_updThr, alone']
  unfold Pkg.granNext
  rw [Pkg.pmu_uncounted counts']
  dsimp only
  split
  · rw [Pkg.retireEnd_alone alone' counts', Pkg.thr_updThr_same, Pkg.thr_updThr_same]
  · have going : (((s.updThr h f).updThr h (fun t => t.setPs (setBits t.ps 4 3 1))).chunkStep h).stepEnd h cause
        = (s.updThr h f).updThr h (fun t => t.setPs (setBits t.ps 4 3 1)) := by
      rw [Pkg.chunkStep_alone (alone2 _), Pkg.stepEnd_alone (Pkg.paired_off (alone2 _))]
    rw [going, Pkg.thr_updThr_same, Pkg.thr_updThr_same]

theorem Pkg.granChunks_alone {s : Pkg} (alone : s.tdmState = 0) (l : List Side) :
    l.foldl (fun s e => if e.p.ai ≤ 1 then s.chunkRead h (e.p.pa / 64) else s) s = s :=
  foldl_same _ _ _ fun e _ => by rw [Pkg.chunkRead_alone (Pkg.paired_off alone), ite_self]

/-- The length of a thread's next granule. -/
def Thread.granBytes (t : Thread) (ra rc : Reg) : Nat := granLen (t.rg ra.toNat) (t.rg rc.toNat)

/-- The bytes of the first side and those of the second. -/
def firstBytes (l : List (Side × List (BitVec 8))) : List (BitVec 8) := (l.take 1).flatMap (·.2)
def secondBytes (l : List (Side × List (BitVec 8))) : List (BitVec 8) := (l.drop 1).flatMap (·.2)

/-- Where the bytes of the two sides differ first. -/
def firstDifference (l : List (Side × List (BitVec 8))) : Option Nat := ((firstBytes l).zip (secondBytes l)).findIdx? (fun e => e.1 != e.2)

/-- CMPB's result at a difference k bytes in. -/
def differenceResult (l : List (Side × List (BitVec 8))) (k : Nat) : Word :=
  if ((firstBytes l).getD k 0#8).toNat < ((secondBytes l).getD k 0#8).toNat then BitVec.allOnes 64 else 1#64

section
variable {s : Pkg} {sides : List Side} {rd ra rb rc : Reg}

/-- MOVB and FILLB. -/
theorem Pkg.granPerform_writes (run : (s.thr h).st = .run) (alone : s.tdmState = 0) {fn : BitVec 5} (writes : fn = 0#5 ∨ fn = 1#5) :
    ∃ q, s.GoesOn h q ∧ s.granPerform h (.block fn rd ra rb rc) sides
      = q.granNext h ((s.thr h).rg rc.toNat) (granCause sides) ((s.thr h).granBytes ra rc)
        (fun t => (t.advance (s.thr h) ra.toNat rb.toNat rc.toNat ((s.thr h).granBytes ra rc) (fn == 0#5)).emptied) := by
  have loaded := (Pkg.GoesOn.refl run alone).granLoads h sides
  rcases writes with rfl | rfl
  · refine ⟨_, ?_, by simp only [Pkg.granPerform, Pkg.granChunks_alone alone]; rfl⟩
    exact loaded.granWrites h (sides.take 1) _
  · refine ⟨_, ?_, by simp only [Pkg.granPerform, Pkg.granChunks_alone alone]; rfl⟩
    exact loaded.granWrites h (sides.take 1) _

/-- CMPB whose bytes agree. -/
theorem Pkg.granPerform_agrees (alone : s.tdmState = 0) (agree : firstDifference (s.granLoads h sides).2 = none) :
    s.granPerform h (.block 2#5 rd ra rb rc) sides
      = (s.granLoads h sides).1.granNext h ((s.thr h).rg rc.toNat) (granCause sides) ((s.thr h).granBytes ra rc)
        (fun t => if ((s.thr h).rg rc.toNat).toNat = (s.thr h).granBytes ra rc
          then (t.advance (s.thr h) ra.toNat rb.toNat rc.toNat ((s.thr h).granBytes ra rc) true).emptied.wg rd.toNat 0#64
          else (t.advance (s.thr h) ra.toNat rb.toNat rc.toNat ((s.thr h).granBytes ra rc) true).emptied) := by
  simp only [Pkg.granPerform, Pkg.granChunks_alone alone]
  change (match firstDifference (s.granLoads h sides).2 with | some _ => _ | none => _) = _
  rw [agree]
  rfl

/-- CMPB at its first difference. -/
theorem Pkg.granPerform_differs (alone : s.tdmState = 0) {k : Nat} (differ : firstDifference (s.granLoads h sides).2 = some k) :
    s.granPerform h (.block 2#5 rd ra rb rc) sides
      = ((((s.granLoads h sides).1.updThr h (fun t => (t.advance (s.thr h) ra.toNat rb.toNat rc.toNat k true).wg rd.toNat
          (differenceResult (s.granLoads h sides).2 k))).pmu h 0x20).retire h).stepEnd h (granCause sides) := by
  simp only [Pkg.granPerform, Pkg.granChunks_alone alone]
  change (match firstDifference (s.granLoads h sides).2 with | some _ => _ | none => _) = _
  rw [differ]
  rfl

/-- CRCB. -/
theorem Pkg.granPerform_crc (alone : s.tdmState = 0) : s.granPerform h (.block 3#5 rd ra rb rc) sides
    = (s.granLoads h sides).1.granNext h ((s.thr h).rg rc.toNat) (granCause sides) ((s.thr h).granBytes ra rc)
      (fun t => (t.advance (s.thr h) ra.toNat rb.toNat rc.toNat ((s.thr h).granBytes ra rc) false).emptied.wg rd.toNat
        ((((s.granLoads h sides).2.flatMap (·.2)).foldl crcByte (((s.thr h).rg rd.toNat).setWidth 32)).setWidth 64)) := by
  simp only [Pkg.granPerform, Pkg.granChunks_alone alone]
  rfl

/-- What a granule of k bytes leaves of its thread: the registers, and PC and PS as its instruction is done or goes on. -/
structure Thread.Granule (t u : Thread) (d a b c k : Nat) (both : Bool) (x : Word) (done : Bool) : Prop where
  regs : t.Advanced u d a b c k both x
  pc : u.pc = if done then t.pc + 4#64 else t.pc
  ps : u.ps = if done then setBits t.ps 4 3 0 else setBits t.ps 4 3 1

theorem Pkg.GoesOn.uncounted {p q : Pkg} (k : p.GoesOn h q) (counts : p.Uncounted h) : q.Uncounted h := by
  have selector (n i : Nat) (sel : n = 0x508 ∨ n = 0x528) (lt : i < 8) : ¬ pmuCounter (n + i) := by unfold pmuCounter; omega
  refine ⟨fun i lt => ?_, fun i lt => ?_⟩
  · rw [k.thr.rs _ (selector _ i (.inl rfl) lt)]
    exact counts.1 i lt
  · rw [k.csr _ (selector _ i (.inr rfl) lt)]
    exact counts.2 i lt

theorem Thread.GoesOn.ps {t u : Thread} (k : t.GoesOn u) : u.ps = t.ps := k.rs 0x100 (by unfold pmuCounter; omega)

theorem Thread.Granule.of_moved {t v w : Thread} {d a b c k : Nat} {both : Bool} {x : Word} {done : Prop} [Decidable done] (on : t.GoesOn v)
    (sr : w.sr = v.sr) (pc : w.pc = v.pc) (moved : t.Advanced w d a b c k both x) :
    t.Granule (if done then w.stepped else w.setPs (setBits w.ps 4 3 1)) d a b c k both x (decide done) := by
  have ps : w.ps = t.ps := (Thread.rs_of_sr sr 0x100).trans on.ps
  split
  next yes =>
    rw [decide_eq_true yes]
    refine ⟨moved.of_g rfl, ?_, ?_⟩
    · rw [if_pos rfl, ← on.pc, ← pc]
      rfl
    · rw [if_pos rfl, ← ps]
      exact Thread.ps_setPs w _
  next no =>
    rw [decide_eq_false no]
    refine ⟨moved.of_g rfl, ?_, ?_⟩
    · rw [if_neg (by simp), ← on.pc, ← pc]
      rfl
    · rw [if_neg (by simp), Thread.ps_setPs, ps]

theorem Pkg.granNext_granule {s q : Pkg} {h : Nat} (on : s.GoesOn h q) (counts : s.Uncounted h) {f : Thread → Thread}
    (keeps : (f (q.thr h)).sr = (q.thr h).sr ∧ (f (q.thr h)).pc = (q.thr h).pc) {d a b c n : Nat} {both : Bool} {x : Word}
    (moved : (s.thr h).Advanced (f (q.thr h)) d a b c n both x) (cnt : Word) (cause k : Nat) :
    (s.thr h).Granule ((q.granNext h cnt cause k f).thr h) d a b c n both x (decide (cnt.toNat = k)) := by
  rw [Pkg.granNext_thr on.alone (on.uncounted counts) keeps.1]
  exact .of_moved on.thr keeps.1 keeps.2 moved

/-- The destination's value after a granule that meets no difference. -/
def granResult (t : Thread) (fn rd ra rc : BitVec 5) (vals : List (Side × List (BitVec 8))) : Word :=
  if fn = 3#5 then ((vals.flatMap (·.2)).foldl crcByte ((t.rg rd.toNat).setWidth 32)).setWidth 64
  else if fn = 2#5 ∧ (t.rg rc.toNat).toNat = t.granBytes ra rc then 0#64
  else t.rg rd.toNat

section
variable {fn : BitVec 5} (run : (s.thr h).st = .run) (alone : s.tdmState = 0) (counts : s.Uncounted h) (regs : BlockRegs fn rd ra rb rc)
include run alone counts regs

/-- A granule that meets no difference. -/
theorem Pkg.granPerform_goes (agree : fn ≠ 2#5 ∨ firstDifference (s.granLoads h sides).2 = none) :
    (s.thr h).Granule ((s.granPerform h (.block fn rd ra rb rc) sides).thr h) rd.toNat ra.toNat rb.toNat rc.toNat ((s.thr h).granBytes ra rc)
      (fn == 0#5 || fn == 2#5) (granResult (s.thr h) fn rd ra rc (s.granLoads h sides).2)
      (decide (((s.thr h).rg rc.toNat).toNat = (s.thr h).granBytes ra rc)) := by
  have loaded := (Pkg.GoesOn.refl run alone).granLoads h sides
  have kept (t : Thread) (k : Nat) (both : Bool) := t.advance_kept (s.thr h) ra.toNat rb.toNat rc.toNat k both
  have advanced {t : Thread} (same : t.g = (s.thr h).g) (k : Nat) {both : Bool} (two : both = true → fn ≠ 3#5) := Thread.advance_advanced regs same k two
  obtain rfl | rfl | rfl | rfl := regs.kind
  · obtain ⟨q, on, e⟩ := Pkg.granPerform_writes (rd := rd) (ra := ra) (rb := rb) (rc := rc) (sides := sides) run alone (.inl rfl)
    rw [e]
    exact Pkg.granNext_granule on counts (kept ..) (advanced on.thr.g _ (by simp)).emptied ..
  · obtain ⟨q, on, e⟩ := Pkg.granPerform_writes (rd := rd) (ra := ra) (rb := rb) (rc := rc) (sides := sides) run alone (.inr rfl)
    rw [e]
    exact Pkg.granNext_granule on counts (kept ..) (advanced on.thr.g _ (by simp)).emptied ..
  · have moved := advanced loaded.thr.g ((s.thr h).granBytes ra rc) (both := true) (by simp)
    rw [Pkg.granPerform_agrees alone (agree.resolve_left (by simp))]
    by_cases last : ((s.thr h).rg rc.toNat).toNat = (s.thr h).granBytes ra rc
    · have result : granResult (s.thr h) 2#5 rd ra rc (s.granLoads h sides).2 = 0#64 := by simp [granResult, last]
      simp only [if_pos last]
      rw [result]
      refine Pkg.granNext_granule loaded counts ⟨?_, ?_⟩ (moved.emptied.wg regs (.inl rfl) _) ..
      · rw [Thread.wg_sr]
        exact (kept ..).1
      · rw [Thread.wg_pc]
        exact (kept ..).2
    · have result : granResult (s.thr h) 2#5 rd ra rc (s.granLoads h sides).2 = (s.thr h).rg rd.toNat := by simp [granResult, last]
      simp only [if_neg last]
      rw [result]
      exact Pkg.granNext_granule loaded counts (kept ..) moved.emptied ..
  · have moved := advanced loaded.thr.g ((s.thr h).granBytes ra rc) (both := false) (by simp)
    rw [Pkg.granPerform_crc alone]
    refine Pkg.granNext_granule loaded counts ⟨?_, ?_⟩ (moved.emptied.wg regs (.inr rfl) _) ..
    · rw [Thread.wg_sr]
      exact (kept ..).1
    · rw [Thread.wg_pc]
      exact (kept ..).2

/-- CMPB at its first difference. -/
theorem Pkg.granPerform_stops (compare : fn = 2#5) {k : Nat} (differ : firstDifference (s.granLoads h sides).2 = some k) :
    (s.thr h).Granule ((s.granPerform h (.block fn rd ra rb rc) sides).thr h) rd.toNat ra.toNat rb.toNat rc.toNat k true
      (differenceResult (s.granLoads h sides).2 k) true := by
  have loaded := (Pkg.GoesOn.refl run alone).granLoads h sides
  have kept (t : Thread) := t.advance_kept (s.thr h) ra.toNat rb.toNat rc.toNat k true
  subst compare
  rw [Pkg.granPerform_differs alone differ]
  generalize differenceResult (s.granLoads h sides).2 k = x
  have sr : (((s.granLoads h sides).1.thr h).advance (s.thr h) ra.toNat rb.toNat rc.toNat k true |>.wg rd.toNat x).sr = ((s.granLoads h sides).1.thr h).sr := by
    rw [Thread.wg_sr, (kept _).1]
  have pc : (((s.granLoads h sides).1.thr h).advance (s.thr h) ra.toNat rb.toNat rc.toNat k true |>.wg rd.toNat x).pc = ((s.granLoads h sides).1.thr h).pc := by
    rw [Thread.wg_pc, (kept _).2]
  have counts' := (loaded.uncounted counts).updThr (f := fun t => (t.advance (s.thr h) ra.toNat rb.toNat rc.toNat k true).wg rd.toNat x)
    fun i _ => Thread.rs_of_sr sr _
  have moved := (Thread.advance_advanced regs loaded.thr.g k (both := true) (by simp)).wg regs (.inl rfl) x
  have granule := Thread.Granule.of_moved (done := True) loaded.thr sr pc moved
  rw [if_pos trivial, decide_true] at granule
  rw [Pkg.pmu_uncounted counts', Pkg.retireEnd_alone (by rw [Pkg.tdmState_updThr, loaded.alone]) counts', Pkg.thr_updThr_same, Pkg.thr_updThr_same]
  exact granule

end
end

end
end Sys2Proof.Machine
end

section
/-! ## The start and the granules of a long instruction (03_instruction_set R99 to R101) -/
namespace Sys2Proof.Machine

section
variable {s : Pkg} {h : Nat}

/-! ### The checks that a granule's sides have passed -/

/-- Every side is translated, and nothing is drawn or filled. -/
theorem Pkg.granXlate {lvl : Nat} {sides ok : List Side} (pass : ∀ e ∈ sides.zip ok, s.xl1 h lvl e.1.k false e.1.p.va = (s, .ok e.2.p.pa e.2.p.ai))
    (len : ok.length = sides.length) (acc : List (Side × XRes)) :
    sides.foldl (fun (a : Pkg × List (Side × XRes)) q =>
      let (s, r) := a.1.xl1 h lvl q.k false q.p.va
      (s, a.2 ++ [(q, r)])) (s, acc) = (s, acc ++ (sides.zip ok).map (fun e => (e.1, .ok e.2.p.pa e.2.p.ai))) := by
  induction sides generalizing ok acc with
  | nil => simp
  | cons x sides ih =>
    cases ok with
    | nil => simp at len
    | cons y ok =>
      simp only [List.zip_cons_cons, List.mem_cons, forall_eq_or_imp] at pass
      rw [List.foldl_cons]
      simp only [pass.1]
      rw [ih pass.2 (by simpa using len), List.append_assoc]
      rfl

theorem zip_map_snd {α β : Type} {f : α × β → β} {l : List α} {m : List β} (len : m.length = l.length) (hf : ∀ e ∈ l.zip m, f e = e.2) :
    (l.zip m).map f = m := by
  rw [List.map_congr_left hf]
  exact List.map_snd_zip (by omega)

/-- The write-combining buffers that hold bytes of a granule's AI 4 lines have gone. -/
def Pkg.granFlushed (s : Pkg) (h : Nat) (ok : List Side) : Pkg :=
  (ok.filter (·.p.ai == 4)).foldl (fun p q => p.wcFlush (h / 8) (fun b => b.line == q.p.pa / 64)) s

theorem Pkg.granFlushed_thr (s : Pkg) (h : Nat) (ok : List Side) (k : Nat) : (s.granFlushed h ok).thr k = s.thr k :=
  Pkg.thr_of_eq (foldl_keeps (fun q : Pkg => q.threads = s.threads) _ (fun _ _ k => (Pkg.wcFlush_threads ..).trans k) _ s rfl) k

theorem Pkg.GoesOn.granFlushed {p q : Pkg} (k : p.GoesOn h q) (j : Nat) (ok : List Side) : p.GoesOn h (q.granFlushed j ok) :=
  k.foldl _ (fun _ k _ _ => k.wcFlush ..)

variable {i : Ins} {ok : List Side}

/-- A granule whose sides nothing holds back is performed. -/
theorem Pkg.granGo_eq (run : (s.thr h).st = .run) (alone : s.tdmState = 0) (counts : s.Uncounted h) (watch : (s.thr h).Unwatched) (seen : List (Bool × Bool × Bool))
    (sound : ∀ q ∈ ok, s.granErr q.p = none ∧ s.granPoison q = false) (goes : (s.granFlushed h ok).granWaits h ok = false)
    (has : ∀ q ∈ ok, (s.granFlushed h ok).granNeed h q = []) : s.granGo h i seen ok = (s.granFlushed h ok).granPerform h i ok := by
  have on : s.GoesOn h (s.granFlushed h ok) := (Pkg.GoesOn.refl run alone).granFlushed h ok
  have poison (q : Side) : s.granPoison { q with p := { q.p with ai := s.effAi q.p.ai } } = s.granPoison q := by rw [Pkg.effAi_alone alone]
  unfold Pkg.granGo
  extract_lets +onlyGivenNames t
  rw [Thread.watch_unwatched watch]
  dsimp -zeta only
  extract_lets +onlyGivenNames errs bad ok1 s1 need
  have noErr : errs = [] := List.filterMap_eq_nil_iff.mpr fun q hq => by
    obtain ⟨noErr, clean⟩ := sound q hq
    simp only [noErr, poison, clean, Bool.false_eq_true, if_false]
  have noBad : bad = none := by
    unfold bad
    rw [noErr]
    rfl
  have sides : ok1 = ok := by
    unfold ok1
    rw [List.filter_eq_self.mpr (fun q hq => by rw [(sound q hq).1]; rfl)]
    simp only [Pkg.effAi_alone alone]
    exact List.map_id ok
  have flushed : s1 = s.granFlushed h ok := by
    unfold s1
    rw [sides]
    rfl
  have noNeed : need = [] := by
    unfold need
    rw [sides, flushed, List.flatMap_eq_nil_iff.mpr (fun q hq => by rw [has q hq, List.map_nil])]
    rfl
  rw [noBad, sides, flushed, noNeed, goes, if_neg (by simp), Pkg.tlbCount_uncounted (on.uncounted counts)]
  rfl

/-- GRANULE, its checks passed. -/
theorem Pkg.granule_eq (run : (s.thr h).st = .run) (alone : s.tdmState = 0) (counts : s.Uncounted h) (watch : (s.thr h).Unwatched) (starts : s.startable h = true)
    (len : ok.length = ((s.thr h).granSides i).length)
    (pass : ∀ e ∈ ((s.thr h).granSides i).zip ok, s.xl1 h (s.thr h).lvl e.1.k false e.1.p.va = (s, .ok e.2.p.pa e.2.p.ai)
      ∧ e.2 = { e.1 with p := { e.1.p with pa := e.2.p.pa, ai := e.2.p.ai } })
    (sound : ∀ q ∈ ok, s.granErr q.p = none ∧ s.granPoison q = false) (goes : (s.granFlushed h ok).granWaits h ok = false)
    (has : ∀ q ∈ ok, (s.granFlushed h ok).granNeed h q = []) : s.granule h false i = (s.granFlushed h ok).granPerform h i ok := by
  unfold Pkg.granule
  extract_lets +onlyGivenNames t sides seen
  rw [starts, if_neg (by simp)]
  rw [Pkg.granXlate (fun e he => (pass e he).1) len []]
  have noMiss : (((s.thr h).granSides i).zip ok).find? (fun e => XRes.ok e.2.p.pa e.2.p.ai == .miss) = none :=
    List.find?_eq_none.mpr fun _ _ => by simp
  have noFault : (((s.thr h).granSides i).zip ok).filterMap (fun _ => (none : Option (Side × XFault))) = [] :=
    List.filterMap_eq_nil_iff.mpr fun _ _ => rfl
  have found : (((s.thr h).granSides i).zip ok).filterMap
      (fun e => some ({ p := { va := e.1.p.va, n := e.1.p.n, pa := e.2.p.pa, ai := e.2.p.ai }, k := e.1.k } : Side)) = ok := by
    rw [List.filterMap_eq_map']
    exact zip_map_snd len fun e he => (pass e he).2.symm
  simp only [List.nil_append, List.filterMap_map, Function.comp_def, List.find?_map, noMiss, noFault, found, Option.map_none, List.filter_nil]
  exact Pkg.granGo_eq run alone counts watch seen sound goes has

/-! ### The start -/

theorem Pkg.retireQ_uncounted (counts : s.Uncounted h) : s.retireQ h = s.updThr h Thread.stepped :=
  Pkg.pmu_uncounted (counts.updThr fun i _ => Thread.stepped_sel _ i) ..

/-- A long instruction begins. -/
theorem Pkg.longStart_begins {fn rd ra rb rc : BitVec 5} (fresh : (s.thr h).long = false) (quiet : s.quiet h = true) (some_ : (s.thr h).rg rc.toNat ≠ 0#64) :
    s.longStart h (.block fn rd ra rb rc) = s.updThr h (fun t => { t with long := true }) := by
  simp [Pkg.longStart, fresh, quiet, some_]

/-- A long instruction with nothing to do completes. -/
theorem Pkg.longStart_empty {fn rd ra rb rc : BitVec 5} (counts : s.Uncounted h) (watch : (s.thr h).Unwatched) (fresh : (s.thr h).long = false)
    (quiet : s.quiet h = true) (none_ : (s.thr h).rg rc.toNat = 0#64) :
    s.longStart h (.block fn rd ra rb rc) = (if fn = 2#5 then s.updThr h (fun t => t.wg rd.toNat 0#64) else s).updThr h Thread.stepped := by
  have written : (if fn = 2#5 then s.updThr h (fun t => t.wg rd.toNat 0#64) else s).Uncounted h := by
    split
    · exact counts.updThr fun _ _ => Thread.rs_wg ..
    · exact counts
  simp only [Pkg.longStart, fresh, quiet, none_, Pkg.watchX_unwatched watch, Pkg.retireQ_uncounted written, Bool.not_true, Bool.or_self, Bool.false_eq_true,
    if_false, if_true]

end

theorem State.run_long {s : State} {h : Htid} {fn rd ra rb rc : BitVec 5} (r : s.pkg.Ready h (.block fn rd ra rb rc)) (regs : BlockRegs fn rd ra rb rc) :
    exec (if fn = 0#5 then .movb h else if fn = 1#5 then .fillb h else if fn = 2#5 then .cmpb h else .crcb h) s
      = .next (s.withPkg (s.pkg.longStart h (.block fn rd ra rb rc))) := by
  obtain rfl | rfl | rfl | rfl := regs.kind
  all_goals exact State.run_issue r rfl (fun p i => p.longStart h i)

theorem State.run_granule {s : State} {h : Htid} {i : Ins} (r : s.pkg.Ready h i) (long : (s.pkg.thr h).long = true) :
    exec (.granule h) s = .next (s.withPkg (s.pkg.granule h false i)) := by
  obtain ⟨live, -, -, -, -, -, ⟨w, head, dec⟩, -, -⟩ := id r
  have grp : wordGrp w = i.grp := by rw [wordGrp, dec]
  refine State.run_to live ?_
  simp only [head, grp, Pkg.issue_ready r, long, if_true]

theorem firstDifference_same {l : List (Side × List (BitVec 8))} (same : firstBytes l = secondBytes l) : firstDifference l = none := by
  have self (m : List (BitVec 8)) : (m.zip m).findIdx? (fun e => e.1 != e.2) = none := by
    induction m with
    | nil => rfl
    | cons x m ih => simp [List.findIdx?_cons, ih]
  rw [firstDifference, same, self]

/-- Settles O15: a long instruction starts, and each granule moves its thread's registers on. -/
theorem longInstructionsRunByGranules : Obligations.LongInstructionsRunByGranules := by
  intro s h fn rd ra rb rc r
  obtain ⟨-, alone, -, -, await, -, -, counts, watch⟩ := id r
  have regs := blockRegs_of_legal r.legal
  intro t i cmd a cnt n x1 x2
  refine ⟨fun fresh sb some_ => ?_, fun fresh sb none_ => ?_, fun long some_ starts ok len pass sound => ?_⟩
  · have e := Pkg.longStart_begins (fn := fn) (rd := rd) (ra := ra) (rb := rb) fresh ((Pkg.quiet_iff await).mpr sb) some_
    exact ⟨_, State.run_long r regs, e ▸ (Pkg.Moves.refl _ _).updThr _⟩
  · have e := Pkg.longStart_empty (fn := fn) (rd := rd) (ra := ra) (rb := rb) counts watch fresh ((Pkg.quiet_iff await).mpr sb) none_
    refine ⟨_, State.run_long r regs, ?_⟩
    rw [e]
    split
    · exact Pkg.moves_stepped ..
    · exact (Pkg.Moves.refl _ _).updThr _
  · intro p0 goes has vals
    have on : s.pkg.GoesOn h p0 := (Pkg.GoesOn.refl r.run alone).granFlushed h ok
    have thr : p0.thr h = t := s.pkg.granFlushed_thr h ok h
    have run : (p0.thr h).st = .run := on.run
    refine ⟨p0.granPerform h i ok, ?_, ?_⟩
    · rw [State.run_granule r long, Pkg.granule_eq r.run alone counts watch starts len pass sound goes has]
      rfl
    generalize hu : (p0.granPerform h i ok).thr h = u
    have stops (k : Nat) (compare : fn = 2#5) (differ : firstDifference vals = some k) :
        t.Granule u rd.toNat ra.toNat rb.toNat rc.toNat k true (differenceResult vals k) true := by
      rw [← hu, ← thr]
      exact Pkg.granPerform_stops run on.alone (on.uncounted counts) regs compare differ
    have goesOn (agree : fn ≠ 2#5 ∨ firstDifference vals = none) :
        t.Granule u rd.toNat ra.toNat rb.toNat rc.toNat n (fn == 0#5 || fn == 2#5) (granResult t fn rd ra rc vals) (decide (cnt.toNat = n)) := by
      have granule := Pkg.granPerform_goes (sides := ok) run on.alone (on.uncounted counts) regs agree
      rw [thr] at granule
      rw [← hu]
      exact granule
    have none_of (agree : fn ≠ 2#5 ∨ x1 vals = x2 vals) : fn ≠ 2#5 ∨ firstDifference vals = none := agree.imp_right firstDifference_same
    refine ⟨fun q _ d a b c => ?_, fun agree => ?_, fun writes => ?_, fun crc => ?_, fun compare agree => ?_, fun compare k differ => ?_⟩
    · by_cases agree : fn ≠ 2#5 ∨ firstDifference vals = none
      · exact (goesOn agree).regs.other q d a b c
      · obtain ⟨compare, differs⟩ := not_or.mp agree
        obtain ⟨k, differ⟩ := Option.ne_none_iff_exists'.mp differs
        exact (stops k (not_not.mp compare) differ).regs.other q d a b c
    · have granule := goesOn (none_of agree)
      refine ⟨granule.regs.first, granule.regs.count, ?_, ?_, ?_⟩
      · rw [granule.regs.second]
        exact if_congr (by simp) rfl rfl
      · rw [granule.pc]
        exact if_congr (by simp) rfl rfl
      · rw [granule.ps]
        exact if_congr (by simp) rfl rfl
    · rw [(goesOn (.inl (by rcases writes with rfl | rfl <;> decide))).regs.dest]
      rcases writes with rfl | rfl <;> simp [granResult]
    · rw [(goesOn (.inl (by rw [crc]; decide))).regs.dest, granResult, if_pos crc]
    · rw [(goesOn (none_of (.inr agree))).regs.dest, granResult, if_neg (by rw [compare]; decide)]
      exact if_congr (by simp [compare]; rfl) rfl rfl
    · have granule := stops k compare differ
      exact ⟨granule.regs.first, granule.regs.second, granule.regs.count, granule.pc, granule.regs.dest⟩

end Sys2Proof.Machine
end

section
/-! ## Calls and returns that restore, and PS as a system register (04_privilege_exceptions_interrupts) -/
namespace Sys2Proof.Machine

/-! ### An instruction that retires and goes on from another address -/

section
variable {s : Pkg} {h : Nat}

/-- A thread that retires its head, is changed by `f` and goes on at `pc`. -/
theorem Pkg.moves_retireTo {f : Thread → Thread} {pc : Word} {t : Thread} (alone : s.tdmState = 0) (counts : s.Uncounted h)
    (changed : f (s.thr h).stepped = t) : s.Moves ((((s.retire h).updThr h f).redirect h pc).stepEnd h 0) h (t.sentTo pc) := by
  rw [Pkg.stepEnd_alone (Pkg.paired_off (by simpa [Pkg.redirect, Pkg.retire_alone alone counts] using alone)), Pkg.retire_alone alone counts, ← changed]
  exact (Pkg.moves_updThr_updThr s _ f).updThr (·.sentTo pc)

/-! ### SCALL's fast path and SRET (04 R120, R121) -/

/-- SSP and G31 exchanged. -/
def Thread.swapSp (t : Thread) : Thread := (t.ws 0x301 (t.rg 31)).wg 31 (t.rs 0x301)

theorem Thread.swapSp_of_eq {t u : Thread} (ssp : u.rs 0x301 = t.rs 0x301) (g : u.g = t.g) :
    u.swapSp = (u.ws 0x301 (t.rg 31)).wg 31 (t.rs 0x301) := by
  rw [Thread.swapSp, Thread.rg_of_g g, ssp]

/-- What the fast path makes of the thread that has stepped, from PS and SCE_CTL as they were before. -/
def Thread.fastCalled (t : Thread) (ps ctl : Word) : Thread :=
  ((t.ws 0x303 t.pc).ws 0x304 (ps ||| 0x80#64)).swapSp.setPs (setBits (setBits ps 4 2 (bits ctl 3 3)) 1 0 (bits ctl 2 1))

theorem Thread.fastCalled_entry (t : Thread) (ps ctl : Word) : (t.fastCalled ps ctl).rs 0x300 = t.rs 0x300 := by
  simp [Thread.fastCalled, Thread.swapSp, Thread.setPs, Thread.rs_ws]

theorem Thread.fastCalled_stepped (t : Thread) (ps ctl : Word) : t.stepped.fastCalled ps ctl
    = ((((t.stepped.ws 0x303 (t.pc + 4#64)).ws 0x304 (ps ||| 0x80#64)).ws 0x301 (t.rg 31)).wg 31 (t.rs 0x301)).setPs
      (setBits (setBits ps 4 2 (bits ctl 3 3)) 1 0 (bits ctl 2 1)) := by
  have ssp : ((t.stepped.ws 0x303 t.stepped.pc).ws 0x304 (ps ||| 0x80#64)).rs 0x301 = t.rs 0x301 := by
    simp [Thread.rs_ws, Thread.stepped_rs]
  rw [Thread.fastCalled, Thread.swapSp_of_eq ssp rfl]
  rfl

theorem Pkg.opScall_fast (alone : s.tdmState = 0) (counts : s.Uncounted h) (watch : (s.thr h).Unwatched)
    (enabled : ((s.thr h).rs 0x302).getLsbD 0 = true) (free : ((s.thr h).rs 0x304).getLsbD 7 = false)
    (level : (s.thr h).lvl ≤ bits ((s.thr h).rs 0x302) 2 1) :
    s.opScall h = (((s.retire h).updThr h (·.fastCalled (s.thr h).ps ((s.thr h).rs 0x302))).redirect h ((s.thr h).rs 0x300)).stepEnd h 0 := by
  have entry : (((s.retire h).updThr h (·.fastCalled (s.thr h).ps ((s.thr h).rs 0x302))).thr h).rs 0x300 = (s.thr h).rs 0x300 := by
    rw [Pkg.thr_updThr_same, Thread.fastCalled_entry, Pkg.retire_alone alone counts, Pkg.thr_updThr_same, Thread.stepped_rs _ (by decide)]
  rw [← entry]
  simp only [Pkg.opScall, enabled, free, level, decide_true, Bool.not_false, Bool.and_self, if_true, Pkg.watchX_unwatched watch]
  rfl

/-- What SRET makes of the thread that has stepped, from SPS as it was before. -/
def Thread.fastReturned (t : Thread) (sps : Word) : Thread := (t.swapSp.setPs (restorePs sps)).ws 0x304 (setBits sps 7 7 0)

theorem Pkg.opSret_eq (watch : (s.thr h).Unwatched) (may : 1 ≤ (s.thr h).lvl) (saved : ((s.thr h).rs 0x304).getLsbD 7 = true)
    (level : bits ((s.thr h).rs 0x304) 1 0 ≤ (s.thr h).lvl) :
    s.opSret h = (((s.retire h).updThr h (·.fastReturned ((s.thr h).rs 0x304))).redirect h ((s.thr h).rs 0x303 &&& ~~~3#64)).stepEnd h 0 := by
  simp only [Pkg.opSret, Pkg.priv_above may, saved, Bool.not_true, Bool.false_eq_true, if_false, gt_iff_lt, Nat.not_lt.mpr level,
    Pkg.watchX_unwatched watch]
  rfl

/-! ### ERET (04 R113) -/

/-- What ERET makes of the thread that has stepped, from PS and G31 of the frame; SP of its level is register r. -/
def Thread.unframed (t : Thread) (r : Nat) (ps g31 : Word) : Thread := ((t.wg 31 g31).setPs (restorePs ps)).ws r (t.rs r + 64#64)

/-- Doubleword k of a frame (R112). -/
def frameWord (f k : Nat) : Word := BitVec.ofNat 64 (f / 2 ^ (64 * k))

theorem Pkg.opEret_eq {p : Pkg} {f : Nat} (watch : (p.thr h).Unwatched) (may : 1 ≤ (s.thr h).lvl) (quiet : s.quiet h = true)
    (load : s.sysLoad h (s.thr h).lvl ((s.thr h).rs (lvlBase (s.thr h).lvl + 1)) 64 = (p, .ok f))
    (level : bits (frameWord f 1) 1 0 ≤ (s.thr h).lvl) (aligned : (frameWord f 0).toNat % 4 = 0) :
    s.opEret h = (((p.retire h).updThr h (·.unframed (lvlBase (s.thr h).lvl + 1) (frameWord f 1) (frameWord f 5))).redirect h
      (frameWord f 0)).stepEnd h 0 := by
  have low : ¬ bits (frameWord f 1) 1 0 > (s.thr h).lvl := Nat.not_lt.mpr level
  have whole : ¬ (frameWord f 0).toNat % 4 ≠ 0 := not_not.mpr aligned
  simp only [frameWord] at low whole
  simp only [Pkg.opEret, Pkg.priv_above may, quiet, Bool.not_true, Bool.false_eq_true, if_false, load, low, whole, Pkg.watchX_unwatched watch]
  rfl

end

/-- Settles O7: each of the three retires and goes on elsewhere; what it makes of its thread is written out as one change. -/
theorem returnsRestoreWhatWasSaved : Obligations.ReturnsRestoreWhatWasSaved := by
  intro s h i r
  obtain ⟨-, alone, -, -, await, -, -, counts, watch⟩ := id r
  intro t u
  refine ⟨?_, ?_, ?_⟩
  · rintro rfl enabled free level
    exact State.run_moves r rfl (op := fun p _ => p.opScall h) (Pkg.opScall_fast alone counts watch enabled free level)
      (Pkg.moves_retireTo alone counts (t.fastCalled_stepped ..))
  · rintro rfl may saved level
    have swapped : u.swapSp = (u.ws 0x301 (t.rg 31)).wg 31 (t.rs 0x301) := Thread.swapSp_of_eq (t.stepped_rs (by decide)) rfl
    exact State.run_moves r rfl (op := fun p _ => p.opSret h) (Pkg.opSret_eq watch may saved level)
      (Pkg.moves_retireTo alone counts (by rw [Thread.fastReturned, swapped]; rfl))
  · rintro rfl may sb p f load thr alone' counts' d level aligned
    have sp : lvlBase t.lvl + 1 = 0x101 + 0x20 * t.lvl := by unfold lvlBase; omega
    rw [← sp] at load ⊢
    have e := Pkg.opEret_eq (f := f) (by rwa [thr]) may ((Pkg.quiet_iff await).mpr sb) load level aligned
    have kept : u.rs (lvlBase t.lvl + 1) = t.rs (lvlBase t.lvl + 1) := t.stepped_rs (by unfold lvlBase; omega)
    refine ⟨_, State.run_op (op := fun p _ => p.opEret h) r rfl e, Pkg.moves_retireTo alone' counts' ?_⟩
    rw [thr, Thread.unframed, kept]
    rfl

/-! ### PS as a system register (04 R103) -/

/-- PS is read at every level and written at S and above. -/
theorem srFault_ps (lvl : Nat) (uread write : Bool) : srFault 0x100 lvl uread write = if write && decide (lvl < 1) then some 1 else none := by
  cases write <;> simp [srFault, srAcc]

/-- Settles O53: the read is MFSR's rule; the write at S and above is MTSR's, of which PS takes bit 2 alone; at U the write has PRIV. -/
theorem psIsReadByAllAndOnlyIeIsWritten : Obligations.PsIsReadByAllAndOnlyIeIsWritten := by
  intro s h t
  refine ⟨fun rd r => ?_, fun ra r level => ?_, fun ra r user => ?_⟩
  · have read : s.pkg.srRead h 0x100 = t.ps := by simp [Pkg.srRead, Thread.ps, t]
    obtain ⟨-, -, -, mfsr⟩ := registerInstructionsComplete s h _ r
    exact read ▸ mfsr rd 0x100#12 rfl (srFault_ps ..)
  · have may : srFault 0x100 t.lvl (s.pkg.uread h) true = none := by simp [srFault_ps, Nat.one_le_iff_ne_zero.mp level]
    obtain ⟨mtsr, -⟩ := mtsrAndTlbiWriteWhatTheyName s h _ r
    obtain ⟨own, -⟩ := mtsr ra 0x100#12 rfl may
    obtain ⟨q, x, next, moves, -, -, ps, -⟩ := own (.inl (by decide))
    have value : x = setBits t.ps 2 2 (bits (t.rg ra.toNat) 2 2) := ps rfl
    refine ⟨q, t.setPs x, next, moves, by rw [Thread.ps_setPs], ?_, fun i hi other => ?_⟩ <;> rw [Thread.ps_setPs, value]
    · rw [setBits_getLsbD _ _ _ _ _ (by decide), if_pos (by decide), bits_testBit]
      rfl
    · rw [setBits_getLsbD _ _ _ _ _ hi, if_neg (by omega)]
  · have raises : srFault 0x100 t.lvl (s.pkg.uread h) true = some 1 := by simp [srFault_ps, user]
    have e : s.pkg.opMtsr h (.mtsr ra 0x100#12) = s.pkg.fault h 1 t.pc 0#64 0 := by
      simp [Pkg.opMtsr, raises, t]
    refine (State.run_issue r rfl _).trans ?_
    rw [e, Pkg.fault_ready r]
    split <;> rfl

end Sys2Proof.Machine
end

section
/-! ## Invalidations of the IO translation units (05_address_translation R162, R163) -/
namespace Sys2Proof.Machine

/-! ### One unit's caches -/

@[simp] theorem Pkg.iotu_updIotu_same (s : Pkg) (u : Nat) (f : Iotu → Iotu) : (s.updIotu u f).iotu u = f (s.iotu u) :=
  Map.get_set_same iotu0 s.iotus u _

theorem Pkg.iotu_updIotu_other (s : Pkg) {u w : Nat} (f : Iotu → Iotu) (other : w ≠ u) : (s.updIotu u f).iotu w = s.iotu w :=
  Map.get_set_other iotu0 s.iotus u w _ other

@[simp] theorem Pkg.iotu_wb (s : Pkg) (o i : Nat) (b : Bool) (w : Nat) : (s.wb o i b).iotu w = s.iotu w := rfl
@[simp] theorem Pkg.rb_updIotu (s : Pkg) (u : Nat) (f : Iotu → Iotu) (o i : Nat) : (s.updIotu u f).rb o i = s.rb o i := rfl

@[simp] theorem Pkg.iotu_elapse (s : Pkg) (dt w : Nat) : (s.elapse dt).iotu w = s.iotu w := by rw [Pkg.elapse_eq]; rfl

/-! ### Registers beside the bit or field that is written (00 R6) -/

theorem Pkg.rb_wb_otherBit (s : Pkg) (o : Nat) {i j : Nat} (b : Bool) (word : j < 64) (other : j ≠ i) : (s.wb o i b).rb o j = s.rb o j := by
  unfold Pkg.rb
  rw [Pkg.rd_wb_same, setBits_getLsbD _ _ _ _ _ word, if_neg (by omega)]

theorem Pkg.DrsBut.refl (p : Pkg) (l : List Nat) : p.DrsBut p l := fun _ _ => rfl

section
variable {p q : Pkg} {l : List Nat} (but : p.DrsBut q l)
include but

theorem Pkg.DrsBut.wf {o : Nat} (among : o ∈ l) (hi lo x : Nat) : p.DrsBut (q.wf o hi lo x) l :=
  fun k out => (q.rd_wf_other o k hi lo x fun e => out (e ▸ among)).trans (but k out)

theorem Pkg.DrsBut.wb {o : Nat} (among : o ∈ l) (i : Nat) (b : Bool) : p.DrsBut (q.wb o i b) l := but.wf among i i _

theorem Pkg.DrsBut.updIotu (u : Nat) (f : Iotu → Iotu) : p.DrsBut (q.updIotu u f) l := but

theorem Pkg.DrsBut.mono {m : List Nat} (sub : l ⊆ m) : p.DrsBut q m := fun k out => but k fun among => out (sub among)

end

/-- q differs from p in registers and in the caches of the IO translation units alone. -/
def Pkg.OnlyRegsAndIotus (p q : Pkg) : Prop := q = { p with drs := q.drs, iotus := q.iotus }

section
variable {p q : Pkg} (only : p.OnlyRegsAndIotus q)
include only

theorem Pkg.OnlyRegsAndIotus.wb (o i : Nat) (b : Bool) : p.OnlyRegsAndIotus (q.wb o i b) := by
  unfold Pkg.OnlyRegsAndIotus Pkg.wb Pkg.wf Pkg.wr
  rw [only]

theorem Pkg.OnlyRegsAndIotus.updIotu (u : Nat) (f : Iotu → Iotu) : p.OnlyRegsAndIotus (q.updIotu u f) := by
  unfold Pkg.OnlyRegsAndIotus Pkg.updIotu
  rw [only]

end

theorem Pkg.OnlyRegsAndIotus.refl (p : Pkg) : p.OnlyRegsAndIotus p := rfl

/-- A field within one that was cleared reads 0. -/
theorem bits_setBits_zero (v : Word) {hi lo p q : Nat} (lower : lo ≤ q) (upper : p ≤ hi) (field : q ≤ p) (word : hi < 64) :
    bits (setBits v hi lo 0) p q = 0 := by
  apply Nat.eq_of_testBit_eq
  intro i
  rw [bits_testBit, Nat.zero_testBit]
  by_cases a : i < p - q + 1
  · rw [setBits_getLsbD _ _ _ _ _ (by omega), if_pos (by omega), Nat.zero_testBit, Bool.and_false]
  · simp [a]

/-! ### What an IOTU_INV names (R163) -/

/-- What an IOTU_INV of TYPE `ty` and value `v` names by source and PASID, by VMID, and for TYPE 3 by the page, which `pg` says to agree. -/
def InvNames (ty : Nat) (v : Word) (tag : Nat × Option Nat) (vmid : Nat) (pg : Prop) : Prop :=
  let pas : Prop := if v.getLsbD 3 then tag.2 = some (bits v 51 32) else tag.2 = none ∨ tag.2 = some 0
  ty = 0 ∨ (ty = 1 ∧ tag.1 = bits v 31 16) ∨ (ty = 2 ∧ tag.1 = bits v 31 16 ∧ pas) ∨ (ty = 3 ∧ tag.1 = bits v 31 16 ∧ pas ∧ pg)
    ∨ (ty = 4 ∧ vmid = bits v 31 16)

/-- The model's test is InvNames, with the page of the entry that is given. -/
theorem invHits_iff {ty : Nat} (known : ty ≤ 4) (v : Word) (page : Nat) (tag : Nat × Option Nat) (vmid : Nat) (e : Option TlbE) :
    invHits ty v page tag vmid e = true ↔ InvNames ty v tag vmid (∃ x, e = some x ∧ page / 2 ^ x.sz = x.va / 2 ^ x.sz) := by
  unfold invHits InvNames
  interval_cases ty
  · simp
  · simp
  · simp
  · cases e <;> simp [and_assoc]
  · simp

/-- The test reads nothing of the value's TYPE. -/
theorem invHits_setType (ty : Nat) (v : Word) (x page : Nat) (tag : Nat × Option Nat) (vmid : Nat) (e : Option TlbE) :
    invHits ty (setBits v 2 0 x) page tag vmid e = invHits ty v page tag vmid e := by
  unfold invHits
  rw [bits_setBits_other v 2 0 x 31 16 (by decide) (by decide) (by decide) (by decide),
    bits_setBits_other v 2 0 x 51 32 (by decide) (by decide) (by decide) (by decide), setBits_getLsbD v 2 0 x 3 (by decide),
    if_neg (show ¬ (0 ≤ 3 ∧ 3 - 0 < 2 - 0 + 1) by decide)]

/-! ### IOTU_INV of one TYPE -/

/-- The page of IOTU_INVADDR. -/
def Pkg.invPage (s : Pkg) (u : Nat) : Nat := s.rf (iotuBase u + 0x30) 56 12 * 4096

/-- A unit's caches after an IOTU_INV of TYPE `ty`, with `ats` the Invalidate Request that it sends. -/
def Iotu.without (i : Iotu) (ty : Nat) (v : Word) (page : Nat) (ats : Option AtsInv) : Iotu where
  ctx := i.ctx.filter (fun c => !(ty != 3 && invHits ty v page (c.src, c.pasid) c.vmid none))
  tlb := i.tlb.filter (fun e => !invHits ty v page e.1 e.2.vmid (some e.2))
  walkc := i.walkc.filter (fun w => !(if ty = 3 then invHits 2 v page w.1 w.2.vmid none && w.2.pre == walkPre page w.2.level
    else invHits ty v page w.1 w.2.vmid none))
  ats := ats

/-- The Invalidate Request of an IOTU_INV with ATS on a root complex. -/
def Pkg.invAts (s : Pkg) (u ty : Nat) (v : Word) : Option AtsInv :=
  if v.getLsbD 4 = true ∧ u < 4 then some ⟨s.now, ty, bits v 31 16, if v.getLsbD 3 then some (bits v 51 32) else none, s.invPage u⟩ else none

theorem Pkg.ioInvTy_busy {s : Pkg} {u : Nat} (busy : s.rb (iotuBase u + 0x38) 0 = true) (ty : Nat) (v : Word) :
    s.ioInvTy u ty v = s.wb (iotuBase u + 0x38) 1 true := by
  rw [Pkg.ioInvTy, Pkg.ioInv, if_pos busy]

theorem Pkg.ioInvTy_free {s : Pkg} {u ty : Nat} (free : s.rb (iotuBase u + 0x38) 0 = false) (known : ty ≤ 4) (v : Word) :
    s.ioInvTy u ty v = (s.updIotu u (fun i => i.without ty v (s.invPage u) (s.invAts u ty v))).wb (iotuBase u + 0x38) 0 true := by
  have type : bits (setBits v 2 0 ty) 2 0 = ty := by
    rw [bits_setBits_same _ _ _ _ (by decide) (by decide)]
    omega
  have flag (k : Nat) (h : 2 < k ∧ k < 64) : (setBits v 2 0 ty).getLsbD k = v.getLsbD k := by
    rw [setBits_getLsbD _ _ _ _ _ h.2, if_neg (by omega)]
  have field (hi lo : Nat) (h : 2 < lo ∧ lo ≤ hi ∧ hi < 64) : bits (setBits v 2 0 ty) hi lo = bits v hi lo :=
    bits_setBits_other _ _ _ _ _ _ h.2.1 h.2.2 (.inr h.1) (by decide)
  simp only [Pkg.ioInvTy, Pkg.ioInv, free, type, flag 3 (by decide), flag 4 (by decide), field 31 16 (by decide), field 51 32 (by decide), invHits_setType,
    Bool.false_eq_true, if_false, if_neg (show ¬ ty ≥ 5 by omega), Bool.and_eq_true, decide_eq_true_eq]
  rfl

section
variable {i : Iotu} {ty : Nat} {v : Word} {page : Nat} {ats : Option AtsInv} (known : ty ≤ 4)
include known

/-- A context goes where the invalidation names it; TYPE 3, which names a page, removes none. -/
theorem Iotu.mem_without_ctx (c : IoCtx) : c ∈ (i.without ty v page ats).ctx ↔ c ∈ i.ctx ∧ ¬ InvNames ty v (c.src, c.pasid) c.vmid False := by
  have hits : (ty != 3 && invHits ty v page (c.src, c.pasid) c.vmid none) = true ↔ InvNames ty v (c.src, c.pasid) c.vmid False := by
    rw [Bool.and_eq_true, invHits_iff known]
    by_cases h : ty = 3
    · simp [h, InvNames]
    · simp [h]
  simp only [Iotu.without, List.mem_filter, Bool.not_eq_true', ← Bool.not_eq_true, hits]

/-- An IOTLB entry covers the page where the page and the entry's address agree above the entry's size. -/
theorem Iotu.mem_without_tlb (e : (Nat × Option Nat) × TlbE) : e ∈ (i.without ty v page ats).tlb
    ↔ e ∈ i.tlb ∧ ¬ InvNames ty v e.1 e.2.vmid (page / 2 ^ e.2.sz = e.2.va / 2 ^ e.2.sz) := by
  simp [Iotu.without, ← Bool.not_eq_true, invHits_iff known]

/-- A walk-cache pointer covers the page where the address bits it stands for are the page's. -/
theorem Iotu.mem_without_walkc (w : (Nat × Option Nat) × WalkC) : w ∈ (i.without ty v page ats).walkc
    ↔ w ∈ i.walkc ∧ ¬ InvNames ty v w.1 w.2.vmid (w.2.pre = walkPre page w.2.level) := by
  have hits : (if ty = 3 then invHits 2 v page w.1 w.2.vmid none && w.2.pre == walkPre page w.2.level else invHits ty v page w.1 w.2.vmid none) = true
      ↔ InvNames ty v w.1 w.2.vmid (w.2.pre = walkPre page w.2.level) := by
    by_cases h : ty = 3
    · simp [h, invHits_iff, InvNames, and_assoc]
    · simp [h, invHits_iff known, InvNames]
  simp only [Iotu.without, List.mem_filter, Bool.not_eq_true', ← Bool.not_eq_true, hits]

end

/-- An IOTU_INV while BUSY is clear sets BUSY, removes what it names, and has its Invalidate Request in progress. -/
theorem Pkg.ioInvTy_free_does {s : Pkg} {u ty : Nat} (free : s.rb (iotuBase u + 0x38) 0 = false) (known : ty ≤ 4) (v : Word) :
    let q := s.ioInvTy u ty v
    q.rb (iotuBase u + 0x38) 0 = true ∧ q.rb (iotuBase u + 0x38) 1 = s.rb (iotuBase u + 0x38) 1 ∧ s.DrsBut q [iotuBase u + 0x38]
      ∧ (∀ c, c ∈ (q.iotu u).ctx ↔ c ∈ (s.iotu u).ctx ∧ ¬ InvNames ty v (c.src, c.pasid) c.vmid False)
      ∧ (∀ e, e ∈ (q.iotu u).tlb ↔ e ∈ (s.iotu u).tlb ∧ ¬ InvNames ty v e.1 e.2.vmid (s.invPage u / 2 ^ e.2.sz = e.2.va / 2 ^ e.2.sz))
      ∧ (∀ w, w ∈ (q.iotu u).walkc ↔ w ∈ (s.iotu u).walkc ∧ ¬ InvNames ty v w.1 w.2.vmid (w.2.pre = walkPre (s.invPage u) w.2.level))
      ∧ (q.iotu u).ats = s.invAts u ty v ∧ (∀ w, w ≠ u → q.iotu w = s.iotu w) ∧ s.OnlyRegsAndIotus q := by
  intro q
  have result : q = (s.updIotu u (fun i => i.without ty v (s.invPage u) (s.invAts u ty v))).wb (iotuBase u + 0x38) 0 true := Pkg.ioInvTy_free free known v
  have caches : q.iotu u = (s.iotu u).without ty v (s.invPage u) (s.invAts u ty v) := by rw [result, Pkg.iotu_wb, Pkg.iotu_updIotu_same]
  rw [caches]
  refine ⟨?_, ?_, ?_, Iotu.mem_without_ctx known, Iotu.mem_without_tlb known, Iotu.mem_without_walkc known, rfl, fun w other => ?_, ?_⟩ <;> rw [result]
  · exact Pkg.rb_wb_same _ _ _ _ (by decide)
  · rw [Pkg.rb_wb_otherBit _ _ _ (by decide) (by decide), Pkg.rb_updIotu]
  · exact ((Pkg.DrsBut.refl s _).updIotu _ _).wb (List.mem_singleton_self _) _ _
  · rw [Pkg.iotu_wb, Pkg.iotu_updIotu_other _ _ other]
  · exact ((Pkg.OnlyRegsAndIotus.refl s).updIotu _ _).wb _ _ _

/-! ### Completion and timeout (R163; 14 R377) -/

/-- An invalidation that is done clears BUSY and the request in progress. -/
theorem Pkg.invDone_does (s : Pkg) (u : Nat) :
    let q := s.invDone u
    q.rb (iotuBase u + 0x38) 0 = false ∧ (∀ j, j ≠ 0 → j < 64 → q.rb (iotuBase u + 0x38) j = s.rb (iotuBase u + 0x38) j)
      ∧ q.iotu u = { s.iotu u with ats := none } ∧ (∀ w, w ≠ u → q.iotu w = s.iotu w)
      ∧ s.DrsBut q [iotuBase u + 0x38] ∧ q = { s with drs := q.drs, iotus := q.iotus } := by
  refine ⟨?_, fun j other word => ?_, ?_, fun w other => ?_, ((Pkg.DrsBut.refl s _).wb (List.mem_singleton_self _) _ _).updIotu _ _,
    ((Pkg.OnlyRegsAndIotus.refl s).wb _ _ _).updIotu _ _⟩ <;> rw [Pkg.invDone]
  · rw [Pkg.rb_updIotu, Pkg.rb_wb_same _ _ _ _ (by decide)]
  · rw [Pkg.rb_updIotu, Pkg.rb_wb_otherBit _ _ _ word other]
  · rw [Pkg.iotu_updIotu_same, Pkg.iotu_wb]
  · rw [Pkg.iotu_updIotu_other _ _ other, Pkg.iotu_wb]

section
variable {s : Pkg} {u : Nat}

theorem Pkg.atsTimeout_none (unasked : (s.iotu u).ats = none) : s.atsTimeout u = s := by
  rw [Pkg.atsTimeout, unasked]

theorem Pkg.atsTimeout_early {t : AtsInv} (asked : (s.iotu u).ats = some t) (early : s.now < t.t0 + s.rf (rcBase u + 0x18) 15 0 * 1000000000) :
    s.atsTimeout u = s := by
  simp only [Pkg.atsTimeout, asked]
  exact if_neg (by omega)

theorem Pkg.atsTimeout_late {t : AtsInv} (asked : (s.iotu u).ats = some t) (rc : u < 4)
    (late : t.t0 + s.rf (rcBase u + 0x18) 15 0 * 1000000000 ≤ s.now) : s.atsTimeout u = (s.invDone u).wb (iotuBase u + 0x38) 2 true := by
  simp only [Pkg.atsTimeout, asked]
  exact if_pos ⟨rc, late⟩

/-- An Invalidation Completion that is late ends the invalidation with ATSERR. -/
theorem Pkg.atsTimeout_late_does {t : AtsInv} (asked : (s.iotu u).ats = some t) (rc : u < 4)
    (late : t.t0 + s.rf (rcBase u + 0x18) 15 0 * 1000000000 ≤ s.now) :
    let q := s.atsTimeout u
    q.rb (iotuBase u + 0x38) 0 = false ∧ q.rb (iotuBase u + 0x38) 2 = true ∧ q.iotu u = { s.iotu u with ats := none }
      ∧ s.DrsBut q [iotuBase u + 0x38] ∧ s.OnlyRegsAndIotus q := by
  intro q
  have result : q = (s.invDone u).wb (iotuBase u + 0x38) 2 true := Pkg.atsTimeout_late asked rc late
  obtain ⟨busy, -, unit, -, but, only⟩ := s.invDone_does u
  rw [result]
  refine ⟨?_, Pkg.rb_wb_same _ _ _ _ (by decide), ?_, Pkg.DrsBut.wb but (List.mem_singleton_self _) _ _, Pkg.OnlyRegsAndIotus.wb only _ _ _⟩
  · rw [Pkg.rb_wb_otherBit _ _ _ (by decide) (by decide), busy]
  · rw [Pkg.iotu_wb, unit]

end

/-! ### IOTU_FQBASE (R162) -/

/-- IOTU_FQBASE takes LOG2N where it is 4 to 16. -/
def Pkg.fqLog2n (s : Pkg) (u : Nat) (v : Word) : Pkg :=
  if 4 ≤ bits v 4 0 ∧ bits v 4 0 ≤ 16 then s.wf (iotuBase u + 0x10) 4 0 (bits v 4 0) else s

theorem Pkg.fqbase_eq (s : Pkg) (u : Nat) (v : Word) :
    s.fqbase u v = ((s.fqLog2n u v).wf (iotuBase u + 0x10) 57 12 (bits v 57 12)).wf (iotuBase u + 0x18) 31 0 0 := rfl

theorem Pkg.fqLog2n_does (s : Pkg) (u : Nat) (v : Word) :
    let q := s.fqLog2n u v
    q.rf (iotuBase u + 0x10) 4 0 = (if 4 ≤ bits v 4 0 ∧ bits v 4 0 ≤ 16 then bits v 4 0 else s.rf (iotuBase u + 0x10) 4 0)
      ∧ s.DrsBut q [iotuBase u + 0x10] ∧ s.OnlyRegs q := by
  unfold Pkg.fqLog2n
  split
  next taken =>
    refine ⟨?_, (Pkg.DrsBut.refl s _).wf (List.mem_singleton_self _) _ _ _, (Pkg.OnlyRegs.refl s).wr _ _⟩
    rw [Pkg.rf_wf_same _ _ _ _ _ (by decide) (by decide), Nat.mod_eq_of_lt (by omega)]
  · exact ⟨rfl, fun _ _ => rfl, .refl s⟩

theorem Pkg.fqbase_does (s : Pkg) (u : Nat) (v : Word) :
    let b := iotuBase u
    let q := s.fqbase u v
    q.rf (b + 0x10) 4 0 = (if 4 ≤ bits v 4 0 ∧ bits v 4 0 ≤ 16 then bits v 4 0 else s.rf (b + 0x10) 4 0) ∧ q.rf (b + 0x10) 57 12 = bits v 57 12
      ∧ q.rf (b + 0x18) 15 0 = 0 ∧ q.rf (b + 0x18) 31 16 = 0 ∧ q.rf (b + 0x18) 63 32 = s.rf (b + 0x18) 63 32
      ∧ s.DrsBut q [b + 0x10, b + 0x18] ∧ q = { s with drs := q.drs } := by
  intro b q
  obtain ⟨log2n, but, only⟩ := s.fqLog2n_does u v
  have ptr0 : (s.fqLog2n u v).rd (b + 0x18) = s.rd (b + 0x18) := but _ (by simp [b])
  have base : q.rd (b + 0x10) = setBits ((s.fqLog2n u v).rd (b + 0x10)) 57 12 (bits v 57 12) :=
    (Pkg.rd_wf_other _ _ _ _ _ _ (by omega)).trans (Pkg.rd_wf_same ..)
  have ptr : q.rd (b + 0x18) = setBits (s.rd (b + 0x18)) 31 0 0 := by
    refine (Pkg.rd_wf_same ..).trans ?_
    rw [← ptr0]
    exact congrArg (setBits · 31 0 0) (Pkg.rd_wf_other _ _ _ _ _ _ (by omega))
  refine ⟨?_, ?_, ?_, ?_, ?_, ?_, ?_⟩
  · rw [Pkg.rf, base, bits_setBits_other _ _ _ _ _ _ (by decide) (by decide) (by decide) (by decide)]
    exact log2n
  · rw [Pkg.rf, base, bits_setBits_same _ _ _ _ (by decide) (by decide), Nat.mod_eq_of_lt (bits_lt ..)]
  · rw [Pkg.rf, ptr, bits_setBits_zero _ (by decide) (by decide) (by decide) (by decide)]
  · rw [Pkg.rf, ptr, bits_setBits_zero _ (by decide) (by decide) (by decide) (by decide)]
  · rw [Pkg.rf, ptr, bits_setBits_other _ _ _ _ _ _ (by decide) (by decide) (by decide) (by decide)]
    rfl
  · exact ((but.mono (by simp [b])).wf (by simp [b]) _ _ _).wf (by simp [b]) _ _ _
  · exact (only.wr _ _).wr _ _

/-- Settles O39: each TYPE's command is the one invalidation with its number, and what it removes is what InvNames names. -/
theorem invalidationsRemoveWhatMatches : Obligations.InvalidationsRemoveWhatMatches := by
  intro s u live b r i cmd
  refine ⟨fun v ty known => ?_, ⟨_, State.run_live _ live, ?_⟩, fun dt => ?_, fun v => ⟨_, State.run_live _ live, s.pkg.fqbase_does u v⟩⟩
  · have command : exec (cmd ty v) s = .next (s.withPkg (s.pkg.ioInvTy u ty v)) := by
      rw [← State.run_live (·.ioInvTy u ty v) live]
      interval_cases ty <;> rfl
    exact ⟨fun busy => by rw [command, Pkg.ioInvTy_busy busy], fun free => ⟨_, command, Pkg.ioInvTy_free_does free known v⟩⟩
  · obtain ⟨busy, flags, unit, others, but, rest⟩ := s.pkg.invDone_does u
    exact ⟨busy, flags 1 (by decide) (by decide), flags 2 (by decide) (by decide), unit, others, but, rest⟩
  · intro p
    have command : exec (.atsInvalidateTimeout u dt) s = .next (s.withPkg (p.atsTimeout u)) := State.runAt_live live dt _
    have same : p.iotu u = i := s.pkg.iotu_elapse dt u
    rw [← same, command]
    exact ⟨fun unasked => by rw [Pkg.atsTimeout_none unasked], fun t asked early => by rw [Pkg.atsTimeout_early asked early],
      fun t asked rc late => ⟨_, rfl, Pkg.atsTimeout_late_does asked rc late⟩⟩

end Sys2Proof.Machine
end

section
/-! ## Four statements that fail: a line that leaves a tile ends the chunks that have it in a signature (06_cache_hierarchy) -/
namespace Sys2Proof.Machine

/-! ### A chunk whose line leaves the tile (12 R315)

Each of the four statements says of a command by which an L2 may give up a line that no thread changes. The commands may be executed on a paired
captain, where an open chunk of the tile with the line in a signature becomes due as the line leaves. -/

/-- A paired captain that runs (12 R312). Thread 0, in state `st`, has an open chunk that has read line 1; tile 0's L2 holds the lines `l2`. -/
def chunkReadLine1 (st : ThrSt) (l2 : Map CLine) : Pkg where
  pins := { vaux := true, pwrgood := true }
  threads := [(0, { st := st, chunk := some { rsig := [1] } })]
  drs := [(tdmBase, 5#64)]
  l2 := l2

/-- A command that makes a thread's chunk due while the package runs does not leave the threads as they are. -/
theorem threads_change_of_due {c : Instr} {f : Pkg → Pkg} {p q : Pkg} {h : Nat} (effect : ∀ s : State, exec c s = s.run f) (live : p.live = true)
    (before : (p.thr h).due = false) (after : ((f p).thr h).due = true) (ran : exec c { pkg := p } = .next (State.withPkg { pkg := p } q)) :
    q.threads ≠ p.threads := by
  intro same
  rw [effect] at ran
  rw [State.run_next (s := { pkg := p }) live ran, Pkg.thr_of_eq same h, before] at after
  exact absurd after (by decide)

/-! ### RDSHARED (R167, R170) -/

/-- A line of the same L2 set as line 1, which no L2 holds and its home slice does. -/
def askedLine : Nat := 1 + 1024 * 16

/-- Tile 0 allocates and misses `askedLine`, which the slice holds clean; its set in the tile's L2 is full, line 1 in way 0. -/
def fullSet : Pkg :=
  { ((chunkReadLine1 .run ((List.range 16).map (fun w => (l2Key 0 1 w, { line := 1 + 1024 * w, st := .E })))).wb
      (scBase + 0x100) 0 false).wb (l2Base 0) 0 true with
    cores := [(0, { miss := [{ thr := 0, line := askedLine, kind := .load, ai := 0, stream := false, data := none }] })]
    l3 := [(l3Key (homeOf askedLine) askedLine 0, { line := askedLine, st := .E })] }

/-- What RDSHARED of `askedLine` by tile 0 does to a package. -/
def rdSharedAsked (p : Pkg) : Pkg := if p.owing 0 askedLine then p else p.rdShared 0 askedLine .none

theorem fullSet_fill_ends_chunk : ((rdSharedAsked fullSet).thr 0).due = true := by decide +kernel

/-- Refutes O20: the fill of the granted line evicts line 1, and the chunk that has read it becomes due. -/
theorem not_homeRequestsSnoopReadOrGrant : ¬ Obligations.HomeRequestsSnoopReadOrGrant := by
  intro claim
  have live : ({ pkg := fullSet } : State).pkg.live = true := rfl
  obtain ⟨-, inactive, -⟩ := claim { pkg := fullSet } 0 askedLine live (by decide +kernel) (by decide +kernel)
  obtain ⟨-, -, sliceGrants, -⟩ := inactive (by decide +kernel) (by decide +kernel) (by decide +kernel)
  obtain ⟨q, _, ran, -, -, -, -, -, -, threads, -⟩ := sliceGrants (l3Key (homeOf askedLine) askedLine 0) (by decide +kernel) (by decide +kernel)
    (by decide +kernel) (by decide +kernel) (by decide +kernel) (by decide +kernel) (by decide +kernel) ⟨0, by decide, by decide +kernel⟩
  exact threads_change_of_due (f := rdSharedAsked) (fun _ => rfl) live (by decide +kernel) fullSet_fill_ends_chunk ran threads

/-! ### WRBACK and CACHE_CMD_COMPLETE (R167, R174, R178) -/

/-- Tile 0's L2 holds line 1 dirty and is in the course of L2_CLEAN_INVALIDATE_ALL. -/
def dirtyLine1 : Pkg := { chunkReadLine1 .run [(l2Key 0 1 0, { line := 1, st := .M })] with cops := [.clean false 0 true] }

theorem dirtyLine1_wrback_ends_chunk : ((dirtyLine1.giveUp 0 1 true .none).thr 0).due = true := by decide +kernel

/-- Refutes O21: WRBACK of line 1 makes the chunk that has read it due. -/
theorem not_linesReachDramAndComeBack : ¬ Obligations.LinesReachDramAndComeBack := by
  intro claim
  have live : ({ pkg := dirtyLine1 } : State).pkg.live = true := rfl
  obtain ⟨writesBack, -⟩ := claim
  obtain ⟨dirty, -⟩ := writesBack { pkg := dirtyLine1 } 0 1 live (by decide +kernel) (by decide +kernel) (by decide +kernel)
    (l2Key 0 1 0) (by decide +kernel)
  obtain ⟨⟨q, ran, threads, -⟩, -⟩ := dirty (.inl (by decide +kernel))
  exact threads_change_of_due (f := (·.giveUp 0 1 true .none)) (fun _ => rfl) live (by decide +kernel) dirtyLine1_wrback_ends_chunk ran threads

theorem dirtyLine1_clean_invalidate_ends_chunk : ((dirtyLine1.cacheDone false 0 []).thr 0).due = true := by decide +kernel

/-- Refutes O22: the end of L2_CLEAN_INVALIDATE_ALL removes line 1 and makes the chunk that has read it due. -/
theorem not_cacheCommandsAndRetirement : ¬ Obligations.CacheCommandsAndRetirement := by
  intro claim
  have live : ({ pkg := dirtyLine1 } : State).pkg.live = true := rfl
  obtain ⟨commands, -⟩ := claim { pkg := dirtyLine1 } 0 live
  obtain ⟨-, -, completes⟩ := commands false true
  obtain ⟨q, ran, -, -, -, threads, -⟩ := completes (by decide +kernel)
  exact threads_change_of_due (f := (·.cacheDone false 0 [])) (fun _ => rfl) live (by decide +kernel) dirtyLine1_clean_invalidate_ends_chunk ran threads

/-! ### L2_GATE (08 R225) -/

/-- Both cores of tile 0 are gated and its L2, which holds line 1 clean, may power down. Thread 0 is OFF with its chunk still open, which no
hypothesis of the statement excludes. -/
def gateableL2 : Pkg :=
  (((chunkReadLine1 .off [(l2Key 0 1 0, { line := 1, st := .E })]).wf (meshCpwr 0) 5 4 2).wf (meshCpwr 1) 5 4 2).wb (meshL2pwr 0) 0 true

theorem gateableL2_gate_ends_chunk : ((gateableL2.l2Gate 0).thr 0).due = true := by decide +kernel

/-- Refutes O23: an L2 that powers down drops line 1, and the open chunk of an OFF thread that has read it becomes due. -/
theorem not_evacuationAndPowerChangesComplete : ¬ Obligations.EvacuationAndPowerChangesComplete := by
  intro claim
  have live : ({ pkg := gateableL2 } : State).pkg.live = true := rfl
  obtain ⟨slices, -⟩ := claim { pkg := gateableL2 } live
  obtain ⟨-, -, -, -, -, -, -, gates, -⟩ := slices 0
  obtain ⟨q, ran, -, -, threads, -⟩ := gates ⟨by decide +kernel, by decide +kernel, by decide +kernel⟩
  exact threads_change_of_due (f := (·.l2Gate 0)) (fun _ => rfl) live (by decide +kernel) gateableL2_gate_ends_chunk ran threads

end Sys2Proof.Machine
end

section
/-! ## What a unit's errors and interrupts leave alone (04_privilege_exceptions_interrupts, 17_error_records_odometer) -/
namespace Sys2Proof.Machine

/-! ### Registers beside the TICs, the cores' power, the Odometer and the management port -/

/-- A register that no interrupt and no Odometer event writes: below the Odometer's window, and in a tile's window below the router's
registers of core power, above which the TICs lie (01 R24, R25; 08 R236). -/
def Unsignalled (o : Nat) : Prop := o < odoBase ∧ (0x8000000 ≤ o ∨ o % 0x100000 < 0xC0400)

section
variable {o : Nat}

theorem Unsignalled.ne_tic (u : Unsignalled o) {h k : Nat} (lt : h < 2048) (low : k < 0x1000) : o ≠ ticBase h + k := by
  obtain ⟨-, place⟩ := u
  unfold ticBase tileBase
  omega

theorem Unsignalled.ne_cpwr (u : Unsignalled o) {c : Nat} (lt : c < 256) : o ≠ meshCpwr c := by
  obtain ⟨-, place⟩ := u
  unfold meshCpwr meshBase tileBase
  rw [if_neg (by omega), if_pos (by omega)]
  omega

theorem Unsignalled.ne_l2pwr (u : Unsignalled o) {n : Nat} (lt : n < 128) : o ≠ meshL2pwr n := by
  obtain ⟨-, place⟩ := u
  unfold meshL2pwr meshBase tileBase
  rw [if_neg (by omega), if_pos (by omega)]
  omega

theorem Unsignalled.ne_odo (u : Unsignalled o) (k : Nat) : o ≠ odoBase + k := by
  have below := u.1
  omega

theorem Unsignalled.ne_live (u : Unsignalled o) (k : Nat) : o ≠ odoLive k := by
  unfold odoLive
  rw [Nat.add_assoc]
  exact u.ne_odo _

theorem Unsignalled.ne_pending (u : Unsignalled o) : o ≠ mgtBase + 0x210 := by
  have below := u.1
  unfold odoBase at below
  unfold mgtBase
  omega

end

/-- The package may have signalled: register o, Cadence, Shimmy and boot are as before, and so is the mesh but for the cores that an
interrupt wakes. -/
structure Pkg.Signals (o : Nat) (p q : Pkg) : Prop where
  reg : q.rd o = p.rd o
  cad : q.cad = p.cad
  shm : q.shm = p.shm
  boot : q.boot = p.boot
  noc : q.noc = { p.noc with wokeInt := q.noc.wokeInt }

section
variable {o : Nat} {p q r : Pkg}

theorem Pkg.Signals.refl (o : Nat) (p : Pkg) : p.Signals o p := ⟨rfl, rfl, rfl, rfl, rfl⟩

theorem Pkg.Signals.rf (k : p.Signals o q) (hi lo : Nat) : q.rf o hi lo = p.rf o hi lo := by
  unfold Pkg.rf
  rw [k.reg]

theorem Pkg.Signals.rb (k : p.Signals o q) (i : Nat) : q.rb o i = p.rb o i := by
  unfold Pkg.rb
  rw [k.reg]

/-- A change of other fields. -/
theorem Pkg.Signals.beside (k : p.Signals o q) (drs : r.drs = q.drs) (cad : r.cad = q.cad) (shm : r.shm = q.shm) (boot : r.boot = q.boot)
    (noc : r.noc = q.noc) : p.Signals o r :=
  ⟨(Pkg.rd_of_drs drs o).trans k.reg, cad.trans k.cad, shm.trans k.shm, boot.trans k.boot, by rw [noc]; exact k.noc⟩

theorem Pkg.Signals.ite {c : Prop} [Decidable c] (a : p.Signals o q) (b : p.Signals o r) : p.Signals o (if c then q else r) := by
  split
  · exact a
  · exact b

/-! ### Writes of other registers -/

theorem Pkg.Signals.wr (k : p.Signals o q) {x : Nat} (other : o ≠ x) (v : Word) : p.Signals o (q.wr x v) :=
  ⟨(Pkg.rd_wr_other _ _ _ _ other).trans k.reg, k.cad, k.shm, k.boot, k.noc⟩

theorem Pkg.Signals.wf (k : p.Signals o q) {x : Nat} (other : o ≠ x) (hi lo y : Nat) : p.Signals o (q.wf x hi lo y) := k.wr other _

theorem Pkg.Signals.wb (k : p.Signals o q) {x : Nat} (other : o ≠ x) (i : Nat) (b : Bool) : p.Signals o (q.wb x i b) := k.wr other _

theorem Pkg.Signals.sat (k : p.Signals o q) {x : Nat} (other : o ≠ x) (hi lo n : Nat) : p.Signals o (q.sat x hi lo n) := k.wr other _

theorem Pkg.Signals.inc (k : p.Signals o q) {x : Nat} (other : o ≠ x) (hi lo n : Nat) : p.Signals o (q.inc x hi lo n) := k.wr other _

/-! ### Threads that wake, and the log -/

theorem Pkg.Signals.evalWake (k : p.Signals o q) (h : Nat) : p.Signals o (q.evalWake h) := by
  rcases q.evalWake_cases h with e | e
  · rw [e]
    exact k
  · obtain ⟨l, e'⟩ := q.wakeThr_eq h 2
    rw [e, e']
    exact k.beside rfl rfl rfl rfl rfl

theorem Pkg.Signals.inb (k : p.Signals o q) (r : InbRec) (lines rl : List Nat) : p.Signals o (q.inb r lines rl) :=
  .ite (k.beside rfl rfl rfl rfl rfl) k

section
variable (u : Unsignalled o)
include u

/-! ### Vectors (04 R130, R131) -/

theorem Pkg.Signals.putPend (k : p.Signals o q) {h : Nat} (lt : h < 2048) (v : Nat) (b : Bool) : p.Signals o (q.putPend h v b) :=
  .ite (k.wb (u.ne_tic lt (by decide)) ..) (k.wb (u.ne_tic lt (by decide)) ..)

theorem Pkg.Signals.wakeCore (k : p.Signals o q) {c : Nat} (lt : c < 256) (b : Bool) : p.Signals o (q.wakeCore c b) := by
  have core := u.ne_cpwr lt
  have woken : p.Signals o ((q.wf (meshCpwr c) 5 4 3).wakeL2 (c / 2)) :=
    .ite ((k.wf core ..).wf (u.ne_l2pwr (by omega)) ..) (k.wf core ..)
  have noted : p.Signals o (((q.wf (meshCpwr c) 5 4 3).wakeL2 (c / 2)).wokenBy c b) := by
    cases b
    · exact woken
    · exact ⟨woken.reg, woken.cad, woken.shm, woken.boot, by rw [Pkg.wokenBy, if_pos rfl, woken.noc]⟩
  rw [Pkg.wakeCore_def]
  exact .ite (k.wf core ..) (.ite noted k)

theorem Pkg.Signals.ticChanged (k : p.Signals o q) {h : Nat} (lt : h < 2048) (old : List Nat) : p.Signals o (q.ticChanged h old) :=
  Pkg.Signals.evalWake (.ite (k.wakeCore u (by omega) true) k) h

theorem Pkg.Signals.raiseVec (k : p.Signals o q) {h : Nat} (lt : h < 2048) (v : Nat) (fin : Word) : p.Signals o (q.raiseVec h v fin) := by
  unfold Pkg.raiseVec
  extract_lets s
  have kept : p.Signals o s := .ite k (.ite (k.beside rfl rfl rfl rfl rfl) (.ite (k.beside rfl rfl rfl rfl rfl) k))
  exact (kept.putPend u lt v true).ticChanged u lt _

theorem Pkg.Signals.ticSet (k : p.Signals o q) {h : Nat} (lt : h < 2048) (v : Nat) : p.Signals o (q.ticSet h v) :=
  .ite k ((k.inb ..).raiseVec u lt v _)

theorem Pkg.Signals.msiWrite (k : p.Signals o q) {h : Nat} (lt : h < 2048) (x : Nat) : p.Signals o (q.msiWrite h x) := by
  have status : o ≠ ticStatus h := u.ne_tic lt (by decide)
  exact .ite (k.raiseVec u lt ..) ((k.wb status ..).sat status ..)

theorem Pkg.Signals.irqOf (k : p.Signals o q) (x : Nat) : p.Signals o (q.irqOf x) := by
  have thread : q.rf x 10 0 < 2048 := bits_lt ..
  exact .ite (.ite k (.ite (k.ticSet u thread _) (k.msiWrite u thread _))) k

/-! ### The Odometer (17 R440 to R442) -/

theorem Pkg.Signals.livePut (k : p.Signals o q) (x n y : Nat) : p.Signals o (q.livePut x n y) := k.wf (u.ne_live x) ..

theorem Pkg.Signals.odoMeasure (k : p.Signals o q) : p.Signals o q.odoMeasure := by
  refine Pkg.Signals.livePut u (List.foldlRecOn (motive := p.Signals o) _ _ k fun r k c _ => ?_) ..
  have drawn : p.Signals o r.draw.2 := k.beside rfl rfl rfl rfl rfl
  exact .ite ((drawn.livePut u ..).livePut u ..) k

theorem Pkg.Signals.odoBegin (k : p.Signals o q) (reason : Nat) : p.Signals o (q.odoBegin reason) := by
  rw [Pkg.odoBegin_eq]
  refine Pkg.Signals.wb (Pkg.Signals.beside (k.odoMeasure u) ?_ ?_ ?_ ?_ ?_) (u.ne_odo 0) 0 true <;> rfl

theorem Pkg.Signals.odoRequest (k : p.Signals o q) (reason : Nat) : p.Signals o (q.odoRequest reason) := by
  unfold Pkg.odoRequest
  extract_lets soon again s
  have kept : p.Signals o s := .ite k (k.beside rfl rfl rfl rfl rfl)
  split
  · exact k.sat (u.ne_odo 0) ..
  · split
    · exact k.beside rfl rfl rfl rfl rfl
    · exact .ite k (kept.odoBegin u reason)

theorem Pkg.Signals.odoEvent (k : p.Signals o q) (code unit stop d0 d1 : Nat) : p.Signals o (q.odoEvent code unit stop d0 d1) := by
  unfold Pkg.odoEvent
  extract_lets n b s1 s2 s3 s4 s5
  have kept : p.Signals o s5 := ((((k.livePut u ..).wr (u.ne_live _) _).livePut u ..).livePut u ..).livePut u ..
  exact .ite (kept.odoRequest u 2) kept

end
end

/-! ### Error records (17 R429 to R433) -/

/-- Whether a unit's record takes an error: it holds none, or one of a lower class. -/
def Pkg.recordTakes (s : Pkg) (w : Win) (e : Err) : Bool := e.held && (!s.rb w.err 0 || decide (e.cls > bits (s.rd w.err) 3 2))

/-- An error is put into its unit's record, or the overflow is noted. -/
def Pkg.recordHold (s : Pkg) (w : Win) (e : Err) : Pkg :=
  if s.recordTakes w e then
    let t := s.wr w.err (e.status w.errUnit (s.rb w.err 0 || s.rb w.err 1))
    let t := t.wr (w.err + 8) (BitVec.ofNat 64 (e.addr.getD 0))
    let t := t.wr (w.err + 0x10) (BitVec.ofNat 64 e.info)
    t.wr (w.err + 0x18) t.rdtime
  else if e.held then s.wb w.err 1 true else s

/-- The unit counts an error. -/
def Pkg.recordCount (s : Pkg) (w : Win) (e : Err) : Pkg :=
  if e.cls = 0 then s.inc (w.err + 0x20) 31 0 else s.sat (w.err + 0x20) 47 32

/-- The Odometer counts an error that the record has taken or not, the unit's interrupt is raised, and the pending error is told. -/
def Pkg.recordTell (s : Pkg) (w : Win) (e : Err) (taken quiet : Bool) : Pkg :=
  let b := w.err
  let o := 0x1A0 + 32 * w.errUnit
  let s := if e.cls = 0 then s.liveAdd o 8 1 else if e.cls = 1 then s.liveAdd (o + 8) 8 1
    else if e.cls = 2 then s.liveAdd (o + 16) 4 1 else s.liveAdd (o + 20) 4 1
  let s := if taken && decide (e.cls ≥ 2) then s.odoEvent 0x05 w.errUnit w.stop (drsPa b) (s.rd b).toNat else s
  let s := if e.cls = 0 && e.inWin then
      let nv := winCount (s.rd (b + 0x38)) (s.rf (b + 0x28) 63 32) s.cadSec
      let hit := winHit (s.rd (b + 0x38)) (s.rf (b + 0x28) 63 32) s.cadSec (s.rf (b + 0x28) 7 0)
      let s := s.wr (b + 0x38) nv
      if hit then (s.irqOf (b + 0x30)).odoEvent 0x06 w.errUnit w.stop (drsPa b) nv.toNat else s
    else if e.cls = 1 && s.rb (b + 0x28) 8 then s.irqOf (b + 0x30)
    else s
  if quiet && s.errAny then s.wb (mgtBase + 0x210) 2 true else s

theorem Pkg.record_eq (s : Pkg) (w : Win) (e : Err) :
    s.record w e = ((s.recordHold w e).recordCount w e).recordTell w e (s.recordTakes w e) (!s.errAny) := rfl

section
variable {o : Nat} {p q : Pkg} {w : Win}

theorem Pkg.Signals.recordHold (k : p.Signals o q) (other : ∀ x < 0x20, o ≠ w.err + x) (e : Err) : p.Signals o (q.recordHold w e) :=
  have status := other 0 (by decide)
  .ite ((((k.wr status _).wr (other 8 (by decide)) _).wr (other 0x10 (by decide)) _).wr (other 0x18 (by decide)) _) (.ite (k.wb status ..) k)

theorem Pkg.Signals.recordCount (k : p.Signals o q) (other : o ≠ w.err + 0x20) (e : Err) : p.Signals o (q.recordCount w e) :=
  .ite (k.inc other ..) (k.sat other ..)

theorem Pkg.Signals.recordTell (k : p.Signals o q) (u : Unsignalled o) (other : o ≠ w.err + 0x38) (e : Err) (taken quiet : Bool) :
    p.Signals o (q.recordTell w e taken quiet) := by
  unfold Pkg.recordTell
  extract_lets b x s1 s2 nv hit s3 s4
  have k1 : p.Signals o s1 := .ite (k.livePut u ..) (.ite (k.livePut u ..) (.ite (k.livePut u ..) (k.livePut u ..)))
  have k2 : p.Signals o s2 := .ite (k1.odoEvent u ..) k1
  have k3 : p.Signals o s3 := k2.wr other _
  have k4 : p.Signals o s4 := .ite (.ite ((k3.irqOf u _).odoEvent u ..) k3) (.ite (k2.irqOf u _) k2)
  exact .ite (k4.wb u.ne_pending ..) k4

/-- An error writes its own unit's record, and signals. -/
theorem Pkg.Signals.record (k : p.Signals o q) (u : Unsignalled o) (other : ∀ x < 0x40, o ≠ w.err + x) (e : Err) : p.Signals o (q.record w e) := by
  rw [Pkg.record_eq]
  exact ((k.recordHold (fun x lt => other x (by omega)) e).recordCount (other 0x20 (by decide)) e).recordTell u (other 0x38 (by decide)) e _ _

end

/-- A corrected error is counted once. -/
theorem Pkg.record_counts_ce (s : Pkg) {w : Win} (u : Unsignalled (w.err + 0x20)) {e : Err} (corrected : e.cls = 0) :
    (s.record w e).rf (w.err + 0x20) 31 0 = (s.rf (w.err + 0x20) 31 0 + 1) % 2 ^ 32 := by
  have held : s.Signals (w.err + 0x20) (s.recordHold w e) := (Pkg.Signals.refl _ s).recordHold (fun x lt => by omega) e
  rw [Pkg.record_eq, ((Pkg.Signals.refl _ _).recordTell u (by omega) e _ _).rf, Pkg.recordCount, if_pos corrected]
  exact (Pkg.rf_wf_same _ _ _ _ _ (by decide) (by decide)).trans (by rw [held.rf])

end Sys2Proof.Machine
end

section
/-! ## Cadence: HOLDOVER_DAY, the schedule table, CAD_CFG and CAD_TIME_NS (13_cadence_time) -/
namespace Sys2Proof.Machine

/-! ### Time and the clock (13 R346, R349) -/

@[simp] theorem Pkg.elapse_tdm (s : Pkg) (dt : Nat) : (s.elapse dt).tdm = s.tdm := by rw [Pkg.elapse_eq]
@[simp] theorem Pkg.elapse_noc (s : Pkg) (dt : Nat) : (s.elapse dt).noc = s.noc := by rw [Pkg.elapse_eq]

/-- Time moves the clock and its slew, nothing else of Cadence. -/
theorem Pkg.elapse_cad (s : Pkg) (dt : Nat) : (s.elapse dt).cad = { s.cad with t := (s.elapse dt).cad.t, slew := (s.elapse dt).cad.slew } := by
  unfold Pkg.elapse
  dsimp only
  split
  · split <;> rfl
  · rfl

@[simp] theorem Pkg.elapse_holdAt (s : Pkg) (dt : Nat) : (s.elapse dt).cad.holdAt = s.cad.holdAt := by rw [Pkg.elapse_cad]
@[simp] theorem Pkg.elapse_day (s : Pkg) (dt : Nat) : (s.elapse dt).cad.day = s.cad.day := by rw [Pkg.elapse_cad]

theorem Pkg.rf_elapse (s : Pkg) (dt : Nat) {o : Nat} (other : o ≠ cadBase + 0x10) (hi lo : Nat) : (s.elapse dt).rf o hi lo = s.rf o hi lo := by
  unfold Pkg.rf
  rw [Pkg.rd_elapse _ _ _ other]

/-- Replaying is told by Tandem's state and registers (12 R322). -/
theorem Pkg.replaying_of_rd {p q : Pkg} (tdm : q.tdm = p.tdm) (state : q.rd tdmBase = p.rd tdmBase) (fab : q.rd fabBase = p.rd fabBase) :
    q.replaying = p.replaying := by
  unfold Pkg.replaying Pkg.tdmState Pkg.rf
  rw [tdm, state, fab]

@[simp] theorem Pkg.replaying_elapse (s : Pkg) (dt : Nat) : (s.elapse dt).replaying = s.replaying :=
  Pkg.replaying_of_rd (s.elapse_tdm dt) (s.rd_elapse dt _ (by decide)) (s.rd_elapse dt _ (by decide))

/-! ### Events of Cadence (13 R360) -/

theorem unsignalled_cad {x : Nat} (low : x < 0x1000000) : Unsignalled (cadBase + x) := by
  unfold Unsignalled cadBase odoBase
  omega

/-- The registers of Cadence that are not its error record's. -/
theorem cad_ne_err {x : Nat} (beside : x < 0xC00 ∨ 0xC40 ≤ x) : ∀ y < 0x40, cadBase + x ≠ Win.cad.err + y := by
  intro y low
  change cadBase + x ≠ cadBase + 0xC00 + y
  omega

section
variable {p q : Pkg} {x : Nat}

theorem Pkg.Signals.cadEvent (k : p.Signals (cadBase + x) q) (low : x < 0xC00) (info : Nat) (win : Bool) :
    p.Signals (cadBase + x) (q.cadEvent info win) := by
  have u : Unsignalled (cadBase + x) := unsignalled_cad (by omega)
  unfold Pkg.cadEvent
  exact (k.record u (cad_ne_err (.inl low)) _).odoEvent u ..

end

theorem Pkg.cadEvent_counts (s : Pkg) (info : Nat) (win : Bool) :
    (s.cadEvent info win).rf (Win.cad.err + 0x20) 31 0 = (s.rf (Win.cad.err + 0x20) 31 0 + 1) % 2 ^ 32 := by
  have u : Unsignalled (Win.cad.err + 0x20) := unsignalled_cad (x := 0xC20) (by decide)
  unfold Pkg.cadEvent
  rw [((Pkg.Signals.refl _ _).odoEvent u ..).rf, Pkg.record_counts_ce _ u rfl]

/-! ### HOLDOVER_DAY (13 R353, R360) -/

section
variable {s : Pkg} {t : Nat}

theorem Pkg.holdDay_due (since : s.cad.holdAt = some t) (hold : s.cadState = 3) (first : s.cad.day = false) (due : t + 86400 * 1000000000000 ≤ s.now) :
    s.holdDay = ({ s with cad := { s.cad with day := true } } : Pkg).cadEvent 3 true := by
  unfold Pkg.holdDay
  rw [since]
  exact if_pos ⟨hold, first, due⟩

theorem Pkg.holdDay_not_due (since : s.cad.holdAt = some t) (no : s.cad.day = true ∨ s.now < t + 86400 * 1000000000000) : s.holdDay = s := by
  unfold Pkg.holdDay
  rw [since]
  refine if_neg ?_
  rintro ⟨-, first, due⟩
  rcases no with counted | early
  · rw [counted] at first
    cases first
  · omega

/-- The event of the day leaves HOLDOVER, is noted, and counts one corrected error. -/
theorem Pkg.holdDay_counts (since : s.cad.holdAt = some t) (hold : s.cadState = 3) (first : s.cad.day = false)
    (due : t + 86400 * 1000000000000 ≤ s.now) :
    s.holdDay.cad.day = true ∧ s.holdDay.cadState = 3
      ∧ s.holdDay.rf (Win.cad.err + 0x20) 31 0 = (s.rf (Win.cad.err + 0x20) 31 0 + 1) % 2 ^ 32 := by
  rw [Pkg.holdDay_due since hold first due]
  have kept := (Pkg.Signals.refl (cadBase + 8) ({ s with cad := { s.cad with day := true } } : Pkg)).cadEvent (by decide) 3 true
  exact ⟨by rw [kept.cad], (kept.rf 1 0).trans hold, Pkg.cadEvent_counts ..⟩

end

/-! ### Doublewords of the schedule table (13 R356) -/

theorem sched_ne {j k : Nat} (i : Nat) (other : j ≠ k) : sched i j ≠ sched i k := by
  unfold sched
  omega

theorem sched_eq (i j : Nat) : sched i j = cadBase + (0x10000 + 0x20 * i + 8 * j) := by
  unfold sched
  omega

theorem unsignalled_sched {i j : Nat} (entry : i < 256) (dw : j < 4) : Unsignalled (sched i j) := by
  rw [sched_eq]
  exact unsignalled_cad (by omega)

theorem sched_ne_phase (i j : Nat) : sched i j ≠ cadBase + 0x10 := by
  unfold sched
  omega

theorem sched_ne_tandem {i j : Nat} (entry : i < 256) (dw : j < 4) : tdmBase ≠ sched i j ∧ fabBase ≠ sched i j := by
  unfold sched cadBase tdmBase fabBase footBase
  omega

/-! ### SCHEDULE_FIRE (13 R357) -/

/-- A counter field that has grown reads as its sum, up to its greatest value. -/
theorem Pkg.rf_sat_same (s : Pkg) (o : Nat) {hi lo : Nat} (k : Nat) (order : lo ≤ hi) (word : hi < 64) :
    (s.sat o hi lo k).rf o hi lo = min (s.rf o hi lo + k) (2 ^ (hi - lo + 1) - 1) := by
  unfold Pkg.sat
  rw [Pkg.rf_wf_same _ _ _ _ _ order word, Nat.mod_eq_of_lt]
  have := Nat.one_le_two_pow (n := hi - lo + 1)
  omega

/-- Occurrences of entry i that lie between NEXT and the present. -/
def Pkg.schedMissed (s : Pkg) (i : Nat) : Nat := (s.rdtime.toNat - (s.rd (sched i 3)).toNat) / s.schedPer i

/-- Entry i after an occurrence: a periodic one has its next one to come and has counted those missed, a one-shot one is disarmed; it has fired. -/
def Pkg.schedFired (s : Pkg) (i : Nat) : Pkg :=
  (if (s.rd (sched i 0)).getLsbD 1 then
      (s.sat (sched i 0) 15 8 (s.schedMissed i)).wr (sched i 3) (BitVec.ofNat 64 ((s.rd (sched i 3)).toNat + (s.schedMissed i + 1) * s.schedPer i))
    else s.wb (sched i 0) 0 false).wb (sched i 0) 6 true

section
variable {s : Pkg} {i : Nat}

theorem Pkg.schedDue_iff : s.schedDue i = true ↔ (s.rd (sched i 0)).getLsbD 0 = true ∧ (s.rd (sched i 3)).toNat ≤ s.rdtime.toNat := by
  simp [Pkg.schedDue, Pkg.rb]

theorem Pkg.schedFire_early (early : s.rdtime.toNat < (s.rd (sched i 3)).toNat) : s.schedFire i = s := by
  have wait : s.schedDue i = false := by
    rw [← Bool.not_eq_true, Pkg.schedDue_iff]
    omega
  simp [Pkg.schedFire, wait]

/-- Shimmy off, a due entry of a package that has booted and runs goes on to its next occurrence, and acts. -/
theorem Pkg.schedFire_due (booted : s.boot.ended = true) (runs : s.boot.stop.isSome = false) (off : s.shm.on = false) (idle : s.shm.acts = [])
    (due : s.schedDue i = true) : s.schedFire i = (s.schedFired i).schedAct (s.rd (sched i 0)) := by
  have skew (p : Pkg) (same : p.shm = s.shm) (k : Pkg → Pkg) : p.shmSkew 0 i (s.rd (sched i 0)).toNat k = k p :=
    Pkg.shmSkew_off (by rw [same, off]) ..
  unfold Pkg.schedFire
  simp only [booted, runs, due, Pkg.shmHas_idle idle, Bool.not_true, Bool.or_false, Bool.false_eq_true, if_false, Nat.add_sub_cancel]
  rw [skew]
  · rfl
  · split <;> rfl

theorem Pkg.schedFired_fired : (s.schedFired i).rb (sched i 0) 6 = true := Pkg.rb_wb_same _ _ _ _ (by decide)

theorem Pkg.schedFired_once (once : (s.rd (sched i 0)).getLsbD 1 = false) : (s.schedFired i).rb (sched i 0) 0 = false := by
  unfold Pkg.schedFired
  rw [Pkg.rb_wb_otherBit _ _ _ (by decide) (by decide), if_neg (by rw [once]; decide), Pkg.rb_wb_same _ _ _ _ (by decide)]

theorem Pkg.schedFired_periodic (armed : (s.rd (sched i 0)).getLsbD 0 = true) (periodic : (s.rd (sched i 0)).getLsbD 1 = true) :
    (s.schedFired i).rb (sched i 0) 0 = true
      ∧ (s.schedFired i).rd (sched i 3) = BitVec.ofNat 64 ((s.rd (sched i 3)).toNat + (s.schedMissed i + 1) * s.schedPer i)
      ∧ (s.schedFired i).rf (sched i 0) 15 8 = min (bits (s.rd (sched i 0)) 15 8 + s.schedMissed i) 255 := by
  have other : sched i 3 ≠ sched i 0 := sched_ne i (by decide)
  unfold Pkg.schedFired
  rw [if_pos periodic]
  refine ⟨?_, ?_, ?_⟩
  · rw [Pkg.rb_wb_otherBit _ _ _ (by decide) (by decide), Pkg.rb, Pkg.rd_wr_other _ _ _ _ other.symm, Pkg.sat, Pkg.rd_wf_same,
      getLsbD_setBits_other _ _ _ _ _ (by decide) (by decide)]
    exact armed
  · rw [Pkg.rd_wb_other _ _ _ _ _ other, Pkg.rd_wr_same]
  · rw [Pkg.wb, Pkg.rf_wf_other _ _ _ _ _ _ _ (by decide) (by decide) (by decide) (by decide), Pkg.rf, Pkg.rd_wr_other _ _ _ _ other.symm]
    exact Pkg.rf_sat_same _ _ _ (by decide) (by decide)

/-- A firing writes the entry's doublewords 0 and 3 alone. -/
theorem Pkg.schedFired_kept : (s.schedFired i).tdm = s.tdm ∧ ∀ o, o ≠ sched i 0 → o ≠ sched i 3 → (s.schedFired i).rd o = s.rd o := by
  unfold Pkg.schedFired
  split
  · exact ⟨rfl, fun o dw0 dw3 => by rw [Pkg.rd_wb_other _ _ _ _ _ dw0, Pkg.rd_wr_other _ _ _ _ dw3, Pkg.rd_sat_other _ _ _ _ _ _ dw0]⟩
  · exact ⟨rfl, fun o dw0 _ => by rw [Pkg.rd_wb_other _ _ _ _ _ dw0, Pkg.rd_wb_other _ _ _ _ _ dw0]⟩

theorem Pkg.replaying_schedFired (entry : i < 256) : (s.schedFired i).replaying = s.replaying := by
  obtain ⟨tdm, kept⟩ := s.schedFired_kept (i := i)
  have dw0 := sched_ne_tandem entry (j := 0) (by decide)
  have dw3 := sched_ne_tandem entry (j := 3) (by decide)
  exact Pkg.replaying_of_rd tdm (kept _ dw0.1 dw3.1) (kept _ dw0.2 dw3.2)

theorem Pkg.schedAct_none {dw : Word} (none_ : bits dw 4 2 = 0) : s.schedAct dw = s := by
  simp only [Pkg.schedAct, none_]

theorem Pkg.schedAct_vector {dw : Word} (vector : bits dw 4 2 = 1) : s.schedAct dw = s.ticSet (bits dw 26 16) 35 := by
  simp only [Pkg.schedAct, vector]

/-- Actions 0 and 1 signal at most. -/
theorem Pkg.Signals.schedAct {o : Nat} {p q : Pkg} (k : p.Signals o q) (u : Unsignalled o) {dw : Word} (act : bits dw 4 2 ≤ 1) :
    p.Signals o (q.schedAct dw) := by
  rcases (by omega : bits dw 4 2 = 0 ∨ bits dw 4 2 = 1) with none_ | vector
  · rw [Pkg.schedAct_none none_]
    exact k
  · rw [Pkg.schedAct_vector vector]
    exact k.ticSet u (bits_lt ..) 35

/-- A vector set from outside the threads is pending on a package that does not replay. -/
theorem Pkg.pendv_ticSet_running (runs : s.replaying = false) {h v : Nat} (lt : h < 2048) (hv : v < 128) : (s.ticSet h v).pendv h v = true := by
  unfold Pkg.ticSet
  rw [if_neg (by simp [runs])]
  exact Pkg.pendv_raiseVec _ lt hv _

/-- What a due entry of action 0 or 1 becomes. -/
theorem Pkg.schedFire_does (entry : i < 256) (live : s.live = true) (booted : s.boot.ended = true) (off : s.shm.on = false) (idle : s.shm.acts = [])
    (runs : s.replaying = false) (armed : (s.rd (sched i 0)).getLsbD 0 = true) (due : (s.rd (sched i 3)).toNat ≤ s.rdtime.toNat)
    (act : bits (s.rd (sched i 0)) 4 2 ≤ 1) :
    (s.schedFire i).rb (sched i 0) 6 = true
      ∧ (bits (s.rd (sched i 0)) 4 2 = 1 → (s.schedFire i).pendv (bits (s.rd (sched i 0)) 26 16) 35 = true)
      ∧ ((s.rd (sched i 0)).getLsbD 1 = false → (s.schedFire i).rb (sched i 0) 0 = false)
      ∧ ((s.rd (sched i 0)).getLsbD 1 = true → (s.schedFire i).rb (sched i 0) 0 = true
        ∧ (s.schedFire i).rd (sched i 3) = BitVec.ofNat 64 ((s.rd (sched i 3)).toNat + (s.schedMissed i + 1) * s.schedPer i)
        ∧ (s.schedFire i).rf (sched i 0) 15 8 = min (bits (s.rd (sched i 0)) 15 8 + s.schedMissed i) 255) := by
  rw [Pkg.schedFire_due booted (Pkg.stop_isSome_of_live live) off idle (Pkg.schedDue_iff.mpr ⟨armed, due⟩)]
  have dw0 := (Pkg.Signals.refl (sched i 0) (s.schedFired i)).schedAct (unsignalled_sched entry (by decide)) act
  have dw3 := (Pkg.Signals.refl (sched i 3) (s.schedFired i)).schedAct (unsignalled_sched entry (by decide)) act
  simp only [dw0.rb, dw0.rf, dw3.reg]
  refine ⟨Pkg.schedFired_fired, fun vector => ?_, Pkg.schedFired_once, Pkg.schedFired_periodic armed⟩
  rw [Pkg.schedAct_vector vector]
  exact Pkg.pendv_ticSet_running ((Pkg.replaying_schedFired entry).trans runs) (bits_lt ..) (by decide)

end

/-! ### SCHEDULE_ENTRY_WRITE (13 R356) -/

section
variable {s : Pkg} {i : Nat} {v : Word}

theorem Pkg.schedWrite_while_armed {j : Nat} (armed : (s.rd (sched i 0)).getLsbD 0 = true) (payload : j ≠ 0) : s.schedWrite i j v = s.wb cadStat 5 true := by
  simp only [Pkg.schedWrite, payload, armed, if_false, if_true]

theorem Pkg.schedWrite_start (idle : (s.rd (sched i 0)).getLsbD 0 = false) : s.schedWrite i 1 v = s.wr (sched i 1) v := by
  simp only [Pkg.schedWrite, idle, Nat.one_ne_zero, Bool.false_eq_true, if_false, if_true]

theorem Pkg.schedWrite_period (idle : (s.rd (sched i 0)).getLsbD 0 = false) :
    s.schedWrite i 2 v = s.wr (sched i 2) (if v.toNat < 1000 then 1000#64 else v) := by
  have other : (2 : Nat) ≠ 0 ∧ (2 : Nat) ≠ 1 := by decide
  simp only [Pkg.schedWrite, idle, other, Bool.false_eq_true, if_false, if_true]

/-- The control doubleword that a write of v leaves in an entry that was not armed and had `fired` or not. -/
def schedControl (v : Word) (fired : Bool) : Word :=
  setBits (setBits (v &&& 0x0000FFFF07FFFF3F#64) 6 6 (if fired then 1 else 0)) 15 8 (min 255 (bits v 15 8))

theorem schedControl_getLsbD (v : Word) (fired : Bool) {b : Nat} (low : b < 2) : (schedControl v fired).getLsbD b = v.getLsbD b := by
  unfold schedControl
  rw [getLsbD_setBits_other _ _ _ _ _ (by omega) (by omega), getLsbD_setBits_other _ _ _ _ _ (by omega) (by omega), BitVec.getLsbD_and]
  have mask : ∀ b < 2, (0x0000FFFF07FFFF3F#64).getLsbD b = true := by decide
  rw [mask b low, Bool.and_true]

/-- The control doubleword of an entry that is not armed is written with EN: the entry is armed. -/
theorem Pkg.schedWrite_arms (idle : (s.rd (sched i 0)).getLsbD 0 = false) (arm : v.getLsbD 0 = true) :
    s.schedWrite i 0 v = ((s.wr (sched i 0) 0#64).wr (sched i 0) (schedControl v ((s.rd (sched i 0)).getLsbD 6 && !v.getLsbD 6))).schedArm i := by
  have unfired : (0#64).getLsbD 6 = false := by decide
  have unmissed : bits 0#64 15 8 = 0 := by decide
  simp only [Pkg.schedWrite, schedControl, idle, arm, Pkg.rd_wr_same, unfired, unmissed, Bool.false_and, Bool.true_and, Bool.not_false, Bool.true_or,
    Bool.false_or, Bool.false_eq_true, if_false, if_true, Nat.add_zero]

theorem Pkg.schedArm_once (once : s.rb (sched i 0) 1 = false) : (s.schedArm i).rd (sched i 3) = s.rd (sched i 1) := by
  simp [Pkg.schedArm, once]

theorem Pkg.schedWrite_arms_does (idle : (s.rd (sched i 0)).getLsbD 0 = false) (arm : v.getLsbD 0 = true) :
    (s.schedWrite i 0 v).rb (sched i 0) 0 = true ∧ (s.schedWrite i 0 v).rb (sched i 0) 1 = v.getLsbD 1
      ∧ (v.getLsbD 1 = false → (s.schedWrite i 0 v).rd (sched i 3) = s.rd (sched i 1))
      ∧ s.DrsBut (s.schedWrite i 0 v) [sched i 0, sched i 3] ∧ s.OnlyRegs (s.schedWrite i 0 v) := by
  rw [Pkg.schedWrite_arms idle arm]
  generalize ((s.rd (sched i 0)).getLsbD 6 && !v.getLsbD 6) = fired
  have written (b : Nat) (low : b < 2) :
      ((s.wr (sched i 0) 0#64).wr (sched i 0) (schedControl v fired)).rb (sched i 0) b = v.getLsbD b := by
    rw [Pkg.rb, Pkg.rd_wr_same, schedControl_getLsbD v fired low]
  have armed (b : Nat) (low : b < 2) :
      (((s.wr (sched i 0) 0#64).wr (sched i 0) (schedControl v fired)).schedArm i).rb (sched i 0) b = v.getLsbD b := by
    rw [← written b low]
    exact congrArg (·.getLsbD b) (Pkg.rd_wr_other _ _ _ _ (sched_ne (j := 0) (k := 3) i (by decide)))
  refine ⟨(armed 0 (by decide)).trans arm, armed 1 (by decide), fun once => ?_, fun o out => ?_, (((Pkg.OnlyRegs.refl s).wr ..).wr ..).wr ..⟩
  · have other : sched i 1 ≠ sched i 0 := sched_ne i (by decide)
    rw [Pkg.schedArm_once ((written 1 (by decide)).trans once), Pkg.rd_wr_other _ _ _ _ other, Pkg.rd_wr_other _ _ _ _ other]
  · obtain ⟨dw0, dw3⟩ : o ≠ sched i 0 ∧ o ≠ sched i 3 := by simpa using out
    exact (Pkg.rd_wr_other _ _ _ _ dw3).trans ((Pkg.rd_wr_other _ _ _ _ dw0).trans (Pkg.rd_wr_other _ _ _ _ dw0))

end

/-! ### CAD_CFG_WRITE (13 R353) -/

/-- What a write of v leaves in CAD_CFG. -/
def cadCfgWord (v : Word) : Word :=
  setBits (setBits (setBits (setBits 0#64 1 0 (bits v 1 0)) 15 8 (if bits v 15 8 = 0 then 1 else bits v 15 8)) 19 16
    (if bits v 19 16 < 2 then 2 else bits v 19 16)) 63 63 (bits v 63 63)

theorem cadCfgWord_low (v : Word) {b : Nat} (low : b < 2) : (cadCfgWord v).getLsbD b = v.getLsbD b := by
  unfold cadCfgWord
  rw [getLsbD_setBits_other _ _ _ _ _ (by omega) (by omega), getLsbD_setBits_other _ _ _ _ _ (by omega) (by omega),
    getLsbD_setBits_other _ _ _ _ _ (by omega) (by omega), setBits_getLsbD _ _ _ _ _ (by omega), if_pos (by omega), bits_testBit]
  simp [show b < 1 + 1 from low]

theorem cadCfgWord_lock (v : Word) : (cadCfgWord v).getLsbD 63 = v.getLsbD 63 := by
  unfold cadCfgWord
  rw [setBits_getLsbD _ _ _ _ _ (by decide), if_pos (by decide), bits_testBit]
  simp

theorem cadCfgWord_window (v : Word) : bits (cadCfgWord v) 15 8 = max 1 (bits v 15 8) := by
  have field := bits_lt v 15 8
  unfold cadCfgWord
  rw [bits_setBits_other _ _ _ _ _ _ (by decide) (by decide) (by decide) (by decide),
    bits_setBits_other _ _ _ _ _ _ (by decide) (by decide) (by decide) (by decide), bits_setBits_same _ _ _ _ (by decide) (by decide)]
  split <;> omega

theorem cadCfgWord_edges (v : Word) : bits (cadCfgWord v) 19 16 = max 2 (bits v 19 16) := by
  have field := bits_lt v 19 16
  unfold cadCfgWord
  rw [bits_setBits_other _ _ _ _ _ _ (by decide) (by decide) (by decide) (by decide), bits_setBits_same _ _ _ _ (by decide) (by decide)]
  split <;> omega

/-- HOLDOVER, if it was, ends: its seconds are noted. -/
def Pkg.holdoverLeft (s : Pkg) : Pkg :=
  if s.cadState = 3 then
    let sec := match s.cad.holdAt with | some t => min ((s.now - t) / 1000000000000) (2 ^ 32 - 1) | none => 0
    { (s.wf cadStat 63 32 sec) with cad := { s.cad with holdAt := none } }
  else s

theorem Pkg.cadTo_zero (s : Pkg) : s.cadState = 0 ∧ s.cadTo 0 = s
    ∨ ∃ c, s.cadTo 0 = ({ s.holdoverLeft.wf cadStat 1 0 0 with cad := c } : Pkg).cadEvent 0 false := by
  by_cases same : s.cadState = 0
  · exact .inl ⟨same, if_pos same⟩
  · exact .inr ⟨_, if_neg same⟩

theorem Pkg.rd_holdoverLeft (s : Pkg) {o : Nat} (other : o ≠ cadStat) : s.holdoverLeft.rd o = s.rd o := by
  unfold Pkg.holdoverLeft
  split
  · exact Pkg.rd_wf_other _ _ _ _ _ _ other
  · rfl

/-- A return to UNLOCKED leaves CAD_CFG. -/
theorem Pkg.cadTo_unlocked (s : Pkg) : (s.cadTo 0).rd cadCfg = s.rd cadCfg ∧ (s.cadTo 0).cadState = 0 := by
  have other : cadCfg ≠ cadStat := by decide
  rcases s.cadTo_zero with ⟨already, e⟩ | ⟨c, e⟩ <;> rw [e]
  · exact ⟨rfl, already⟩
  · have cfg := (Pkg.Signals.refl (cadBase + 0) ({ s.holdoverLeft.wf cadStat 1 0 0 with cad := c } : Pkg)).cadEvent (by decide) 0 false
    have stat := (Pkg.Signals.refl (cadBase + 8) ({ s.holdoverLeft.wf cadStat 1 0 0 with cad := c } : Pkg)).cadEvent (by decide) 0 false
    exact ⟨cfg.reg.trans ((Pkg.rd_wf_other _ _ _ _ _ _ other).trans (s.rd_holdoverLeft other)),
      (stat.rf 1 0).trans (Pkg.rf_wf_same s.holdoverLeft cadStat 1 0 0 (by decide) (by decide))⟩

section
variable {s : Pkg} (v : Word)

theorem Pkg.cadCfgWrite_locked (locked : s.rb cadCfg 63 = true) : s.cadCfgWrite v = s := by simp [Pkg.cadCfgWrite, locked]

theorem Pkg.cadCfgWrite_open (unlocked : s.rb cadCfg 63 = false) :
    s.cadCfgWrite v = if v.getLsbD 0 then s.wr cadCfg (cadCfgWord v) else (s.wr cadCfg (cadCfgWord v)).cadTo 0 := by
  simp [Pkg.cadCfgWrite, cadCfgWord, unlocked]

theorem Pkg.cadCfgWrite_does (unlocked : s.rb cadCfg 63 = false) :
    (s.cadCfgWrite v).rd cadCfg = cadCfgWord v ∧ (s.cadCfgWrite v).cadState = if v.getLsbD 0 then s.cadState else 0 := by
  rw [Pkg.cadCfgWrite_open v unlocked]
  split
  · refine ⟨Pkg.rd_wr_same .., ?_⟩
    unfold Pkg.cadState Pkg.rf
    rw [Pkg.rd_wr_other _ _ _ _ (by decide)]
  · obtain ⟨cfg, state⟩ := (s.wr cadCfg (cadCfgWord v)).cadTo_unlocked
    exact ⟨cfg.trans (Pkg.rd_wr_same ..), state⟩

end

/-! ### CAD_TIME_NS_READ (13 R359) -/

/-- A read of CAD_TIME_NS shows the nanoseconds and latches the seconds. -/
theorem Pkg.cadTimeRead_does (s : Pkg) :
    s.cadTimeRead.1.rf (cadBase + 0x20) 47 0 = s.cadSec % 2 ^ 48 ∧ s.cadTimeRead.1.rf (cadBase + 0x18) 45 16 = s.cadNs % 1000000000
      ∧ s.DrsBut s.cadTimeRead.1 [cadBase + 0x18, cadBase + 0x20] ∧ s.OnlyRegs s.cadTimeRead.1 := by
  have other : cadBase + 0x18 ≠ cadBase + 0x20 := by decide
  refine ⟨Pkg.rf_wf_same _ _ _ _ _ (by decide) (by decide), ?_, fun o out => ?_, ((Pkg.OnlyRegs.refl s).wr ..).wr ..⟩
  · have ns : s.cadNs % 1000000000 < 2 ^ 30 := (Nat.mod_lt _ (by decide)).trans (by decide)
    unfold Pkg.cadTimeRead
    dsimp only
    rw [Pkg.rf, Pkg.rd_wf_other _ _ _ _ _ _ other, Pkg.rd_wr_same, bits, BitVec.toNat_ofNat]
    omega
  · obtain ⟨ns, sec⟩ : o ≠ cadBase + 0x18 ∧ o ≠ cadBase + 0x20 := by simpa using out
    exact (Pkg.rd_wf_other _ _ _ _ _ _ sec).trans (Pkg.rd_wr_other _ _ _ _ ns)

end Sys2Proof.Machine
end

section
/-! ## The mesh: a flit in a router that holds no other (08_mortar_mesh R211 to R217, R226 to R231) -/
namespace Sys2Proof.Machine

/-! ### Router buffers -/

theorem bufKey_inj {a b i j m n : Nat} (hi : i < 7) (hj : j < 7) (hm : m < 8) (hn : n < 8) (same : bufKey a i m = bufKey b j n) :
    a = b ∧ i = j ∧ m = n := by
  unfold bufKey at same
  omega

theorem meshVn_lt (m : MeshMsg) : meshVn m < 8 := by cases m <;> decide

theorem vnDepth_pos (vn : Nat) : 0 < vnDepth vn := by
  unfold vnDepth
  split
  · decide
  · split <;> decide

theorem routeOut_le (stop dst : Nat) : routeOut stop dst ≤ 4 := by
  unfold routeOut
  split_ifs <;> decide

/-- A flit that is not at its destination leaves over a link, to one of the next router's first four inputs. -/
theorem routeNext_input (stop out : Nat) : (routeNext stop out).2 < 4 := by
  unfold routeNext
  split <;> simp

/-- The buffer of a VN beyond a link. -/
def beyondKey (stop out vn : Nat) : Nat := bufKey (routeNext stop out).1 (routeNext stop out).2 vn

/-- It is not one that a router's own ports fill. -/
theorem beyondKey_ne_local {inp vn : Nat} (atPort : 4 ≤ inp) (input : inp < 7) (net : vn < 8) (stop at_ out : Nat) :
    beyondKey at_ out vn ≠ bufKey stop inp vn := fun same => by
  have link := routeNext_input at_ out
  obtain ⟨-, e, -⟩ := bufKey_inj (by omega) input net net same
  omega

theorem Pkg.buf_setBuf (s : Pkg) (k j : Nat) (l : List Flit) : (s.setBuf k l).buf j = if j = k then l else s.buf j := Map.get_set buf0 s.noc.bufs k j l

theorem Pkg.buf_pushFlit (s : Pkg) (k j : Nat) (g : Flit) :
    (s.pushFlit k g).buf j = if j = k then s.buf k ++ [{ g with age := s.noc.tick }] else s.buf j := s.buf_setBuf k j _

theorem Pkg.Signals.buf {o : Nat} {p q : Pkg} (k : p.Signals o q) (j : Nat) : q.buf j = p.buf j := by
  unfold Pkg.buf
  rw [k.noc]

theorem Pkg.Signals.tick {o : Nat} {p q : Pkg} (k : p.Signals o q) : q.noc.tick = p.noc.tick := by rw [k.noc]

/-! ### A router with one flit -/

/-- The router at `stop` holds g, checked, at input `inp` of VN `vn` and no other flit; Shimmy puts nothing off. -/
structure Pkg.HoldsOnly (s : Pkg) (stop inp vn : Nat) (g : Flit) : Prop where
  input : inp < 7
  net : vn < 8
  here : s.buf (bufKey stop inp vn) = [g]
  else_ : ∀ i < 7, ∀ n < 8, (i ≠ inp ∨ n ≠ vn) → s.buf (bufKey stop i n) = []
  checked : g.seen = true
  idle : s.shm.acts = []

/-- Whether a link has a credit for a VN: room in the buffer beyond it, and no retrain. -/
def Pkg.linkFree (s : Pkg) (stop out vn : Nat) : Bool :=
  decide ((s.buf (beyondKey stop out vn)).length < vnDepth vn) && !s.retraining (routeNext stop out).1 (routeNext stop out).2

theorem Pkg.linkFree_iff {s : Pkg} {stop out vn : Nat} : s.linkFree stop out vn = true
    ↔ (s.buf (beyondKey stop out vn)).length < vnDepth vn ∧ s.retraining (routeNext stop out).1 (routeNext stop out).2 = false := by
  simp [Pkg.linkFree]

theorem Pkg.linkFree_eq_false_iff {s : Pkg} {stop out vn : Nat} : s.linkFree stop out vn = false
    ↔ vnDepth vn ≤ (s.buf (beyondKey stop out vn)).length ∨ s.retraining (routeNext stop out).1 (routeNext stop out).2 = true := by
  rw [← Bool.not_eq_true, Pkg.linkFree_iff, not_and_or, Nat.not_lt, Bool.not_eq_false]

/-- Whether a flit's output takes it: its destination port does, a link does with a credit. -/
def Pkg.mayLeave (s : Pkg) (stop vn : Nat) (g : Flit) : Bool := decide (4 ≤ flitOut stop g) || s.linkFree stop (flitOut stop g) vn

section
variable {s : Pkg} {stop inp vn : Nat} {g : Flit}

theorem Pkg.creditHeld_idle (idle : s.shm.acts = []) (stop out vn : Nat) : s.creditHeld stop out vn = false := by
  simp [Pkg.creditHeld, idle]

section
variable (only : s.HoldsOnly stop inp vn g)
include only

/-- No older IOP flit is before it (R231): the router holds no other. -/
theorem Pkg.HoldsOnly.none_older : (vn == 1 && (s.buf (bufKey stop inp 2)).any (fun q => decide (q.age < g.age) && flitOut stop q == flitOut stop g)) = false := by
  by_cases ionp : vn = 1
  · rw [only.else_ inp only.input 2 (by decide) (.inr (by omega)), List.any_nil, Bool.and_false]
  · simp [ionp]

theorem Pkg.HoldsOnly.ready : s.flitReady stop inp vn = if s.mayLeave stop vn g then some g else none := by
  unfold Pkg.flitReady
  rw [only.here]
  simp only [only.none_older, only.checked, Pkg.creditHeld_idle only.idle, Bool.not_false, Bool.and_true, Bool.true_and]
  rfl

theorem Pkg.HoldsOnly.ready_else {i n : Nat} (hi : i < 7) (hn : n < 8) (other : i ≠ inp ∨ n ≠ vn) : s.flitReady stop i n = none := by
  unfold Pkg.flitReady
  rw [only.else_ i hi n hn other]

/-- The round-robin of its output comes to it. -/
theorem Pkg.HoldsOnly.turn (may : s.mayLeave stop vn g = true) : s.outTurn stop (flitOut stop g) = some (8 * inp + vn) := by
  have input := only.input
  have net := only.net
  have inputOf : (8 * inp + vn) / 8 = inp := by omega
  have netOf : (8 * inp + vn) % 8 = vn := by omega
  unfold Pkg.outTurn
  dsimp only
  generalize Map.get rr0 s.noc.rr (stop * 8 + flitOut stop g) = p0
  generalize turn : List.findSome? _ _ = found
  cases found with
  | none =>
    rw [List.findSome?_eq_none_iff] at turn
    have passed := turn ((8 * inp + vn + 55 * (p0 + 1)) % 56) (List.mem_range.mpr (Nat.mod_lt _ (by decide)))
    have place : (p0 + 1 + (8 * inp + vn + 55 * (p0 + 1)) % 56) % 56 = 8 * inp + vn := by omega
    simp [place, inputOf, netOf, only.ready, may] at passed
  | some p =>
    obtain ⟨i, -, at_⟩ := List.exists_of_findSome?_eq_some turn
    have within : (p0 + 1 + i) % 56 < 56 := Nat.mod_lt _ (by decide)
    generalize (p0 + 1 + i) % 56 = x at at_ within
    by_cases mine : x / 8 = inp ∧ x % 8 = vn
    · obtain ⟨e, e'⟩ := mine
      have same : x = 8 * inp + vn := by omega
      rw [e, e', only.ready, if_pos may] at at_
      simpa [same] using at_.symm
    · rw [only.ready_else (by omega) (by omega) (by omega)] at at_
      cases at_

end

/-! ### How the flit goes on (08 R212, R228) -/

/-- An output has granted the flit of a router's only occupied buffer. -/
def Pkg.released (s : Pkg) (stop inp vn out : Nat) : Pkg :=
  let t := s.setBuf (bufKey stop inp vn) []
  { t with noc := { t.noc with rr := Map.set rr0 t.noc.rr (stop * 8 + out) (8 * inp + vn) } }

theorem Pkg.buf_released (s : Pkg) (stop inp vn out j : Nat) :
    (s.released stop inp vn out).buf j = if j = bufKey stop inp vn then [] else s.buf j := s.buf_setBuf _ j []

/-- q differs from p in the mesh alone. -/
def Pkg.OnlyMesh (p q : Pkg) : Prop := q = { p with noc := q.noc }

theorem Pkg.onlyMesh_pushFlit (s : Pkg) (k : Nat) (g : Flit) : s.OnlyMesh (s.pushFlit k g) := rfl

theorem Pkg.OnlyMesh.pushFlit {p q : Pkg} (only : p.OnlyMesh q) (k : Nat) (g : Flit) : p.OnlyMesh (q.pushFlit k g) := by
  unfold Pkg.OnlyMesh Pkg.pushFlit Pkg.setBuf
  rw [only]

theorem Pkg.OnlyMesh.released {p q : Pkg} (only : p.OnlyMesh q) (stop inp vn out : Nat) : p.OnlyMesh (q.released stop inp vn out) := by
  unfold Pkg.OnlyMesh Pkg.released Pkg.setBuf
  rw [only]

theorem flitOut_home (home : routeOut stop g.op.dst = 4) : flitOut stop g = 4 + g.op.port := if_pos home

theorem flitOut_away (away : routeOut stop g.op.dst ≠ 4) : flitOut stop g = routeOut stop g.op.dst := if_neg away

theorem Pkg.mayLeave_home (home : routeOut stop g.op.dst = 4) : s.mayLeave stop vn g = true := by
  unfold Pkg.mayLeave
  rw [flitOut_home home]
  simp

theorem Pkg.mayLeave_away (away : routeOut stop g.op.dst ≠ 4) : s.mayLeave stop vn g = s.linkFree stop (routeOut stop g.op.dst) vn := by
  have within := routeOut_le stop g.op.dst
  unfold Pkg.mayLeave
  rw [flitOut_away away, decide_eq_false (by omega), Bool.false_or]

section
variable (only : s.HoldsOnly stop inp vn g)
include only

theorem Pkg.HoldsOnly.waits (full : s.mayLeave stop vn g = false) : s.flitGo stop inp vn = s := by
  unfold Pkg.flitGo
  rw [only.ready, full]
  rfl

/-- A flit whose output takes it goes to its destination port, or on to the next router. -/
theorem Pkg.HoldsOnly.leaves (may : s.mayLeave stop vn g = true) :
    s.flitGo stop inp vn = if 4 ≤ flitOut stop g then
        (if g.poison then (match g.op.line with
          | some l => (s.released stop inp vn (flitOut stop g)).poisonAt stop (flitOut stop g - 4) l
          | none => s.released stop inp vn (flitOut stop g)) else s.released stop inp vn (flitOut stop g))
      else (s.released stop inp vn (flitOut stop g)).pushFlit (beyondKey stop (flitOut stop g) vn) { g with seen := false } := by
  unfold Pkg.flitGo
  rw [only.ready, if_pos may]
  dsimp only
  rw [if_neg (not_not_intro (only.turn may)), only.here]
  rfl

theorem Pkg.HoldsOnly.ejects (home : routeOut stop g.op.dst = 4) (clean : g.poison = false) :
    s.flitGo stop inp vn = s.released stop inp vn (flitOut stop g) := by
  have port : 4 ≤ flitOut stop g := by
    rw [flitOut_home home]
    omega
  rw [only.leaves (Pkg.mayLeave_home home), if_pos port, if_neg (by rw [clean]; decide)]

theorem Pkg.HoldsOnly.moves (away : routeOut stop g.op.dst ≠ 4) (may : s.mayLeave stop vn g = true) :
    s.flitGo stop inp vn = (s.released stop inp vn (routeOut stop g.op.dst)).pushFlit (beyondKey stop (routeOut stop g.op.dst) vn) { g with seen := false } := by
  have within := routeOut_le stop g.op.dst
  rw [only.leaves may, flitOut_away away, if_neg (by omega)]

end
end

/-! ### Injection at a router's own port (08 R226) -/

/-- The flit of f as its router keeps it, checked. -/
def injected (f : FlitOp) (poison : Bool) : Flit := { op := f, chk := Config.flitCheck f.hdr f.pay, poison := poison, seen := true }

section
variable {s : Pkg} {stop inp : Nat} {f : FlitOp}

theorem Pkg.flitArrive_injects (atPort : 4 ≤ inp) (empty : s.buf (bufKey stop inp (meshVn f.msg)) = []) (e : FlitErr) :
    s.flitArrive stop inp f e = ((s.flitCheck stop inp f.line e).1.pushFlit (bufKey stop inp (meshVn f.msg))
      (injected f (s.flitCheck stop inp f.line e).2)).flitGo stop inp (meshVn f.msg) := by
  have room := vnDepth_pos (meshVn f.msg)
  unfold Pkg.flitArrive
  simp only [empty, List.filter_nil, List.length_nil]
  rw [if_neg (by omega)]
  rfl

/-- A flit pushed into a router that holds none is its only one. -/
theorem Pkg.holdsOnly_pushFlit {vn : Nat} {g : Flit} (input : inp < 7) (net : vn < 8) (empty : ∀ i < 7, ∀ n < 8, s.buf (bufKey stop i n) = [])
    (idle : s.shm.acts = []) (checked : g.seen = true) :
    (s.pushFlit (bufKey stop inp vn) g).HoldsOnly stop inp vn { g with age := s.noc.tick } where
  input := input
  net := net
  here := by rw [Pkg.buf_pushFlit, if_pos rfl, empty inp input vn net]; rfl
  else_ i hi n hn other := by
    have apart : bufKey stop i n ≠ bufKey stop inp vn := fun same => by
      obtain ⟨-, e, e'⟩ := bufKey_inj hi input hn net same
      omega
    rw [Pkg.buf_pushFlit, if_neg apart, empty i hi n hn]
  checked := checked
  idle := idle

end

/-! ### The check of a flit (08 R214) -/

/-- A bridge's registers are at a router of rows 0 to 8 (R215). -/
theorem bridgeOf_some {stop inp h l : Nat} {up : Bool} (bridge : bridgeOf stop inp = some (h, l, up)) : h < 144 ∧ l < 2 := by
  unfold bridgeOf at bridge
  extract_lets r at bridge
  have link : r.2.1 < 2 := by
    unfold r
    split <;> simp
  clear_value r
  split at bridge
  next built =>
    cases bridge
    obtain ⟨-, built⟩ := built
    refine ⟨?_, link⟩
    unfold bridgeAt at built
    split at built <;> simp at built <;> omega
  next => cases bridge

theorem unsignalled_brstat {n e : Nat} (stop : n < 160) (link : e < 2) : Unsignalled (meshBrstat n e) := by
  unfold Unsignalled meshBrstat meshBase tileBase footBase odoBase
  split_ifs <;> omega

theorem brstat_ne_err {n e : Nat} (m : Nat) (link : e < 2) : ∀ x < 0x40, meshBrstat n e ≠ (Win.mesh m).err + x := by
  intro x low
  change meshBase n + 0x200 + 0x20 * e ≠ meshBase m + 0xC00 + x
  unfold meshBase tileBase footBase
  split_ifs <;> omega

theorem Pkg.retraining_record (s : Pkg) (m : Nat) (e : Err) (n i : Nat) : (s.record (.mesh m) e).retraining n i = s.retraining n i := by
  unfold Pkg.retraining
  split
  next h l up bridge =>
    obtain ⟨holder, link⟩ := bridgeOf_some bridge
    rw [((Pkg.Signals.refl _ s).record (unsignalled_brstat (by omega) link) (brstat_ne_err m link) e).rf]
  next => rfl

/-! ### A stop (16 R421) -/

theorem Pkg.beginStop_stops (s : Pkg) (cause x y cls : Nat) : (s.beginStop cause x y cls).boot.stop.isSome = true := by
  unfold Pkg.beginStop
  split
  next stop => rw [stop]; rfl
  next => rfl

theorem Pkg.failStop_stops (s : Pkg) (w : Win) (cls : Nat) : (s.failStop w cls).boot.stop.isSome = true := by
  unfold Pkg.failStop
  split
  next stop => rw [stop]; rfl
  next => rw [((Pkg.Signals.refl _ _).odoEvent (unsignalled_cad (x := 0) (by decide)) ..).boot, Pkg.beginStop_stops]

theorem Pkg.boot_poisonAt (s : Pkg) (stop port line : Nat) : (s.poisonAt stop port line).boot = s.boot := by
  unfold Pkg.poisonAt
  extract_lets mark t l2 l3 m
  split
  · split
    · have copied : l2.boot = s.boot := by
        unfold l2
        split <;> rfl
      exact copied
    · split
      · have copied : l3.boot = s.boot := by
          unfold l3
          split <;> rfl
        split <;> exact copied
      · rfl
  · split
    · split <;> rfl
    · rfl

theorem Pkg.boot_flitGo (s : Pkg) (stop inp vn : Nat) : (s.flitGo stop inp vn).boot = s.boot := by
  unfold Pkg.flitGo
  split
  · rfl
  · extract_lets out left granted
    split
    · rfl
    · split
      · split
        · split
          · exact Pkg.boot_poisonAt ..
          · rfl
        · rfl
      · rfl

/-! ### MESH_FLIT_ARRIVAL at a router's own port -/

/-- Every buffer of a router that holds no flit. -/
theorem Pkg.buffers_empty {s : Pkg} {stop : Nat} (none_ : ∀ x, x < 56 → s.buf (bufKey stop (x / 8) (x % 8)) = []) :
    ∀ i < 7, ∀ n < 8, s.buf (bufKey stop i n) = [] := by
  intro i hi n hn
  have at_ := none_ (8 * i + n) (by omega)
  rwa [show (8 * i + n) / 8 = i by omega, show (8 * i + n) % 8 = n by omega] at at_

/-- A flit at a router's own port takes no credit of a link. -/
theorem Pkg.linkFree_pushFlit (s : Pkg) {inp vn : Nat} (atPort : 4 ≤ inp) (input : inp < 7) (net : vn < 8) (stop out : Nat) (g : Flit) :
    (s.pushFlit (bufKey stop inp vn) g).linkFree stop out vn = s.linkFree stop out vn := by
  simp only [Pkg.linkFree, Pkg.buf_pushFlit, if_neg (beyondKey_ne_local atPort input net stop stop out)]
  rfl

theorem Pkg.linkFree_congr {p q : Pkg} (buf : ∀ j, q.buf j = p.buf j) (retraining : ∀ n i, q.retraining n i = p.retraining n i) (stop out vn : Nat) :
    q.linkFree stop out vn = p.linkFree stop out vn := by
  unfold Pkg.linkFree
  rw [buf, retraining]

/-- A flit is put into its port's buffer, and goes on if it can. -/
def Pkg.enterMesh (s : Pkg) (stop inp : Nat) (f : FlitOp) (poison : Bool) : Pkg :=
  (s.pushFlit (bufKey stop inp (meshVn f.msg)) (injected f poison)).flitGo stop inp (meshVn f.msg)

section
variable {s : Pkg} {stop inp : Nat} {f : FlitOp} (input : inp < 7) (empty : ∀ i < 7, ∀ n < 8, s.buf (bufKey stop i n) = []) (idle : s.shm.acts = [])

include input empty idle

theorem Pkg.holdsOnly_injected (poison : Bool) :
    (s.pushFlit (bufKey stop inp (meshVn f.msg)) (injected f poison)).HoldsOnly stop inp (meshVn f.msg) { injected f poison with age := s.noc.tick } :=
  Pkg.holdsOnly_pushFlit input (meshVn_lt _) empty idle rfl

theorem Pkg.enterMesh_home (home : routeOut stop f.dst = 4) : (s.enterMesh stop inp f false).buf = s.buf ∧ s.OnlyMesh (s.enterMesh stop inp f false) := by
  have left := (Pkg.holdsOnly_injected input empty idle false).ejects home rfl
  unfold Pkg.enterMesh
  rw [left]
  refine ⟨funext fun j => ?_, (Pkg.onlyMesh_pushFlit ..).released ..⟩
  rw [Pkg.buf_released, Pkg.buf_pushFlit]
  split
  next here => rw [here, empty inp input _ (meshVn_lt _)]
  next => rfl

section
variable (atPort : 4 ≤ inp) (away : routeOut stop f.dst ≠ 4)
include atPort away

theorem Pkg.enterMesh_waits (full : s.linkFree stop (routeOut stop f.dst) (meshVn f.msg) = false) (poison : Bool) :
    s.enterMesh stop inp f poison = s.pushFlit (bufKey stop inp (meshVn f.msg)) (injected f poison) := by
  refine (Pkg.holdsOnly_injected input empty idle poison).waits ?_
  rw [Pkg.mayLeave_away away]
  exact (s.linkFree_pushFlit atPort input (meshVn_lt _) ..).trans full

theorem Pkg.enterMesh_moves (free : s.linkFree stop (routeOut stop f.dst) (meshVn f.msg) = true) (poison : Bool) :
    s.enterMesh stop inp f poison = ((s.pushFlit (bufKey stop inp (meshVn f.msg)) (injected f poison)).released stop inp (meshVn f.msg)
      (routeOut stop f.dst)).pushFlit (beyondKey stop (routeOut stop f.dst) (meshVn f.msg)) { injected f poison with age := s.noc.tick, seen := false } := by
  refine (Pkg.holdsOnly_injected input empty idle poison).moves away ?_
  rw [Pkg.mayLeave_away away]
  exact (s.linkFree_pushFlit atPort input (meshVn_lt _) ..).trans free

theorem Pkg.onlyMesh_enterMesh_moves (free : s.linkFree stop (routeOut stop f.dst) (meshVn f.msg) = true) (poison : Bool) :
    s.OnlyMesh (s.enterMesh stop inp f poison) := by
  rw [Pkg.enterMesh_moves input empty idle atPort away free poison]
  exact ((Pkg.onlyMesh_pushFlit ..).released ..).pushFlit ..

/-- On its way the flit is in the buffer beyond the link, and every other buffer is as it was. -/
theorem Pkg.buf_enterMesh_moves (free : s.linkFree stop (routeOut stop f.dst) (meshVn f.msg) = true) (poison : Bool) (j : Nat) :
    (s.enterMesh stop inp f poison).buf j = if j = beyondKey stop (routeOut stop f.dst) (meshVn f.msg)
      then s.buf j ++ [{ injected f poison with age := s.noc.tick + 1, seen := false }] else s.buf j := by
  have apart := beyondKey_ne_local atPort input (meshVn_lt f.msg) stop stop (routeOut stop f.dst)
  rw [Pkg.enterMesh_moves input empty idle atPort away free poison, Pkg.buf_pushFlit]
  split
  next beyond =>
    rw [beyond, Pkg.buf_released, if_neg apart, Pkg.buf_pushFlit, if_neg apart]
    rfl
  next =>
    rw [Pkg.buf_released, Pkg.buf_pushFlit]
    split
    next here => rw [here, empty inp input _ (meshVn_lt _)]
    next => rfl

theorem Pkg.buf_enterMesh_waits (full : s.linkFree stop (routeOut stop f.dst) (meshVn f.msg) = false) (poison : Bool) (j : Nat) :
    (s.enterMesh stop inp f poison).buf j = if j = bufKey stop inp (meshVn f.msg) then [{ injected f poison with age := s.noc.tick }] else s.buf j := by
  rw [Pkg.enterMesh_waits input empty idle atPort away full, Pkg.buf_pushFlit, empty inp input _ (meshVn_lt _)]
  rfl

end
end

/-! ### The errors that a flit may meet (08 R214) -/

section
variable {s : Pkg} {stop inp : Nat} {f : FlitOp} (atPort : 4 ≤ inp) (empty : s.buf (bufKey stop inp (meshVn f.msg)) = [])
include atPort empty

theorem Pkg.flitArrive_clean : s.flitArrive stop inp f .none = s.enterMesh stop inp f false := Pkg.flitArrive_injects atPort empty .none

theorem Pkg.flitArrive_payUe : s.flitArrive stop inp f .payUe
    = (s.record (.mesh stop) { cls := 1, code := 4, addr := f.line.map (64 * ·), info := inp }).enterMesh stop inp f true :=
  Pkg.flitArrive_injects atPort empty .payUe

/-- An uncorrectable error in a header stops the package. -/
theorem Pkg.flitArrive_hdrUe_stops : (s.flitArrive stop inp f .hdrUe).boot.stop.isSome = true := by
  rw [Pkg.flitArrive_injects atPort empty, Pkg.boot_flitGo]
  exact Pkg.failStop_stops ..

end

/-! ### BRIDGE_RETRAIN_COMPLETE (08 R217) -/

/-- A repaired lane is counted, recorded and noted. -/
def Pkg.laneMapped (s : Pkg) (hold e k : Nat) : Pkg :=
  let st := meshBrstat hold e
  let s := if k / 128 % 2 = 0 then s.inc st 4 2 else s.inc st 7 5
  let info := laneInp e (k / 128 % 2 == 0) + k % 128 * 2 ^ 8
  (s.ce (.mesh hold) 0x0C none info).odoEvent 0x09 3 hold (drsPa (Win.mesh hold).err) info

/-- The lanes of a retrain are in force. -/
def Pkg.lanesInForce (s : Pkg) (hold e : Nat) : Pkg :=
  ({ s with noc := { s.noc with
    repairing := s.noc.repairing.filter (fun k => k / 256 != hold * 2 + e)
    mapped := s.noc.mapped ++ s.noc.repairing.filter (fun k => k / 256 == hold * 2 + e) } } : Pkg).wf (meshBrstat hold e) 1 0 1

theorem Pkg.retrained_eq {s : Pkg} {hold e : Nat} (retrains : s.rf (meshBrstat hold e) 1 0 = 2) :
    s.retrained hold e = (s.noc.repairing.filter (fun k => k / 256 == hold * 2 + e)).foldl (fun s k => s.laneMapped hold e k) (s.lanesInForce hold e) :=
  if_neg (not_not_intro retrains)

/-- What counting a bridge's repaired lanes keeps: its state, and the mesh's lanes. -/
def Pkg.KeepsLanes (hold e : Nat) (p q : Pkg) : Prop :=
  q.rf (meshBrstat hold e) 1 0 = p.rf (meshBrstat hold e) 1 0 ∧ q.noc.repairing = p.noc.repairing ∧ q.noc.mapped = p.noc.mapped

theorem Pkg.keepsLanes_laneMapped (s : Pkg) {hold e : Nat} (holder : hold < 160) (link : e < 2) (k : Nat) : s.KeepsLanes hold e (s.laneMapped hold e k) := by
  have u := unsignalled_brstat holder link
  unfold Pkg.laneMapped
  extract_lets st counted info
  have state : counted.rf st 1 0 = s.rf st 1 0 ∧ counted.noc = s.noc := by
    unfold counted
    split <;> exact ⟨Pkg.rf_wf_other _ _ _ _ _ _ _ (by decide) (by decide) (by decide) (by decide), rfl⟩
  have told : counted.Signals st ((counted.ce (.mesh hold) 0x0C none info).odoEvent 0x09 3 hold (drsPa (Win.mesh hold).err) info) :=
    ((Pkg.Signals.refl st counted).record u (brstat_ne_err hold link) _).odoEvent u ..
  exact ⟨(told.rf 1 0).trans state.1, by rw [told.noc, state.2], by rw [told.noc, state.2]⟩

theorem Pkg.keepsLanes_foldl {hold e : Nat} (holder : hold < 160) (link : e < 2) (l : List Nat) (s : Pkg) :
    s.KeepsLanes hold e (l.foldl (fun s k => s.laneMapped hold e k) s) :=
  List.foldlRecOn (motive := s.KeepsLanes hold e) l _ ⟨rfl, rfl, rfl⟩ fun _ ⟨state, repairing, mapped⟩ k _ => by
    obtain ⟨state', repairing', mapped'⟩ := Pkg.keepsLanes_laneMapped _ holder link k
    exact ⟨state'.trans state, repairing'.trans repairing, mapped'.trans mapped⟩

theorem Pkg.retrained_does {s : Pkg} {hold e : Nat} (holder : hold < 160) (link : e < 2) (retrains : s.rf (meshBrstat hold e) 1 0 = 2) :
    (s.retrained hold e).rf (meshBrstat hold e) 1 0 = 1
      ∧ (s.retrained hold e).noc.repairing = s.noc.repairing.filter (fun k => k / 256 != hold * 2 + e)
      ∧ (s.retrained hold e).noc.mapped = s.noc.mapped ++ s.noc.repairing.filter (fun k => k / 256 == hold * 2 + e) := by
  rw [Pkg.retrained_eq retrains]
  obtain ⟨state, repairing, mapped⟩ := Pkg.keepsLanes_foldl holder link (s.noc.repairing.filter (fun k => k / 256 == hold * 2 + e)) (s.lanesInForce hold e)
  exact ⟨state.trans (Pkg.rf_wf_same _ _ _ _ _ (by decide) (by decide)), repairing, mapped⟩

end Sys2Proof.Machine
end

section
/-! ## STATS_SAMPLE (08_mortar_mesh R232 to R235) -/
namespace Sys2Proof.Machine

/-- Block p's registers at a router. -/
def statRegs (stop p : Nat) : Nat := meshBase stop + 0x1000 + 0x200 * p

/-- MESH_STCTL of a router. -/
def meshStctl (stop : Nat) : Nat := meshBase stop + 0x800

theorem statRegs_apart {m n a b : Nat} (hm : m < 160) (hn : n < 160) (ha : a < 2) (hb : b < 2) (other : 2 * m + a ≠ 2 * n + b) {x y : Nat}
    (hx : x < 0xC0) (hy : y < 0xC0) : statRegs n b + y ≠ statRegs m a + x := by
  unfold statRegs meshBase tileBase footBase
  split_ifs <;> omega

theorem stctl_ne_statRegs (n m a : Nat) {x : Nat} (hx : x < 0xC0) (ha : a < 2) : meshStctl n ≠ statRegs m a + x := by
  unfold meshStctl statRegs meshBase tileBase footBase
  split_ifs <;> omega

theorem stctl_ne_phase (n : Nat) : meshStctl n ≠ cadBase + 0x10 := by
  unfold meshStctl meshBase tileBase footBase cadBase
  split_ifs <;> omega

@[simp] theorem Pkg.rd_stat (s : Pkg) (b : Nat) (f : StLive → StLive) (o : Nat) : (s.stat b f).rd o = s.rd o := rfl
@[simp] theorem Pkg.stat_cad (s : Pkg) (b : Nat) (f : StLive → StLive) : (s.stat b f).cad = s.cad := rfl
@[simp] theorem Pkg.stat_threads (s : Pkg) (b : Nat) (f : StLive → StLive) : (s.stat b f).threads = s.threads := rfl
@[simp] theorem Pkg.stat_mem (s : Pkg) (b : Nat) (f : StLive → StLive) : (s.stat b f).mem = s.mem := rfl

theorem Pkg.live_stat (s : Pkg) (b c : Nat) (f : StLive → StLive) :
    Map.get st0 (s.stat b f).noc.live c = if c = b then f (Map.get st0 s.noc.live b) else Map.get st0 s.noc.live c := Map.get_set ..

/-! ### A block samples (08 R234) -/

/-- The counts of a block's past window are in its registers. -/
def Pkg.statCopied (s : Pkg) (stop p : Nat) : Pkg :=
  let b := statRegs stop p
  let l := Map.get st0 s.noc.live (2 * stop + p)
  let s := s.inc b 31 0
  let s := (s.wr (b + 8) l.start).wr (b + 0x10) s.rdtime
  let s := (s.wr (b + 0x18) (BitVec.ofNat 64 l.rd)).wr (b + 0x20) (BitVec.ofNat 64 l.wr)
  let s := s.wr (b + 0x28) (BitVec.ofNat 64 l.reqs)
  (List.range 16).foldl (fun s i => s.wr (b + 0x40 + 8 * i) (BitVec.ofNat 64 (l.hist.getD i 0))) s

theorem Pkg.statSample_eq (s : Pkg) (stop p : Nat) :
    s.statSample stop p = (s.statCopied stop p).stat (2 * stop + p)
      (fun _ => { start := (s.statCopied stop p).rdtime, seen := (s.statCopied stop p).statIdx ((s.statCopied stop p).rf (meshStctl stop) 1 0) }) := rfl

section
variable (s : Pkg) (stop p : Nat)

/-- The histogram is written at its own registers. -/
theorem Pkg.rd_histogram (l : List Nat) (b : Nat) (f : Nat → Word) {o : Nat} (other : ∀ i ∈ l, o ≠ b + 0x40 + 8 * i) :
    (l.foldl (fun s i => s.wr (b + 0x40 + 8 * i) (f i)) s).rd o = s.rd o :=
  List.foldlRecOn (motive := fun q : Pkg => q.rd o = s.rd o) l _ rfl fun _ same i among => (Pkg.rd_wr_other _ _ _ _ (other i among)).trans same

theorem Pkg.onlyRegs_statCopied : s.OnlyRegs (s.statCopied stop p) :=
  List.foldlRecOn (motive := s.OnlyRegs) _ _ (((((((Pkg.OnlyRegs.refl s).wr ..).wr ..).wr ..).wr ..).wr ..).wr ..) fun _ only _ _ => only.wr _ _

theorem Pkg.rd_statCopied_other {o : Nat} (other : ∀ x < 0xC0, o ≠ statRegs stop p + x) : (s.statCopied stop p).rd o = s.rd o := by
  unfold Pkg.statCopied
  extract_lets b l s1 s2 s3 s4
  have apart (x : Nat) (low : x < 0xC0) : o ≠ b + x := other x low
  rw [Pkg.rd_histogram _ _ _ _ (fun i among => by
    have low := List.mem_range.mp among
    rw [Nat.add_assoc]
    exact apart _ (by omega))]
  exact (Pkg.rd_wr_other _ _ _ _ (apart 0x28 (by decide))).trans <| (Pkg.rd_wr_other _ _ _ _ (apart 0x20 (by decide))).trans <|
    (Pkg.rd_wr_other _ _ _ _ (apart 0x18 (by decide))).trans <| (Pkg.rd_wr_other _ _ _ _ (apart 0x10 (by decide))).trans <|
    (Pkg.rd_wr_other _ _ _ _ (apart 8 (by decide))).trans (Pkg.rd_inc_other _ _ _ _ _ _ (apart 0 (by decide)))

/-- The five registers of the window's bounds and counts. -/
def Pkg.ShowsWindow (q : Pkg) (stop p : Nat) (l : StLive) (now : Word) : Prop :=
  q.rd (statRegs stop p + 8) = l.start ∧ q.rd (statRegs stop p + 0x10) = now ∧ q.rd (statRegs stop p + 0x18) = BitVec.ofNat 64 l.rd
    ∧ q.rd (statRegs stop p + 0x20) = BitVec.ofNat 64 l.wr ∧ q.rd (statRegs stop p + 0x28) = BitVec.ofNat 64 l.reqs

theorem Pkg.showsWindow_stat (q : Pkg) (b : Nat) (f : StLive → StLive) (l : StLive) (now : Word) :
    (q.stat b f).ShowsWindow stop p l now ↔ q.ShowsWindow stop p l now := .rfl

theorem Pkg.statCopied_shows : (s.statCopied stop p).ShowsWindow stop p (Map.get st0 s.noc.live (2 * stop + p)) s.rdtime := by
  unfold Pkg.ShowsWindow Pkg.statCopied
  extract_lets b l s1 s2 s3 s4
  have below (x : Nat) (low : x < 0x40) (i : Nat) (_ : i ∈ List.range 16) : statRegs stop p + x ≠ b + 0x40 + 8 * i := by omega
  refine ⟨?_, ?_, ?_, ?_, ?_⟩
  · rw [Pkg.rd_histogram _ _ _ _ (below 8 (by decide))]
    simp [s4, s3, s2, Pkg.rd_wr, b, l]
  · rw [Pkg.rd_histogram _ _ _ _ (below 0x10 (by decide))]
    simp [s4, s3, s2, Pkg.rd_wr, b]
    rfl
  · rw [Pkg.rd_histogram _ _ _ _ (below 0x18 (by decide))]
    simp [s4, s3, Pkg.rd_wr, b, l]
  · rw [Pkg.rd_histogram _ _ _ _ (below 0x20 (by decide))]
    simp [s4, s3, Pkg.rd_wr, b, l]
  · rw [Pkg.rd_histogram _ _ _ _ (below 0x28 (by decide))]
    simp [s4, b, l]

end

/-! ### What one block's sample leaves of another block -/

/-- The time, the threads and the memory, and block p of a router with its setting, are as before. -/
structure Pkg.BlockKept (stop p : Nat) (s q : Pkg) : Prop where
  regs : ∀ x < 0xC0, q.rd (statRegs stop p + x) = s.rd (statRegs stop p + x)
  setting : q.rd (meshStctl stop) = s.rd (meshStctl stop)
  counts : Map.get st0 q.noc.live (2 * stop + p) = Map.get st0 s.noc.live (2 * stop + p)
  cad : q.cad = s.cad
  threads : q.threads = s.threads
  mem : q.mem = s.mem

section
variable {stop p : Nat} {s q r : Pkg}

theorem Pkg.BlockKept.refl (stop p : Nat) (s : Pkg) : s.BlockKept stop p s := ⟨fun _ _ => rfl, rfl, rfl, rfl, rfl, rfl⟩

theorem Pkg.BlockKept.trans (a : s.BlockKept stop p q) (b : q.BlockKept stop p r) : s.BlockKept stop p r :=
  ⟨fun x low => (b.regs x low).trans (a.regs x low), b.setting.trans a.setting, b.counts.trans a.counts, b.cad.trans a.cad,
    b.threads.trans a.threads, b.mem.trans a.mem⟩

theorem Pkg.BlockKept.shows (k : s.BlockKept stop p q) {l : StLive} {now : Word} (shown : s.ShowsWindow stop p l now) : q.ShowsWindow stop p l now := by
  unfold Pkg.ShowsWindow
  rw [k.regs 8 (by decide), k.regs 0x10 (by decide), k.regs 0x18 (by decide), k.regs 0x20 (by decide), k.regs 0x28 (by decide)]
  exact shown

theorem Pkg.blockKept_statSample (s : Pkg) {m a : Nat} (hm : m < 160) (ha : a < 2) (hs : stop < 160) (hp : p < 2) (other : 2 * m + a ≠ 2 * stop + p) :
    s.BlockKept stop p (s.statSample m a) := by
  have only := s.onlyRegs_statCopied m a
  rw [Pkg.statSample_eq]
  refine ⟨fun x low => ?_, ?_, ?_, ?_, ?_, ?_⟩
  · rw [Pkg.rd_stat]
    exact s.rd_statCopied_other m a fun y low' => statRegs_apart hm hs ha hp other low' low
  · rw [Pkg.rd_stat]
    exact s.rd_statCopied_other m a fun y low' => stctl_ne_statRegs stop m a low' ha
  · rw [Pkg.live_stat, if_neg other.symm, only]
  · rw [Pkg.stat_cad, only]
  · rw [Pkg.stat_threads, only]
  · rw [Pkg.stat_mem, only]

/-- A block's own sample: its registers show the past window, and the next one starts. -/
theorem Pkg.statSample_own (s : Pkg) (hp : p < 2) :
    (s.statSample stop p).ShowsWindow stop p (Map.get st0 s.noc.live (2 * stop + p)) s.rdtime
      ∧ Map.get st0 (s.statSample stop p).noc.live (2 * stop + p) = { start := s.rdtime, seen := s.statIdx (s.rf (meshStctl stop) 1 0) }
      ∧ (s.statSample stop p).threads = s.threads ∧ (s.statSample stop p).mem = s.mem := by
  have only := s.onlyRegs_statCopied stop p
  have cad : (s.statCopied stop p).cad = s.cad := by rw [only]
  have setting : (s.statCopied stop p).rf (meshStctl stop) 1 0 = s.rf (meshStctl stop) 1 0 := by
    unfold Pkg.rf
    rw [s.rd_statCopied_other stop p fun y low => stctl_ne_statRegs stop stop p low hp]
  rw [Pkg.statSample_eq]
  refine ⟨?_, ?_, ?_, ?_⟩
  · rw [Pkg.showsWindow_stat]
    exact s.statCopied_shows stop p
  · rw [Pkg.live_stat, if_pos rfl, setting]
    unfold Pkg.statIdx Pkg.cadSec Pkg.rdtime Pkg.cadNs
    rw [cad]
  · rw [Pkg.stat_threads, only]
  · rw [Pkg.stat_mem, only]

end

/-! ### Every block at a boundary of its window -/

/-- The sample that block b takes, if it exists and `due` says so of its router's setting. -/
def Pkg.statStep (due : Nat → Nat → Bool) (s : Pkg) (b : Nat) : Pkg :=
  if statBlock (b / 2) (b % 2) && due (s.rf (meshStctl (b / 2)) 1 0) b then s.statSample (b / 2) (b % 2) else s

theorem Pkg.statAll_eq (s : Pkg) (due : Nat → Nat → Bool) : s.statAll due = (List.range 320).foldl (Pkg.statStep due) s := rfl

section
variable {stop p : Nat} {due : Nat → Nat → Bool}

theorem Pkg.statStep_own (s : Pkg) (hp : p < 2) (exists_ : statBlock stop p = true) (now : due (s.rf (meshStctl stop) 1 0) (2 * stop + p) = true) :
    s.statStep due (2 * stop + p) = s.statSample stop p := by
  have router : (2 * stop + p) / 2 = stop := by omega
  have block : (2 * stop + p) % 2 = p := by omega
  unfold Pkg.statStep
  rw [router, block, exists_, now]
  rfl

theorem Pkg.blockKept_statStep (s : Pkg) {b : Nat} (hb : b < 320) (hs : stop < 160) (hp : p < 2) (other : b ≠ 2 * stop + p) :
    s.BlockKept stop p (s.statStep due b) := by
  unfold Pkg.statStep
  split
  · exact s.blockKept_statSample (by omega) (Nat.mod_lt _ (by decide)) hs hp (by omega)
  · exact .refl ..

theorem Pkg.blockKept_statSteps (s : Pkg) (hs : stop < 160) (hp : p < 2) (l : List Nat) (others : ∀ b ∈ l, b < 320 ∧ b ≠ 2 * stop + p) :
    s.BlockKept stop p (l.foldl (Pkg.statStep due) s) :=
  List.foldlRecOn (motive := s.BlockKept stop p) l _ (.refl ..) fun _ kept b among =>
    kept.trans (Pkg.blockKept_statStep _ (others b among).1 hs hp (others b among).2)

/-- Of all blocks, block p of a router takes its own sample once: those before and after it leave it alone. -/
theorem Pkg.statAll_around (s : Pkg) (hs : stop < 160) (hp : p < 2) :
    ∃ q, s.BlockKept stop p q ∧ (q.statStep due (2 * stop + p)).BlockKept stop p (s.statAll due) := by
  obtain ⟨l, m, split⟩ := List.append_of_mem (List.mem_range.mpr (by omega : 2 * stop + p < 320))
  have once : (l ++ (2 * stop + p) :: m).Nodup := split ▸ List.nodup_range
  have below (b : Nat) (among : b ∈ l ∨ b ∈ m) : b < 320 :=
    List.mem_range.mp (split ▸ by simp only [List.mem_append, List.mem_cons]; exact among.imp_right .inr)
  rw [List.nodup_append, List.nodup_cons] at once
  obtain ⟨-, ⟨after, -⟩, before⟩ := once
  refine ⟨_, s.blockKept_statSteps (due := due) hs hp l fun b among => ⟨below b (.inl among), before b among _ (List.mem_cons_self ..)⟩, ?_⟩
  rw [Pkg.statAll_eq, split, List.foldl_append, List.foldl_cons]
  exact Pkg.blockKept_statSteps _ hs hp m fun b among => ⟨below b (.inr among), fun e => after (e ▸ among)⟩

/-- A boundary of the Cadence milliseconds passes: a block with that setting shows its past window and starts the next one. -/
theorem Pkg.statTick_does {s : Pkg} (hs : stop < 160) (hp : p < 2) (exists_ : statBlock stop p = true) (ms : s.rf (meshStctl stop) 1 0 = 1)
    (passed : (Map.get st0 s.noc.live (2 * stop + p)).seen ≠ s.cadNs / 1000000) :
    s.statTick.ShowsWindow stop p (Map.get st0 s.noc.live (2 * stop + p)) s.rdtime
      ∧ Map.get st0 s.statTick.noc.live (2 * stop + p) = { start := s.rdtime, seen := s.cadNs / 1000000 }
      ∧ s.statTick.threads = s.threads ∧ s.statTick.mem = s.mem := by
  obtain ⟨q, before, after⟩ := s.statAll_around (stop := stop) (p := p)
    (due := fun win b => (win == 1 || win == 2) && (Map.get st0 s.noc.live b).seen != s.statIdx win) hs hp
  have setting : q.rf (meshStctl stop) 1 0 = 1 := by
    refine Eq.trans ?_ ms
    unfold Pkg.rf
    rw [before.setting]
  have idx : s.statIdx 1 = s.cadNs / 1000000 := if_pos rfl
  rw [Pkg.statStep_own q hp exists_ (by rw [setting, idx]; simpa using passed)] at after
  obtain ⟨shown, started, threads, mem⟩ := q.statSample_own (stop := stop) hp
  have time : q.rdtime = s.rdtime ∧ q.statIdx 1 = s.cadNs / 1000000 := by
    rw [← idx]
    unfold Pkg.statIdx Pkg.cadSec Pkg.rdtime Pkg.cadNs
    rw [before.cad]
    exact ⟨rfl, rfl⟩
  rw [before.counts, time.1] at shown
  rw [setting, time.1, time.2] at started
  exact ⟨after.shows shown, after.counts.trans started, after.threads.trans (threads.trans before.threads), after.mem.trans (mem.trans before.mem)⟩

end

end Sys2Proof.Machine
end

section
/-! ## HOLDOVER_DAY, the schedule, CAD_CFG, CAD_TIME_NS, and the mesh's flits, retrains and samples -/
namespace Sys2Proof.Machine

section
variable {s : State} (live : s.pkg.live = true)
include live

/-! ### MESH_FLIT_ARRIVAL at a port of a router that holds no flit (08 R212, R214, R226) -/

section
variable {stop : StopN} {inp : Fin 7} (f : FlitOp) (atPort : 4 ≤ (inp : Nat))
  (none_ : ∀ x, x < 56 → s.pkg.buf (bufKey stop (x / 8) (x % 8)) = [])
include atPort none_

theorem exec_meshFlitArrival_home (idle : s.pkg.shm.acts = []) (home : routeOut stop f.dst = 4) :
    ∃ q, exec (.meshFlitArrival stop inp f .none) s = .next (s.withPkg q) ∧ (∀ j, q.buf j = s.pkg.buf j) ∧ q = { s.pkg with noc := q.noc } := by
  have empty := Pkg.buffers_empty none_
  obtain ⟨bufs, only⟩ := Pkg.enterMesh_home inp.isLt empty idle home
  exact ⟨_, State.run_to live (Pkg.flitArrive_clean atPort (empty inp inp.isLt _ (meshVn_lt _))), fun j => congrFun bufs j, only⟩

theorem exec_meshFlitArrival_moves (idle : s.pkg.shm.acts = []) {e : FlitErr} {p0 : Bool} (err : e = .none ∧ p0 = false ∨ e = .payUe ∧ p0 = true)
    (away : routeOut stop f.dst ≠ 4) (free : s.pkg.linkFree stop (routeOut stop f.dst) (meshVn f.msg) = true) :
    let k2 := beyondKey stop (routeOut stop f.dst) (meshVn f.msg)
    ∃ q, exec (.meshFlitArrival stop inp f e) s = .next (s.withPkg q)
      ∧ q.buf k2 = s.pkg.buf k2 ++ [⟨f, Config.flitCheck f.hdr f.pay, p0, false, s.pkg.noc.tick + 1⟩]
      ∧ (∀ j, j ≠ k2 → q.buf j = s.pkg.buf j) ∧ (e = .none → q = { s.pkg with noc := q.noc }) := by
  intro k2
  have empty := Pkg.buffers_empty none_
  have here := empty inp inp.isLt _ (meshVn_lt f.msg)
  rcases err with ⟨rfl, rfl⟩ | ⟨rfl, rfl⟩
  · have bufs := Pkg.buf_enterMesh_moves inp.isLt empty idle atPort away free false
    exact ⟨_, State.run_to live (Pkg.flitArrive_clean atPort here), (bufs k2).trans (if_pos rfl), fun j other => (bufs j).trans (if_neg other),
      fun _ => Pkg.onlyMesh_enterMesh_moves inp.isLt empty idle atPort away free false⟩
  · have told := (Pkg.Signals.refl (meshBrstat 0 0) s.pkg).record (unsignalled_brstat (by decide) (by decide)) (brstat_ne_err stop (by decide))
      { cls := 1, code := 4, addr := f.line.map (64 * ·), info := inp }
    have free' := (Pkg.linkFree_congr told.buf (s.pkg.retraining_record stop _) stop (routeOut stop f.dst) (meshVn f.msg)).trans free
    have bufs := Pkg.buf_enterMesh_moves inp.isLt (fun i hi n hn => (told.buf _).trans (empty i hi n hn)) (by rw [told.shm, idle]) atPort away free' true
    simp only [told.buf, told.tick] at bufs
    exact ⟨_, State.run_to live (Pkg.flitArrive_payUe atPort here), (bufs k2).trans (if_pos rfl), fun j other => (bufs j).trans (if_neg other), nofun⟩

theorem exec_meshFlitArrival_waits (idle : s.pkg.shm.acts = []) (away : routeOut stop f.dst ≠ 4)
    (full : s.pkg.linkFree stop (routeOut stop f.dst) (meshVn f.msg) = false) :
    let k := bufKey stop inp (meshVn f.msg)
    ∃ q, exec (.meshFlitArrival stop inp f .none) s = .next (s.withPkg q)
      ∧ q.buf k = [⟨f, Config.flitCheck f.hdr f.pay, false, true, s.pkg.noc.tick⟩] ∧ (∀ j, j ≠ k → q.buf j = s.pkg.buf j) := by
  intro k
  have empty := Pkg.buffers_empty none_
  have bufs := Pkg.buf_enterMesh_waits inp.isLt empty idle atPort away full false
  exact ⟨_, State.run_to live (Pkg.flitArrive_clean atPort (empty inp inp.isLt _ (meshVn_lt _))), (bufs k).trans (if_pos rfl),
    fun j other => (bufs j).trans (if_neg other)⟩

theorem exec_meshFlitArrival_hdrUe : ∃ q, exec (.meshFlitArrival stop inp f .hdrUe) s = .next (s.withPkg q) ∧ q.boot.stop.isSome = true :=
  ⟨_, State.run_live _ live, Pkg.flitArrive_hdrUe_stops atPort (Pkg.buffers_empty none_ inp inp.isLt _ (meshVn_lt _))⟩

end
end

/-- Settles O26: each clause is the lemma about its command's operation. -/
theorem scheduleCadenceRegistersMeshAndStatistics : Obligations.ScheduleCadenceRegistersMeshAndStatistics := by
  intro s live sc off idle runs
  refine ⟨fun dt t => ?_, fun i dt => ?_, fun i v => ?_, fun v => ?_, fun dt => ?_, fun stop inp f atPort none_ => ?_, fun n e retrains => ?_,
    fun dt stop x => ?_⟩
  · -- HOLDOVER_DAY
    intro p since hold
    refine ⟨fun first due => ?_, fun no => ?_⟩
    · obtain ⟨day, state, counted⟩ := Pkg.holdDay_counts (s := p) (by rw [Pkg.elapse_holdAt, since]) (by rw [Pkg.cadState_elapse, hold])
        (by rw [Pkg.elapse_day, first]) due
      exact ⟨_, State.runSc_live sc dt _, day, state, by rw [counted, Pkg.rf_elapse _ _ (by decide)]⟩
    · exact State.runSc_eq sc (Pkg.holdDay_not_due (by rw [Pkg.elapse_holdAt, since]) (by rw [Pkg.elapse_day]; exact no))
  · -- SCHEDULE_FIRE
    intro p dw nx booted armed
    have dw0 : p.rd (sched i 0) = dw := s.pkg.rd_elapse dt _ (sched_ne_phase i 0)
    have dw3 : (p.rd (sched i 3)).toNat = nx := by rw [s.pkg.rd_elapse dt _ (sched_ne_phase i 3)]
    refine ⟨fun early => (State.runAt_live live dt _).trans (by rw [Pkg.schedFire_early (by rwa [dw3])]), fun due act => ⟨_, State.runAt_live live dt _, ?_⟩⟩
    have fires := Pkg.schedFire_does (s := p) i.isLt (by rw [Pkg.live_elapse, live]) (by rw [Pkg.elapse_boot, booted]) (by rw [Pkg.elapse_shm, off])
      (by rw [Pkg.elapse_shm, idle]) (by rw [Pkg.replaying_elapse, runs]) (by rw [dw0, armed]) (by rw [dw3]; exact due) (by rw [dw0]; exact act)
    unfold Pkg.schedMissed at fires
    rwa [dw0, dw3] at fires
  · -- SCHEDULE_ENTRY_WRITE
    intro dw
    refine ⟨fun armed => ⟨State.run_to live (Pkg.schedWrite_while_armed armed (by decide)), State.run_to live (Pkg.schedWrite_while_armed armed (by decide))⟩,
      fun free => ⟨State.run_to live (Pkg.schedWrite_start free), State.run_to live (Pkg.schedWrite_period free), fun arm => ?_⟩⟩
    exact ⟨_, State.run_live _ live, Pkg.schedWrite_arms_does free arm⟩
  · -- CAD_CFG_WRITE
    refine ⟨fun locked => State.run_to live (Pkg.cadCfgWrite_locked v locked), fun unlocked => ?_⟩
    obtain ⟨cfg, state⟩ := Pkg.cadCfgWrite_does v unlocked
    refine ⟨_, State.run_live _ live, ?_⟩
    unfold Pkg.rb Pkg.rf
    rw [cfg]
    exact ⟨cadCfgWord_low v (by decide), cadCfgWord_low v (by decide), cadCfgWord_window v, cadCfgWord_edges v, cadCfgWord_lock v, state⟩
  · -- CAD_TIME_NS_READ
    exact ⟨_, State.runSc_live sc dt (·.cadTimeRead.1), Pkg.cadTimeRead_does _⟩
  · -- MESH_FLIT_ARRIVAL
    intro vn chk out nx k k2
    refine ⟨exec_meshFlitArrival_home live f atPort none_ idle, fun e p0 err away room steady => ?_, fun away full => ?_,
      exec_meshFlitArrival_hdrUe live f atPort none_⟩
    · exact exec_meshFlitArrival_moves live f atPort none_ idle err away (Pkg.linkFree_iff.mpr ⟨room, steady⟩)
    · exact exec_meshFlitArrival_waits live f atPort none_ idle away (Pkg.linkFree_eq_false_iff.mpr full)
  · -- BRIDGE_RETRAIN_COMPLETE
    exact ⟨_, State.run_live _ live, Pkg.retrained_does n.isLt e.isLt retrains⟩
  · -- STATS_SAMPLE
    intro p b l exists_ ms passed
    have setting : p.rf (meshStctl stop) 1 0 = 1 := (s.pkg.rf_elapse dt (stctl_ne_phase stop) 1 0).trans ms
    have noc : p.noc = s.pkg.noc := s.pkg.elapse_noc dt
    have sampled := Pkg.statTick_does (s := p) stop.isLt x.isLt exists_ setting (by rw [noc]; exact passed)
    rw [noc] at sampled
    obtain ⟨⟨start, now, rd, wr, reqs⟩, started, threads, mem⟩ := sampled
    exact ⟨_, State.runAt_live live dt _, start, now, rd, wr, reqs, started, threads.trans (s.pkg.elapse_threads dt), mem.trans (s.pkg.elapse_mem dt)⟩

end Sys2Proof.Machine
end

section
/-! ## A statement that fails: a patrol read of a global line that is stored as poison (09_dram_ecc_trowel) -/
namespace Sys2Proof.Machine

/-! ### TROWEL_LINE_RESULT (R245, R246, R259)

The statement calls the line of a patrol read clean by what `Pkg.dramLine` delivers for it. Of a global line that is the answer of its remote
home (log entry 2), not what the controller's devices hold, which is what the patrol read decodes; no hypothesis of the statement keeps global
lines from a controller's queue. -/

/-- A global line is never delivered as poison by `Pkg.dramLine`. -/
theorem Pkg.dramLine_global_unpoisoned (s : Pkg) {line : Nat} (global : isGlobal line = true) : (s.dramLine line).2 = false := by
  rw [Pkg.dramLine, if_pos global]

/-- Trowel's read of the first global line, which controller 0 has in its queue. -/
def globalPatrolRead : McReq := ⟨2 ^ 51, .trowel, true, false⟩

/-- The pass that the read belongs to, nothing counted yet. -/
def globalPass : TrwPass where
  wb := false
  irqUe := false
  irqDone := false
  rate := 0
  start := 2 ^ 51
  stop := 2 ^ 51 + 128
  sumaddr := 0#64
  pos := 2 ^ 51
  t0 := 0#64

/-- A running package whose controller 0 is in that pass with the read outstanding; the devices hold the line with the poison signature. -/
def globalPatrol : Pkg where
  pins := { vaux := true, pwrgood := true }
  mcs := [(0, { rq := [globalPatrolRead], trw := some globalPass })]
  dpoison := [(2 ^ 51, true)]

/-- The read decodes as POISON, and the pass counts it. -/
theorem globalPatrol_counts_poison : ((globalPatrol.trwResult 0 []).mc 0).trw.map TrwPass.poison = some 1 := by decide +kernel

/-- Refutes O24: a TROWEL_LINE_RESULT without symbols in error, of a global line that the devices hold as poison, counts the line as POISON,
where the statement has the pass count it as read and nothing else. -/
theorem not_repairsAndPatrolPassesRun : ¬ Obligations.RepairsAndPatrolPassesRun := by
  unfold Obligations.RepairsAndPatrolPassesRun
  intro claim
  have live : ({ pkg := globalPatrol } : State).pkg.live = true := rfl
  obtain ⟨-, -, -, -, -, duringPass⟩ := claim { pkg := globalPatrol } 0 live rfl
  obtain ⟨-, -, -, results, -⟩ := duringPass globalPass rfl
  obtain ⟨cleanLine, -⟩ := results globalPatrolRead rfl rfl
  obtain ⟨q, ran, counted, -⟩ := cleanLine (Pkg.dramLine_global_unpoisoned _ rfl) (by decide +kernel) rfl
  have poisoned := globalPatrol_counts_poison
  rw [State.run_next (s := { pkg := globalPatrol }) (f := (·.trwResult 0 [])) live ran] at poisoned
  exact absurd (poisoned.symm.trans (congrArg (Option.map TrwPass.poison) counted)) (by decide)

end Sys2Proof.Machine
end

section
/-! ## Membership: the messages that a member takes and sends (11_global_memory_membership R303 to R307) -/
namespace Sys2Proof.Machine

/-! ### Fields of a packet (10 R281, 11 R299) -/

theorem pk_lt (p : FPkt) (k hi lo : Nat) : pk p k hi lo < 2 ^ (hi - lo + 1) := Nat.mod_lt _ (by positivity)

theorem pkSrc_lt (p : FPkt) : pkSrc p < 2 ^ 15 := pk_lt ..

theorem Pkg.nodeId_lt (s : Pkg) : s.nodeId < 2 ^ 15 := by
  have self : s.selfId < 2 ^ 15 := bits_lt ..
  unfold Pkg.nodeId
  split <;> omega

/-- A packet carries the destination, CLASS and TYPE that it was made for. -/
theorem Pkg.mkPkt_header (s : Pkg) {dst cls typ gen : Nat} {body : List (BitVec 128)} (device : dst < 2 ^ 15) (class_ : cls < 4) (type_ : typ < 16)
    (bank : gen < 16) (short : body.length < 31) (tag : Nat) (rty : Bool) :
    pkDst (s.mkPkt dst cls typ tag rty gen body) = dst ∧ pkClass (s.mkPkt dst cls typ tag rty gen body) = cls
      ∧ pkType (s.mkPkt dst cls typ tag rty gen body) = typ := by
  have node := s.nodeId_lt
  have resent : (if rty = true then 2 ^ 63 else 0) = 0 ∨ (if rty = true then 2 ^ 63 else 0) = 2 ^ 63 := by cases rty <;> simp
  unfold pkDst pkClass pkType Pkg.mkPkt pk
  simp only [List.getD_cons_zero, BitVec.toNat_ofNat]
  generalize s.nodeId = node at *
  generalize body.length = len at *
  generalize s.rdtime.toNat = time at *
  generalize (if rty = true then 2 ^ 63 else 0) = r at *
  omega

/-! ### Packets that this package sends (10 R283; 11 R304) -/

/-- A packet that leaves goes to the package's own home agents or into its switch. -/
theorem Pkg.emitPkt_eq (s : Pkg) (p : FPkt) (e : Nat) : s.emitPkt p e = if s.isSelf (pkDst p) then
    { s with fab := { s.fab with ejq := s.fab.ejq ++ [p], via := s.fab.via ++ [(24, s.now)] } }
    else { s with fab := { s.fab with inj := s.fab.inj ++ [(e, p)] } } := rfl

section
variable (s : Pkg) (dst typ mid fields : Nat) (more : List (BitVec 128))

/-- A membership message. -/
def Pkg.memPkt : FPkt := s.mkPkt dst 2 typ 0 false (s.rtGen s.rtActive) (BitVec.ofNat 128 (mid + fields * 2 ^ 32) :: more)

theorem Pkg.memMsg_eq : s.memMsg dst typ mid fields more = s.emitPkt (s.memPkt dst typ mid fields more) 5 := rfl

/-- A membership message changes the queues of packets alone. -/
theorem Pkg.memMsg_kept : s.memMsg dst typ mid fields more = { s with fab := { s.fab with
    inj := (s.memMsg dst typ mid fields more).fab.inj, ejq := (s.memMsg dst typ mid fields more).fab.ejq
    via := (s.memMsg dst typ mid fields more).fab.via } } := by
  rw [Pkg.memMsg_eq, Pkg.emitPkt_eq]
  split <;> rfl

@[simp] theorem Pkg.memMsg_drs : (s.memMsg dst typ mid fields more).drs = s.drs := by rw [Pkg.memMsg_kept]
@[simp] theorem Pkg.memMsg_threads : (s.memMsg dst typ mid fields more).threads = s.threads := by rw [Pkg.memMsg_kept]
@[simp] theorem Pkg.memMsg_mem : (s.memMsg dst typ mid fields more).mem = s.mem := by rw [Pkg.memMsg_kept]
@[simp] theorem Pkg.memMsg_links : (s.memMsg dst typ mid fields more).links = s.links := by rw [Pkg.memMsg_kept]
@[simp] theorem Pkg.memMsg_ans : (s.memMsg dst typ mid fields more).fab.ans = s.fab.ans := by rw [Pkg.memMsg_kept]
@[simp] theorem Pkg.memMsg_src : (s.memMsg dst typ mid fields more).fab.src = s.fab.src := by rw [Pkg.memMsg_kept]
@[simp] theorem Pkg.memMsg_home : (s.memMsg dst typ mid fields more).fab.home = s.fab.home := by rw [Pkg.memMsg_kept]
@[simp] theorem Pkg.memMsg_base : (s.memMsg dst typ mid fields more).fab.base = s.fab.base := by rw [Pkg.memMsg_kept]
@[simp] theorem Pkg.memMsg_asked : (s.memMsg dst typ mid fields more).fab.asked = s.fab.asked := by rw [Pkg.memMsg_kept]

end

theorem Pkg.isSelf_of_rd {p q : Pkg} (self : q.rd fabBase = p.rd fabBase) (d : Nat) : q.isSelf d = p.isSelf d := by
  unfold Pkg.isSelf Pkg.fabMode Pkg.selfId Pkg.rf
  rw [self]

theorem Pkg.rtGen_lt (s : Pkg) (b : Nat) : s.rtGen b < 16 := by
  unfold Pkg.rtGen
  split <;> exact bits_lt ..

/-- A membership message to a device has been sent: its TYPE, MID and the fields that follow. -/
def Pkg.SentMsg (p q : Pkg) (ej : List FPkt) (dst typ mid fields : Nat) (y : FPkt) : Prop :=
  p.Sent q ej y ∧ pkDst y = dst ∧ pkClass y = 2 ∧ pkType y = typ ∧ y.getD 1 0#128 = BitVec.ofNat 128 (mid + fields * 2 ^ 32)

/-- A package that has this node's ID and queue of packets for the switch sends as this one does. -/
theorem Pkg.sentMsg_memMsg {p s : Pkg} (self : s.rd fabBase = p.rd fabBase) (inj : s.fab.inj = p.fab.inj) {dst typ : Nat} (device : dst < 2 ^ 15)
    (type_ : typ < 16) (mid fields : Nat) :
    p.SentMsg (s.memMsg dst typ mid fields []) s.fab.ejq dst typ mid fields (s.memPkt dst typ mid fields []) := by
  refine ⟨?_, ?_⟩
  · unfold Pkg.Sent
    rw [← Pkg.isSelf_of_rd self, Pkg.memMsg_eq, Pkg.emitPkt_eq]
    split
    · rfl
    · exact ⟨rfl, 5, by rw [inj]⟩
  · obtain ⟨dest, class_, kind⟩ := s.mkPkt_header (cls := 2) (gen := s.rtGen s.rtActive) (body := [BitVec.ofNat 128 (mid + fields * 2 ^ 32)]) device (by decide)
      type_ (s.rtGen_lt _) (by simp) 0 false
    exact ⟨dest, class_, kind, rfl⟩

/-! ### Messages that the member takes (R303, R304) -/

section
variable {s : Pkg} {x : FPkt} {typ : Nat} (f : Pkg → Nat → Nat → FPkt → Pkg)

/-- A message that is heard is taken by its meaning. -/
theorem Pkg.memTake_hears (hears : s.Hears x typ) : s.memTake typ f = f (s.unqueue 0) (pkSrc x) (pk x 1 31 0) x := by
  obtain ⟨-, home, first, fresh, lead⟩ := hears
  have own : ¬ (typ ≤ 3 ∧ pkSrc x ≠ (s.unqueue 0).leadId ∧ ¬ ((s.unqueue 0).isSelf (pkSrc x) = true ∧ (s.unqueue 0).isLead = true)) :=
    fun foreign => foreign.2.1 (lead foreign.1)
  have unanswered : (s.unqueue 0).answerOf (pkSrc x) (pk x 1 31 0) = 0 := fresh
  simp only [Pkg.memTake, first, home, Bool.not_true, Bool.false_eq_true, if_false, if_neg own, unanswered, ne_eq, not_true_eq_false, false_and]

/-- TABLE, FLIP and MAPUPD of another source are discarded and counted. -/
theorem Pkg.memTake_foreign (home : s.homeLive = true) (first : s.ejected 2 typ = some (0, x)) (leads : typ ≤ 3) (foreign : pkSrc x ≠ s.leadId)
    (follows : s.isLead = false) : s.memTake typ f = (s.unqueue 0).sat (fabBase + 0x138) 47 32 := by
  have notLead : (s.unqueue 0).isLead = false := follows
  have other : pkSrc x ≠ (s.unqueue 0).leadId := foreign
  simp [Pkg.memTake, first, home, notLead, leads, other]

end

/-- The sender of a message has its answer: DONE with the fields given. -/
def Pkg.Told (p q : Pkg) (ej : List FPkt) (src mid fields : Nat) : Prop :=
  q.answerOf src mid = 5 + 16 * fields
    ∧ ∃ y, p.Sent q ej y ∧ pkDst y = src ∧ pkClass y = 2 ∧ pkType y = 4 ∧ pk y 1 63 0 = mid + fields * 2 ^ 32

section
variable (s : Pkg) (src mid typ : Nat) (err : Bool)

theorem Pkg.memDone_eq : s.memDone src mid typ err = (s.setAnswer src mid (5 + 16 * (typ + if err then 16 else 0))).memMsg src 4 mid (typ + if err then 16 else 0) [] := by
  rfl

@[simp] theorem Pkg.memDone_drs : (s.memDone src mid typ err).drs = s.drs := Pkg.memMsg_drs ..
@[simp] theorem Pkg.memDone_threads : (s.memDone src mid typ err).threads = s.threads := Pkg.memMsg_threads ..
@[simp] theorem Pkg.memDone_mem : (s.memDone src mid typ err).mem = s.mem := Pkg.memMsg_mem ..
@[simp] theorem Pkg.srcS_memDone (d : Nat) : (s.memDone src mid typ err).srcS d = s.srcS d := by
  unfold Pkg.srcS
  rw [Pkg.memDone_eq, Pkg.memMsg_base, Pkg.memMsg_src]
  rfl
@[simp] theorem Pkg.homeS_memDone (d : Nat) : (s.memDone src mid typ err).homeS d = s.homeS d := by
  unfold Pkg.homeS
  rw [Pkg.memDone_eq, Pkg.memMsg_base, Pkg.memMsg_home]
  rfl

end

theorem Pkg.told_memDone {p s : Pkg} (self : s.rd fabBase = p.rd fabBase) (inj : s.fab.inj = p.fab.inj) (x : FPkt) {typ : Nat} (type_ : typ < 16) (err : Bool) :
    p.Told (s.memDone (pkSrc x) (pk x 1 31 0) typ err) s.fab.ejq (pkSrc x) (pk x 1 31 0) (typ + if err then 16 else 0) := by
  rw [Pkg.memDone_eq]
  have small : (typ + if err then 16 else 0) < 32 := by split <;> omega
  generalize (typ + if err then 16 else 0) = fields at *
  refine ⟨?_, ?_⟩
  · unfold Pkg.answerOf
    rw [Pkg.memMsg_ans]
    exact Map.get_set_same ..
  · obtain ⟨sent, dest, class_, kind, slot⟩ := Pkg.sentMsg_memMsg (s := s.setAnswer (pkSrc x) (pk x 1 31 0) (5 + 16 * fields)) self inj
      (pkSrc_lt x) (typ := 4) (by decide) (pk x 1 31 0) fields
    refine ⟨_, sent, dest, class_, kind, ?_⟩
    have id := pk_lt x 1 31 0
    rw [pk, slot, BitVec.toNat_ofNat]
    omega


/-! ### TABLE (R286, R304) -/

theorem Pkg.rtActive_lt (s : Pkg) : s.rtActive < 2 := bits_lt ..

/-- The banks' generations and the active bank are in FAB_RTCTL. -/
theorem Pkg.rtGen_of_rd {p q : Pkg} (ctl : q.rd (fabBase + 8) = p.rd (fabBase + 8)) (b : Nat) : q.rtGen b = p.rtGen b := by
  unfold Pkg.rtGen Pkg.rf
  rw [ctl]

theorem Pkg.rtActive_of_rd {p q : Pkg} (ctl : q.rd (fabBase + 8) = p.rd (fabBase + 8)) : q.rtActive = p.rtActive := by
  unfold Pkg.rtActive Pkg.rf
  rw [ctl]

/-- The generation of a bank is written. -/
def Pkg.setRtGen (s : Pkg) (b g : Nat) : Pkg := s.wf (fabBase + 8) (if b = 0 then 7 else 11) (if b = 0 then 4 else 8) g

theorem Pkg.rtGen_setRtGen (s : Pkg) (b g : Nat) : (s.setRtGen b g).rtGen b = g % 16 := by
  unfold Pkg.setRtGen Pkg.rtGen
  split
  · exact Pkg.rf_wf_same _ _ _ _ _ (by decide) (by decide)
  · exact Pkg.rf_wf_same _ _ _ _ _ (by decide) (by decide)

theorem Pkg.rtActive_setRtGen (s : Pkg) (b g : Nat) : (s.setRtGen b g).rtActive = s.rtActive := by
  unfold Pkg.setRtGen Pkg.rtActive
  split
  · exact Pkg.rf_wf_other _ _ _ _ _ _ _ (by decide) (by decide) (by decide) (by decide)
  · exact Pkg.rf_wf_other _ _ _ _ _ _ _ (by decide) (by decide) (by decide) (by decide)

/-- The register of a route entry. -/
def rtReg (b pos : Nat) : Nat := fabBase + 0x10000 + 0x10000 * b + pos / 4 * 8

/-- One entry of a TABLE is written, where its position exists; the entries count up from `first`. -/
def Pkg.tableEntry (b first : Nat) (s : Pkg) (e : Nat × Nat) : Pkg :=
  if first + e.2 < 16384 then s.wf (rtReg b (first + e.2)) (16 * ((first + e.2) % 4) + 15) (16 * ((first + e.2) % 4)) (e.1 % 64) else s

section
variable (s : Pkg) (b first : Nat)

theorem Pkg.rtEntry_tableEntry_same {k : Nat} (exists_ : first + k < 16384) (x : Nat) :
    (Pkg.tableEntry b first s (x, k)).rtEntry b (first + k) = x % 64 := by
  rw [Pkg.tableEntry, if_pos exists_]
  refine (Pkg.rf_wf_same _ _ _ _ _ (by omega) (by omega)).trans ?_
  rw [show 16 * ((first + k) % 4) + 15 - 16 * ((first + k) % 4) + 1 = 16 by omega]
  omega

theorem Pkg.rtEntry_tableEntry_other (e : Nat × Nat) {pos : Nat} (other : pos ≠ first + e.2) :
    (Pkg.tableEntry b first s e).rtEntry b pos = s.rtEntry b pos := by
  unfold Pkg.tableEntry
  split
  · by_cases same : pos / 4 = (first + e.2) / 4
    · unfold Pkg.rtEntry rtReg
      rw [same]
      exact Pkg.rf_wf_other _ _ _ _ _ _ _ (by omega) (by omega) (by omega) (by omega)
    · unfold Pkg.rtEntry Pkg.rf
      rw [Pkg.rd_wf_other]
      unfold rtReg
      omega
  · rfl

theorem Pkg.rd_tableEntry (e : Nat × Nat) {o : Nat} (below : o < fabBase + 0x10000) : (Pkg.tableEntry b first s e).rd o = s.rd o := by
  unfold Pkg.tableEntry
  split
  · refine Pkg.rd_wf_other _ _ _ _ _ _ ?_
    unfold rtReg
    omega
  · rfl

theorem Pkg.onlyRegs_tableEntry {p q : Pkg} (only : p.OnlyRegs q) (e : Nat × Nat) : p.OnlyRegs (Pkg.tableEntry b first q e) := by
  unfold Pkg.tableEntry
  split
  · exact only.wr _ _
  · exact only

/-- Entries of positions from `first + n` on leave an earlier one. -/
theorem Pkg.rtEntry_tableEntries_before (l : List Nat) (n : Nat) {pos : Nat} (before : pos < first + n) :
    ((l.zipIdx n).foldl (Pkg.tableEntry b first) s).rtEntry b pos = s.rtEntry b pos := by
  induction l generalizing s n with
  | nil => rfl
  | cons x l ih => exact (ih _ (n + 1) (by omega)).trans (Pkg.rtEntry_tableEntry_other s b first (x, n) (by simp only; omega))

/-- Each entry of a TABLE whose position exists reads back. -/
theorem Pkg.rtEntry_tableEntries (l : List Nat) (n : Nat) {j : Nat} (entry : j < l.length) (exists_ : first + (n + j) < 16384) :
    ((l.zipIdx n).foldl (Pkg.tableEntry b first) s).rtEntry b (first + (n + j)) = l.getD j 0 % 64 := by
  induction l generalizing s n j with
  | nil => simp at entry
  | cons x l ih =>
    cases j with
    | zero => exact (Pkg.rtEntry_tableEntries_before _ b first l (n + 1) (by omega)).trans (Pkg.rtEntry_tableEntry_same s b first exists_ x)
    | succ j =>
      have rest := ih (Pkg.tableEntry b first s (x, n)) (n + 1) (j := j) (by simpa using entry) (by omega)
      rw [show n + 1 + j = n + (j + 1) by omega] at rest
      exact rest

end

/-- The standby bank with a TABLE's generation and entries. -/
def Pkg.tabled (s : Pkg) (x : FPkt) : Pkg :=
  ((tableEntries x).zipIdx 0).foldl (Pkg.tableEntry (1 - s.rtActive) (pk x 1 49 36)) (s.setRtGen (1 - s.rtActive) (pk x 1 35 32))

section
variable (s : Pkg) (x : FPkt)

theorem Pkg.onlyRegs_tabled : s.OnlyRegs (s.tabled x) :=
  foldl_keeps (s.OnlyRegs ·) _ (fun _ e only => Pkg.onlyRegs_tableEntry _ _ only e) _ _ ((Pkg.OnlyRegs.refl s).wr _ _)

theorem Pkg.rd_tabled_gen {o : Nat} (below : o < fabBase + 0x10000) :
    (s.tabled x).rd o = (s.setRtGen (1 - s.rtActive) (pk x 1 35 32)).rd o :=
  foldl_keeps (fun q : Pkg => q.rd o = (s.setRtGen (1 - s.rtActive) (pk x 1 35 32)).rd o) _
    (fun q e same => (Pkg.rd_tableEntry q _ _ e below).trans same) _ _ rfl

theorem Pkg.rd_tabled_self : (s.tabled x).rd fabBase = s.rd fabBase :=
  (s.rd_tabled_gen x (by omega)).trans (Pkg.rd_wf_other _ _ _ _ _ _ (by omega))

theorem Pkg.rtGen_tabled : (s.tabled x).rtGen (1 - s.rtActive) = pk x 1 35 32 := by
  have gen := pk_lt x 1 35 32
  rw [Pkg.rtGen_of_rd (s.rd_tabled_gen x (by omega)), Pkg.rtGen_setRtGen]
  omega

theorem Pkg.rtActive_tabled : (s.tabled x).rtActive = s.rtActive := by
  rw [Pkg.rtActive_of_rd (s.rd_tabled_gen x (by omega)), Pkg.rtActive_setRtGen]

theorem Pkg.rtEntry_tabled {j : Nat} (entry : j < (tableEntries x).length) (exists_ : pk x 1 49 36 + j < 16384) :
    (s.tabled x).rtEntry (1 - s.rtActive) (pk x 1 49 36 + j) = (tableEntries x).getD j 0 % 64 := by
  have back := Pkg.rtEntry_tableEntries (s.setRtGen (1 - s.rtActive) (pk x 1 35 32)) (1 - s.rtActive) (pk x 1 49 36) (tableEntries x) 0 entry (by omega)
  rwa [Nat.zero_add] at back

end

theorem Pkg.memTable_hears {s : Pkg} {x : FPkt} (hears : s.Hears x 1) :
    s.memTable = ((s.unqueue 0).tabled x).memDone (pkSrc x) (pk x 1 31 0) 1 false := Pkg.memTake_hears _ hears

/-- What a TABLE leaves. -/
theorem Pkg.memTable_does {s : Pkg} {x : FPkt} (hears : s.Hears x 1) :
    s.memTable.rtGen (1 - s.rtActive) = pk x 1 35 32 ∧ s.memTable.rtActive = s.rtActive
      ∧ (∀ j, j < (tableEntries x).length → pk x 1 49 36 + j < 16384 → s.memTable.rtEntry (1 - s.rtActive) (pk x 1 49 36 + j) = (tableEntries x).getD j 0 % 64)
      ∧ s.Told s.memTable (s.unqueue 0).fab.ejq (pkSrc x) (pk x 1 31 0) 1 ∧ s.memTable.threads = s.threads ∧ s.memTable.mem = s.mem := by
  have only := (s.unqueue 0).onlyRegs_tabled x
  have regs (o : Nat) : s.memTable.rd o = ((s.unqueue 0).tabled x).rd o := by
    rw [Pkg.memTable_hears hears]
    exact Pkg.rd_of_drs (Pkg.memDone_drs ..) o
  refine ⟨(Pkg.rtGen_of_rd (regs _) _).trans ((s.unqueue 0).rtGen_tabled x), (Pkg.rtActive_of_rd (regs _)).trans ((s.unqueue 0).rtActive_tabled x),
    fun j entry exists_ => ?_, ?_, ?_, ?_⟩
  · rw [Pkg.rtEntry, Pkg.rf, regs]
    exact (s.unqueue 0).rtEntry_tabled x entry exists_
  · have told := Pkg.told_memDone (p := s) (s := (s.unqueue 0).tabled x) ((s.unqueue 0).rd_tabled_self x) (by rw [only]; rfl) x (typ := 1) (by decide) false
    rw [only] at told
    rwa [Pkg.memTable_hears hears, only]
  · rw [Pkg.memTable_hears hears, Pkg.memDone_threads, only]
    rfl
  · rw [Pkg.memTable_hears hears, Pkg.memDone_mem, only]
    rfl

/-! ### FLIP (R287, R304) -/

section
variable {s : Pkg} {x : FPkt} (hears : s.Hears x 2)
include hears

theorem Pkg.memFlip_active (active : s.rtGen s.rtActive = pk x 1 35 32) :
    s.memFlip = (s.unqueue 0).memDone (pkSrc x) (pk x 1 31 0) 2 false :=
  (Pkg.memTake_hears _ hears).trans (if_pos active)

theorem Pkg.memFlip_standby (active : s.rtGen s.rtActive ≠ pk x 1 35 32) (standby : s.rtGen (1 - s.rtActive) = pk x 1 35 32) :
    s.memFlip = (s.unqueue 0).rtFlip.memDone (pkSrc x) (pk x 1 31 0) 2 false :=
  (Pkg.memTake_hears _ hears).trans ((if_neg active).trans (if_pos standby))

theorem Pkg.memFlip_unknown (active : s.rtGen s.rtActive ≠ pk x 1 35 32) (standby : s.rtGen (1 - s.rtActive) ≠ pk x 1 35 32) :
    s.memFlip = ((s.unqueue 0).wb (fabBase + 8) 2 true).memDone (pkSrc x) (pk x 1 31 0) 2 true :=
  (Pkg.memTake_hears _ hears).trans ((if_neg active).trans (if_neg standby))

end

/-- Banks of different generations swap. -/
theorem Pkg.rtFlip_swaps {s : Pkg} (differ : s.rtGen 0 ≠ s.rtGen 1) : s.rtFlip = s.wf (fabBase + 8) 0 0 (1 - s.rtActive) := if_neg differ

theorem Pkg.rtGens_differ {s : Pkg} {g : Nat} (active : s.rtGen s.rtActive ≠ g) (standby : s.rtGen (1 - s.rtActive) = g) : s.rtGen 0 ≠ s.rtGen 1 := by
  have bank := s.rtActive_lt
  interval_cases s.rtActive
  · exact fun same => active (same.trans standby)
  · exact fun same => active (same.symm.trans standby)

theorem Pkg.memFlip_standby_does {s : Pkg} {x : FPkt} (hears : s.Hears x 2) (active : s.rtGen s.rtActive ≠ pk x 1 35 32)
    (standby : s.rtGen (1 - s.rtActive) = pk x 1 35 32) :
    s.Told s.memFlip (s.unqueue 0).fab.ejq (pkSrc x) (pk x 1 31 0) 2 ∧ s.memFlip.rtActive = 1 - s.rtActive ∧ s.DrsBut s.memFlip [fabBase + 8] := by
  have swap : (s.unqueue 0).rtFlip = (s.unqueue 0).wf (fabBase + 8) 0 0 (1 - s.rtActive) := Pkg.rtFlip_swaps (s := s.unqueue 0) (Pkg.rtGens_differ active standby)
  rw [Pkg.memFlip_standby hears active standby, swap]
  have drs := Pkg.memDone_drs ((s.unqueue 0).wf (fabBase + 8) 0 0 (1 - s.rtActive)) (pkSrc x) (pk x 1 31 0) 2 false
  refine ⟨Pkg.told_memDone (Pkg.rd_wf_other _ _ _ _ _ _ (by decide)) rfl x (by decide) false, ?_, fun o other => ?_⟩
  · refine (Pkg.rtActive_of_rd (Pkg.rd_of_drs drs _)).trans ((Pkg.rf_wf_same _ _ _ _ _ (by decide) (by decide)).trans ?_)
    omega
  · exact (Pkg.rd_of_drs drs o).trans (Pkg.rd_wf_other _ _ _ _ _ _ (by simpa using other))

theorem Pkg.memFlip_unknown_does {s : Pkg} {x : FPkt} (hears : s.Hears x 2) (active : s.rtGen s.rtActive ≠ pk x 1 35 32)
    (standby : s.rtGen (1 - s.rtActive) ≠ pk x 1 35 32) :
    s.Told s.memFlip (s.unqueue 0).fab.ejq (pkSrc x) (pk x 1 31 0) 18 ∧ s.memFlip.rb (fabBase + 8) 2 = true ∧ s.memFlip.rtActive = s.rtActive
      ∧ s.DrsBut s.memFlip [fabBase + 8] := by
  rw [Pkg.memFlip_unknown hears active standby]
  have drs := Pkg.memDone_drs ((s.unqueue 0).wb (fabBase + 8) 2 true) (pkSrc x) (pk x 1 31 0) 2 true
  refine ⟨Pkg.told_memDone (Pkg.rd_wf_other _ _ _ _ _ _ (by decide)) rfl x (by decide) true, ?_, ?_, fun o other => ?_⟩
  · exact (Pkg.rb_of_drs drs _ _).trans (Pkg.rb_wb_same _ _ _ _ (by decide))
  · exact (Pkg.rtActive_of_rd (Pkg.rd_of_drs drs _)).trans (Pkg.rf_wf_other _ _ _ _ _ _ _ (by decide) (by decide) (by decide) (by decide))
  · exact (Pkg.rd_of_drs drs o).trans (Pkg.rd_wf_other _ _ _ _ _ _ (by simpa using other))


/-! ### MAPUPD and PROBE (R304, R305) -/

/-- The register of FAB_MAP that has a device's bit. -/
def mapReg (d : Nat) : Nat := fabBase + 0x30000 + 8 * (d / 64)

theorem mapReg_ne {d k : Nat} (below : k < 0x30000) : mapReg d ≠ fabBase + k := by
  unfold mapReg
  omega

/-- A device has joined at generation g of the map: its streams begin anew at the epoch that g gives. -/
def Pkg.mapJoined (s : Pkg) (d g : Nat) : Pkg :=
  (((s.wb (mapReg d) (d % 64) true).wf mstat 31 16 g).updSrc d (fun st => { st with epoch := g % 16, next := 0, busy := none })).setHome d
    { exp := 0, epoch := g % 16 }

theorem Pkg.memMapupd_joined {s : Pkg} {x : FPkt} (hears : s.Hears x 3) (joined : pk x 1 47 47 = 1) :
    s.memMapupd = ((s.unqueue 0).mapJoined (pk x 1 46 32) (pk x 1 63 48)).memDone (pkSrc x) (pk x 1 31 0) 3 false := by
  refine (Pkg.memTake_hears _ hears).trans ?_
  simp only [joined, if_true, decide_true]
  rfl

section
variable (s : Pkg) (d g : Nat)

theorem Pkg.drs_mapJoined : (s.mapJoined d g).drs = ((s.wb (mapReg d) (d % 64) true).wf mstat 31 16 g).drs := rfl

theorem Pkg.rd_mapJoined_other {o : Nat} (map : o ≠ mapReg d) (stat : o ≠ mstat) : (s.mapJoined d g).rd o = s.rd o :=
  (Pkg.rd_of_drs (s.drs_mapJoined d g) o).trans ((Pkg.rd_wf_other _ _ _ _ _ _ stat).trans (Pkg.rd_wb_other _ _ _ _ _ map))

theorem Pkg.inMap_mapJoined : (s.mapJoined d g).rb (mapReg d) (d % 64) = true := by
  have apart : mapReg d ≠ mstat := mapReg_ne (by decide)
  refine (Pkg.rb_of_drs (s.drs_mapJoined d g) _ _).trans ?_
  rw [Pkg.rb, Pkg.rd_wf_other _ _ _ _ _ _ apart]
  exact Pkg.rb_wb_same _ _ _ _ (by omega)

theorem Pkg.mgen_mapJoined : (s.mapJoined d g).rf mstat 31 16 = g % 2 ^ 16 :=
  (Pkg.rf_of_drs (s.drs_mapJoined d g) ..).trans (Pkg.rf_wf_same _ _ _ _ _ (by decide) (by decide))

theorem Pkg.srcS_mapJoined : (s.mapJoined d g).srcS d = { s.srcS d with epoch := g % 16, next := 0, busy := none } := Map.get_set_same ..

theorem Pkg.homeS_mapJoined : (s.mapJoined d g).homeS d = { exp := 0, epoch := g % 16 } := Map.get_set_same ..

end

/-- What a MAPUPD of a device that joins leaves. -/
theorem Pkg.memMapupd_does {s : Pkg} {x : FPkt} (hears : s.Hears x 3) (joined : pk x 1 47 47 = 1) :
    s.memMapupd.inMap (pk x 1 46 32) = true ∧ s.memMapupd.rf mstat 31 16 = pk x 1 63 48
      ∧ s.Told s.memMapupd (s.unqueue 0).fab.ejq (pkSrc x) (pk x 1 31 0) 3
      ∧ s.memMapupd.srcS (pk x 1 46 32) = { s.srcS (pk x 1 46 32) with epoch := pk x 1 63 48 % 16, next := 0, busy := none }
      ∧ s.memMapupd.homeS (pk x 1 46 32) = { exp := 0, epoch := pk x 1 63 48 % 16 } ∧ s.DrsBut s.memMapupd [mapReg (pk x 1 46 32), mstat] := by
  have gen := pk_lt x 1 63 48
  rw [Pkg.memMapupd_joined hears joined]
  generalize pk x 1 46 32 = d at *
  generalize pk x 1 63 48 = g at *
  have drs := Pkg.memDone_drs ((s.unqueue 0).mapJoined d g) (pkSrc x) (pk x 1 31 0) 3 false
  refine ⟨(Pkg.rb_of_drs drs _ _).trans ((s.unqueue 0).inMap_mapJoined d g), ?_, ?_, ?_, ?_, fun o other => ?_⟩
  · exact (Pkg.rf_of_drs drs ..).trans (((s.unqueue 0).mgen_mapJoined d g).trans (Nat.mod_eq_of_lt gen))
  · have self : ((s.unqueue 0).mapJoined d g).rd fabBase = s.rd fabBase :=
      (s.unqueue 0).rd_mapJoined_other d g (mapReg_ne (k := 0) (by decide)).symm (by decide)
    exact Pkg.told_memDone self rfl x (by decide) false
  · exact (Pkg.srcS_memDone ..).trans ((s.unqueue 0).srcS_mapJoined d g)
  · exact (Pkg.homeS_memDone ..).trans ((s.unqueue 0).homeS_mapJoined d g)
  · simp only [List.mem_cons, List.not_mem_nil, or_false, not_or] at other
    exact (Pkg.rd_of_drs drs o).trans ((s.unqueue 0).rd_mapJoined_other d g other.1 other.2)

theorem Pkg.memProbe_hears {s : Pkg} {x : FPkt} (hears : s.Hears x 10) :
    s.memProbe = (s.unqueue 0).memMsg (pkSrc x) 11 (pk x 1 31 0) 0 [] := Pkg.memTake_hears _ hears

/-- A PROBE is answered with PROBE_ACK. -/
theorem Pkg.memProbe_does {s : Pkg} {x : FPkt} (hears : s.Hears x 10) :
    ∃ y, s.Sent s.memProbe (s.unqueue 0).fab.ejq y ∧ pkDst y = pkSrc x ∧ pkClass y = 2 ∧ pkType y = 11 ∧ pk y 1 31 0 = pk x 1 31 0
      ∧ s.memProbe.drs = s.drs := by
  rw [Pkg.memProbe_hears hears]
  obtain ⟨sent, dest, class_, kind, slot⟩ := Pkg.sentMsg_memMsg (p := s) (s := s.unqueue 0) rfl rfl (pkSrc_lt x) (typ := 11) (by decide) (pk x 1 31 0) 0
  refine ⟨_, sent, dest, class_, kind, ?_, Pkg.memMsg_drs ..⟩
  have id := pk_lt x 1 31 0
  rw [pk, slot, BitVec.toNat_ofNat]
  omega

/-! ### Joining and leaving (R306, R307) -/

/-- STATE and SILENT of FAB_MSTAT are written. -/
def Pkg.setMember (s : Pkg) (x : Nat) : Pkg := (s.wf mstat 2 0 x).wb mstat 3 false

section
variable (s : Pkg) (x : Nat)

theorem Pkg.drsBut_setMember : s.DrsBut (s.setMember x) [mstat] :=
  ((Pkg.DrsBut.refl s _).wf (List.mem_singleton_self _) 2 0 x).wb (List.mem_singleton_self _) 3 false

theorem Pkg.mState_setMember : (s.setMember x).mState = x % 8 :=
  (Pkg.rf_wf_other _ _ _ _ _ _ _ (by decide) (by decide) (by decide) (by decide)).trans (Pkg.rf_wf_same _ _ _ _ _ (by decide) (by decide))

theorem Pkg.silent_setMember : (s.setMember x).rb mstat 3 = false := Pkg.rb_wb_same _ _ _ _ (by decide)

/-- The map's generation is written beside them. -/
theorem Pkg.setMember_mgen (g : Nat) : ((s.setMember x).wf mstat 31 16 g).mState = x % 8 ∧ ((s.setMember x).wf mstat 31 16 g).rf mstat 31 16 = g % 2 ^ 16
    ∧ ((s.setMember x).wf mstat 31 16 g).rb mstat 3 = false ∧ s.DrsBut ((s.setMember x).wf mstat 31 16 g) [mstat] := by
  refine ⟨?_, Pkg.rf_wf_same _ _ _ _ _ (by decide) (by decide), ?_, (s.drsBut_setMember x).wf (List.mem_singleton_self _) 31 16 g⟩
  · exact (Pkg.rf_wf_other _ _ _ _ _ _ _ (by decide) (by decide) (by decide) (by decide)).trans (s.mState_setMember x)
  · rw [Pkg.rb, Pkg.rd_wf_same, setBits_getLsbD _ _ _ _ _ (by decide), if_neg (by decide)]
    exact s.silent_setMember x

end

/-- What the node has asked its lead, and when. -/
def Pkg.setAsked (s : Pkg) (a : Option (Nat × Nat × Nat × Nat)) : Pkg := { s with fab := { s.fab with asked := a } }

@[simp] theorem Pkg.setAsked_drs (s : Pkg) (a : Option (Nat × Nat × Nat × Nat)) : (s.setAsked a).drs = s.drs := rfl
@[simp] theorem Pkg.setAsked_inj (s : Pkg) (a : Option (Nat × Nat × Nat × Nat)) : (s.setAsked a).fab.inj = s.fab.inj := rfl
@[simp] theorem Pkg.setAsked_ejq (s : Pkg) (a : Option (Nat × Nat × Nat × Nat)) : (s.setAsked a).fab.ejq = s.fab.ejq := rfl

/-- A member at generation g of the map: what was asked is answered, and every stream has the epoch that g gives. -/
def Pkg.joinedAt (s : Pkg) (g : Nat) : Pkg :=
  let r := (s.setMember 2).wf mstat 31 16 g
  { r with fab := { r.fab with
    asked := none, base := g % 16
    src := (s.fab.src.map (fun q => (q.1, { q.2 with epoch := g % 16 }))).filter (fun q => q.2 != src0 (g % 16) q.1)
    home := (s.fab.home.map (fun q => (q.1, { q.2 with epoch := g % 16 }))).filter (fun q => q.2 != home0 (g % 16) q.1) } }

theorem Pkg.drs_joinedAt (s : Pkg) (g : Nat) : (s.joinedAt g).drs = ((s.setMember 2).wf mstat 31 16 g).drs := rfl

section
variable {s : Pkg} {x : FPkt} {t0 t : Nat}

theorem Pkg.memJoinOk_asked (hears : s.Hears x 6) (joining : s.mState = 1) (asked : s.fab.asked = some (5, pk x 1 31 0, t0, t)) :
    s.memJoinOk = (s.unqueue 0).joinedAt (pk x 1 47 32) := by
  have asked0 : (s.unqueue 0).fab.asked = some (5, pk x 1 31 0, t0, t) := asked
  have joining0 : (s.unqueue 0).mState = 1 := joining
  refine (Pkg.memTake_hears _ hears).trans ?_
  simp only [asked0, joining0, and_self, if_true]
  rfl

/-- JOIN_OK for the JOIN that was sent. -/
theorem Pkg.memJoinOk_does (hears : s.Hears x 6) (joining : s.mState = 1) (asked : s.fab.asked = some (5, pk x 1 31 0, t0, t)) :
    s.memJoinOk.mState = 2 ∧ s.memJoinOk.rf mstat 31 16 = pk x 1 47 32 ∧ s.memJoinOk.rb mstat 3 = false ∧ s.memJoinOk.fab.asked = none
      ∧ s.memJoinOk.fab.base = pk x 1 47 32 % 16 ∧ s.DrsBut s.memJoinOk [mstat] := by
  rw [Pkg.memJoinOk_asked hears joining asked]
  obtain ⟨member, mgen, heard, but⟩ := (s.unqueue 0).setMember_mgen 2 (pk x 1 47 32)
  have drs := (s.unqueue 0).drs_joinedAt (pk x 1 47 32)
  exact ⟨(Pkg.rf_of_drs drs ..).trans member, (Pkg.rf_of_drs drs ..).trans (mgen.trans (Nat.mod_eq_of_lt (pk_lt x 1 47 32))), (Pkg.rb_of_drs drs ..).trans heard,
    rfl, rfl, fun o other => (Pkg.rd_of_drs drs o).trans (but o other)⟩

theorem Pkg.memLeft_asked (hears : s.Hears x 8) (leaving : s.mState = 3) (asked : s.fab.asked = some (7, pk x 1 31 0, t0, t)) :
    s.memLeft = (((s.unqueue 0).setMember 4).wf mstat 31 16 (pk x 1 47 32)).setAsked none := by
  have asked0 : (s.unqueue 0).fab.asked = some (7, pk x 1 31 0, t0, t) := asked
  have leaving0 : (s.unqueue 0).mState = 3 := leaving
  refine (Pkg.memTake_hears _ hears).trans ?_
  simp only [asked0, leaving0, and_self, if_true]
  rfl

/-- LEFT for the LEAVE that was sent. -/
theorem Pkg.memLeft_does (hears : s.Hears x 8) (leaving : s.mState = 3) (asked : s.fab.asked = some (7, pk x 1 31 0, t0, t)) :
    s.memLeft.mState = 4 ∧ s.memLeft.rf mstat 31 16 = pk x 1 47 32 ∧ s.memLeft.fab.asked = none ∧ s.DrsBut s.memLeft [mstat] := by
  rw [Pkg.memLeft_asked hears leaving asked]
  obtain ⟨left, mgen, -, but⟩ := (s.unqueue 0).setMember_mgen 4 (pk x 1 47 32)
  have drs := (((s.unqueue 0).setMember 4).wf mstat 31 16 (pk x 1 47 32)).setAsked_drs none
  exact ⟨(Pkg.rf_of_drs drs ..).trans left, (Pkg.rf_of_drs drs ..).trans (mgen.trans (Nat.mod_eq_of_lt (pk_lt x 1 47 32))), rfl,
    fun o other => (Pkg.rd_of_drs drs o).trans (but o other)⟩

end

/-- A node asks its lead with a message of a TYPE: it keeps the MID and the time, and writes FAB_MSTAT alone. -/
def Pkg.Asks (p q : Pkg) (typ : Nat) : Prop :=
  (∃ m, q.fab.asked = some (typ, m, p.now, p.now)) ∧ p.DrsBut q [mstat]
    ∧ ∃ y, p.Sent q p.fab.ejq y ∧ pkDst y = p.leadId ∧ pkClass y = 2 ∧ pkType y = typ

theorem Pkg.leadId_lt (s : Pkg) : s.leadId < 2 ^ 15 := bits_lt ..

/-- The lead is asked from a package that differs in FAB_MSTAT and in what it had asked before. -/
theorem Pkg.asks_ask {p s : Pkg} (but : p.DrsBut s [mstat]) (now : s.now = p.now) (inj : s.fab.inj = p.fab.inj) (ejq : s.fab.ejq = p.fab.ejq) {typ : Nat}
    (type_ : typ < 16) : p.Asks (s.ask typ) typ := by
  have self : s.rd fabBase = p.rd fabBase := but _ (by decide)
  have lead : s.leadId = p.leadId := by
    unfold Pkg.leadId Pkg.rf
    rw [but _ (by decide)]
  refine ⟨⟨s.fab.mid, ?_⟩, fun o other => (Pkg.rd_of_drs (Pkg.memMsg_drs ..) o).trans (but o other), ?_⟩
  · rw [← now]
    exact Pkg.memMsg_asked ..
  · obtain ⟨sent, dest, class_, kind, -⟩ := Pkg.sentMsg_memMsg (p := p)
      (s := s.newMid.2.setAsked (some (typ, s.fab.mid, s.now, s.now))) self inj s.leadId_lt type_ s.fab.mid 0
    rw [← ejq, ← lead]
    exact ⟨_, sent, dest, class_, kind⟩

section
variable {s : Pkg}

theorem Pkg.joinCmd_out (out : s.mState = 0 ∨ s.mState = 4) : s.joinCmd = (s.setMember 1).ask 5 := if_pos out

theorem Pkg.joinCmd_in (alone : s.mState ≠ 0) (left : s.mState ≠ 4) : s.joinCmd = s.wb (fabBase + 0x130) 2 true :=
  if_neg (by simp [alone, left])

theorem Pkg.mState_ask (typ : Nat) : (s.ask typ).mState = s.mState := Pkg.rf_of_drs (Pkg.memMsg_drs ..) ..

theorem Pkg.leaveCmd_member (member : s.mState = 2) (idle : s.fab.src.all (fun x => x.2.out.isEmpty) = true) :
    s.leaveCmd = ((s.setMember 3).setAsked none).ask 7 := by
  have leaving : (s.setMember 3).rf mstat 2 0 = 3 := s.mState_setMember 3
  refine (if_pos member).trans (if_pos ⟨leaving, rfl, idle⟩)

theorem Pkg.leaveCmd_other (other : s.mState ≠ 2) : s.leaveCmd = s.wb (fabBase + 0x130) 2 true := if_neg other

end

/-! ### What a member does when its lead is slow (R306, R307) -/

section
variable {s : Pkg} {typ m t0 t : Nat} (asked : s.fab.asked = some (typ, m, t0, t))
include asked

theorem Pkg.joinResend_due (join : typ = 5) (joining : s.mState = 1) (due : t + 100000000000 ≤ s.now) :
    s.joinResend = (s.setAsked (some (5, m, t0, s.now))).memMsg s.leadId 5 m 0 [] := by
  subst join
  unfold Pkg.joinResend
  rw [asked]
  exact if_pos ⟨joining, due⟩

theorem Pkg.joinResend_early (early : s.now < t + 100000000000) : s.joinResend = s := by
  unfold Pkg.joinResend
  split
  · next heq =>
    rw [asked] at heq
    cases heq
    exact if_neg (by omega)
  · rfl

theorem Pkg.leadSilent_due (due : t0 + 1000000000000 ≤ s.now) : s.leadSilent = s.wb mstat 3 true := by
  unfold Pkg.leadSilent
  rw [asked]
  exact if_pos due

theorem Pkg.leadSilent_early (early : s.now < t0 + 1000000000000) : s.leadSilent = s := by
  unfold Pkg.leadSilent
  rw [asked]
  exact if_neg (by omega)

end

@[simp] theorem Pkg.elapse_fab (s : Pkg) (dt : Nat) : (s.elapse dt).fab = s.fab := by rw [Pkg.elapse_eq]

/-- A JOIN that is due is sent again. -/
theorem Pkg.joinResend_elapse_does {s : Pkg} (dt : Nat) {m t0 t : Nat} (asked : s.fab.asked = some (5, m, t0, t)) (joining : s.mState = 1)
    (due : t + 100000000000 ≤ (s.elapse dt).now) :
    ∃ y, (s.elapse dt).joinResend.fab.asked = some (5, m, t0, (s.elapse dt).now) ∧ s.Sent (s.elapse dt).joinResend s.fab.ejq y ∧ pkDst y = s.leadId ∧ pkType y = 5
      ∧ (s.elapse dt).joinResend.drs = (s.elapse dt).drs := by
  have later : (s.elapse dt).mState = 1 := (s.rf_elapse dt (by decide) ..).trans joining
  have lead : (s.elapse dt).leadId = s.leadId := s.rf_elapse dt (by decide) ..
  rw [Pkg.joinResend_due (by rw [Pkg.elapse_fab, asked]) rfl later due, lead]
  obtain ⟨sent, dest, -, kind, -⟩ := Pkg.sentMsg_memMsg (p := s) (s := (s.elapse dt).setAsked (some (5, m, t0, (s.elapse dt).now)))
    (s.rd_elapse dt _ (by decide)) (by simp) s.leadId_lt (typ := 5) (by decide) m 0
  rw [Pkg.setAsked_ejq, Pkg.elapse_fab] at sent
  exact ⟨_, Pkg.memMsg_asked .., sent, dest, kind, Pkg.memMsg_drs ..⟩

/-! ### The statement -/

/-- Settles O37: each message is taken by its meaning, as the lemma about it says; what the node sends goes through `Pkg.memMsg`. -/
theorem membersAnswerTheirLead : Obligations.MembersAnswerTheirLead := by
  intro s live
  refine ⟨fun x => ⟨fun hears => ?_, fun hears => ⟨fun active => ?_, fun active standby => ?_, fun active standby => ?_⟩, fun hears joined => ?_, fun hears => ?_,
    fun typ leads home first foreign follows => ?_, fun t0 t hears joining asked => ?_, fun t0 t hears leaving asked => ?_⟩, ⟨fun out => ?_, fun alone left => ?_,
    fun member idle => ?_, fun other => ?_⟩, fun typ m t0 t dt asked => ⟨fun join joining due => ?_, fun early => ?_, fun due => ?_, fun early => ?_⟩⟩
  · -- TABLE
    exact ⟨_, State.run_live _ live, Pkg.memTable_does hears⟩
  · -- FLIP to the active bank
    exact ⟨_, State.run_to live (Pkg.memFlip_active hears active), Pkg.told_memDone (p := s.pkg) (s := s.pkg.unqueue 0) rfl rfl x (by decide) false, Pkg.memDone_drs ..⟩
  · -- FLIP to the standby bank
    exact ⟨_, State.run_live _ live, Pkg.memFlip_standby_does hears active standby⟩
  · -- FLIP to no bank
    exact ⟨_, State.run_live _ live, Pkg.memFlip_unknown_does hears active standby⟩
  · -- MAPUPD
    exact ⟨_, State.run_live _ live, Pkg.memMapupd_does hears joined⟩
  · -- PROBE
    obtain ⟨y, probed⟩ := Pkg.memProbe_does hears
    exact ⟨_, y, State.run_live _ live, probed⟩
  · -- TABLE, FLIP and MAPUPD of another source
    rcases leads with rfl | rfl | rfl
    · exact State.run_to live (Pkg.memTake_foreign _ home first (by decide) foreign follows)
    · exact State.run_to live (Pkg.memTake_foreign _ home first (by decide) foreign follows)
    · exact State.run_to live (Pkg.memTake_foreign _ home first (by decide) foreign follows)
  · -- JOIN_OK
    exact ⟨_, State.run_live _ live, Pkg.memJoinOk_does hears joining asked⟩
  · -- LEFT
    exact ⟨_, State.run_live _ live, Pkg.memLeft_does hears leaving asked⟩
  · -- FAB_JOIN_CMD
    exact ⟨_, State.run_to live (Pkg.joinCmd_out out), (Pkg.mState_ask 5).trans (s.pkg.mState_setMember 1),
      Pkg.asks_ask (s.pkg.drsBut_setMember 1) rfl rfl rfl (by decide)⟩
  · exact State.run_to live (Pkg.joinCmd_in alone left)
  · -- FAB_LEAVE_CMD
    exact ⟨_, State.run_to live (Pkg.leaveCmd_member member idle), (Pkg.mState_ask 7).trans (s.pkg.mState_setMember 3),
      Pkg.asks_ask (s := (s.pkg.setMember 3).setAsked none) (s.pkg.drsBut_setMember 3) rfl rfl rfl (by decide)⟩
  · exact State.run_to live (Pkg.leaveCmd_other other)
  · -- JOIN_RESEND
    subst join
    obtain ⟨y, resent⟩ := Pkg.joinResend_elapse_does dt asked joining due
    exact ⟨_, y, State.runAt_live live dt _, resent⟩
  · exact (State.runAt_live live dt _).trans (by rw [Pkg.joinResend_early (by rw [Pkg.elapse_fab, asked]) early])
  · -- LEAD_SILENT
    exact (State.runAt_live live dt _).trans (by rw [Pkg.leadSilent_due (by rw [Pkg.elapse_fab, asked]) due])
  · exact (State.runAt_live live dt _).trans (by rw [Pkg.leadSilent_early (by rw [Pkg.elapse_fab, asked]) early])

end Sys2Proof.Machine
end

section
/-! ## What signals and link operations leave alone (10_lerlora_links_routing, 17_error_records_odometer) -/
namespace Sys2Proof.Machine

/-! ### Error records and Odometer events change nothing of the links and the fabric -/

/-- q differs from p at most in what signals change: threads that wake, registers, the mesh's note of woken cores, the log, the Odometer and
the count of free values. -/
def Pkg.OnlySignals (p q : Pkg) : Prop :=
  q = { p with threads := q.threads, drs := q.drs, noc := q.noc, tdm := q.tdm, odo := q.odo, fresh := q.fresh }

section
variable {p q r : Pkg}

theorem Pkg.OnlySignals.refl (p : Pkg) : p.OnlySignals p := rfl

theorem Pkg.OnlySignals.trans (a : p.OnlySignals q) (b : q.OnlySignals r) : p.OnlySignals r := by
  unfold Pkg.OnlySignals at *
  rw [b, a]

theorem Pkg.OnlySignals.ite {c : Prop} [Decidable c] (a : p.OnlySignals q) (b : p.OnlySignals r) : p.OnlySignals (if c then q else r) := by
  split
  · exact a
  · exact b

section
variable (a : p.OnlySignals q)
include a

theorem Pkg.OnlySignals.links : q.links = p.links := by rw [a]
theorem Pkg.OnlySignals.fab : q.fab = p.fab := by rw [a]
theorem Pkg.OnlySignals.now : q.now = p.now := by rw [a]

theorem Pkg.OnlySignals.wr (o : Nat) (v : Word) : p.OnlySignals (q.wr o v) := a.trans rfl
theorem Pkg.OnlySignals.wf (o hi lo x : Nat) : p.OnlySignals (q.wf o hi lo x) := a.trans rfl
theorem Pkg.OnlySignals.wb (o i : Nat) (b : Bool) : p.OnlySignals (q.wb o i b) := a.trans rfl
theorem Pkg.OnlySignals.sat (o hi lo k : Nat) : p.OnlySignals (q.sat o hi lo k) := a.trans rfl
theorem Pkg.OnlySignals.inc (o hi lo k : Nat) : p.OnlySignals (q.inc o hi lo k) := a.trans rfl

theorem Pkg.OnlySignals.wakeCore (c : Nat) (b : Bool) : p.OnlySignals (q.wakeCore c b) := by
  have woken : p.OnlySignals ((q.wf (meshCpwr c) 5 4 3).wakeL2 (c / 2)) := .ite ((a.wf ..).wf ..) (a.wf ..)
  rw [Pkg.wakeCore_def]
  exact .ite (a.wf ..) (.ite (.ite (woken.trans rfl) woken) a)

theorem Pkg.OnlySignals.ticChanged (h : Nat) (old : List Nat) : p.OnlySignals (q.ticChanged h old) := by
  have woken : p.OnlySignals (if (q.coreP (h / 8) = 1 ∨ q.coreP (h / 8) = 2) ∧ q.rb (meshCpwr (h / 8)) 3 ∧ (q.ripe h).any (fun v => !old.contains v) then
    q.wakeCore (h / 8) true else q) := .ite (a.wakeCore ..) a
  unfold Pkg.ticChanged
  rcases Pkg.evalWake_cases _ h with e | e
  · rw [e]
    exact woken
  · obtain ⟨l, e'⟩ := Pkg.wakeThr_eq _ h 2
    rw [e, e']
    exact woken.trans rfl

theorem Pkg.OnlySignals.raiseVec (h v : Nat) (fin : Word) : p.OnlySignals (q.raiseVec h v fin) := by
  unfold Pkg.raiseVec
  extract_lets s
  have kept : p.OnlySignals s := .ite a (.ite (a.trans rfl) (.ite (a.trans rfl) a))
  exact Pkg.OnlySignals.ticChanged (.ite (kept.wb ..) (kept.wb ..)) ..

theorem Pkg.OnlySignals.irqOf (o : Nat) : p.OnlySignals (q.irqOf o) := by
  have logged : p.OnlySignals (q.inb { inbBlank with kind := 7, addr := q.rf o 10 0 + q.rf o 23 16 * 65536 } []) := .ite (a.trans rfl) a
  exact .ite (.ite a (.ite (.ite a (logged.raiseVec ..)) (.ite (a.raiseVec ..) ((a.wb ..).sat ..)))) a

theorem Pkg.OnlySignals.odoMeasure : p.OnlySignals q.odoMeasure := by
  refine Pkg.OnlySignals.wf (List.foldlRecOn (motive := p.OnlySignals) _ _ a fun r a c _ => ?_) ..
  have drawn : p.OnlySignals r.draw.2 := a.trans rfl
  exact .ite ((drawn.wf ..).wf ..) a

theorem Pkg.OnlySignals.odoRequest (reason : Nat) : p.OnlySignals (q.odoRequest reason) := by
  unfold Pkg.odoRequest
  extract_lets soon again s
  have kept : p.OnlySignals s := .ite a (a.trans rfl)
  have begun : p.OnlySignals (s.odoBegin reason) := by
    rw [Pkg.odoBegin_eq]
    refine Pkg.OnlySignals.wb (kept.odoMeasure.trans ?_) ..
    rfl
  exact .ite (a.sat ..) (.ite (a.trans rfl) (.ite a begun))

theorem Pkg.OnlySignals.odoEvent (code unit stop d0 d1 : Nat) : p.OnlySignals (q.odoEvent code unit stop d0 d1) := by
  unfold Pkg.odoEvent
  extract_lets n b s1 s2 s3 s4 s5
  have kept : p.OnlySignals s5 := ((((a.wf ..).wr ..).wf ..).wf ..).wf ..
  exact .ite (kept.odoRequest 2) kept

theorem Pkg.OnlySignals.record (w : Win) (e : Err) : p.OnlySignals (q.record w e) := by
  have held : p.OnlySignals (q.recordHold w e) := .ite ((((a.wr ..).wr ..).wr ..).wr ..) (.ite (a.wb ..) a)
  have counted : p.OnlySignals ((q.recordHold w e).recordCount w e) := .ite (held.inc ..) (held.sat ..)
  rw [Pkg.record_eq]
  unfold Pkg.recordTell
  extract_lets b x s1 s2 nv hit s3 s4
  have k1 : p.OnlySignals s1 := .ite (counted.wf ..) (.ite (counted.wf ..) (.ite (counted.wf ..) (counted.wf ..)))
  have k2 : p.OnlySignals s2 := .ite (k1.odoEvent ..) k1
  have k3 : p.OnlySignals s3 := k2.wr ..
  have k4 : p.OnlySignals s4 := .ite (.ite ((k3.irqOf _).odoEvent ..) k3) (.ite (k2.irqOf _) k2)
  exact .ite (k4.wb ..) k4

end
end

/-! ### Registers of a link (01 R18, R25; 10 R271) -/

theorem lkX_lt (i : Nat) : lkX i < 16 := by
  unfold lkX
  split <;> omega

section
variable {i j : Nat} (link : i < 12)
include link

theorem unsignalled_lk {x : Nat} (low : x < 0x1000) : Unsignalled (lkBase i + x) := by
  have column := lkX_lt i
  unfold Unsignalled lkBase footBase odoBase
  omega

theorem lk_lt_sc {x : Nat} (low : x < 0x1000) : lkBase i + x < scBase := by
  have column := lkX_lt i
  unfold lkBase footBase scBase
  omega

theorem lk_ne_phase {x : Nat} (low : x < 0x1000) : lkBase i + x ≠ cadBase + 0x10 := by
  have below := lk_lt_sc link low
  unfold scBase at below
  unfold cadBase
  omega

theorem lk_ne_fab {x : Nat} (low : x < 0x1000) (y : Nat) : lkBase i + x ≠ fabBase + y := by
  have below := lk_lt_sc link low
  unfold scBase at below
  unfold fabBase
  omega

/-- The windows of two links lie apart. -/
theorem lk_ne_lk (link' : j < 12) (other : j ≠ i) {x y : Nat} (hx : x < 0x1000) (hy : y < 0x1000) : lkBase j + x ≠ lkBase i + y := by
  unfold lkBase footBase lkX
  split <;> split <;> omega

theorem lkBase_ne (link' : j < 12) (other : j ≠ i) : lkBase j ≠ lkBase i := by
  have apart := lk_ne_lk link link' other (x := 0) (y := 0) (by decide) (by decide)
  rwa [Nat.add_zero, Nat.add_zero] at apart

theorem lkBase_ne_fab (y : Nat) : lkBase i ≠ fabBase + y := by
  have apart := lk_ne_fab link (x := 0) (by decide) y
  rwa [Nat.add_zero] at apart

theorem lkBase_ne_phase : lkBase i ≠ cadBase + 0x10 := by
  have apart := lk_ne_phase link (x := 0) (by decide)
  rwa [Nat.add_zero] at apart

/-- The registers of the links that are no error record. -/
theorem lk_ne_err (link' : j < 12) {x : Nat} (low : x < 0xC00) : ∀ y < 0x40, lkBase j + x ≠ (Win.lk i).err + y := by
  intro y hy
  have record : (Win.lk i).err + y = lkBase i + (0xC00 + y) := Nat.add_assoc ..
  rw [record]
  by_cases same : j = i
  · subst same
    omega
  · exact lk_ne_lk link link' same (by omega) (by omega)

/-- An error of a link leaves the registers of every link that are no error record. -/
theorem Pkg.rd_ce_lk (link' : j < 12) (s : Pkg) (code : Nat) (addr : Option Nat) (info : Nat) {x : Nat} (low : x < 0xC00) :
    (s.ce (.lk i) code addr info).rd (lkBase j + x) = s.rd (lkBase j + x) :=
  ((Pkg.Signals.refl _ s).record (unsignalled_lk link' (by omega)) (lk_ne_err link link' low) _).reg

end

theorem Pkg.onlySignals_ce (s : Pkg) (w : Win) (code : Nat) (addr : Option Nat) (info : Nat) : s.OnlySignals (s.ce w code addr info) :=
  (Pkg.OnlySignals.refl s).record ..

/-! ### One link's table -/

theorem Pkg.link_of_links {p q : Pkg} (links : q.links = p.links) (j : Nat) : q.link j = p.link j := by
  unfold Pkg.link
  rw [links]

@[simp] theorem Pkg.elapse_links (s : Pkg) (dt : Nat) : (s.elapse dt).links = s.links := by rw [Pkg.elapse_eq]
@[simp] theorem Pkg.link_elapse (s : Pkg) (dt j : Nat) : (s.elapse dt).link j = s.link j := Pkg.link_of_links (s.elapse_links dt) j

section
variable (s : Pkg) (o hi lo x j : Nat)

@[simp] theorem Pkg.link_wf : (s.wf o hi lo x).link j = s.link j := Pkg.link_of_links rfl j
@[simp] theorem Pkg.link_wb (b : Bool) : (s.wb o hi b).link j = s.link j := Pkg.link_of_links rfl j
@[simp] theorem Pkg.link_sat : (s.sat o hi lo x).link j = s.link j := Pkg.link_of_links rfl j
@[simp] theorem Pkg.link_inc : (s.inc o hi lo x).link j = s.link j := Pkg.link_of_links rfl j

end

/-- q differs from p in link i alone, which is l. -/
def Pkg.Linked (p q : Pkg) (i : Nat) (l : Link) : Prop :=
  q.link i = l ∧ (∀ j, j ≠ i → q.link j = p.link j) ∧ q = { p with links := q.links }

theorem Pkg.linked_updLink (s : Pkg) (i : Nat) (f : Link → Link) : s.Linked (s.updLink i f) i (f (s.link i)) :=
  ⟨Map.get_set_same .., fun _ other => Map.get_set_other _ _ _ _ _ other, rfl⟩

section
variable {p q r : Pkg} {i : Nat} {l m : Link} (at_ : p.Linked q i l)
include at_

theorem Pkg.Linked.trans (b : q.Linked r i m) : p.Linked r i m := by
  obtain ⟨-, others, only⟩ := at_
  obtain ⟨own, others', only'⟩ := b
  exact ⟨own, fun j other => (others' j other).trans (others j other), by rw [only', only]⟩

theorem Pkg.Linked.drs : q.drs = p.drs := by rw [at_.2.2]
theorem Pkg.Linked.fab : q.fab = p.fab := by rw [at_.2.2]
theorem Pkg.Linked.now : q.now = p.now := by rw [at_.2.2]

end

/-! ### Flits that a link sends (R268, R269) -/

/-- m is l after it has sent flits: they return slots, and are on the wire. -/
def Link.HasSent (l m : Link) : Prop := m = { l with ret := m.ret, wire := m.wire }

theorem Link.HasSent.data {l m : Link} (sent : l.HasSent m) (f : LFlit) : l.HasSent (m.data f) := by
  unfold Link.HasSent Link.data Link.send
  rw [sent]

/-- Flits that are sent, or sent again, change no more. -/
theorem Link.hasSent_data (l : Link) (fl : List LFlit) : l.HasSent (fl.foldl Link.data l) :=
  foldl_keeps (l.HasSent ·) _ (fun _ f sent => sent.data f) fl l rfl

/-- A link with nothing queued sends no packet. -/
theorem Pkg.pump1_idle {s : Pkg} {i : Nat} (idle : (s.link i).vcq = []) : s.pump1 i = s := by
  have no (l : List Nat) : l.find? (fun _ => false) = none := by simp
  unfold Pkg.pump1
  simp [idle, Map.get, no]

theorem Pkg.pump_idle {s : Pkg} {i : Nat} (idle : (s.link i).vcq = []) : s.pump i = s :=
  foldl_keeps (· = s) _ (fun q _ same => by rw [same, Pkg.pump1_idle idle]) _ s rfl

/-! ### What a flit's header brings, and resends (R268, R269) -/

/-- Every unacknowledged flit has been sent once more. -/
def again (r : List LFlit) : List LFlit := r.map (fun y => { y with tries := y.tries + 1 })

section
variable (l : Link) (h : FlitHdr) (now : Nat)

/-- A header without ACK gives credits alone. -/
theorem Link.header_noAck (none_ : h.ack = none) : l.header h now = { l with credit := (l.header h now).credit } := by
  unfold Link.header
  rw [none_]

/-- An ACK of flit k of the replay buffer removes it and those before it. -/
theorem Link.header_ack {a : BitVec 12} {k : Nat} (ack : h.ack = some a) (found : l.replay.findIdx? (fun y => y.seq == a.toNat) = some k) :
    l.header h now = { l with replay := l.replay.drop (k + 1), ackAt := now, credit := (l.header h now).credit } := by
  unfold Link.header
  simp only [ack, found]

end

/-- A link that sends its replay buffer again. -/
def Link.resent (l : Link) (now : Nat) : Link := l.replay.foldl Link.data { l with replay := again l.replay, ackAt := now }

theorem Link.hasSent_resent (l : Link) (now : Nat) : ({ l with replay := again l.replay, ackAt := now } : Link).HasSent (l.resent now) :=
  Link.hasSent_data ..

/-- The replay buffer is sent again: the count of resends and the link's own state change. -/
theorem Pkg.sendAgain_eq (s : Pkg) (i : Nat) :
    s.sendAgain i = (s.inc (lkBase i + 0x20) 63 32 (s.link i).replay.length).updLink i (·.resent s.now) := rfl

theorem Pkg.linked_sendAgain (s : Pkg) (i : Nat) :
    (s.inc (lkBase i + 0x20) 63 32 (s.link i).replay.length).Linked (s.sendAgain i) i ((s.link i).resent s.now) := by
  have upd := (s.inc (lkBase i + 0x20) 63 32 (s.link i).replay.length).linked_updLink i (·.resent s.now)
  rwa [Pkg.link_inc, ← Pkg.sendAgain_eq] at upd

/-! ### Slots that empty in receive buffers (R270) -/

/-- m is l but for the occupied slots and those to return. -/
def Link.SlotsOnly (l m : Link) : Prop := ∃ o r, m = { l with occ := o, ret := r }

theorem Link.SlotsOnly.refl (l : Link) : l.SlotsOnly l := ⟨l.occ, l.ret, rfl⟩

theorem Link.SlotsOnly.trans {l m n : Link} (a : l.SlotsOnly m) (b : m.SlotsOnly n) : l.SlotsOnly n := by
  obtain ⟨_, _, rfl⟩ := a
  obtain ⟨o, r, rfl⟩ := b
  exact ⟨o, r, rfl⟩

/-- The slots of a packet empty: links keep all else. -/
theorem Pkg.freed_does (s : Pkg) (src : Option (Nat × Nat)) (n : Nat) :
    s.freed src n = { s with links := (s.freed src n).links } ∧ (∀ j, (s.link j).SlotsOnly ((s.freed src n).link j))
      ∧ ∀ j, (∀ v, src ≠ some (j, v)) → (s.freed src n).link j = s.link j := by
  cases src with
  | none => exact ⟨rfl, fun j => .refl _, fun _ _ => rfl⟩
  | some e =>
    obtain ⟨i, v⟩ := e
    obtain ⟨own, others, only⟩ := s.linked_updLink i (fun l => { l with occ := l.occ.set v (l.occ.getD v 0 - n), ret := l.ret.set v (l.ret.getD v 0 + n) })
    refine ⟨only, fun j => ?_, fun j other => others j fun same => other v (by rw [same])⟩
    by_cases same : j = i
    · subst same
      exact ⟨_, _, own⟩
    · exact (others j same).symm ▸ .refl _

end Sys2Proof.Machine
end

section
/-! ## Link commands, training, loss of lock, draining and takeover (10_lerlora_links_routing R268 to R277) -/
namespace Sys2Proof.Machine

/-- q differs from p in registers and links alone. -/
def Pkg.OnlyRegsAndLinks (p q : Pkg) : Prop := q = { p with drs := q.drs, links := q.links }

theorem Pkg.OnlyRegsAndLinks.refl (p : Pkg) : p.OnlyRegsAndLinks p := rfl

section
variable {p q : Pkg} (only : p.OnlyRegsAndLinks q)
include only

theorem Pkg.OnlyRegsAndLinks.wf (o hi lo x : Nat) : p.OnlyRegsAndLinks (q.wf o hi lo x) := by
  unfold Pkg.OnlyRegsAndLinks Pkg.wf Pkg.wr
  rw [only]

theorem Pkg.OnlyRegsAndLinks.updLink (i : Nat) (f : Link → Link) : p.OnlyRegsAndLinks (q.updLink i f) := by
  unfold Pkg.OnlyRegsAndLinks Pkg.updLink
  rw [only]

end

@[simp] theorem Pkg.updLink_now (s : Pkg) (i : Nat) (f : Link → Link) : (s.updLink i f).now = s.now := rfl
@[simp] theorem Pkg.rd_updLink (s : Pkg) (i : Nat) (f : Link → Link) (o : Nat) : (s.updLink i f).rd o = s.rd o := Pkg.rd_of_drs rfl o

@[simp] theorem Pkg.link_wr (s : Pkg) (o : Nat) (v : Word) (j : Nat) : (s.wr o v).link j = s.link j := Pkg.link_of_links rfl j

@[simp] theorem Pkg.link_ce (s : Pkg) (w : Win) (code : Nat) (addr : Option Nat) (info j : Nat) : (s.ce w code addr info).link j = s.link j :=
  Pkg.link_of_links (Pkg.onlySignals_ce ..).links j

section
variable {p q : Pkg}

theorem Pkg.rf_of_rd {o : Nat} (same : q.rd o = p.rd o) (hi lo : Nat) : q.rf o hi lo = p.rf o hi lo := by
  unfold Pkg.rf
  rw [same]

/-- A link's state and roles are in its LK_STAT. -/
theorem Pkg.lkState_of_rd {i : Nat} (same : q.rd (lkBase i) = p.rd (lkBase i)) : q.lkState i = p.lkState i := Pkg.rf_of_rd same 3 0
theorem Pkg.lkRole_of_rd {i : Nat} (same : q.rd (lkBase i) = p.rd (lkBase i)) : q.lkRole i = p.lkRole i := Pkg.rf_of_rd same 7 4
theorem Pkg.lkStby_of_rd {i : Nat} (same : q.rd (lkBase i) = p.rd (lkBase i)) : q.lkStby i = p.lkStby i := Pkg.rf_of_rd same 11 8
theorem Pkg.lkAct_of_rd {i : Nat} (same : q.rd (lkBase i) = p.rd (lkBase i)) : q.lkAct i = p.lkAct i := by
  unfold Pkg.lkAct Pkg.rb
  rw [same]
theorem Pkg.lkCarries_of_rd {i : Nat} (same : q.rd (lkBase i) = p.rd (lkBase i)) : q.lkCarries i = p.lkCarries i := by
  unfold Pkg.lkCarries
  rw [Pkg.lkAct_of_rd same, Pkg.lkStby_of_rd same, Pkg.lkRole_of_rd same]

end

@[simp] theorem Pkg.link_setLk (s : Pkg) (i x j : Nat) : (s.setLk i x).link j = s.link j := Pkg.link_wf ..

theorem Pkg.lkState_setLk (s : Pkg) (i : Nat) {x : Nat} (small : x < 16) : (s.setLk i x).lkState i = x :=
  (Pkg.rf_wf_same _ _ _ _ _ (by decide) (by decide)).trans (Nat.mod_eq_of_lt small)

/-- A field of another register. -/
theorem Pkg.rf_wf_apart (s : Pkg) {o q : Nat} (hi lo x : Nat) (other : q ≠ o) (p r : Nat) : (s.wf o hi lo x).rf q p r = s.rf q p r := by
  unfold Pkg.rf
  rw [Pkg.rd_wf_other _ _ _ _ _ _ other]

/-! ### Packets that a link discards (R273) -/

/-- A link that holds nothing to send. -/
def Link.emptied (l : Link) : Link :=
  { l with replay := [], vcq := [], tx := 0, rx := 0, got := false, nak := false, part := [], credit := [256, 256, 256, 256, 256, 256] }

/-- The slots of discarded packets empty. -/
def Pkg.freedAll (s : Pkg) (l : List VcEnt) : Pkg := l.foldl (fun s e => s.freed e.src e.p.length) s

theorem Pkg.freedAll_does (s : Pkg) (l : List VcEnt) :
    s.freedAll l = { s with links := (s.freedAll l).links } ∧ (∀ j, (s.link j).SlotsOnly ((s.freedAll l).link j)) := by
  induction l generalizing s with
  | nil => exact ⟨rfl, fun j => .refl _⟩
  | cons e l ih =>
    obtain ⟨only, slots, -⟩ := s.freed_does e.src e.p.length
    obtain ⟨only', slots'⟩ := ih (s.freed e.src e.p.length)
    refine ⟨?_, fun j => (slots j).trans (slots' j)⟩
    change (s.freed e.src e.p.length).freedAll l = { s with links := ((s.freed e.src e.p.length).freedAll l).links }
    rw [only', only]

/-- Packets that came from no receive buffer empty none. -/
theorem Pkg.freedAll_mortar (s : Pkg) {l : List VcEnt} (mortar : ∀ e ∈ l, e.src = none) : s.freedAll l = s := by
  induction l generalizing s with
  | nil => rfl
  | cons e l ih =>
    have first : s.freed e.src e.p.length = s := by
      rw [mortar e (List.mem_cons_self ..)]
      rfl
    change (s.freed e.src e.p.length).freedAll l = s
    rw [first]
    exact ih s fun x mem => mortar x (List.mem_cons_of_mem _ mem)

section
variable (s : Pkg) (i : Nat)

/-- The counter of discarded packets, and the link without them. -/
def Pkg.discarded : Pkg := (s.sat (fabBase + 0x10) 31 16 (s.link i).held).updLink i Link.emptied

theorem Pkg.linkDiscard_eq : s.linkDiscard i = (s.discarded i).freedAll ((s.link i).vcq.flatMap (·.2)) := rfl

theorem Pkg.linkDiscard_drs : (s.linkDiscard i).drs = (s.sat (fabBase + 0x10) 31 16 (s.link i).held).drs := by
  rw [Pkg.linkDiscard_eq, (Pkg.freedAll_does _ _).1]
  rfl

theorem Pkg.linkDiscard_only : s.OnlyRegsAndLinks (s.linkDiscard i) := by
  unfold Pkg.OnlyRegsAndLinks
  rw [Pkg.linkDiscard_eq, (Pkg.freedAll_does _ _).1]
  rfl

theorem Pkg.link_discarded_same : (s.discarded i).link i = (s.link i).emptied := by
  obtain ⟨own, -⟩ := (s.sat (fabBase + 0x10) 31 16 (s.link i).held).linked_updLink i Link.emptied
  rwa [Pkg.link_sat] at own

theorem Pkg.link_discarded_other {j : Nat} (other : j ≠ i) : (s.discarded i).link j = s.link j := by
  obtain ⟨-, others, -⟩ := (s.sat (fabBase + 0x10) 31 16 (s.link i).held).linked_updLink i Link.emptied
  exact (others j other).trans (Pkg.link_sat ..)

theorem Pkg.link_linkDiscard_same : (s.link i).emptied.SlotsOnly ((s.linkDiscard i).link i) :=
  s.link_discarded_same i ▸ (Pkg.freedAll_does _ _).2 i

theorem Pkg.link_linkDiscard_other {j : Nat} (other : j ≠ i) : (s.link j).SlotsOnly ((s.linkDiscard i).link j) :=
  s.link_discarded_other i other ▸ (Pkg.freedAll_does _ _).2 j

/-- What it discards has come from Mortar alone: no receive buffer empties. -/
theorem Pkg.link_linkDiscard_mortar (mortar : ∀ v ∈ (s.link i).vcq, ∀ e ∈ v.2, e.src = none) {j : Nat} (other : j ≠ i) :
    (s.linkDiscard i).link j = s.link j := by
  rw [Pkg.linkDiscard_eq, Pkg.freedAll_mortar]
  · exact s.link_discarded_other i other
  · intro e mem
    obtain ⟨v, hv, he⟩ := List.mem_flatMap.mp mem
    exact mortar v hv e he

theorem Pkg.rd_linkDiscard {o : Nat} (other : o ≠ fabBase + 0x10) : (s.linkDiscard i).rd o = s.rd o :=
  (Pkg.rd_of_drs (s.linkDiscard_drs i) o).trans (Pkg.rd_sat_other _ _ _ _ _ _ other)

/-- The discarded packets are counted. -/
theorem Pkg.rf_linkDiscard : (s.linkDiscard i).rf (fabBase + 0x10) 31 16 = min (s.rf (fabBase + 0x10) 31 16 + (s.link i).held) 65535 :=
  (Pkg.rf_of_drs (s.linkDiscard_drs i) ..).trans (Pkg.rf_sat_same _ _ _ (by decide) (by decide))

/-! ### LINK_DISABLE (R273) -/

theorem Pkg.lkDisable_eq : s.lkDisable i = ((s.linkDiscard i).setLk i 0).updLink i (fun _ => {}) := rfl

end

/-- A disabled link is OFF with nothing held, and what it held is counted. -/
theorem Pkg.lkDisable_does (s : Pkg) {i : Nat} (link : i < 12) :
    (s.lkDisable i).lkState i = 0 ∧ (s.lkDisable i).link i = {} ∧ (∀ j, j ≠ i → (s.link j).SlotsOnly ((s.lkDisable i).link j))
      ∧ ((∀ v ∈ (s.link i).vcq, ∀ e ∈ v.2, e.src = none) → ∀ j, j ≠ i → (s.lkDisable i).link j = s.link j)
      ∧ (s.lkDisable i).rf (fabBase + 0x10) 31 16 = min (s.rf (fabBase + 0x10) 31 16 + (s.link i).held) 65535
      ∧ s.DrsBut (s.lkDisable i) [lkBase i, fabBase + 0x10] ∧ s.lkDisable i = { s with drs := (s.lkDisable i).drs, links := (s.lkDisable i).links } := by
  have upd := ((s.linkDiscard i).setLk i 0).linked_updLink i (fun _ => {})
  rw [← Pkg.lkDisable_eq] at upd
  have drs := upd.drs
  obtain ⟨own, others, only⟩ := upd
  have kept (j : Nat) (other : j ≠ i) : (s.lkDisable i).link j = (s.linkDiscard i).link j := (others j other).trans (Pkg.link_wf ..)
  have apart : fabBase + 0x10 ≠ lkBase i := (lkBase_ne_fab link 0x10).symm
  refine ⟨?_, own, fun j other => kept j other ▸ s.link_linkDiscard_other i other,
    fun mortar j other => (kept j other).trans (s.link_linkDiscard_mortar i mortar other), ?_, fun o out => ?_, ?_⟩
  · exact (Pkg.rf_of_drs drs ..).trans (Pkg.rf_wf_same _ _ _ _ _ (by decide) (by decide))
  · exact (Pkg.rf_of_drs drs ..).trans ((Pkg.rf_wf_apart _ _ _ _ apart _ _).trans (s.rf_linkDiscard i))
  · simp only [List.mem_cons, List.not_mem_nil, or_false, not_or] at out
    exact (Pkg.rd_of_drs drs o).trans ((Pkg.rd_wf_other _ _ _ _ _ _ out.1).trans (s.rd_linkDiscard i out.2))
  · exact ((s.linkDiscard_only i).wf ..).updLink ..

/-! ### LINK_ENABLE, LINK_DRAIN and training (R271, R273) -/

section
variable {s : Pkg} {i : Nat}

theorem Pkg.lkEnable_down (down : s.lkState i = 0 ∨ s.lkState i = 8 ∨ s.lkState i = 9) (role : s.roleLive (s.lkTrains i) = true) :
    s.lkEnable i = (s.setLk i 1).updLink i (fun _ => {}) := if_pos ⟨down, role⟩

theorem Pkg.lkEnable_refused (no : (s.lkState i ≠ 0 ∧ s.lkState i ≠ 8 ∧ s.lkState i ≠ 9) ∨ s.roleLive (s.lkTrains i) = false) :
    s.lkEnable i = s.wb (lkCtl i) 2 true := by
  refine if_neg ?_
  rintro ⟨down, role⟩
  rcases no with ⟨off, fail, wrong⟩ | none_
  · rcases down with h | h | h
    · exact off h
    · exact fail h
    · exact wrong h
  · rw [none_] at role
    cases role

theorem Pkg.lkDrain_active (active : s.lkState i = 5) : s.lkDrain i = s.updLink i (fun k => { k with drain := some (4, s.now) }) := if_pos active

theorem Pkg.lkDrain_refused (other : s.lkState i ≠ 5) : s.lkDrain i = s.wb (lkCtl i) 2 true := if_neg other

section
variable {ok : Bool} {m : LaneMap} {id role : Nat}

theorem Pkg.lkTrain_detect (st : s.lkState i = 1) (idle : (s.link i).retryAt = none) : s.lkTrain i true m id role = s.setLk i 2 := by
  simp [Pkg.lkTrain, st, idle]

theorem Pkg.lkTrain_config (st : s.lkState i = 2) : s.lkTrain i true m id role = s.setLk i 3 := by
  simp [Pkg.lkTrain, st]

theorem Pkg.lkTrain_equalise (st : s.lkState i = 3) : s.lkTrain i true m id role = (s.setLk i 4).updLink i (fun k =>
    { k with rmap := m.phys.map (·.val), rinv := m.inv, wire := k.wire ++ [.train s.selfId (s.lkTrains i)] }) := by
  simp [Pkg.lkTrain, st]

theorem Pkg.lkTrain_fails (st : s.lkState i = 2 ∨ s.lkState i = 3) :
    s.lkTrain i false m id role = (s.setLk i 1).updLink i (fun k => { k with retryAt := some (s.now + 100000000000) }) := by
  rcases st with st | st
  · simp [Pkg.lkTrain, st]
  · simp [Pkg.lkTrain, st]

/-- A link that has trained keeps its lanes. -/
def Link.trained (k : Link) (now : Nat) : Link := { rmap := k.rmap, rinv := k.rinv, wire := k.wire, chk := now / 4096000 }

theorem Pkg.lkTrain_active (st : s.lkState i = 4) (met : s.expect (s.lkTrains i) = (id, role)) (own : s.lkRole i ≠ 0)
    (noSpare : ∀ j, j < 12 → s.lkAct j = false) : s.lkTrain i ok m id role = (s.setLk i 5).updLink i (·.trained s.now) := by
  have noReserve : (List.range 12).any (fun j => j != i && s.lkAct j && s.lkStby j == s.lkTrains i) = false := by
    rw [List.any_eq_false]
    intro j mem
    simp [noSpare j (List.mem_range.mp mem)]
  simp only [Pkg.lkTrain, st, met, if_true, own, noReserve, Bool.false_eq_true, or_self, if_false]
  rfl

theorem Pkg.lkTrain_spare (st : s.lkState i = 4) (met : s.expect (s.lkTrains i) = (id, role)) (spare : s.lkRole i = 0) :
    s.lkTrain i ok m id role = (s.setLk i 7).updLink i (·.trained s.now) := by
  simp only [Pkg.lkTrain, st, met, if_true, spare, true_or]
  rfl

/-- The neighbour that has been found instead of the expected one is shown. -/
def Pkg.miscabled (s : Pkg) (i id role : Nat) : Pkg := (s.setLk i 9).wr (lkBase i + 0x10) (BitVec.ofNat 64 (id + role * 2 ^ 15 + 2 ^ 19))

theorem Pkg.lkTrain_other (st : s.lkState i = 4) (other : s.expect (s.lkTrains i) ≠ (id, role)) :
    s.lkTrain i ok m id role = (s.miscabled i id role).ce (.lk i) 0x0F none 0 := by
  simp only [Pkg.lkTrain, st, other, if_false]
  rfl

theorem Pkg.lkTrain_other_does (link : i < 12) (st : s.lkState i = 4) (other : s.expect (s.lkTrains i) ≠ (id, role)) :
    (s.lkTrain i ok m id role).lkState i = 9 ∧ (s.lkTrain i ok m id role).rd (lkBase i + 0x10) = BitVec.ofNat 64 (id + role * 2 ^ 15 + 2 ^ 19)
      ∧ (s.lkTrain i ok m id role).link i = s.link i := by
  have state := Pkg.rd_ce_lk link link (s.miscabled i id role) 0x0F none 0 (x := 0) (by decide)
  have shown := Pkg.rd_ce_lk link link (s.miscabled i id role) 0x0F none 0 (x := 0x10) (by decide)
  have stored : (s.miscabled i id role).rd (lkBase i + 0x10) = BitVec.ofNat 64 (id + role * 2 ^ 15 + 2 ^ 19) := by rw [Pkg.miscabled, Pkg.rd_wr_same]
  rw [Pkg.lkTrain_other st other]
  refine ⟨?_, shown.trans stored, (Pkg.link_ce ..).trans ?_⟩
  · rw [Nat.add_zero] at state
    rw [Pkg.lkState, Pkg.rf, state, Pkg.miscabled, Pkg.rd_wr_other _ _ _ _ (by omega)]
    exact Pkg.rf_wf_same _ _ _ _ _ (by decide) (by decide)
  · rw [Pkg.miscabled, Pkg.link_wr, Pkg.setLk, Pkg.link_wf]

end

section
variable {t : Nat} (waits : (s.link i).retryAt = some t)
include waits

theorem Pkg.lkRetry_early (early : s.now < t) : s.lkRetry i = s := by
  unfold Pkg.lkRetry
  rw [waits]
  exact if_neg (by omega)

theorem Pkg.lkRetry_due (st : s.lkState i = 1) (due : t ≤ s.now) : s.lkRetry i = (s.setLk i 2).updLink i (fun k => { k with retryAt := none }) := by
  unfold Pkg.lkRetry
  rw [waits]
  exact if_pos ⟨st, due⟩

end
end


/-! ### A link goes DOWN (R273, R277) -/

/-- What a link that goes DOWN forgets at once; it reports itself DOWN, unless the far end is lost or DOWN. -/
def Link.stopped (l : Link) (cause : Nat) : Link :=
  let l := { l with drain := none, repair := none, farRep := false, take := none, retryAt := none }
  if cause = 3 ∨ cause = 5 then l else l.ctl 0 true

/-- The rest of a link's state when it stops. -/
theorem Link.stopped_does (l : Link) (cause : Nat) : (l.stopped cause).replay = l.replay ∧ (l.stopped cause).vcq = l.vcq ∧ (l.stopped cause).tx = l.tx
    ∧ (l.stopped cause).rx = l.rx ∧ (l.stopped cause).drain = none := by
  unfold Link.stopped
  split
  · exact ⟨rfl, rfl, rfl, rfl, rfl⟩
  · exact ⟨rfl, rfl, rfl, rfl, rfl⟩

/-- Link i is DOWN with its cause, and carries nothing. -/
def Pkg.IsDown (q : Pkg) (i cause : Nat) : Prop :=
  q.lkState i = 8 ∧ q.rf (lkBase i) 34 32 = cause ∧ q.lkAct i = false ∧ (q.link i).replay = [] ∧ (q.link i).vcq = [] ∧ (q.link i).drain = none

section
variable (s : Pkg) (i cause : Nat)

/-- LK_STAT of a link that goes DOWN. -/
def Pkg.downStat : Pkg := ((s.setLk i 8).wf (lkBase i) 34 32 cause).wb (lkBase i) 12 false

/-- The link before its packets are taken over or discarded: DOWN, with its error. -/
def Pkg.downed : Pkg :=
  ((s.downStat i cause).updLink i (·.stopped cause)).ce (.lk i) 0x0E none (cause * 16 + ((((s.downStat i cause).updLink i (·.stopped cause)).link i).bad.getD 0))

/-- The spare that takes over a role of link i. -/
def Pkg.spareFor (role : Nat) : Option Nat :=
  (List.range 12).find? (fun j => j != i && s.lkState j == 7 && (s.lkStby j == role || s.lkRole j == role) && role != 0)

end

/-- A spare that takes over has the packets and the sequence numbers of the failed link, and sends SWITCH. -/
def Link.takesOver (k l : Link) (i now : Nat) : Link :=
  { k with tx := l.tx, rx := l.rx, got := l.got, replay := l.replay, vcq := l.vcq, rr := l.rr, credit := l.credit, part := l.part, nak := false, take := some (i, now) }.ctl 5

/-- The failed link has handed them over. -/
def Link.handedOver (l : Link) : Link := { l with replay := [], vcq := [], tx := 0, rx := 0, got := false, part := [] }

/-- Spare j takes over the packets of link i. -/
def Pkg.takenOver (s : Pkg) (i j : Nat) : Pkg := (s.updLink j (fun k => k.takesOver (s.link i) i s.now)).updLink i Link.handedOver

theorem Pkg.linkDown_spare {s : Pkg} {i cause j : Nat} (spare : (s.downed i cause).spareFor i (s.lkCarries i) = some j) :
    s.linkDown i cause = (s.downed i cause).takenOver i j := by
  unfold Pkg.spareFor at spare
  change (match (List.range 12).find? (fun j => j != i && (s.downed i cause).lkState j == 7
    && ((s.downed i cause).lkStby j == s.lkCarries i || (s.downed i cause).lkRole j == s.lkCarries i) && s.lkCarries i != 0) with
    | some j => (s.downed i cause).takenOver i j
    | none => ((s.downed i cause).linkDiscard i).roleLost (s.lkCarries i)) = _
  rw [spare]

theorem Pkg.linkDown_noSpare {s : Pkg} {i cause : Nat} (noSpare : (s.downed i cause).spareFor i (s.lkCarries i) = none) :
    s.linkDown i cause = ((s.downed i cause).linkDiscard i).roleLost (s.lkCarries i) := by
  unfold Pkg.spareFor at noSpare
  change (match (List.range 12).find? (fun j => j != i && (s.downed i cause).lkState j == 7
    && ((s.downed i cause).lkStby j == s.lkCarries i || (s.downed i cause).lkRole j == s.lkCarries i) && s.lkCarries i != 0) with
    | some j => (s.downed i cause).takenOver i j
    | none => ((s.downed i cause).linkDiscard i).roleLost (s.lkCarries i)) = _
  rw [noSpare]

section
variable (s : Pkg) {i : Nat} (link : i < 12) (cause : Nat)

theorem Pkg.downed_now : (s.downed i cause).now = s.now := by
  rw [Pkg.downed, (Pkg.onlySignals_ce ..).now, Pkg.updLink_now, Pkg.downStat, Pkg.wb_now, Pkg.wf_now, Pkg.setLk, Pkg.wf_now]

theorem Pkg.lkStat_downStat (i : Nat) {cause : Nat} (small : cause < 8) : (s.downStat i cause).lkState i = 8
    ∧ (s.downStat i cause).rf (lkBase i) 34 32 = cause ∧ (s.downStat i cause).lkAct i = false := by
  refine ⟨?_, ?_, ?_⟩
  · rw [Pkg.lkState, Pkg.downStat, Pkg.wb, Pkg.rf_wf_other _ _ _ _ _ _ _ (by decide) (by decide) (by decide) (by decide),
      Pkg.rf_wf_other _ _ _ _ _ _ _ (by decide) (by decide) (by decide) (by decide), Pkg.setLk, Pkg.rf_wf_same _ _ _ _ _ (by decide) (by decide)]
    norm_num
  · rw [Pkg.downStat, Pkg.wb, Pkg.rf_wf_other _ _ _ _ _ _ _ (by decide) (by decide) (by decide) (by decide),
      Pkg.rf_wf_same _ _ _ _ _ (by decide) (by decide)]
    exact Nat.mod_eq_of_lt small
  · rw [Pkg.lkAct, Pkg.downStat, Pkg.rb_wb_same _ _ _ _ (by decide)]

theorem Pkg.link_downStat (j : Nat) : (s.downStat i cause).link j = s.link j := by
  rw [Pkg.downStat, Pkg.link_wb, Pkg.link_wf, Pkg.setLk, Pkg.link_wf]

theorem Pkg.link_downed_same : (s.downed i cause).link i = (s.link i).stopped cause := by
  obtain ⟨own, -⟩ := (s.downStat i cause).linked_updLink i (·.stopped cause)
  rw [Pkg.downed, Pkg.link_ce, own, Pkg.link_downStat]

theorem Pkg.link_downed_other {j : Nat} (other : j ≠ i) : (s.downed i cause).link j = s.link j := by
  obtain ⟨-, others, -⟩ := (s.downStat i cause).linked_updLink i (·.stopped cause)
  rw [Pkg.downed, Pkg.link_ce, others j other, Pkg.link_downStat]

include link

theorem Pkg.rd_downed {j : Nat} (link' : j < 12) : (s.downed i cause).rd (lkBase j) = (s.downStat i cause).rd (lkBase j) := by
  have kept := Pkg.rd_ce_lk link link' ((s.downStat i cause).updLink i (·.stopped cause)) 0x0E none
    (cause * 16 + ((((s.downStat i cause).updLink i (·.stopped cause)).link i).bad.getD 0)) (x := 0) (by decide)
  rwa [Nat.add_zero, Pkg.rd_updLink, ← Pkg.downed] at kept

/-- The registers of the other links are as before. -/
theorem Pkg.rd_downed_other {j : Nat} (link' : j < 12) (other : j ≠ i) : (s.downed i cause).rd (lkBase j) = s.rd (lkBase j) := by
  have apart := lkBase_ne link link' other
  rw [Pkg.rd_downed s link cause link', Pkg.downStat, Pkg.rd_wb_other _ _ _ _ _ apart, Pkg.rd_wf_other _ _ _ _ _ _ apart, Pkg.setLk,
    Pkg.rd_wf_other _ _ _ _ _ _ apart]

theorem Pkg.lkStat_downed (small : cause < 8) : (s.downed i cause).lkState i = 8 ∧ (s.downed i cause).rf (lkBase i) 34 32 = cause
    ∧ (s.downed i cause).lkAct i = false := by
  obtain ⟨state, why, act⟩ := s.lkStat_downStat i small
  have reg := Pkg.rd_downed s link cause link
  exact ⟨(Pkg.lkState_of_rd reg).trans state, (Pkg.rf_of_rd reg 34 32).trans why, (Pkg.lkAct_of_rd reg).trans act⟩

/-- The spare is chosen by the other links' registers. -/
theorem Pkg.spareFor_downed (role : Nat) : (s.downed i cause).spareFor i role = s.spareFor i role := by
  refine List.find?_congr fun j mem => ?_
  by_cases same : j = i
  · simp [same]
  · have kept := Pkg.rd_downed_other s link cause (List.mem_range.mp mem) same
    rw [Pkg.lkState_of_rd kept, Pkg.lkStby_of_rd kept, Pkg.lkRole_of_rd kept]

end

/-- A spare of a role is a link other than i in STANDBY. -/
theorem Pkg.spareFor_some {s : Pkg} {i role j : Nat} (spare : s.spareFor i role = some j) : j ≠ i ∧ j < 12 := by
  have found := List.find?_some spare
  have mem := List.mem_of_find?_eq_some spare
  simp only [Bool.and_eq_true, bne_iff_ne, ne_eq] at found
  exact ⟨found.1.1.1, List.mem_range.mp mem⟩

/-- Where no other link stands by, there is no spare. -/
theorem Pkg.spareFor_none {s : Pkg} {i : Nat} (no : ∀ j, j < 12 → s.lkState j ≠ 7 ∨ j = i) (role : Nat) : s.spareFor i role = none := by
  refine List.find?_eq_none.mpr fun j mem => ?_
  rcases no j (List.mem_range.mp mem) with out | same
  · simp [out]
  · simp [same]

/-- The only element that passes is found. -/
theorem find?_only {α : Type} {l : List α} {f : α → Bool} {v : α} (mem : v ∈ l) (good : f v = true) (only : ∀ u ∈ l, f u = true → u = v) : l.find? f = some v := by
  obtain ⟨u, found⟩ := Option.isSome_iff_exists.mp (List.find?_isSome.mpr ⟨v, mem, good⟩)
  rw [found, only u (List.mem_of_find?_eq_some found) (List.find?_some found)]

/-- The only link that stands by is the spare. -/
theorem Pkg.spareFor_only {s : Pkg} {i j role : Nat} (link : j < 12) (other : j ≠ i) (carries : role ≠ 0) (standby : s.lkState j = 7)
    (reserve : s.lkStby j = role ∨ s.lkRole j = role) (only : ∀ k, k < 12 → k ≠ i → k ≠ j → s.lkState k ≠ 7) : s.spareFor i role = some j := by
  refine find?_only (List.mem_range.mpr link) (by simp [other, carries, standby, reserve]) fun k mem good => ?_
  simp only [Bool.and_eq_true, bne_iff_ne, ne_eq, beq_iff_eq] at good
  obtain ⟨⟨⟨apart, waits⟩, -⟩, -⟩ := good
  by_contra second
  exact only k (List.mem_range.mp mem) apart second waits

/-- That a role is lost is told the lead: registers and links stay. -/
theorem Pkg.roleLost_kept (s : Pkg) (role : Nat) : (s.roleLost role).drs = s.drs ∧ (s.roleLost role).links = s.links := by
  unfold Pkg.roleLost
  split
  · exact ⟨Pkg.memMsg_drs .., Pkg.memMsg_links ..⟩
  · exact ⟨rfl, rfl⟩

section
variable (s : Pkg) {i j : Nat}

theorem Pkg.takenOver_drs : (s.takenOver i j).drs = s.drs := rfl

theorem Pkg.link_takenOver_failed : (s.takenOver i j).link i = ((s.updLink j (fun k => k.takesOver (s.link i) i s.now)).link i).handedOver :=
  ((s.updLink j (fun k => k.takesOver (s.link i) i s.now)).linked_updLink i Link.handedOver).1

theorem Pkg.link_takenOver_spare (other : j ≠ i) : (s.takenOver i j).link j = (s.link j).takesOver (s.link i) i s.now :=
  (((s.updLink j (fun k => k.takesOver (s.link i) i s.now)).linked_updLink i Link.handedOver).2.1 j other).trans
    (s.linked_updLink j (fun k => k.takesOver (s.link i) i s.now)).1

end

section
variable (s : Pkg) {i : Nat} (link : i < 12)
include link

/-- A link that goes DOWN is DOWN and carries nothing, whether a spare takes over or not. -/
theorem Pkg.linkDown_isDown {cause : Nat} (small : cause < 8) : (s.linkDown i cause).IsDown i cause := by
  obtain ⟨state, why, act⟩ := s.lkStat_downed link cause small
  cases spare : (s.downed i cause).spareFor i (s.lkCarries i) with
  | some j =>
    obtain ⟨other, -⟩ := Pkg.spareFor_some spare
    have own : ((s.downed i cause).updLink j (fun k => k.takesOver ((s.downed i cause).link i) i (s.downed i cause).now)).link i = (s.link i).stopped cause :=
      (((s.downed i cause).linked_updLink j _).2.1 i other.symm).trans (s.link_downed_same cause)
    have reg : (s.linkDown i cause).rd (lkBase i) = (s.downed i cause).rd (lkBase i) := by
      rw [Pkg.linkDown_spare spare, Pkg.rd_of_drs (Pkg.takenOver_drs _)]
    have handed : (s.linkDown i cause).link i = ((s.link i).stopped cause).handedOver := by
      rw [Pkg.linkDown_spare spare, Pkg.link_takenOver_failed, own]
    refine ⟨(Pkg.lkState_of_rd reg).trans state, (Pkg.rf_of_rd reg 34 32).trans why, (Pkg.lkAct_of_rd reg).trans act, ?_⟩
    rw [handed]
    exact ⟨rfl, rfl, ((s.link i).stopped_does cause).2.2.2.2⟩
  | none =>
    obtain ⟨drs, links⟩ := ((s.downed i cause).linkDiscard i).roleLost_kept (s.lkCarries i)
    rw [← Pkg.linkDown_noSpare spare] at drs links
    have reg : (s.linkDown i cause).rd (lkBase i) = (s.downed i cause).rd (lkBase i) :=
      (Pkg.rd_of_drs drs _).trans ((s.downed i cause).rd_linkDiscard i (lkBase_ne_fab link 0x10))
    obtain ⟨o, r, emptied⟩ := (s.downed i cause).link_linkDiscard_same i
    have own : (s.linkDown i cause).link i = { ((s.link i).stopped cause).emptied with occ := o, ret := r } := by
      rw [Pkg.link_of_links links, emptied, s.link_downed_same cause]
    refine ⟨(Pkg.lkState_of_rd reg).trans state, (Pkg.rf_of_rd reg 34 32).trans why, (Pkg.lkAct_of_rd reg).trans act, ?_⟩
    rw [own]
    exact ⟨rfl, rfl, ((s.link i).stopped_does cause).2.2.2.2⟩

/-- A spare that takes over has the failed link's packets and sequence numbers. -/
theorem Pkg.linkDown_takeover {cause j : Nat} (spare : s.spareFor i (s.lkCarries i) = some j) :
    ((s.linkDown i cause).link j).take = some (i, s.now) ∧ ((s.linkDown i cause).link j).replay = (s.link i).replay
      ∧ ((s.linkDown i cause).link j).vcq = (s.link i).vcq ∧ ((s.linkDown i cause).link j).tx = (s.link i).tx
      ∧ ((s.linkDown i cause).link j).rx = (s.link i).rx := by
  obtain ⟨other, -⟩ := Pkg.spareFor_some spare
  obtain ⟨replay, vcq, tx, rx, -⟩ := (s.link i).stopped_does cause
  have takes : (s.linkDown i cause).link j = ((s.downed i cause).link j).takesOver ((s.link i).stopped cause) i s.now := by
    rw [Pkg.linkDown_spare ((s.spareFor_downed link cause _).trans spare), Pkg.link_takenOver_spare _ other, s.link_downed_same cause, s.downed_now cause]
  rw [takes]
  exact ⟨rfl, replay, vcq, tx, rx⟩

/-- Without a spare every other link keeps all but slots of its receive buffers. -/
theorem Pkg.linkDown_discards {cause j : Nat} (noSpare : s.spareFor i (s.lkCarries i) = none) (other : j ≠ i) :
    (s.link j).SlotsOnly ((s.linkDown i cause).link j) := by
  rw [Pkg.linkDown_noSpare ((s.spareFor_downed link cause _).trans noSpare), Pkg.link_of_links (Pkg.roleLost_kept ..).2,
    ← s.link_downed_other cause other]
  exact Pkg.link_linkDiscard_other _ i other

end


/-! ### LOSS_OF_LOCK and LINK_DRAIN_COMPLETE (R273) -/

section
variable {s : Pkg} {i : Nat}

theorem Pkg.lossOfLock_training (low : 2 ≤ s.lkState i) (high : s.lkState i ≤ 4) : s.lossOfLock i = s.setLk i 1 := by
  have notUp : ¬ (s.lkState i = 5 ∨ s.lkState i = 6 ∨ s.lkState i = 7) := by omega
  exact (if_neg notUp).trans (if_pos ⟨low, high⟩)

theorem Pkg.lossOfLock_working (low : 5 ≤ s.lkState i) (high : s.lkState i ≤ 7) : s.lossOfLock i = s.linkDown i 3 := by
  have up : s.lkState i = 5 ∨ s.lkState i = 6 ∨ s.lkState i = 7 := by omega
  exact if_pos up

section
variable {cause t : Nat} (drains : (s.link i).drain = some (cause, t))
include drains

theorem Pkg.drainDone_over (ends : (s.link i).replay = [] ∨ t + 2000000 ≤ s.now) : s.drainDone i = s.linkDown i cause := by
  unfold Pkg.drainDone
  rw [drains]
  refine if_pos (ends.imp (fun empty => ?_) id)
  rw [empty]
  rfl

theorem Pkg.drainDone_early (unacked : (s.link i).replay ≠ []) (early : s.now < t + 2000000) : s.drainDone i = s := by
  unfold Pkg.drainDone
  rw [drains]
  refine if_neg ?_
  rintro (empty | late)
  · exact unacked (List.isEmpty_iff.mp empty)
  · omega

end
end

theorem Pkg.lkState_elapse (s : Pkg) (dt : Nat) {j : Nat} (link : j < 12) : (s.elapse dt).lkState j = s.lkState j :=
  Pkg.lkState_of_rd (s.rd_elapse dt _ (lkBase_ne_phase link))

/-! ### SWITCH_FLIT_RECEIVE and TAKEOVER_TIMEOUT (R277) -/

section
variable (l : Link) (h : FlitHdr) (now : Nat)

/-- A header leaves all but the replay buffer, its time and the credits. -/
theorem Link.header_kept : l.header h now = { l with replay := (l.header h now).replay, ackAt := (l.header h now).ackAt, credit := (l.header h now).credit } := by
  unfold Link.header
  cases h.ack with
  | none => rfl
  | some a =>
    dsimp only
    split
    · rfl
    · rfl

theorem Link.resent_kept : l.resent now = { l with
    replay := again l.replay, ackAt := now, ret := (l.resent now).ret, wire := (l.resent now).wire } := l.hasSent_resent now

/-- A header, and then the resends that follow it. -/
theorem Link.header_resent : ((l.header h now).resent now).take = l.take ∧ ((l.header h now).resent now).vcq = l.vcq
    ∧ ((l.header h now).resent now).ackAt = now := by
  rw [Link.resent_kept, Link.header_kept]
  exact ⟨rfl, rfl, rfl⟩

theorem Link.header_resent_replay : ((l.header h now).resent now).replay = again (l.header h now).replay := by
  rw [Link.resent_kept]

theorem Link.header_replay_noAck (none_ : h.ack = none) : (l.header h now).replay = l.replay := by rw [Link.header_noAck _ _ _ none_]

theorem Link.header_replay_ack {a : BitVec 12} {k : Nat} (ack : h.ack = some a) (found : l.replay.findIdx? (fun y => y.seq == a.toNat) = some k) :
    (l.header h now).replay = l.replay.drop (k + 1) := by rw [Link.header_ack _ _ _ ack found]

end

/-- A flit whose CRC passes is taken as its FTYPE says. -/
theorem flitIs_of_type {ty : Nat} {x : BitVec 2048} (type_ : flitF x 3 0 = ty) : flitIs ty x = true := by
  unfold flitIs
  simp [type_]

/-- A flit whose CRC fails may be of any type. -/
theorem flitIs_of_bad {x : BitVec 2048} (bad : (flitHdr x).ok = false) (ty : Nat) : flitIs ty x = true := by
  unfold flitIs
  simp [bad]

section
variable (s : Pkg) (i p : Nat)

/-- A spare in STANDBY has taken over from link p: ACTIVE, in the role that it holds in reserve if it has none of its own. -/
def Pkg.switched : Pkg :=
  let q := (s.updLink i (fun l => { l with take := none })).setLk i 5
  if (s.lkStby i == s.lkRole p || s.lkStby i == s.lkStby p) && q.lkRole i == 0 then q.wb (lkBase i) 12 true else q

theorem Pkg.link_switched (j : Nat) : (s.switched i p).link j = (s.updLink i (fun l => { l with take := none })).link j := by
  unfold Pkg.switched
  dsimp only
  split
  · rw [Pkg.link_wb, Pkg.link_setLk]
  · rw [Pkg.link_setLk]

theorem Pkg.link_switched_same : (s.switched i p).link i = { s.link i with take := none } :=
  (s.link_switched i p i).trans (s.linked_updLink i (fun l => { l with take := none })).1

theorem Pkg.link_switched_other {j : Nat} (other : j ≠ i) : (s.switched i p).link j = s.link j :=
  (s.link_switched i p j).trans ((s.linked_updLink i (fun l => { l with take := none })).2.1 j other)

theorem Pkg.now_switched : (s.switched i p).now = s.now := by
  unfold Pkg.switched
  dsimp only
  split
  · rw [Pkg.wb_now, Pkg.setLk, Pkg.wf_now, Pkg.updLink_now]
  · rw [Pkg.setLk, Pkg.wf_now, Pkg.updLink_now]

theorem Pkg.lkState_switched : (s.switched i p).lkState i = 5 := by
  unfold Pkg.switched
  dsimp only
  split
  · rw [Pkg.lkState, Pkg.wb, Pkg.rf_wf_other _ _ _ _ _ _ _ (by decide) (by decide) (by decide) (by decide)]
    exact Pkg.lkState_setLk _ _ (by decide)
  · exact Pkg.lkState_setLk _ _ (by decide)

theorem Pkg.onlyRegsAndLinks_switched : s.OnlyRegsAndLinks (s.switched i p) := by
  have only : s.OnlyRegsAndLinks ((s.updLink i (fun l => { l with take := none })).setLk i 5) :=
    ((Pkg.OnlyRegsAndLinks.refl s).updLink ..).wf ..
  unfold Pkg.switched
  dsimp only
  split
  · exact only.wf ..
  · exact only

end

theorem Pkg.switchIn_bad {s : Pkg} {i : Nat} {w : LaneBits} (standby : s.lkState i = 7) (bad : (flitHdr ((s.link i).flit w)).ok = false) (down : Bool) :
    s.switchIn i w down = s.inc (lkBase i + 0x20) 31 0 := by
  unfold Pkg.switchIn Pkg.switchFlit
  simp [standby, flitIs_of_bad bad, bad]

theorem Pkg.switchIn_switch {s : Pkg} {i p t : Nat} {w : LaneBits} (standby : s.lkState i = 7) (ok : (flitHdr ((s.link i).flit w)).ok = true)
    (type_ : flitF ((s.link i).flit w) 3 0 = 5) (takes : (s.link i).take = some (p, t)) :
    s.switchIn i w false = (((s.switched i p).lkHeader i (flitHdr ((s.link i).flit w))).sendAgain i).pump i := by
  unfold Pkg.switchIn Pkg.switchFlit
  simp only [standby, flitIs_of_type type_, and_self, if_true, ok, Bool.not_true, Bool.false_eq_true, if_false, takes]
  rfl

section
variable (s : Pkg) (i p : Nat) (h : FlitHdr)

/-- A spare that has taken over from link p, after the header of the SWITCH flit and the resends. -/
def Pkg.takenUp : Pkg := ((s.switched i p).lkHeader i h).sendAgain i

theorem Pkg.link_takenUp_same : (s.takenUp i p h).link i = (({ s.link i with take := none } : Link).header h s.now).resent s.now := by
  have header := (s.switched i p).linked_updLink i (·.header h (s.switched i p).now)
  obtain ⟨own, -⟩ := ((s.switched i p).lkHeader i h).linked_sendAgain i
  rw [Pkg.takenUp, own, Pkg.lkHeader, header.1, header.now, s.link_switched_same, s.now_switched]

theorem Pkg.link_takenUp_other {j : Nat} (other : j ≠ i) : (s.takenUp i p h).link j = s.link j := by
  obtain ⟨-, header, -⟩ := (s.switched i p).linked_updLink i (·.header h (s.switched i p).now)
  obtain ⟨-, others, -⟩ := ((s.switched i p).lkHeader i h).linked_sendAgain i
  rw [Pkg.takenUp, others j other, Pkg.link_inc, Pkg.lkHeader, header j other, s.link_switched_other i p other]

theorem Pkg.lkState_takenUp : (s.takenUp i p h).lkState i = 5 := by
  have counted := (((s.switched i p).lkHeader i h).linked_sendAgain i).drs
  have kept : (s.takenUp i p h).rd (lkBase i) = (s.switched i p).rd (lkBase i) := by
    rw [Pkg.takenUp, Pkg.rd_of_drs counted, Pkg.inc, Pkg.rd_wf_other _ _ _ _ _ _ (by omega), Pkg.lkHeader, Pkg.rd_updLink]
  exact (Pkg.lkState_of_rd kept).trans (s.lkState_switched i p)

theorem Pkg.onlyRegsAndLinks_takenUp : s.OnlyRegsAndLinks (s.takenUp i p h) := by
  rw [Pkg.takenUp, Pkg.sendAgain_eq]
  exact (((s.onlyRegsAndLinks_switched i p).updLink i _).wf ..).updLink ..

end

/-- A spare that is taking over and receives SWITCH is ACTIVE, and has sent again what the header has not acknowledged. -/
theorem Pkg.switchIn_does {s : Pkg} {i p t : Nat} {w : LaneBits} (standby : s.lkState i = 7) (ok : (flitHdr ((s.link i).flit w)).ok = true)
    (type_ : flitF ((s.link i).flit w) 3 0 = 5) (takes : (s.link i).take = some (p, t)) (idle : (s.link i).vcq = []) :
    (s.switchIn i w false).lkState i = 5 ∧ ((s.switchIn i w false).link i).take = none ∧ ((s.switchIn i w false).link i).ackAt = s.now
      ∧ (∀ a k, (flitHdr ((s.link i).flit w)).ack = some a → (s.link i).replay.findIdx? (fun y => y.seq == a.toNat) = some k →
          ((s.switchIn i w false).link i).replay = again ((s.link i).replay.drop (k + 1)))
      ∧ ((flitHdr ((s.link i).flit w)).ack = none → ((s.switchIn i w false).link i).replay = again (s.link i).replay)
      ∧ (∀ j, j ≠ i → (s.switchIn i w false).link j = s.link j) ∧ s.OnlyRegsAndLinks (s.switchIn i w false) := by
  have own := s.link_takenUp_same i p (flitHdr ((s.link i).flit w))
  obtain ⟨take, vcq, ackAt⟩ := ({ s.link i with take := none } : Link).header_resent (flitHdr ((s.link i).flit w)) s.now
  have replay := ({ s.link i with take := none } : Link).header_resent_replay (flitHdr ((s.link i).flit w)) s.now
  rw [← own] at take vcq ackAt replay
  have eq : s.switchIn i w false = s.takenUp i p (flitHdr ((s.link i).flit w)) :=
    (Pkg.switchIn_switch standby ok type_ takes).trans (Pkg.pump_idle (vcq.trans idle))
  rw [eq]
  refine ⟨s.lkState_takenUp .., take, ackAt, fun a k ack found => ?_, fun none_ => ?_, fun j other => s.link_takenUp_other i p _ other, s.onlyRegsAndLinks_takenUp ..⟩
  · exact replay.trans (congrArg again (Link.header_replay_ack { s.link i with take := none } _ _ ack found))
  · exact replay.trans (congrArg again (Link.header_replay_noAck { s.link i with take := none } _ _ none_))

section
variable {s : Pkg} {i p t : Nat} (takes : (s.link i).take = some (p, t))
include takes

theorem Pkg.takeTimeout_early (early : s.now < t + 100000000) : s.takeTimeout i = s := by
  unfold Pkg.takeTimeout
  rw [takes]
  exact if_neg (by omega)

/-- A takeover that has not come about: the link is a spare again, without the packets. -/
theorem Pkg.takeTimeout_does (due : t + 100000000 ≤ s.now) :
    (s.takeTimeout i).lkState i = 7 ∧ ((s.takeTimeout i).link i).take = none ∧ ((s.takeTimeout i).link i).replay = []
      ∧ ∀ j, j ≠ i → (s.link j).SlotsOnly ((s.takeTimeout i).link j) := by
  have eq : s.takeTimeout i = (((s.linkDiscard i).updLink i (fun l => { l with take := none })).setLk i 7).roleLost
      (if s.lkRole p ≠ 0 then s.lkRole p else s.lkStby p) := by
    unfold Pkg.takeTimeout
    rw [takes]
    exact if_pos due
  obtain ⟨drs, links⟩ := (((s.linkDiscard i).updLink i (fun l => { l with take := none })).setLk i 7).roleLost_kept
    (if s.lkRole p ≠ 0 then s.lkRole p else s.lkStby p)
  rw [← eq] at drs links
  obtain ⟨own, others, -⟩ := (s.linkDiscard i).linked_updLink i (fun l => { l with take := none })
  have kept (j : Nat) : (s.takeTimeout i).link j = ((s.linkDiscard i).updLink i (fun l => { l with take := none })).link j :=
    (Pkg.link_of_links links j).trans (Pkg.link_setLk ..)
  obtain ⟨o, r, emptied⟩ := s.link_linkDiscard_same i
  refine ⟨(Pkg.rf_of_drs drs ..).trans (Pkg.lkState_setLk _ _ (by decide)), ?_, ?_, fun j other => ?_⟩
  · rw [kept, own]
  · rw [kept, own, emptied]
    rfl
  · rw [kept, others j other]
    exact s.link_linkDiscard_other i other

end

/-! ### The statement -/

theorem State.runAt_to {s : State} (live : s.pkg.live = true) {dt : Nat} {f : Pkg → Pkg} {q : Pkg} (e : f (s.pkg.elapse dt) = q) :
    s.runAt dt f = .next (s.withPkg q) := by
  rw [State.runAt_live live, e]

/-- Settles O33: the states a link goes through, command by command. -/
theorem linksTrainGoDownAndTakeOver : Obligations.LinksTrainGoDownAndTakeOver := by
  intro s i live
  have link := i.isLt
  refine ⟨fun down role => ?_, fun no => ?_, fun active => ?_, fun other => ?_, ?_, fun ok m id role => ⟨fun st idle => ?_, fun st => ?_, fun st => ?_, fun st => ?_,
    fun st met => ⟨fun own noSpare => ?_, fun spare => ?_⟩, fun st other => ?_⟩, fun dt t st waits => ⟨fun early => ?_, fun due => ?_⟩, fun low high => ?_,
    ⟨fun low high => ?_, fun noSpare => ⟨fun low high => ?_, fun dt cause t small drains => ⟨fun ends => ?_, fun unacked early => ?_⟩⟩⟩,
    fun p t st takes => ⟨fun w ok type_ idle => ?_, fun dt => ⟨fun early => ?_, fun due => ?_⟩⟩, fun w d st bad => ?_⟩
  · -- LINK_ENABLE
    exact State.run_to live (Pkg.lkEnable_down down role)
  · exact State.run_to live (Pkg.lkEnable_refused no)
  · -- LINK_DRAIN
    exact State.run_to live (Pkg.lkDrain_active active)
  · exact State.run_to live (Pkg.lkDrain_refused other)
  · -- LINK_DISABLE
    exact ⟨_, State.run_live _ live, s.pkg.lkDisable_does link⟩
  · -- LINK_TRAINING_STEP
    exact State.run_to live (Pkg.lkTrain_detect st idle)
  · exact State.run_to live (Pkg.lkTrain_config st)
  · exact State.run_to live (Pkg.lkTrain_equalise st)
  · exact State.run_to live (Pkg.lkTrain_fails st)
  · exact State.run_to live (Pkg.lkTrain_active st met own noSpare)
  · exact State.run_to live (Pkg.lkTrain_spare st met spare)
  · exact ⟨_, State.run_live _ live, Pkg.lkTrain_other_does link st other⟩
  · -- LINK_TRAIN_RETRY
    rw [← s.pkg.link_elapse dt] at waits
    rw [← s.pkg.elapse_now dt] at early
    exact State.runAt_to live (Pkg.lkRetry_early waits early)
  · rw [← s.pkg.link_elapse dt] at waits
    rw [← s.pkg.elapse_now dt] at due
    exact State.runAt_to live (Pkg.lkRetry_due waits ((s.pkg.lkState_elapse dt link).trans st) due)
  · -- LOSS_OF_LOCK
    exact State.run_to live (Pkg.lossOfLock_training low high)
  · exact ⟨_, State.run_to live (Pkg.lossOfLock_working low high), s.pkg.linkDown_isDown link (by decide),
      fun j link' other carries standby reserve only => s.pkg.linkDown_takeover link (Pkg.spareFor_only link' other carries standby reserve only)⟩
  · exact ⟨_, State.run_to live (Pkg.lossOfLock_working low high), s.pkg.linkDown_isDown link (by decide),
      fun j other => s.pkg.linkDown_discards link (Pkg.spareFor_none noSpare _) other⟩
  · -- LINK_DRAIN_COMPLETE
    rw [← s.pkg.link_elapse dt] at drains ends
    rw [← s.pkg.elapse_now dt] at ends
    have noSpare' : ∀ j, j < 12 → (s.pkg.elapse dt).lkState j ≠ 7 ∨ j = i := fun j link' => s.pkg.lkState_elapse dt link' ▸ noSpare j link'
    refine ⟨_, State.runAt_to live (Pkg.drainDone_over drains ends), (s.pkg.elapse dt).linkDown_isDown link small, fun j other => ?_⟩
    have kept := (s.pkg.elapse dt).linkDown_discards link (cause := cause) (Pkg.spareFor_none noSpare' _) other
    rwa [Pkg.link_elapse] at kept
  · rw [← s.pkg.link_elapse dt] at drains unacked
    rw [← s.pkg.elapse_now dt] at early
    exact State.runAt_to live (Pkg.drainDone_early drains unacked early)
  · -- SWITCH_FLIT_RECEIVE
    exact ⟨_, State.run_live _ live, Pkg.switchIn_does st ok type_ takes idle⟩
  · -- TAKEOVER_TIMEOUT
    rw [← s.pkg.link_elapse dt] at takes
    rw [← s.pkg.elapse_now dt] at early
    exact State.runAt_to live (Pkg.takeTimeout_early takes early)
  · rw [← s.pkg.elapse_now dt] at due
    have does := Pkg.takeTimeout_does (s := s.pkg.elapse dt) (by rw [Pkg.link_elapse, takes]) due
    simp only [Pkg.link_elapse] at does
    exact ⟨_, State.runAt_live live dt _, does⟩
  · -- SWITCH_FLIT_RECEIVE with a bad CRC
    exact State.run_to live (Pkg.switchIn_bad st bad d)

end Sys2Proof.Machine
end

section
/-! ## Flits that arrive: DATA, IDLE, NAK and CHECK, resends and lane repair (10_lerlora_links_routing R265 to R272) -/
namespace Sys2Proof.Machine

theorem Pkg.Linked.refl (p : Pkg) (i : Nat) : p.Linked p i (p.link i) := ⟨rfl, fun _ _ => rfl, rfl⟩

/-- A counter that wraps. -/
theorem Pkg.rf_inc_same (s : Pkg) (o : Nat) {hi lo : Nat} (n : Nat) (order : lo ≤ hi) (word : hi < 64) :
    (s.inc o hi lo n).rf o hi lo = (s.rf o hi lo + n) % 2 ^ (hi - lo + 1) := Pkg.rf_wf_same _ _ _ _ _ order word

theorem Pkg.drsBut_inc (s : Pkg) (o hi lo n : Nat) : s.DrsBut (s.inc o hi lo n) [o] :=
  Pkg.DrsBut.wf (.refl s _) (List.mem_singleton_self _) hi lo _

/-- An ACTIVE link receives flits. -/
theorem Pkg.lkHears_active {s : Pkg} {i : Nat} (active : s.lkState i = 5) : s.lkHears i = true := by
  simp [Pkg.lkHears, active]

/-! ### A flit without Shimmy (19 R462) -/

/-- A DATA flit that RETRY lets through. -/
def Pkg.unretried (s : Pkg) (key : Nat) : Pkg := { s with shm := { s.shm with tries := Map.set (fun _ => 0) s.shm.tries key 0 } }

theorem Pkg.flitIn_idle {s : Pkg} {i : LkN} {w : LaneBits} (off : s.shm.on = false) (acts : s.shm.acts = []) (active : s.lkState i = 5)
    (data : flitIs 1 ((s.link i).flit w) = true) :
    s.flitIn i w = (s.unretried (4096 * i.val + (flitData ((s.link i).flit w)).seq.toNat)).dataFlit i (flitData ((s.link i).flit w)) := by
  have retry (key : Nat) (hit : Nat → Bool) : s.shmRetry key hit = (s.unretried key, false) := by
    simp [Pkg.shmRetry, Pkg.shmAsk, off, Pkg.unretried]
  have ask (key : Nat) (hit : Nat → Bool) : (s.unretried key).shmAsk 3 hit = (s.unretried key, []) := by
    simp [Pkg.shmAsk, off, Pkg.unretried]
  have none_ (key : Nat) : (s.unretried key).shmHas 3 i = false := Pkg.shmHas_idle (s := s.unretried key) acts 3 i
  unfold Pkg.flitIn
  simp [Pkg.lkHears_active active, data, retry, ask, none_]

section
variable (s : Pkg) (key : Nat)

@[simp] theorem Pkg.unretried_drs : (s.unretried key).drs = s.drs := rfl
@[simp] theorem Pkg.unretried_fab : (s.unretried key).fab = s.fab := rfl
@[simp] theorem Pkg.link_unretried (j : Nat) : (s.unretried key).link j = s.link j := Pkg.link_of_links rfl j

end

/-! ### NAK, and a flit out of sequence (R269) -/

/-- One NAK answers the flits that are discarded. -/
def Link.nakked (l : Link) : Link := if l.nak then l else { l.ctl 2 with nak := true }

theorem Link.nakked_does (l : Link) : l.nakked.nak = true ∧ l.nakked.rx = l.rx ∧ l.nakked.replay = l.replay ∧ l.nakked.vcq = l.vcq := by
  unfold Link.nakked
  split
  · exact ⟨‹_›, rfl, rfl, rfl⟩
  · exact ⟨rfl, rfl, rfl, rfl⟩

theorem Pkg.linked_sendNak (s : Pkg) (i : Nat) : s.Linked (s.sendNak i) i (s.link i).nakked := by
  unfold Pkg.sendNak Link.nakked
  split
  · exact .refl s i
  · exact s.linked_updLink i (fun l => { l.ctl 2 with nak := true })

theorem Pkg.linked_lkHeader (s : Pkg) (i : Nat) (h : FlitHdr) : s.Linked (s.lkHeader i h) i ((s.link i).header h s.now) :=
  s.linked_updLink i (·.header h s.now)

section
variable {s : Pkg} {i : Nat} (active : s.lkState i = 5)
include active

theorem Pkg.dataFlit_bad {f : DataFlit} (bad : f.hdr.ok = false) : s.dataFlit i f = (s.inc (lkBase i + 0x20) 31 0).sendNak i := by
  simp [Pkg.dataFlit, Pkg.lkHears_active active, bad]

/-- A DATA flit whose CRC fails is counted and answered by one NAK. -/
theorem Pkg.dataFlit_bad_does {f : DataFlit} (bad : f.hdr.ok = false) :
    (s.inc (lkBase i + 0x20) 31 0).Linked (s.dataFlit i f) i (s.link i).nakked := by
  have sent := (s.inc (lkBase i + 0x20) 31 0).linked_sendNak i
  rwa [Pkg.link_inc, ← Pkg.dataFlit_bad active bad] at sent

/-- A DATA flit out of sequence is answered by one NAK. -/
theorem Pkg.dataFlit_outOfSequence {f : DataFlit} (ok : f.hdr.ok = true) (idle : (s.link i).vcq = []) (other : f.seq.toNat ≠ (s.link i).rx) :
    s.Linked (s.dataFlit i f) i ((s.link i).header f.hdr s.now).nakked := by
  have header := s.linked_lkHeader i f.hdr
  have sent := (s.lkHeader i f.hdr).linked_sendNak i
  rw [header.1] at sent
  have rx : ((s.lkHeader i f.hdr).link i).rx = (s.link i).rx := by rw [header.1, Link.header_kept]
  have empty : (((s.lkHeader i f.hdr).sendNak i).link i).vcq = [] := by
    rw [sent.1, ((((s.link i).header f.hdr s.now)).nakked_does).2.2.2, Link.header_kept, idle]
  have eq : s.dataFlit i f = (s.lkHeader i f.hdr).sendNak i := by
    unfold Pkg.dataFlit
    simp only [Pkg.lkHears_active active, ok, Bool.not_true, Bool.false_eq_true, if_false, rx, if_pos other]
    exact Pkg.pump_idle empty
  rw [eq]
  exact header.trans sent

end

/-! ### A DATA flit that carries one packet (R268 to R270) -/

/-- PKT_LEN is in the first slot. -/
theorem pkLen_take {p : FPkt} {k : Nat} (some_ : 0 < k) : pkLen (p.take k) = pkLen p := by
  unfold pkLen pk
  rw [List.getD_eq_getElem?_getD, List.getElem?_take_of_lt some_, ← List.getD_eq_getElem?_getD]

/-- The VC of a packet that arrives is in the registers and the packet. -/
theorem Pkg.vcIn_of_drs {p q : Pkg} (same : q.drs = p.drs) (i : Nat) (x : FPkt) : q.vcIn i x = p.vcIn i x := by
  unfold Pkg.vcIn Pkg.selfId
  rw [Pkg.lkCarries_of_rd (Pkg.rd_of_drs same _), Pkg.rf_of_drs same]

/-- A packet of n slots in the receive buffer of VC v. -/
def Link.holds (l : Link) (v n : Nat) : Link := { l with part := [], occ := l.occ.set v (l.occ.getD v 0 + n) }

/-- A complete packet has joined the receive buffer of its VC. -/
def Pkg.received (s : Pkg) (i : Nat) (p : FPkt) : Pkg :=
  let q := s.updLink i (·.holds (s.vcIn i p) p.length)
  { q with fab := { q.fab with inq := Map.upd (fun _ => []) q.fab.inq (6 * i + s.vcIn i p) (· ++ [p]) } }

section
variable (s : Pkg) (i : Nat) (p : FPkt)

theorem Pkg.link_received_same : (s.received i p).link i = (s.link i).holds (s.vcIn i p) p.length :=
  (s.linked_updLink i (·.holds (s.vcIn i p) p.length)).1

theorem Pkg.link_received_other {j : Nat} (other : j ≠ i) : (s.received i p).link j = s.link j :=
  (s.linked_updLink i (·.holds (s.vcIn i p) p.length)).2.1 j other

theorem Pkg.inq_received : Map.get (fun _ => []) (s.received i p).fab.inq (6 * i + s.vcIn i p) = Map.get (fun _ => []) s.fab.inq (6 * i + s.vcIn i p) ++ [p] :=
  Map.get_set_same ..

end

/-- The slot of a DATA flit at k is taken, unless it is a filler. -/
def Pkg.slotAt (s : Pkg) (i : Nat) (f : DataFlit) (k : Nat) : Pkg :=
  if f.fill.getLsbD k then s else s.slotIn i (f.sop.getLsbD k) (f.slots.getD k 0#128)

/-- A flit carries one packet, which is whole, from its first slot. -/
structure DataFlit.Carries (f : DataFlit) (p : FPkt) : Prop where
  some_ : 1 ≤ p.length
  whole : pkLen p = p.length
  slots : f.slots.take p.length = p
  fill : ∀ k, k < 15 → f.fill.getLsbD k = decide (p.length ≤ k)
  sop : ∀ k, k < 15 → f.sop.getLsbD k = decide (k = 0)

/-- What the first k slots have brought: a part of the packet, or the packet. -/
def Pkg.SlotsTaken (s q : Pkg) (i k : Nat) (p : FPkt) : Prop :=
  if k < p.length then ∃ part, (0 < k → part = p.take k) ∧ s.Linked q i { s.link i with part := part }
  else q.drs = s.drs ∧ q.link i = (s.link i).holds (s.vcIn i p) p.length ∧ (∀ j, j ≠ i → q.link j = s.link j)
    ∧ Map.get (fun _ => []) q.fab.inq (6 * i + s.vcIn i p) = Map.get (fun _ => []) s.fab.inq (6 * i + s.vcIn i p) ++ [p]

section
variable {s q : Pkg} {i k : Nat} {f : DataFlit} {p : FPkt} (carries : f.Carries p)
include carries

/-- The next slot of the packet, after those before it. -/
theorem DataFlit.Carries.next (lt : k < p.length) (small : k < 15) (part : FPkt) (before : 0 < k → part = p.take k) :
    (if f.sop.getLsbD k then [f.slots.getD k 0#128] else part ++ [f.slots.getD k 0#128]) = p.take (k + 1) := by
  have slot : f.slots.getD k 0#128 = p[k] := by
    have long := congrArg (·.getD k 0#128) carries.slots
    simp only [List.getD_eq_getElem?_getD, List.getElem?_take_of_lt lt, List.getElem?_eq_getElem lt, Option.getD_some] at long
    rwa [List.getD_eq_getElem?_getD]
  rw [carries.sop k small, slot, List.take_succ_eq_append_getElem lt]
  by_cases first : k = 0
  · simp [first]
  · simp [first, before (by omega)]

/-- A slot before the last joins the packet in reassembly. -/
theorem Pkg.slotAt_early (lt : k + 1 < p.length) (small : k < 15) (before : 0 < k → (s.link i).part = p.take k) :
    s.slotAt i f k = s.updLink i (fun l => { l with part := p.take (k + 1) }) := by
  have len : (p.take (k + 1)).length = k + 1 := List.length_take_of_le (by omega)
  have short : ¬ (p.take (k + 1)).length ≥ max 1 (pkLen (p.take (k + 1))) := by
    rw [pkLen_take (by omega), carries.whole, len]
    omega
  unfold Pkg.slotAt Pkg.slotIn
  rw [carries.fill k small, decide_eq_false (by omega), carries.next (by omega) small _ before]
  exact (if_neg Bool.false_ne_true).trans (if_neg short)

/-- The last slot completes the packet. -/
theorem Pkg.slotAt_last (last : k + 1 = p.length) (small : k < 15) (before : 0 < k → (s.link i).part = p.take k) : s.slotAt i f k = s.received i p := by
  have whole : p.take (k + 1) = p := by rw [last, List.take_length]
  have long : p.length ≥ max 1 (pkLen p) := by
    rw [carries.whole]
    exact Nat.max_le.mpr ⟨carries.some_, le_rfl⟩
  unfold Pkg.slotAt Pkg.slotIn
  rw [carries.fill k small, decide_eq_false (by omega), carries.next (by omega) small _ before, whole]
  exact (if_neg Bool.false_ne_true).trans (if_pos long)

/-- The slots behind the packet are fillers. -/
theorem Pkg.slotAt_filler (behind : p.length ≤ k) (small : k < 15) : s.slotAt i f k = s := by
  unfold Pkg.slotAt
  rw [carries.fill k small, decide_eq_true behind]
  rfl

theorem Pkg.SlotsTaken.step (small : k < 15) (taken : s.SlotsTaken q i k p) : s.SlotsTaken (q.slotAt i f k) i (k + 1) p := by
  unfold Pkg.SlotsTaken at *
  by_cases inside : k < p.length
  · rw [if_pos inside] at taken
    obtain ⟨part, before, own, others, only⟩ := taken
    have before' : 0 < k → (q.link i).part = p.take k := by
      rw [own]
      exact before
    by_cases last : k + 1 = p.length
    · have drs : q.drs = s.drs := by rw [only]
      have fab : q.fab = s.fab := by rw [only]
      have vc := Pkg.vcIn_of_drs drs i p
      rw [if_neg (by omega), Pkg.slotAt_last carries last small before']
      refine ⟨drs, ?_, fun j other => (q.link_received_other i p other).trans (others j other), ?_⟩
      · rw [Pkg.link_received_same, vc, own]
        rfl
      · rw [← vc, Pkg.inq_received, fab]
    · rw [if_pos (by omega), Pkg.slotAt_early carries (by omega) small before']
      have upd := Pkg.Linked.trans (m := { q.link i with part := p.take (k + 1) }) ⟨own, others, only⟩ (q.linked_updLink i (fun l => { l with part := p.take (k + 1) }))
      rw [own] at upd
      exact ⟨p.take (k + 1), fun _ => rfl, upd⟩
  · rw [if_neg inside] at taken
    rw [if_neg (by omega), Pkg.slotAt_filler carries (by omega) small]
    exact taken

/-- The slots of the flit put the packet into the receive buffer of its VC. -/
theorem Pkg.slots_received : s.SlotsTaken ((List.range 15).foldl (fun s k => s.slotAt i f k) s) i 15 p := by
  have all (n : Nat) (le : n ≤ 15) : s.SlotsTaken ((List.range n).foldl (fun s k => s.slotAt i f k) s) i n p := by
    induction n with
    | zero =>
      refine (if_pos carries.some_).mpr ⟨(s.link i).part, fun no => absurd no (lt_irrefl 0), .refl s i⟩
    | succ n ih =>
      rw [List.range_succ, List.foldl_append]
      exact .step carries (by omega) (ih (by omega))
  exact all 15 le_rfl

end

/-- A flit in order is counted in the sequence numbers. -/
def Link.inOrder (l : Link) : Link := { l with rx := (l.rx + 1) % 4096, got := true, nak := false }

/-- Room for the packet in every buffer is room in its buffer. -/
theorem Link.holds_fits {l : Link} {n : Nat} (room : ∀ m ∈ l.occ, m + n ≤ 256) (v : Nat) : (l.holds v n).occ.any (fun m => decide (m > 256)) = false := by
  rw [List.any_eq_false]
  intro m mem
  rcases List.mem_or_eq_of_mem_set mem with old | new
  · have fits := room m old
    simp
    omega
  · subst new
    by_cases lt : v < l.occ.length
    · have fits := room l.occ[v] (List.getElem_mem lt)
      simp [List.getD_eq_getElem?_getD, List.getElem?_eq_getElem lt]
      omega
    · change _ ∈ l.occ.set v _ at mem
      rw [List.set_eq_of_length_le (by omega)] at mem
      have fits := room _ mem
      rw [decide_eq_true_iff]
      omega

section
variable {s : Pkg} {i : Nat} (active : s.lkState i = 5)
include active

/-- A DATA flit in sequence that carries one packet puts it into the receive buffer of its VC. -/
theorem Pkg.dataFlit_packet {f : DataFlit} {p : FPkt} (ok : f.hdr.ok = true) (idle : (s.link i).vcq = [])
    (inOrder : f.seq.toNat = (s.link i).rx) (carries : f.Carries p) (fits : p.length ≤ 15) (room : ∀ n ∈ (s.link i).occ, n + p.length ≤ 256) :
    (s.dataFlit i f).drs = s.drs ∧ (s.dataFlit i f).link i = ((s.link i).header f.hdr s.now).inOrder.holds (s.vcIn i p) p.length
      ∧ (∀ j, j ≠ i → (s.dataFlit i f).link j = s.link j)
      ∧ Map.get (fun _ => []) (s.dataFlit i f).fab.inq (6 * i + s.vcIn i p) = Map.get (fun _ => []) s.fab.inq (6 * i + s.vcIn i p) ++ [p] := by
  have header := s.linked_lkHeader i f.hdr
  have begun := header.trans ((s.lkHeader i f.hdr).linked_updLink i Link.inOrder)
  rw [header.1] at begun
  have rx : ((s.lkHeader i f.hdr).link i).rx = (s.link i).rx := by rw [header.1, Link.header_kept]
  have taken := (Pkg.slots_received (s := (s.lkHeader i f.hdr).updLink i Link.inOrder) (i := i) carries)
  rw [Pkg.SlotsTaken, if_neg (by omega), Pkg.vcIn_of_drs begun.drs, begun.1, begun.fab, begun.drs] at taken
  obtain ⟨drs, own, others, inq⟩ := taken
  have kept : ((s.link i).header f.hdr s.now).inOrder.occ = (s.link i).occ ∧ ((s.link i).header f.hdr s.now).inOrder.vcq = (s.link i).vcq := by
    rw [Link.header_kept]
    exact ⟨rfl, rfl⟩
  have small := Link.holds_fits (l := ((s.link i).header f.hdr s.now).inOrder) (kept.1 ▸ room) (s.vcIn i p)
  rw [← own] at small
  have empty := congrArg Link.vcq own
  have eq : s.dataFlit i f = (List.range 15).foldl (fun s k => s.slotAt i f k) ((s.lkHeader i f.hdr).updLink i Link.inOrder) := by
    unfold Pkg.dataFlit
    simp only [Pkg.lkHears_active active, ok, Bool.not_true, Bool.false_eq_true, if_false, rx, inOrder, ne_eq, not_true]
    change (if (((List.range 15).foldl (fun s k => s.slotAt i f k) ((s.lkHeader i f.hdr).updLink i Link.inOrder)).link i).occ.any (fun n => decide (n > 256)) = true
      then s else ((List.range 15).foldl (fun s k => s.slotAt i f k) ((s.lkHeader i f.hdr).updLink i Link.inOrder)).pump i) = _
    rw [small]
    exact Pkg.pump_idle (empty.trans (kept.2.trans idle))
  rw [eq]
  exact ⟨drs, own, fun j other => (others j other).trans (begun.2.1 j other), inq⟩

end

/-- What a packet's link holds but for its slots. -/
theorem Link.header_inOrder_holds (l : Link) (h : FlitHdr) (now v n : Nat) : ((l.header h now).inOrder.holds v n).rx = (l.rx + 1) % 4096
    ∧ ((l.header h now).inOrder.holds v n).nak = false ∧ ((l.header h now).inOrder.holds v n).part = [] := by
  rw [Link.header_kept]
  exact ⟨rfl, rfl, rfl⟩

/-! ### IDLE, NAK and the replay timeout (R268, R269) -/

section
variable {s : Pkg} {i : Nat} {w : LaneBits} (active : s.lkState i = 5)
include active

theorem Pkg.idleIn_bad (bad : (flitHdr ((s.link i).flit w)).ok = false) (down : Bool) : s.idleIn i w down = s.inc (lkBase i + 0x20) 31 0 := by
  simp [Pkg.idleIn, Pkg.idleFlit, flitIs_of_bad bad, Pkg.lkHears_active active, bad]

theorem Pkg.nakIn_bad (bad : (flitHdr ((s.link i).flit w)).ok = false) : s.nakIn i w = s.inc (lkBase i + 0x20) 31 0 := by
  simp [Pkg.nakIn, Pkg.nakFlit, flitIs_of_bad bad, Pkg.lkHears_active active, bad]

section
variable (idle : (s.link i).vcq = []) (ok : (flitHdr ((s.link i).flit w)).ok = true)
include idle ok

theorem Pkg.idleIn_header (type_ : flitF ((s.link i).flit w) 3 0 = 0) : s.idleIn i w false = s.lkHeader i (flitHdr ((s.link i).flit w)) := by
  have empty : ((s.lkHeader i (flitHdr ((s.link i).flit w))).link i).vcq = [] := by rw [(s.linked_lkHeader i _).1, Link.header_kept, idle]
  simp [Pkg.idleIn, Pkg.idleFlit, flitIs_of_type type_, Pkg.lkHears_active active, ok, Pkg.pump_idle empty]

end
end

/-- Where no flit has been sent again eight times, a resend sends the replay buffer again. -/
theorem Pkg.resend_eq {s : Pkg} {i : Nat} (idle : (s.link i).vcq = []) (few : ∀ y ∈ (s.link i).replay, y.tries < 8) : s.resend i = s.sendAgain i := by
  have none_ : (s.link i).replay.any (fun f => decide (f.tries ≥ 8)) = false := by
    rw [List.any_eq_false]
    intro y mem
    simpa using few y mem
  have empty : ((s.sendAgain i).link i).vcq = [] := by rw [(s.linked_sendAgain i).1, Link.resent_kept, idle]
  unfold Pkg.resend
  rw [none_]
  exact Pkg.pump_idle empty

/-- The replay buffer is sent again and counted. -/
theorem Pkg.resend_does {s : Pkg} {i : Nat} (idle : (s.link i).vcq = []) (few : ∀ y ∈ (s.link i).replay, y.tries < 8) :
    ((s.resend i).link i).replay = again (s.link i).replay ∧ ((s.resend i).link i).ackAt = s.now
      ∧ (s.resend i).rf (lkBase i + 0x20) 63 32 = (s.rf (lkBase i + 0x20) 63 32 + (s.link i).replay.length) % 2 ^ 32
      ∧ s.DrsBut (s.resend i) [lkBase i + 0x20] := by
  have sent := s.linked_sendAgain i
  rw [← Pkg.resend_eq idle few] at sent
  refine ⟨?_, ?_, ?_, fun o out => ?_⟩
  · rw [sent.1, Link.resent_kept]
  · rw [sent.1, Link.resent_kept]
  · exact (Pkg.rf_of_drs sent.drs ..).trans (Pkg.rf_inc_same _ _ _ (by decide) (by decide))
  · exact (Pkg.rd_of_drs sent.drs o).trans (s.drsBut_inc _ 63 32 _ o out)

/-- A NAK without ACK makes the link send its replay buffer again. -/
theorem Pkg.nakIn_does {s : Pkg} {i : Nat} {w : LaneBits} (active : s.lkState i = 5) (idle : (s.link i).vcq = [])
    (ok : (flitHdr ((s.link i).flit w)).ok = true) (type_ : flitF ((s.link i).flit w) 3 0 = 2) (noAck : (flitHdr ((s.link i).flit w)).ack = none)
    (few : ∀ y ∈ (s.link i).replay, y.tries < 8) :
    ((s.nakIn i w).link i).replay = again (s.link i).replay ∧ ((s.nakIn i w).link i).ackAt = s.now
      ∧ (s.nakIn i w).rf (lkBase i + 0x20) 63 32 = (s.rf (lkBase i + 0x20) 63 32 + (s.link i).replay.length) % 2 ^ 32
      ∧ s.DrsBut (s.nakIn i w) [lkBase i + 0x20] := by
  have header := s.linked_lkHeader i (flitHdr ((s.link i).flit w))
  have reg := Pkg.rd_of_drs header.drs
  have vcq : ((s.lkHeader i (flitHdr ((s.link i).flit w))).link i).vcq = (s.link i).vcq := by rw [header.1, Link.header_kept]
  have replay : ((s.lkHeader i (flitHdr ((s.link i).flit w))).link i).replay = (s.link i).replay := by rw [header.1, Link.header_replay_noAck _ _ _ noAck]
  have eq : s.nakIn i w = (s.lkHeader i (flitHdr ((s.link i).flit w))).resend i := by
    have still : (s.lkHeader i (flitHdr ((s.link i).flit w))).lkState i = 5 := (Pkg.lkState_of_rd (reg _)).trans active
    simp [Pkg.nakIn, Pkg.nakFlit, flitIs_of_type type_, Pkg.lkHears_active active, ok, still]
  have does := Pkg.resend_does (vcq.trans idle) (replay ▸ few)
  rw [← eq, replay, header.now, Pkg.rf_of_rd (reg _)] at does
  obtain ⟨resent, now, counted, regs⟩ := does
  exact ⟨resent, now, counted, fun o out => (regs o out).trans (reg o)⟩

section
variable {s : Pkg} {i : Nat}

theorem Pkg.replayTimeout_early (early : s.now < (s.link i).ackAt + 1000000) : s.replayTimeout i = s := by
  refine if_neg ?_
  rintro ⟨-, -, late⟩
  omega

theorem Pkg.replayTimeout_due (active : s.lkState i = 5) (unacked : (s.link i).replay ≠ []) (due : (s.link i).ackAt + 1000000 ≤ s.now) :
    s.replayTimeout i = s.resend i :=
  if_pos ⟨active, fun empty => unacked (List.isEmpty_iff.mp empty), due⟩

end

/-! ### CHECK flits (R266, R272) -/

/-- No bit differs, no error. -/
theorem lanePop_self (x : BitVec 256) : lanePop (x ^^^ x) = 0 := by simp [lanePop]

theorem lanePop_ne_zero {x y : BitVec 256} (other : x ≠ y) : lanePop (x ^^^ y) ≠ 0 := by
  intro none_
  refine other (BitVec.eq_of_getLsbD_eq fun k lt => ?_)
  rw [lanePop, List.length_eq_zero_iff, List.filter_eq_nil_iff] at none_
  have same := none_ k (List.mem_range.mpr lt)
  rw [BitVec.getLsbD_xor] at same
  simpa using same

/-- q is p but that the error counts of link i's lanes are written as they read. -/
def Pkg.LanesKept (p q : Pkg) (i : Nat) : Prop :=
  ∃ m : Map Word, (∀ k, Map.get (fun _ => 0#64) m k = Map.get (fun _ => 0#64) (p.link i).lanes k) ∧ p.Linked q i { p.link i with lanes := m }

theorem Pkg.LanesKept.refl (p : Pkg) (i : Nat) : p.LanesKept p i := ⟨_, fun _ => rfl, .refl p i⟩

theorem Pkg.LanesKept.trans {p q r : Pkg} {i : Nat} (a : p.LanesKept q i) (b : q.LanesKept r i) : p.LanesKept r i := by
  obtain ⟨m, same, upd⟩ := a
  obtain ⟨m', same', upd'⟩ := b
  have own := upd.1
  rw [own] at upd' same'
  exact ⟨m', fun k => (same' k).trans (same k), upd.trans upd'⟩

section
variable (s : Pkg) (i lane : Nat)

/-- The count of a lane's errors with n more. -/
def Pkg.laneCount (n : Nat) : Word := winCountN (Map.get (fun _ => 0#64) (s.link i).lanes lane) (s.rf (lkBase i + 0x18) 63 32) s.cadSec n

/-- The count is written. -/
def Pkg.laneCounted (n : Nat) : Pkg := s.updLink i (fun l => { l with lanes := Map.set (fun _ => 0#64) l.lanes lane (s.laneCount i lane n) })

/-- A lane without errors keeps its count. -/
theorem Pkg.laneErrs_zero : s.LanesKept (s.laneErrs i lane 0) i := by
  have eq : s.laneErrs i lane 0 = s.laneCounted i lane 0 := by
    unfold Pkg.laneErrs
    exact if_pos (Or.inl rfl)
  have same : s.laneCount i lane 0 = Map.get (fun _ => 0#64) (s.link i).lanes lane := by
    unfold Pkg.laneCount winCountN
    exact if_pos rfl
  rw [eq, Pkg.laneCounted, same]
  refine ⟨_, fun k => ?_, s.linked_updLink i _⟩
  rw [Map.get_set]
  split
  · rename_i own
    rw [own]
  · rfl

/-- A lane below its threshold is counted alone. -/
theorem Pkg.laneErrs_low {n : Nat} (low : bits (s.laneCount i lane n) 7 0 < s.rf (lkBase i + 0x18) 7 0) :
    s.laneErrs i lane n = s.laneCounted i lane n := by
  unfold Pkg.laneErrs
  exact if_pos (Or.inr (Or.inr (Or.inl low)))

/-- The repair of a lane begins. -/
def Pkg.repairing : Pkg := ((s.setLk i 6).updLink i (fun l => { l with repair := some lane })).sat (lkBase i) 31 16

/-- A lane at its threshold begins its repair where the spare is free. -/
theorem Pkg.laneErrs_high {n : Nat} (some_ : n ≠ 0) (active : s.lkState i = 5) (high : s.rf (lkBase i + 0x18) 7 0 ≤ bits (s.laneCount i lane n) 7 0)
    (on : s.rf (lkBase i + 0x18) 7 0 ≠ 0) (whole : (s.link i).repair = none) (free : s.rb (lkBase i) 14 = false) :
    s.laneErrs i lane n = (s.laneCounted i lane n).repairing i lane := by
  have own := (s.linked_updLink i (fun l => { l with lanes := Map.set (fun _ => 0#64) l.lanes lane (s.laneCount i lane n) })).1
  have none_ : ((s.laneCounted i lane n).link i).repair = none := by rw [Pkg.laneCounted, own, whole]
  have reg (o : Nat) : (s.laneCounted i lane n).rd o = s.rd o := Pkg.rd_updLink ..
  have still : (s.laneCounted i lane n).lkState i = 5 := (Pkg.lkState_of_rd (reg _)).trans active
  have th : (s.laneCounted i lane n).rf (lkBase i + 0x18) 7 0 = s.rf (lkBase i + 0x18) 7 0 := Pkg.rf_of_rd (reg _) ..
  have spare : (s.laneCounted i lane n).rb (lkBase i) 14 = false := (Pkg.rb_of_drs rfl ..).trans free
  have goes : ¬ (n = 0 ∨ (s.laneCounted i lane n).rf (lkBase i + 0x18) 7 0 = 0
      ∨ bits (s.laneCount i lane n) 7 0 < (s.laneCounted i lane n).rf (lkBase i + 0x18) 7 0 ∨ ((s.laneCounted i lane n).link i).repair = some lane) := by
    rw [th, none_]
    rintro (a | a | a | a)
    · exact some_ a
    · exact on a
    · omega
    · cases a
  have first : (!(s.laneCounted i lane n).rb (lkBase i) 14 && ((s.laneCounted i lane n).link i).repair.isNone) = true := by rw [spare, none_]; rfl
  unfold Pkg.laneErrs
  refine (if_neg goes).trans ((if_pos first).trans ?_)
  exact congrArg (fun q : Pkg => (q.updLink i (fun l => { l with repair := some lane })).sat (lkBase i) 31 16) (if_pos still)

theorem Pkg.repairing_does : ((s.repairing i lane).link i) = { s.link i with repair := some lane } ∧ (s.repairing i lane).lkState i = 6 := by
  obtain ⟨own, -⟩ := (s.setLk i 6).linked_updLink i (fun l => { l with repair := some lane })
  refine ⟨?_, ?_⟩
  · rw [Pkg.repairing, Pkg.link_sat, own, Pkg.link_setLk]
  · rw [Pkg.lkState, Pkg.repairing, Pkg.sat, Pkg.rf_wf_other _ _ _ _ _ _ _ (by decide) (by decide) (by decide) (by decide)]
    exact (Pkg.rf_of_rd (Pkg.rd_updLink ..) 3 0).trans (Pkg.lkState_setLk _ _ (by decide))

/-- Errors of a lane are counted, and begin its repair at the threshold. -/
theorem Pkg.laneErrs_does {n : Nat} (some_ : n ≠ 0) (active : s.lkState i = 5) (on : s.rf (lkBase i + 0x18) 7 0 ≠ 0)
    (whole : (s.link i).repair = none) (free : s.rb (lkBase i) 14 = false) :
    Map.get (fun _ => 0#64) ((s.laneErrs i lane n).link i).lanes lane = s.laneCount i lane n
      ∧ (s.rf (lkBase i + 0x18) 7 0 ≤ bits (s.laneCount i lane n) 7 0 → ((s.laneErrs i lane n).link i).repair = some lane ∧ (s.laneErrs i lane n).lkState i = 6)
      ∧ (bits (s.laneCount i lane n) 7 0 < s.rf (lkBase i + 0x18) 7 0 → ((s.laneErrs i lane n).link i).repair = none ∧ (s.laneErrs i lane n).drs = s.drs) := by
  have own := (s.linked_updLink i (fun l => { l with lanes := Map.set (fun _ => 0#64) l.lanes lane (s.laneCount i lane n) })).1
  rw [← Pkg.laneCounted] at own
  rcases Nat.lt_or_ge (bits (s.laneCount i lane n) 7 0) (s.rf (lkBase i + 0x18) 7 0) with low | high
  · rw [s.laneErrs_low i lane low]
    refine ⟨?_, fun high => absurd low (by omega), fun _ => ⟨?_, rfl⟩⟩
    · rw [own]
      exact Map.get_set_same ..
    · rw [own]
      exact whole
  · rw [s.laneErrs_high i lane some_ active high on whole free]
    obtain ⟨repairing, state⟩ := (s.laneCounted i lane n).repairing_does i lane
    refine ⟨?_, fun _ => ⟨?_, state⟩, fun low => absurd low (by omega)⟩
    · rw [repairing, own]
      exact Map.get_set_same ..
    · rw [repairing]

end

/-- A package whose lanes are kept counts alike. -/
theorem Pkg.LanesKept.laneCount {p q : Pkg} {i : Nat} (kept : p.LanesKept q i) (lane n : Nat) : q.laneCount i lane n = p.laneCount i lane n := by
  obtain ⟨m, same, own, -, only⟩ := kept
  have drs : q.drs = p.drs := by rw [only]
  have cad : q.cadSec = p.cadSec := by rw [only]; rfl
  rw [Pkg.laneCount, Pkg.laneCount, own, same, Pkg.rf_of_drs drs, cad]

/-- Lanes whose bits are those of a CHECK flit keep their counts. -/
theorem Pkg.laneErrs_clean {l : Link} {w : LaneBits} (i : Nat) (js : List Nat) (clean : ∀ j ∈ js, l.lane w j = checkLane j) (s : Pkg) :
    s.LanesKept (js.foldl (fun s j => s.laneErrs i (l.rmap.getD j j) (lanePop (l.lane w j ^^^ checkLane j))) s) i := by
  induction js generalizing s with
  | nil => exact .refl s i
  | cons j js ih =>
    have first := s.laneErrs_zero i (l.rmap.getD j j)
    rw [List.foldl_cons, clean j (List.mem_cons_self ..), lanePop_self]
    exact first.trans (ih (fun k mem => clean k (List.mem_cons_of_mem _ mem)) _)

/-- A CHECK flit with errors on logical lane n alone counts them on its physical lane, and begins its repair at the threshold. -/
theorem Pkg.checkFlit_does {s : Pkg} {i n : Nat} {w : LaneBits} (active : s.lkState i = 5) (lane : n < 8)
    (clean : ∀ j, j < 8 → j ≠ n → (s.link i).lane w j = checkLane j) (errs : (s.link i).lane w n ≠ checkLane n)
    (on : s.rf (lkBase i + 0x18) 7 0 ≠ 0) (whole : (s.link i).repair = none) (free : s.rb (lkBase i) 14 = false) :
    let m := (s.link i).rmap.getD n n
    let v := s.laneCount i m (lanePop ((s.link i).lane w n ^^^ checkLane n))
    Map.get (fun _ => 0#64) ((s.checkFlit i w).link i).lanes m = v
      ∧ (s.rf (lkBase i + 0x18) 7 0 ≤ bits v 7 0 → ((s.checkFlit i w).link i).repair = some m ∧ (s.checkFlit i w).lkState i = 6)
      ∧ (bits v 7 0 < s.rf (lkBase i + 0x18) 7 0 → ((s.checkFlit i w).link i).repair = none ∧ (s.checkFlit i w).drs = s.drs) := by
  intro m v
  obtain ⟨a, b, split⟩ := List.append_of_mem (List.mem_range.mpr lane)
  have apart : (a ++ n :: b).Nodup := split ▸ List.nodup_range
  have eq : s.checkFlit i w = (List.range 8).foldl (fun s' j => s'.laneErrs i ((s.link i).rmap.getD j j) (lanePop ((s.link i).lane w j ^^^ checkLane j))) s := by
    simp [Pkg.checkFlit, Pkg.lkHears_active active]
  rw [split, List.foldl_append, List.foldl_cons] at eq
  rw [List.nodup_append, List.nodup_cons] at apart
  obtain ⟨-, ⟨notIn, -⟩, disjoint⟩ := apart
  have inRange (j : Nat) (mem : j ∈ a ++ n :: b) : j < 8 := List.mem_range.mp (split ▸ mem)
  have before := Pkg.laneErrs_clean (l := s.link i) (w := w) i a
    (fun j mem => clean j (inRange j (by simp [mem])) (disjoint j mem n (List.mem_cons_self ..))) s
  have after := Pkg.laneErrs_clean (l := s.link i) (w := w) i b
    (fun j mem => clean j (inRange j (by simp [mem])) (fun same => notIn (same ▸ mem)))
  generalize a.foldl (fun s' j => s'.laneErrs i ((s.link i).rmap.getD j j) (lanePop ((s.link i).lane w j ^^^ checkLane j))) s = r at before eq
  specialize after (r.laneErrs i ((s.link i).rmap.getD n n) (lanePop ((s.link i).lane w n ^^^ checkLane n)))
  rw [← eq] at after
  have count : r.laneCount i m (lanePop ((s.link i).lane w n ^^^ checkLane n)) = v := before.laneCount ..
  obtain ⟨x, -, here⟩ := before
  obtain ⟨y, same, there⟩ := after
  have reg := Pkg.rd_of_drs here.drs
  obtain ⟨lanes, high, low⟩ := r.laneErrs_does i m (lanePop_ne_zero errs) ((Pkg.lkState_of_rd (reg _)).trans active) (by rwa [Pkg.rf_of_rd (reg _)])
    (by rw [here.1, whole]) (by rwa [Pkg.rb_of_drs here.drs])
  rw [count] at lanes high low
  rw [Pkg.rf_of_rd (reg _)] at high low
  rw [there.1, Pkg.lkState_of_rd (Pkg.rd_of_drs there.drs _), there.drs]
  exact ⟨(same m).trans lanes, high, fun lt => ⟨(low lt).1, (low lt).2.trans here.drs⟩⟩

/-! ### A lane repair that is over (R272) -/

/-- A repair's record and event. -/
def Pkg.repairTold (s : Pkg) (i lane : Nat) : Pkg := (s.ce (.lk i) 0x0C none lane).odoEvent 0x09 5 (Win.lk i).stop (drsPa (Win.lk i).err) lane

theorem Pkg.onlySignals_repairTold (s : Pkg) (i lane : Nat) : s.OnlySignals (s.repairTold i lane) := (s.onlySignals_ce ..).odoEvent ..

theorem Pkg.rd_repairTold (s : Pkg) {i : Nat} (link : i < 12) (lane : Nat) : (s.repairTold i lane).rd (lkBase i) = s.rd (lkBase i) := by
  have quiet : Unsignalled (lkBase i) := by
    have u := unsignalled_lk link (x := 0) (by decide)
    rwa [Nat.add_zero] at u
  have reg := Pkg.rd_ce_lk link link s 0x0C none lane (x := 0) (by decide)
  rw [Nat.add_zero] at reg
  exact ((Pkg.Signals.refl (lkBase i) _).odoEvent quiet 0x09 5 (Win.lk i).stop (drsPa (Win.lk i).err) lane).reg.trans reg

/-- The physical lane that is spare. -/
def Link.spareLane (l : Link) : Nat := ((List.range 9).find? (fun k => !l.rmap.contains k)).getD 8

/-- The receive map puts the logical lane of physical lane n on another one. -/
def Link.mended (l : Link) (n free : Nat) : Link := { l with repair := none, bad := some n, rmap := l.rmap.map (fun k => if k = n then free else k) }

/-- The other lanes stay. -/
theorem Link.mended_rmap (l : Link) {n j : Nat} (free : Nat) (other : l.rmap.getD j n ≠ n) : (l.mended n free).rmap.getD j n = l.rmap.getD j n := by
  have within : j < l.rmap.length := by
    by_contra out
    exact other (List.getD_eq_default _ _ (Nat.le_of_not_lt out))
  simp only [List.getD_eq_getElem?_getD, List.getElem?_eq_getElem within, Option.getD_some] at other
  simp only [Link.mended, List.getD_eq_getElem?_getD, List.getElem?_map, List.getElem?_eq_getElem within, Option.map_some, Option.getD_some]
  rw [if_neg other]

/-- A link with its lane repaired. -/
def Pkg.mended (s : Pkg) (i n : Nat) : Pkg := (s.wb (lkBase i) 14 true).updLink i (·.mended n (s.link i).spareLane)

theorem Pkg.repairDone_eq (s : Pkg) (i lane : Nat) : s.repairDone i lane =
    if (s.repairTold i lane).lkState i = 6 ∧ ((s.repairTold i lane).link i).repair.isNone ∧ ¬ ((s.repairTold i lane).link i).farRep
    then (((s.repairTold i lane).setLk i 5).sendAgain i).pump i else s.repairTold i lane := rfl

theorem Pkg.laneRepaired_rx {s : Pkg} {i n : Nat} (repair : (s.link i).repair = some n) : s.laneRepaired i .rx = (s.mended i n).repairDone i n := by
  unfold Pkg.laneRepaired
  rw [repair]
  rfl

/-- The repair of a receive lane is over: the spare lane serves, and the link goes on unless the far end still repairs. -/
theorem Pkg.laneRepaired_does {s : Pkg} {i n : Nat} (link : i < 12) (retrains : s.lkState i = 6) (repair : (s.link i).repair = some n)
    (idle : (s.link i).vcq = []) :
    (s.laneRepaired i .rx).lkState i = (if (s.link i).farRep then 6 else 5) ∧ ((s.laneRepaired i .rx).link i).bad = some n
      ∧ ((s.laneRepaired i .rx).link i).repair = none ∧ (s.laneRepaired i .rx).rb (lkBase i) 14 = true
      ∧ ((s.laneRepaired i .rx).link i).replay = (if (s.link i).farRep then (s.link i).replay else again (s.link i).replay)
      ∧ ∀ j, (s.link i).rmap.getD j n ≠ n → ((s.laneRepaired i .rx).link i).rmap.getD j n = (s.link i).rmap.getD j n := by
  have eq := (Pkg.laneRepaired_rx repair).trans (Pkg.repairDone_eq ..)
  have own : ((s.mended i n).repairTold i n).link i = (s.link i).mended n (s.link i).spareLane := by
    have upd := ((s.wb (lkBase i) 14 true).linked_updLink i (·.mended n (s.link i).spareLane)).1
    rw [Pkg.link_wb] at upd
    exact (Pkg.link_of_links (Pkg.onlySignals_repairTold ..).links i).trans upd
  have reg : ((s.mended i n).repairTold i n).rd (lkBase i) = (s.wb (lkBase i) 14 true).rd (lkBase i) :=
    (Pkg.rd_repairTold _ link n).trans (Pkg.rd_updLink ..)
  generalize (s.mended i n).repairTold i n = r at own reg eq
  have still : r.lkState i = 6 := by
    rw [Pkg.lkState_of_rd reg, Pkg.lkState, Pkg.wb, Pkg.rf_wf_other _ _ _ _ _ _ _ (by decide) (by decide) (by decide) (by decide)]
    exact retrains
  have inUse : r.rb (lkBase i) 14 = true := by
    rw [Pkg.rb, reg]
    exact Pkg.rb_wb_same _ _ _ _ (by decide)
  have whole : (r.link i).repair.isNone = true := by rw [own]; rfl
  have far : (r.link i).farRep = (s.link i).farRep := by rw [own]; rfl
  cases waits : (s.link i).farRep with
  | true =>
    rw [if_neg (by simp [far, waits])] at eq
    rw [eq, own]
    exact ⟨still, rfl, rfl, inUse, rfl, fun j other => (s.link i).mended_rmap _ other⟩
  | false =>
    rw [if_pos ⟨still, whole, by simp [far, waits]⟩] at eq
    have sent := (r.setLk i 5).linked_sendAgain i
    have kept : (r.setLk i 5).link i = (s.link i).mended n (s.link i).spareLane := (Pkg.link_setLk ..).trans own
    rw [kept, Link.resent_kept] at sent
    have empty : (((r.setLk i 5).sendAgain i).link i).vcq = [] := by rw [sent.1]; exact idle
    rw [Pkg.pump_idle empty] at eq
    have stat : (s.laneRepaired i .rx).rd (lkBase i) = (r.setLk i 5).rd (lkBase i) := by
      rw [eq, Pkg.rd_of_drs sent.drs, Pkg.rd_inc_other _ _ _ _ _ _ (by omega)]
    refine ⟨(Pkg.lkState_of_rd stat).trans (Pkg.lkState_setLk _ _ (by decide)), ?_, ?_, ?_, ?_, fun j other => ?_⟩
    · rw [eq, sent.1]
      rfl
    · rw [eq, sent.1]
      rfl
    · rw [Pkg.rb, stat, Pkg.setLk, Pkg.rd_wf_same, setBits_getLsbD _ _ _ _ _ (by decide), if_neg (by decide)]
      exact inUse
    · rw [eq, sent.1]
      rfl
    · rw [eq, sent.1]
      exact (s.link i).mended_rmap _ other

/-! ### ROUTE_FLIP (R287) -/

theorem Pkg.rtFlip_equal {s : Pkg} (equal : s.rtGen 0 = s.rtGen 1) : s.rtFlip = s.wb (fabBase + 8) 2 true := if_pos equal

end Sys2Proof.Machine
end

section
/-! ## Packets that are sent and routed (10_lerlora_links_routing R269, R270, R281 to R287) -/
namespace Sys2Proof.Machine

/-! ### Fields of a packet's header (R281) -/

section
variable (p : FPkt) {hi lo : Nat} (x : Nat)

/-- The bits of the header after one of its fields has been replaced. -/
theorem pkSet_getLsbD {i : Nat} (header : i < 128) :
    ((pkSet p hi lo x).getD 0 0#128).getLsbD i = if lo ≤ i ∧ i - lo < hi - lo + 1 then x.testBit (i - lo) else (p.getD 0 0#128).getLsbD i := by
  have mask : (BitVec.ofNat 128 ((2 ^ (hi - lo + 1) - 1) * 2 ^ lo)).getLsbD i = (decide (lo ≤ i) && decide (i - lo < hi - lo + 1)) := by
    rw [BitVec.getLsbD_ofNat, Nat.mul_comm, Nat.testBit_two_pow_mul, Nat.testBit_two_pow_sub_one]
    simp [header]
  have field : (BitVec.ofNat 128 (x % 2 ^ (hi - lo + 1) * 2 ^ lo)).getLsbD i = (decide (lo ≤ i) && (decide (i - lo < hi - lo + 1) && x.testBit (i - lo))) := by
    rw [BitVec.getLsbD_ofNat, Nat.mul_comm, Nat.testBit_two_pow_mul, Nat.testBit_mod_two_pow]
    simp [header]
  change (((p.getD 0 0#128) &&& ~~~(BitVec.ofNat 128 ((2 ^ (hi - lo + 1) - 1) * 2 ^ lo))) ||| BitVec.ofNat 128 (x % 2 ^ (hi - lo + 1) * 2 ^ lo)).getLsbD i = _
  rw [BitVec.getLsbD_or, BitVec.getLsbD_and, BitVec.getLsbD_not, mask, field]
  by_cases inside : lo ≤ i ∧ i - lo < hi - lo + 1
  · simp [inside, header]
  · rw [if_neg inside]
    rcases not_and_or.mp inside with out | out
    · simp [out, header]
    · simp [out, header]

theorem pk_testBit (k j : Nat) : (pk p k hi lo).testBit j = (decide (j < hi - lo + 1) && (p.getD k 0#128).getLsbD (lo + j)) := by
  rw [pk, Nat.testBit_mod_two_pow, Nat.testBit_div_two_pow, Nat.add_comm j lo]
  rfl

/-- A field beside the replaced one. -/
theorem pk_pkSet_apart {a b : Nat} (header : a < 128) (field : b ≤ a) (apart : a < lo ∨ hi < b) (order : lo ≤ hi) :
    pk (pkSet p hi lo x) 0 a b = pk p 0 a b := by
  refine Nat.eq_of_testBit_eq fun j => ?_
  rw [pk_testBit, pk_testBit]
  by_cases inside : j < a - b + 1
  · rw [pkSet_getLsbD _ _ (by omega), if_neg (by omega)]
  · simp [inside]

/-- The replaced field. -/
theorem pk_pkSet_same (header : hi < 128) (order : lo ≤ hi) : pk (pkSet p hi lo x) 0 hi lo = x % 2 ^ (hi - lo + 1) := by
  refine Nat.eq_of_testBit_eq fun j => ?_
  rw [pk_testBit, Nat.testBit_mod_two_pow]
  by_cases inside : j < hi - lo + 1
  · rw [pkSet_getLsbD _ _ (by omega), if_pos (by omega), Nat.add_sub_cancel_left]
  · simp [inside]

theorem length_pkSet (some_ : 1 ≤ p.length) : (pkSet p hi lo x).length = p.length := by
  simp [pkSet]
  omega

end

/-- p' is p but for the header's bits 32 to 37. -/
structure Routed (p p' : FPkt) : Prop where
  drop : p'.drop 1 = p.drop 1
  length : 1 ≤ p.length → p'.length = p.length
  low : ∀ a b, b ≤ a → a < 32 → pk p' 0 a b = pk p 0 a b

theorem Routed.refl (p : FPkt) : Routed p p := ⟨rfl, fun _ => rfl, fun _ _ _ _ => rfl⟩

theorem Routed.set {p p' : FPkt} (r : Routed p p') {hi lo : Nat} (x : Nat) (high : 32 ≤ lo) (order : lo ≤ hi) : Routed p (pkSet p' hi lo x) :=
  ⟨r.drop, fun some_ => (length_pkSet p' x (by rw [r.length some_]; exact some_)).trans (r.length some_),
    fun a b field lt => (pk_pkSet_apart p' x (by omega) field (Or.inl (by omega)) order).trans (r.low a b field lt)⟩

theorem Routed.ite {c : Prop} [Decidable c] {p a b : FPkt} (ra : Routed p a) (rb : Routed p b) : Routed p (if c then a else b) := by
  split
  · exact ra
  · exact rb

/-! ### Sending a packet (R269, R270) -/

/-- Slots of a receive buffer have emptied, and statistics have counted; links keep all else. -/
structure Pkg.SlotsFreed (p q : Pkg) (buf : Option (Nat × Nat)) : Prop where
  drs : q.drs = p.drs
  fab : q.fab = p.fab
  slots : ∀ j, (p.link j).SlotsOnly (q.link j)
  others : ∀ j, (∀ v, buf ≠ some (j, v)) → q.link j = p.link j

theorem Pkg.SlotsFreed.refl (p : Pkg) (buf : Option (Nat × Nat)) : p.SlotsFreed p buf := ⟨rfl, rfl, fun _ => .refl _, fun _ _ => rfl⟩

theorem Pkg.slotsFreed_freed (p : Pkg) (buf : Option (Nat × Nat)) (n : Nat) : p.SlotsFreed (p.freed buf n) buf := by
  obtain ⟨only, slots, others⟩ := p.freed_does buf n
  exact ⟨by rw [only], by rw [only], slots, others⟩

theorem Pkg.SlotsFreed.stReq {p q : Pkg} {buf : Option (Nat × Nat)} (f : p.SlotsFreed q buf) (b n : Nat) : p.SlotsFreed (q.stReq b n) buf :=
  ⟨f.drs, f.fab, f.slots, f.others⟩

/-- A link with one packet that can be sent. -/
structure Pkg.OnePacket (s : Pkg) (i v : Nat) (e : VcEnt) : Prop where
  active : s.lkState i = 5
  stays : (s.link i).drain = none
  queue : (s.link i).vcq = [(v, [e])]
  vc : v < 6
  room : (s.link i).replay.length + 2 ≤ 256
  credit : e.p.length ≤ (s.link i).credit.getD v 0

/-- What a link becomes is decided by what it is. -/
theorem Pkg.updLink_congr {s : Pkg} {i : Nat} {f g : Link → Link} (same : f (s.link i) = g (s.link i)) : s.updLink i f = s.updLink i g := by
  unfold Pkg.link at same
  unfold Pkg.updLink Map.upd
  rw [same]

/-- The link has sent it. -/
def Link.sentPacket (l : Link) (v now : Nat) (e : VcEnt) : Link :=
  (pktFlits e.p l.tx).foldl Link.data { l with
    vcq := Map.upd (fun _ => []) l.vcq v (·.drop 1), rr := v, credit := l.credit.set v (l.credit.getD v 0 - e.p.length)
    replay := l.replay ++ pktFlits e.p l.tx, tx := (l.tx + (pktFlits e.p l.tx).length) % 4096, ackAt := if l.replay.isEmpty then now else l.ackAt }

theorem Link.sentPacket_does {l : Link} {v now : Nat} {e : VcEnt} (queue : l.vcq = [(v, [e])]) :
    (l.sentPacket v now e).replay = l.replay ++ pktFlits e.p l.tx ∧ (l.sentPacket v now e).vcq = [] := by
  rw [Link.sentPacket, Link.hasSent_data]
  refine ⟨rfl, ?_⟩
  simp [queue, Map.upd, Map.get, Map.set, Map.erase]

/-- Every VC is served in its turn. -/
theorem mem_roundRobin {v : Nat} (vc : v < 6) (rr : Nat) : v ∈ (List.range 6).map (fun k => (rr + 1 + k) % 6) := by
  refine List.mem_map.mpr ⟨(v + 6 - (rr + 1) % 6) % 6, List.mem_range.mpr (by omega), ?_⟩
  omega

/-- Whether the first packet queued on a VC can be sent. -/
def Link.servable (l : Link) (u : Nat) : Bool :=
  match (Map.get (fun _ => []) l.vcq u).head? with
  | some e => decide (e.p.length ≤ l.credit.getD u 0) && decide (l.replay.length + 2 ≤ 256)
  | none => false

section
variable {s : Pkg} {i v : Nat} {e : VcEnt} (one : s.OnePacket i v e)
include one

/-- The VC of the packet is served. -/
theorem Pkg.OnePacket.served : ((List.range 6).map (fun k => ((s.link i).rr + 1 + k) % 6)).find? (s.link i).servable = some v := by
  refine find?_only (mem_roundRobin one.vc _) ?_ fun u _ good => ?_
  · unfold Link.servable
    simp only [one.queue, Map.get, if_true, List.head?_cons, decide_eq_true one.credit, decide_eq_true one.room, Bool.and_self]
  · by_contra other
    simp [Link.servable, one.queue, Map.get, Ne.symm other] at good

theorem Pkg.pump1_one : s.pump1 i = (s.updLink i (·.sentPacket v s.now e)).freed e.src e.p.length := by
  have goes : ¬ (s.lkState i ≠ 5 ∨ (s.link i).drain.isSome = true) := by simp [one.active, one.stays]
  have head : (Map.get (fun _ => []) (s.link i).vcq v).head? = some e := by simp [one.queue, Map.get]
  unfold Pkg.pump1
  refine (if_neg goes).trans ?_
  dsimp only
  split
  next none_ => cases one.served.symm.trans none_
  next u found =>
    cases one.served.symm.trans found
    split
    next none_ => cases head.symm.trans none_
    next x first =>
      cases head.symm.trans first
      exact congrArg (·.freed e.src e.p.length) (Pkg.updLink_congr rfl)

/-- A link with one packet sends it. -/
theorem Pkg.pump_one : ((s.pump i).link i).replay = (s.link i).replay ++ pktFlits e.p (s.link i).tx ∧ ((s.pump i).link i).vcq = []
    ∧ (s.pump i).drs = s.drs ∧ (s.pump i).fab = s.fab ∧ ∀ j, j ≠ i → (∀ v, e.src ≠ some (j, v)) → (s.pump i).link j = s.link j := by
  obtain ⟨replay, vcq⟩ := (s.link i).sentPacket_does (now := s.now) one.queue
  have sent := s.linked_updLink i (·.sentPacket v s.now e)
  obtain ⟨drs, fab, slots, others⟩ := Pkg.slotsFreed_freed (s.updLink i (·.sentPacket v s.now e)) e.src e.p.length
  have own := slots i
  rw [← Pkg.pump1_one one] at own drs fab others
  rw [sent.1] at own
  obtain ⟨o, r, own⟩ := own
  have empty : ((s.pump1 i).link i).vcq = [] := by rw [own]; exact vcq
  have eq : s.pump i = s.pump1 i := by
    have all : s.pump i = (·.pump1 i)^[(List.range 256).length] s := List.foldl_const ..
    rw [all, List.length_range, show 256 = 255 + 1 from rfl, Function.iterate_succ_apply, Function.iterate_fixed (Pkg.pump1_idle empty)]
  rw [eq]
  refine ⟨?_, empty, drs.trans sent.drs, fab.trans sent.fab, fun j other out => (others j out).trans (sent.2.1 j other)⟩
  rw [own]
  exact replay

end

/-- A packet joins the queue of a VC. -/
def Link.queued (l : Link) (vc : Nat) (e : VcEnt) : Link := { l with vcq := Map.upd (fun _ => []) l.vcq vc (· ++ [e]) }

theorem Link.queued_idle {l : Link} (idle : l.vcq = []) (vc : Nat) (e : VcEnt) : (l.queued vc e).vcq = [(vc, [e])] := by
  simp [Link.queued, idle, Map.upd, Map.get, Map.set, Map.insert]

/-- A packet leaves its receive buffer for Mortar, unless its output lies on the same footing; Mortar's statistics count a request. -/
def Pkg.vacated (s : Pkg) (stay : Bool) (buf : Option (Nat × Nat)) (p : FPkt) : Pkg :=
  let s := if stay then s else s.freed buf p.length
  match buf with
  | some (i, _) => if !stay && pkClass p != 1 then s.stReq (2 * (Win.lk i).stop) (16 * p.length) else s
  | none => s

theorem Pkg.slotsFreed_vacated (s : Pkg) (stay : Bool) (buf : Option (Nat × Nat)) (p : FPkt) : s.SlotsFreed (s.vacated stay buf p) buf := by
  have freed : s.SlotsFreed (if stay then s else s.freed buf p.length) buf := by
    split
    · exact .refl s buf
    · exact s.slotsFreed_freed buf p.length
  unfold Pkg.vacated
  cases buf with
  | none => exact freed
  | some e =>
    dsimp only
    split
    · exact freed.stReq ..
    · exact freed

/-- A packet that may go is sent on its link at once. -/
theorem Pkg.linkSend_does {s : Pkg} {o vc : Nat} {p : FPkt} (active : s.lkState o = 5) (stays : (s.link o).drain = none) (idle : (s.link o).vcq = [])
    (room : (s.link o).replay.length + 2 ≤ 256) (small : vc < 6) (credit : p.length ≤ (s.link o).credit.getD vc 0) (short : p.length ≤ 20)
    (foot : Nat) (buf : Option (Nat × Nat)) :
    ∃ q, s.linkSend o vc foot buf p = some q ∧ (q.link o).replay = (s.link o).replay ++ pktFlits p (s.link o).tx ∧ (q.link o).vcq = []
      ∧ q.drs = s.drs ∧ q.fab = s.fab ∧ ∀ j, j ≠ o → (∀ v, buf ≠ some (j, v)) → q.link j = s.link j := by
  have goes : ¬ ((s.link o).drain.isSome = true ∨ ¬ (buf.isSome && o / 6 == foot) = true
      ∧ (((Map.get (fun _ => []) (s.link o).vcq vc).filter (·.src.isNone)).foldl (fun a e => a + e.p.length) 0) + p.length > 256) := by
    rw [stays, idle]
    rintro (a | ⟨-, a⟩)
    · cases a
    · simp [Map.get] at a
      omega
  have freed := s.slotsFreed_vacated (buf.isSome && o / 6 == foot) buf p
  obtain ⟨k, r, own⟩ := freed.slots o
  have queued := (s.vacated (buf.isSome && o / 6 == foot) buf p).linked_updLink o (·.queued vc ⟨p, if buf.isSome && o / 6 == foot then buf else none⟩)
  have one : ((s.vacated (buf.isSome && o / 6 == foot) buf p).updLink o (·.queued vc ⟨p, if buf.isSome && o / 6 == foot then buf else none⟩)).OnePacket o vc
      ⟨p, if buf.isSome && o / 6 == foot then buf else none⟩ := by
    have state := (Pkg.lkState_of_rd (Pkg.rd_of_drs (queued.drs.trans freed.drs) _)).trans active
    have link := queued.1
    rw [own] at link
    refine ⟨state, ?_, ?_, small, ?_, ?_⟩
    · rw [link]
      exact stays
    · rw [link]
      exact Link.queued_idle idle ..
    · rw [link]
      exact room
    · rw [link]
      exact credit
  obtain ⟨replay, vcq, drs, fab, others⟩ := Pkg.pump_one one
  refine ⟨_, if_neg goes, ?_, vcq, drs.trans (queued.drs.trans freed.drs), fab.trans (queued.fab.trans freed.fab), fun j other out => ?_⟩
  · refine replay.trans ?_
    rw [queued.1, own]
    rfl
  · refine (others j other fun v => ?_).trans ((queued.2.1 j other).trans (freed.others j out))
    split
    · exact out v
    · exact nofun

/-! ### Routing a packet (R281, R283, R286) -/

/-- A packet that is discarded and counted: no class, no length, or a destination that does not exist. -/
def Pkg.Malformed (s : Pkg) (p : FPkt) : Prop := pkClass p = 3 ∨ pkLen p = 0 ∨ 20 < pkLen p ∨ ∃ d, d < 4 ∧ s.dimK d ≤ coord (pkDst p) d

/-- A packet from Mortar that does not cross is no longer marked as a resend. -/
def fromInput (p : FPkt) (inp : Nat) : FPkt := if inp ≥ 12 then pkSet p 37 37 0 else p

section
variable (s : Pkg) (p : FPkt) (inp d : Nat)

/-- The route entry of a packet's destination in the active bank. -/
def Pkg.entryOf : Nat := s.rtEntry s.rtActive (pkDst p / 2)

/-- Whether a packet of input inp goes on in dimension d. -/
def Pkg.goesOn : Bool :=
  (if inp < 12 ∧ 1 ≤ s.lkCarries inp ∧ s.lkCarries inp ≤ 8 then some ((s.lkCarries inp - 1) / 2) else none) == some d

/-- The direction in which a packet leaves in dimension d. -/
def Pkg.linkDir : Nat := if s.goesOn inp d then pk (fromInput p inp) 0 (33 + d) (33 + d) else s.entryOf p / 2 ^ d % 2

/-- The packet with its direction in dimension d. -/
def Pkg.directed : FPkt := if s.goesOn inp d then fromInput p inp else pkSet (pkSet (fromInput p inp) (33 + d) (33 + d) (s.linkDir p inp d)) 32 32 0

/-- The packet as it leaves in dimension d: behind a wraparound it is on the dateline's other VC. -/
def Pkg.leaves : FPkt :=
  if (s.linkDir p inp d = 0 ∧ coord s.selfId d + 1 = s.dimK d) ∨ (s.linkDir p inp d = 1 ∧ coord s.selfId d = 0) then pkSet (s.directed p inp d) 32 32 1
  else s.directed p inp d

theorem Pkg.goesOn_eq (dim : d < 4) : s.goesOn inp d = decide (inp < 12 ∧ (s.lkCarries inp = 1 + 2 * d ∨ s.lkCarries inp = 2 + 2 * d)) := by
  unfold Pkg.goesOn
  by_cases from_ : inp < 12 ∧ 1 ≤ s.lkCarries inp ∧ s.lkCarries inp ≤ 8
  · rw [if_pos from_, Bool.eq_iff_iff, beq_iff_eq, decide_eq_true_iff, Option.some_inj]
    omega
  · rw [if_neg from_, Bool.eq_iff_iff, decide_eq_true_iff]
    simp
    omega

theorem Pkg.linkDir_eq (dim : d < 4) : s.linkDir p inp d =
    if inp < 12 ∧ (s.lkCarries inp = 1 + 2 * d ∨ s.lkCarries inp = 2 + 2 * d) then pk p 0 (33 + d) (33 + d) else s.entryOf p / 2 ^ d % 2 := by
  simp only [Pkg.linkDir, s.goesOn_eq inp d dim, decide_eq_true_iff]
  split
  next on => rw [fromInput, if_neg (by omega)]
  next => rfl

theorem Pkg.routed_leaves : Routed p (s.leaves p inp d) := by
  have enters : Routed p (fromInput p inp) := .ite ((Routed.refl p).set 0 (by decide) le_rfl) (.refl p)
  have directed : Routed p (s.directed p inp d) := .ite enters ((enters.set _ (by omega) le_rfl).set 0 le_rfl le_rfl)
  exact .ite (directed.set 1 le_rfl le_rfl) directed

theorem Pkg.linkDir_lt : s.linkDir p inp d < 2 := by
  unfold Pkg.linkDir
  split
  · exact (pk_lt ..).trans_eq (by simp)
  · exact Nat.mod_lt _ (by decide)

/-- The packet says the direction in which it leaves. -/
theorem Pkg.dir_leaves (dim : d < 4) : pk (s.leaves p inp d) 0 (33 + d) (33 + d) = s.linkDir p inp d := by
  have beside (q : FPkt) (x : Nat) : pk (pkSet q 32 32 x) 0 (33 + d) (33 + d) = pk q 0 (33 + d) (33 + d) :=
    pk_pkSet_apart q x (by omega) le_rfl (Or.inr (by omega)) le_rfl
  have said : pk (s.directed p inp d) 0 (33 + d) (33 + d) = s.linkDir p inp d := by
    unfold Pkg.directed
    split
    next on => exact (if_pos on).symm
    next =>
      rw [beside, pk_pkSet_same _ _ (by omega) le_rfl, Nat.sub_self]
      exact Nat.mod_eq_of_lt (s.linkDir_lt p inp d)
  unfold Pkg.leaves
  split
  · rw [beside, said]
  · exact said

end

section
variable {s : Pkg} {p : FPkt} {inp : Nat} {buf : Option (Nat × Nat)}

theorem Pkg.malformed_iff : s.Malformed p ↔
    pkClass p = 3 ∨ pkLen p = 0 ∨ pkLen p > 20 ∨ (List.range 4).any (fun d => decide (coord (pkDst p) d ≥ s.dimK d)) = true := by
  simp only [Pkg.Malformed, List.any_eq_true, List.mem_range, decide_eq_true_iff, gt_iff_lt, ge_iff_le]

/-- A malformed packet is discarded and counted. -/
theorem Pkg.route_malformed (bad : s.Malformed p) : s.route p inp buf = some ((s.freed buf p.length).sat (fabBase + 0x10) 63 48) :=
  if_pos (Pkg.malformed_iff.mp bad)

variable (good : ¬ s.Malformed p) (gen : s.rtGen s.rtActive = pkGen p)
include good gen

/-- A well-formed packet of the active generation. -/
theorem Pkg.route_formed : s.route p inp buf =
    if pkDst p / 2 = s.selfId / 2 then
      if s.fabMode = 1 ∨ (s.fabMode = 0 ∧ pkDst p % 2 = s.selfId % 2) ∨ s.rf tdmBase 3 0 = 9 then some ((s.freed buf p.length).eject inp p)
      else s.sendCross (inp % 12 / 6) buf p (2 * pkClass p + 1)
    else if s.entryOf p / 32 % 2 = 1 then some ((s.freed buf p.length).sat (fabBase + 0x10) 15 0)
    else if inp ≥ 12 ∧ s.entryOf p / 16 % 2 ≠ pk p 0 37 37 then s.sendCross (inp % 12 / 6) buf (pkSet p 37 37 1) (2 * pkClass p)
    else
      let d := ((List.range 4).find? (fun d => coord (pkDst p) d != coord s.selfId d)).getD 0
      match s.roleLink (1 + 2 * d + s.linkDir p inp d) with
      | some o => s.linkSend o (vcOf (s.leaves p inp d)) (inp % 12 / 6) buf (s.leaves p inp d)
      | none => some ((s.freed buf p.length).sat (fabBase + 0x10) 31 16) := by
  unfold Pkg.route
  refine (if_neg (Pkg.malformed_iff.not.mp good)).trans ?_
  simp only [if_pos gen, Option.isNone_some, Bool.false_eq_true, if_false, Option.getD_some, Option.map_id']
  rfl

/-- A packet for this node is handed over. -/
theorem Pkg.route_home (home : pkDst p = s.selfId) (solo : s.fabMode = 0) (known : pkKnown p = true) :
    s.route p inp buf = some ((s.freed buf p.length).toHome inp p) := by
  have here : pkDst p / 2 = s.selfId / 2 := by rw [home]
  have own : s.fabMode = 1 ∨ (s.fabMode = 0 ∧ pkDst p % 2 = s.selfId % 2) ∨ s.rf tdmBase 3 0 = 9 := Or.inr (Or.inl ⟨solo, by rw [home]⟩)
  rw [Pkg.route_formed good gen, if_pos here, if_pos own, Pkg.eject, if_pos known]

variable (away : pkDst p / 2 ≠ s.selfId / 2)
include away

/-- A packet without a route is discarded and counted. -/
theorem Pkg.route_noRoute (hole : s.entryOf p / 32 % 2 = 1) : s.route p inp buf = some ((s.freed buf p.length).sat (fabBase + 0x10) 15 0) := by
  rw [Pkg.route_formed good gen, if_neg away, if_pos hole]

variable (route : s.entryOf p / 32 % 2 = 0) (rail : 12 ≤ inp → s.entryOf p / 16 % 2 = pk p 0 37 37) {d : Nat}
  (dim : (List.range 4).find? (fun d => coord (pkDst p) d != coord s.selfId d) = some d)
include route rail dim

/-- A packet for another position leaves in the first dimension that differs. -/
theorem Pkg.route_away : s.route p inp buf = match s.roleLink (1 + 2 * d + s.linkDir p inp d) with
    | some o => s.linkSend o (vcOf (s.leaves p inp d)) (inp % 12 / 6) buf (s.leaves p inp d)
    | none => some ((s.freed buf p.length).sat (fabBase + 0x10) 31 16) := by
  have stays : ¬ (inp ≥ 12 ∧ s.entryOf p / 16 % 2 ≠ pk p 0 37 37) := fun ⟨mortar, crosses⟩ => crosses (rail mortar)
  rw [Pkg.route_formed good gen, if_neg away, if_neg (by omega), if_neg stays, dim]
  rfl

/-- A packet whose output is not up is discarded and counted. -/
theorem Pkg.route_down (down : s.roleLink (1 + 2 * d + s.linkDir p inp d) = none) :
    s.route p inp buf = some ((s.freed buf p.length).sat (fabBase + 0x10) 31 16) := by
  rw [Pkg.route_away good gen away route rail dim, down]

/-- A packet whose output can take it is sent there. -/
theorem Pkg.route_sent {o : Nat} (up : s.roleLink (1 + 2 * d + s.linkDir p inp d) = some o) (active : s.lkState o = 5) (stays : (s.link o).drain = none)
    (idle : (s.link o).vcq = []) (room : (s.link o).replay.length + 2 ≤ 256) (credit : ∀ v, v < 6 → p.length ≤ (s.link o).credit.getD v 0)
    (some_ : 1 ≤ p.length) (short : p.length ≤ 20) :
    ∃ q, s.route p inp buf = some q ∧ (q.link o).replay = (s.link o).replay ++ pktFlits (s.leaves p inp d) (s.link o).tx ∧ (q.link o).vcq = []
      ∧ q.drs = s.drs ∧ q.fab = s.fab ∧ ∀ j, j ≠ o → (∀ v, buf ≠ some (j, v)) → q.link j = s.link j := by
  have routed := s.routed_leaves p inp d
  have length := routed.length some_
  have vc : vcOf (s.leaves p inp d) < 6 := by
    have class_ : pkClass (s.leaves p inp d) = pkClass p := routed.low 31 30 (by decide) (by decide)
    have le : pkClass p < 4 := pk_lt p 0 31 30
    have dateline : pk (s.leaves p inp d) 0 32 32 < 2 := pk_lt _ 0 32 32
    have known : pkClass p ≠ 3 := fun none_ => good (Or.inl none_)
    unfold vcOf
    omega
  rw [Pkg.route_away good gen away route rail dim, up]
  exact Pkg.linkSend_does active stays idle room vc (length ▸ credit _ vc) (length ▸ short) ..

end

/-! ### FABRIC_ROUTE (R283, R285) -/

/-- p is the first packet of input inp and VC vc, and p0 the package without it. -/
def Pkg.First (s : Pkg) (inp vc : Nat) (p : FPkt) (p0 : Pkg) : Prop :=
  (inp < 12 ∧ ∃ rest, Map.get (fun _ => []) s.fab.inq (6 * inp + vc) = p :: rest
      ∧ p0 = { s with fab := { s.fab with inq := Map.set (fun _ => []) s.fab.inq (6 * inp + vc) rest } })
    ∨ (12 ≤ inp ∧ 2 * pkClass p = vc ∧ ∃ a b, s.fab.inj = a ++ (inp - 12, p) :: b ∧ (∀ x ∈ a, x.1 ≠ inp - 12 ∧ pkDst x.2 ≠ pkDst p)
      ∧ p0 = { s with fab := { s.fab with inj := a ++ b } })

/-- The receive buffer that holds the packet of an input. -/
def inputBuf (inp vc : Nat) : Option (Nat × Nat) := if inp < 12 then some (inp, vc) else none

theorem Pkg.fabricRoute_first {s : Pkg} {inp vc : Nat} {p : FPkt} {p0 : Pkg} (alone : s.tdmState = 0) (first : s.First inp vc p p0) :
    s.fabricRoute inp vc = (p0.route p inp (inputBuf inp vc)).getD s := by
  have state : s.rf tdmBase 3 0 = 0 := alone
  unfold Pkg.fabricRoute inputBuf
  rcases first with ⟨link, rest, head, rfl⟩ | ⟨mortar, vc', a, b, queue, apart, rfl⟩
  · simp [link, head, state]
  · have none_ : a.findIdx? (fun q => q.1 == inp - 12 && 2 * pkClass q.2 == vc) = none := by
      rw [List.findIdx?_eq_none_iff]
      intro x mem
      simp [(apart x mem).1]
    have found : s.fab.inj.findIdx? (fun q => q.1 == inp - 12 && 2 * pkClass q.2 == vc) = some a.length := by
      rw [queue, List.findIdx?_append, none_]
      simp [List.findIdx?_cons, vc']
    have own : s.fab.inj.getD a.length (0, []) = (inp - 12, p) := by simp [queue]
    have front : s.fab.inj.take a.length = a := by simp [queue]
    have less : s.fab.inj.eraseIdx a.length = a ++ b := by simp [queue, List.eraseIdx_append_of_length_le]
    have free : a.any (fun q => pkDst q.2 == pkDst p && pkClass q.2 == pkClass p) = false := by
      rw [List.any_eq_false]
      intro x mem
      simp [(apart x mem).2]
    simp only [if_neg (Nat.not_lt.mpr mortar), found, own, front, less, free, state]
    rfl

/-! ### DATA flits as the lanes bring them, without Shimmy -/

theorem Pkg.lkState_unretried (s : Pkg) (key i : Nat) : (s.unretried key).lkState i = s.lkState i := Pkg.lkState_of_rd (Pkg.rd_of_drs (s.unretried_drs key) _)

section
variable {s : Pkg} {i : LkN} {w : LaneBits} (off : s.shm.on = false) (acts : s.shm.acts = []) (active : s.lkState i = 5)
include off acts active

theorem Pkg.flitIn_bad (bad : (flitHdr ((s.link i).flit w)).ok = false) : (s.flitIn i w).link i = (s.link i).nakked
    ∧ (s.flitIn i w).rf (lkBase i + 0x20) 31 0 = (s.rf (lkBase i + 0x20) 31 0 + 1) % 2 ^ 32
    ∧ s.DrsBut (s.flitIn i w) [lkBase i + 0x20] ∧ (s.flitIn i w).fab = s.fab := by
  have eq := Pkg.flitIn_idle off acts active (flitIs_of_bad bad 1)
  generalize 4096 * i.val + (flitData ((s.link i).flit w)).seq.toNat = key at eq
  have does := Pkg.dataFlit_bad_does (f := flitData ((s.link i).flit w)) ((s.lkState_unretried key i).trans active) bad
  rw [← eq, Pkg.link_unretried] at does
  have counted := Pkg.rf_inc_same (s.unretried key) (lkBase i + 0x20) (hi := 31) (lo := 0) 1 (by decide) (by decide)
  rw [Pkg.rf_of_drs (s.unretried_drs key)] at counted
  refine ⟨does.1, (Pkg.rf_of_drs does.drs ..).trans counted, fun o out => ?_, does.fab.trans (((s.unretried key).inc_fab ..).trans (s.unretried_fab key))⟩
  exact (Pkg.rd_of_drs does.drs o).trans (((s.unretried key).drsBut_inc _ 31 0 1 o out).trans (Pkg.rd_of_drs (s.unretried_drs key) o))

variable (ok : (flitHdr ((s.link i).flit w)).ok = true) (type_ : flitF ((s.link i).flit w) 3 0 = 1) (noAck : (flitHdr ((s.link i).flit w)).ack = none)
  (idle : (s.link i).vcq = [])
include ok type_ noAck idle

theorem Pkg.flitIn_outOfSequence (other : (flitData ((s.link i).flit w)).seq.toNat ≠ (s.link i).rx) : ((s.flitIn i w).link i).nak = true
    ∧ ((s.flitIn i w).link i).rx = (s.link i).rx ∧ ((s.flitIn i w).link i).replay = (s.link i).replay ∧ (s.flitIn i w).fab = s.fab
    ∧ (s.flitIn i w).drs = s.drs := by
  have does := Pkg.dataFlit_outOfSequence (s := s.unretried (4096 * i.val + (flitData ((s.link i).flit w)).seq.toNat)) (f := flitData ((s.link i).flit w)) ((s.lkState_unretried _ i).trans active) ok
    (by rwa [Pkg.link_unretried]) (by rwa [Pkg.link_unretried])
  rw [← Pkg.flitIn_idle off acts active (flitIs_of_type type_), Pkg.link_unretried] at does
  obtain ⟨nak, rx, replay, -⟩ := Link.nakked_does ((s.link i).header (flitData ((s.link i).flit w)).hdr s.now)
  refine ⟨?_, ?_, ?_, does.fab, does.drs⟩
  · rw [does.1]
    exact nak
  · rw [does.1]
    refine rx.trans ?_
    rw [Link.header_kept]
  · rw [does.1]
    exact replay.trans (Link.header_replay_noAck _ _ _ noAck)

omit noAck in
theorem Pkg.flitIn_packet {p : FPkt} (inOrder : (flitData ((s.link i).flit w)).seq.toNat = (s.link i).rx) (carries : (flitData ((s.link i).flit w)).Carries p)
    (fits : p.length ≤ 15) (room : ∀ n ∈ (s.link i).occ, n + p.length ≤ 256) :
    ((s.flitIn i w).link i).rx = ((s.link i).rx + 1) % 4096 ∧ ((s.flitIn i w).link i).nak = false ∧ ((s.flitIn i w).link i).part = []
      ∧ Map.get (fun _ => []) (s.flitIn i w).fab.inq (6 * i + s.vcIn i p) = Map.get (fun _ => []) s.fab.inq (6 * i + s.vcIn i p) ++ [p]
      ∧ (s.flitIn i w).drs = s.drs ∧ ∀ j, j ≠ (i : Nat) → (s.flitIn i w).link j = s.link j := by
  have does := Pkg.dataFlit_packet (s := s.unretried (4096 * i.val + (flitData ((s.link i).flit w)).seq.toNat)) (f := flitData ((s.link i).flit w)) ((s.lkState_unretried _ i).trans active) ok
    (by rwa [Pkg.link_unretried]) (by rwa [Pkg.link_unretried]) carries fits (by rwa [Pkg.link_unretried])
  rw [← Pkg.flitIn_idle off acts active (flitIs_of_type type_), Pkg.link_unretried, Pkg.vcIn_of_drs (s.unretried_drs _)] at does
  obtain ⟨drs, own, others, inq⟩ := does
  obtain ⟨rx, nak, part⟩ := (s.link i).header_inOrder_holds (flitData ((s.link i).flit w)).hdr s.now (s.vcIn i p) p.length
  refine ⟨?_, ?_, ?_, inq, drs, fun j other => (others j other).trans (Pkg.link_unretried ..)⟩
  · rw [own]
    exact rx
  · rw [own]
    exact nak
  · rw [own]
    exact part

end

/-- An IDLE flit's ACK removes the flits that it covers from the replay buffer. -/
theorem Pkg.idleIn_ack {s : Pkg} {i : Nat} {w : LaneBits} {a : BitVec 12} {k : Nat} (active : s.lkState i = 5) (idle : (s.link i).vcq = [])
    (ok : (flitHdr ((s.link i).flit w)).ok = true) (type_ : flitF ((s.link i).flit w) 3 0 = 0) (ack : (flitHdr ((s.link i).flit w)).ack = some a)
    (found : (s.link i).replay.findIdx? (fun y => y.seq == a.toNat) = some k) :
    ((s.idleIn i w false).link i).replay = (s.link i).replay.drop (k + 1) ∧ ((s.idleIn i w false).link i).ackAt = s.now
      ∧ s.idleIn i w false = { s with links := (s.idleIn i w false).links } ∧ ∀ j, j ≠ i → (s.idleIn i w false).link j = s.link j := by
  obtain ⟨own, others, only⟩ := s.linked_lkHeader i (flitHdr ((s.link i).flit w))
  rw [← Pkg.idleIn_header active idle ok type_] at own others only
  rw [Link.header_ack _ _ _ ack found] at own
  exact ⟨by rw [own], by rw [own], only, others⟩

/-! ### FABRIC_ROUTE, case by case -/

section
variable (s : Pkg) (f : Fab) (p : FPkt)

/-- Routing looks at registers and links. -/
theorem Pkg.malformed_fab : ({ s with fab := f } : Pkg).Malformed p ↔ s.Malformed p := Iff.rfl
theorem Pkg.gen_fab : ({ s with fab := f } : Pkg).rtGen ({ s with fab := f } : Pkg).rtActive = s.rtGen s.rtActive := rfl
theorem Pkg.linkDir_fab (inp d : Nat) : ({ s with fab := f } : Pkg).linkDir p inp d = s.linkDir p inp d := rfl
theorem Pkg.roleLink_fab (r : Nat) : ({ s with fab := f } : Pkg).roleLink r = s.roleLink r := rfl
theorem Pkg.lkState_fab (i : Nat) : ({ s with fab := f } : Pkg).lkState i = s.lkState i := rfl

end

/-- The package without the packet differs in the queues of the fabric alone. -/
theorem Pkg.First.only {s : Pkg} {inp vc : Nat} {p : FPkt} {p0 : Pkg} (first : s.First inp vc p p0) :
    ∃ f : Fab, p0 = { s with fab := f } ∧ f.ejq = s.fab.ejq ∧ f.via = s.fab.via := by
  rcases first with ⟨-, rest, -, rfl⟩ | ⟨-, -, a, b, -, -, rfl⟩
  · exact ⟨_, rfl, rfl, rfl⟩
  · exact ⟨_, rfl, rfl, rfl⟩

theorem Pkg.freed_inputBuf (s : Pkg) (inp vc n : Nat) : s.freed (inputBuf inp vc) n = if inp < 12 then s.freed (some (inp, vc)) n else s := by
  unfold inputBuf
  split
  · rfl
  · rfl

theorem inputBuf_link {inp vc j v : Nat} (from_ : inputBuf inp vc = some (j, v)) : j = inp := by
  unfold inputBuf at from_
  split at from_
  · cases from_
    rfl
  · cases from_

/-- The queue of the home agents, and the inputs and times of its packets. -/
def Pkg.withHome (q : Pkg) (ejq : List FPkt) (via : List (Nat × Nat)) : Pkg := { q with fab := { q.fab with ejq := ejq, via := via } }

theorem Pkg.toHome_eq (q : Pkg) (inp : Nat) (p : FPkt) : q.toHome inp p = q.withHome (q.fab.ejq ++ [p]) (q.fab.via ++ [(inp, q.now)]) := rfl

/-- What is handed over joins the queue. -/
theorem Pkg.toHome_freed (s : Pkg) {f : Fab} (ejq : f.ejq = s.fab.ejq) (via : f.via = s.fab.via) (buf : Option (Nat × Nat)) (n inp : Nat) (p : FPkt) :
    (({ s with fab := f } : Pkg).freed buf n).toHome inp p =
      (({ s with fab := f } : Pkg).freed buf n).withHome (s.fab.ejq ++ [p]) (s.fab.via ++ [(inp, s.now)]) := by
  have only := (({ s with fab := f } : Pkg).freed_does buf n).1
  have ejq' : (({ s with fab := f } : Pkg).freed buf n).fab.ejq = s.fab.ejq := by rw [only, ← ejq]
  have via' : (({ s with fab := f } : Pkg).freed buf n).fab.via = s.fab.via := by rw [only, ← via]
  have now' : (({ s with fab := f } : Pkg).freed buf n).now = s.now := by rw [only]
  rw [Pkg.toHome_eq, ejq', via', now']

/-! ### The statement -/

/-- Settles O34: what each flit does, and where packets go. -/
theorem flitsArePassedOnAcknowledgedAndRouted : Obligations.FlitsArePassedOnAcknowledgedAndRouted := by
  intro s i live off acts
  have link := i.isLt
  refine ⟨fun active idle => ⟨fun w => ⟨fun bad => ⟨?_, fun d => ?_, ?_⟩, fun ok type_ noAck other => ?_, fun p ok type_ noAck inOrder some_ fits whole slots marks room => ?_,
      fun a k ok type_ ack found => ?_, fun ok type_ noAck few => ?_⟩, fun dt few unacked due => ?_, fun dt early => ?_, fun w n lane clean errs => ?_⟩,
    fun n retrains repair idle => ?_, fun inp vc p p0 alone first => ?_, fun equal => ?_, fun other => ?_⟩
  · -- a flit whose CRC fails
    exact ⟨_, State.run_live _ live, Pkg.flitIn_bad off acts active bad⟩
  · exact State.run_to live (Pkg.idleIn_bad active bad d)
  · exact State.run_to live (Pkg.nakIn_bad active bad)
  · -- DATA out of sequence
    exact ⟨_, State.run_live _ live, Pkg.flitIn_outOfSequence off acts active ok type_ noAck idle other⟩
  · -- DATA with one packet
    exact ⟨_, State.run_live _ live, Pkg.flitIn_packet off acts active ok type_ idle inOrder
      ⟨some_, whole, slots, fun k lt => (marks k lt).1, fun k lt => (marks k lt).2⟩ fits room⟩
  · -- IDLE
    exact ⟨_, State.run_live _ live, Pkg.idleIn_ack active idle ok type_ ack found⟩
  · -- NAK
    exact ⟨_, State.run_live _ live, Pkg.nakIn_does active idle ok type_ noAck few⟩
  · -- REPLAY_TIMEOUT
    have active' := (s.pkg.lkState_elapse dt link).trans active
    rw [← s.pkg.link_elapse dt] at idle few unacked due
    rw [← s.pkg.elapse_now dt] at due
    have does := Pkg.resend_does idle few
    rw [← Pkg.replayTimeout_due active' unacked due] at does
    obtain ⟨resent, now, counted, -⟩ := does
    rw [Pkg.link_elapse] at resent counted
    rw [s.pkg.rf_elapse dt (lk_ne_phase link (by decide))] at counted
    exact ⟨_, State.runAt_live live dt _, resent, now.trans (s.pkg.elapse_now dt), counted⟩
  · rw [← s.pkg.link_elapse dt, ← s.pkg.elapse_now dt] at early
    exact State.runAt_to live (Pkg.replayTimeout_early early)
  · -- CHECK
    intro m v th on whole free
    exact ⟨_, State.run_live _ live, Pkg.checkFlit_does active lane clean errs on whole free⟩
  · -- LANE_REPAIR_COMPLETE
    exact ⟨_, State.run_live _ live, Pkg.laneRepaired_does link retrains repair idle⟩
  · -- FABRIC_ROUTE
    have eq := Pkg.fabricRoute_first alone first
    obtain ⟨f, rfl, ejq, via⟩ := Pkg.First.only first
    have gone := ({ s.pkg with fab := f } : Pkg).freed_inputBuf inp vc p.length
    refine ⟨fun bad => ?_, fun good gen => ?_⟩
    · rw [Pkg.route_malformed ((s.pkg.malformed_fab f p).mpr bad), gone] at eq
      exact State.run_to live eq
    have formed := (s.pkg.malformed_fab f p).not.mpr good
    have active0 := (s.pkg.gen_fab f).trans gen
    refine ⟨fun home solo known => ?_, fun away hole => ?_, fun away route rail d dim => ?_⟩
    · rw [Pkg.route_home formed active0 home solo known, Pkg.toHome_freed _ ejq via, gone] at eq
      exact State.run_to live eq
    · rw [Pkg.route_noRoute formed active0 away hole, gone] at eq
      exact State.run_to live eq
    · have lt : d < 4 := List.mem_range.mp (List.mem_of_find?_eq_some dim)
      have dir := (s.pkg.linkDir_fab f p inp d).trans (s.pkg.linkDir_eq p inp d lt)
      refine ⟨fun down => ?_, fun o up active stays idle room credit some_ short => ?_⟩
      · rw [Pkg.route_down formed active0 away route rail dim (by rw [Pkg.roleLink_fab, dir]; exact down), gone] at eq
        exact State.run_to live eq
      · obtain ⟨q, sent, replay, vcq, drs, fab, others⟩ := Pkg.route_sent (buf := inputBuf inp vc) formed active0 away route rail dim
          (by rw [Pkg.roleLink_fab, dir]; exact up) ((s.pkg.lkState_fab f o).trans active) stays idle room credit some_ short
        rw [sent] at eq
        have routed := ({ s.pkg with fab := f } : Pkg).routed_leaves p inp d
        refine ⟨q, _, State.run_to live eq, routed.drop, routed.length some_, routed.low 14 0 (by decide) (by decide), ?_, replay, vcq, drs, fab,
          fun j other apart => others j other fun v from_ => apart (inputBuf_link from_)⟩
        rw [Pkg.dir_leaves _ _ _ _ lt, dir]
        rfl
  · -- ROUTE_FLIP
    exact State.run_to live (Pkg.rtFlip_equal equal)
  · exact State.run_to live (Pkg.rtFlip_swaps other)

end Sys2Proof.Machine
end

section
/-! ## Packets that this package makes and sends (10_lerlora_links_routing R281, R283; 11_global_memory_membership R299, R304) -/
namespace Sys2Proof.Machine

/-- q differs from p in the queues of packets for the switch and for the home agents alone. -/
def Pkg.OnlyPackets (p q : Pkg) : Prop :=
  q = { p with fab := { p.fab with inj := q.fab.inj, ejq := q.fab.ejq, via := q.fab.via } }

section
variable {p q r : Pkg}

theorem Pkg.OnlyPackets.refl (p : Pkg) : p.OnlyPackets p := rfl

theorem Pkg.OnlyPackets.trans (a : p.OnlyPackets q) (b : q.OnlyPackets r) : p.OnlyPackets r := by
  unfold Pkg.OnlyPackets at *
  rw [b, a]

section
variable (only : p.OnlyPackets q)
include only

theorem Pkg.OnlyPackets.drs : q.drs = p.drs := by rw [only]
theorem Pkg.OnlyPackets.threads : q.threads = p.threads := by rw [only]
theorem Pkg.OnlyPackets.mem : q.mem = p.mem := by rw [only]
theorem Pkg.OnlyPackets.mcs : q.mcs = p.mcs := by rw [only]
theorem Pkg.OnlyPackets.sent : q.fab.sent = p.fab.sent := by rw [only]

theorem Pkg.OnlyPackets.srcS (d : Nat) : q.srcS d = p.srcS d := by rw [only]; rfl
theorem Pkg.OnlyPackets.homeS (d : Nat) : q.homeS d = p.homeS d := by rw [only]; rfl

end
end

theorem Pkg.onlyPackets_emitPkt (s : Pkg) (x : FPkt) (e : Nat) : s.OnlyPackets (s.emitPkt x e) := by
  rw [Pkg.emitPkt_eq]
  split <;> rfl

theorem Pkg.onlyPackets_memMsg (s : Pkg) (dst typ mid fields : Nat) (more : FPkt) : s.OnlyPackets (s.memMsg dst typ mid fields more) :=
  s.onlyPackets_emitPkt _ _

/-- A package that has this node's ID, and its packets for the switch, sends as this one does. -/
theorem Pkg.sent_emitPkt {p s : Pkg} (self : s.rd fabBase = p.rd fabBase) (inj : s.fab.inj = p.fab.inj) (x : FPkt) (e : Nat) :
    p.Sent (s.emitPkt x e) s.fab.ejq x := by
  unfold Pkg.Sent
  rw [← Pkg.isSelf_of_rd self, Pkg.emitPkt_eq]
  split
  · rfl
  · exact ⟨rfl, e, by rw [inj]⟩

/-- A packet for another node goes into the switch. -/
theorem Pkg.inj_emitPkt_away {s : Pkg} {x : FPkt} (away : s.isSelf (pkDst x) = false) (e : Nat) : (s.emitPkt x e).fab.inj = s.fab.inj ++ [(e, x)] := by
  rw [Pkg.emitPkt_eq, away]
  rfl

/-- What has been sent is still sent where only other fields differ. -/
theorem Pkg.Sent.of_fab {p q r : Pkg} {ej : List FPkt} {x : FPkt} (sent : p.Sent q ej x) (ejq : r.fab.ejq = q.fab.ejq) (inj : r.fab.inj = q.fab.inj) :
    p.Sent r ej x := by
  unfold Pkg.Sent at *
  rwa [ejq, inj]

/-- The same, of a package that has this node's ID and its packets for the switch. -/
theorem Pkg.Sent.of_self {p s q : Pkg} {ej : List FPkt} {x : FPkt} (sent : s.Sent q ej x) (self : s.rd fabBase = p.rd fabBase) (inj : s.fab.inj = p.fab.inj) :
    p.Sent q ej x := by
  unfold Pkg.Sent at *
  rwa [Pkg.isSelf_of_rd self, inj] at sent

/-- A membership message of any length that a packet holds has been sent. -/
theorem Pkg.sent_memMsg {p s : Pkg} (self : s.rd fabBase = p.rd fabBase) (inj : s.fab.inj = p.fab.inj) {dst typ : Nat} (device : dst < 2 ^ 15) (type_ : typ < 16)
    (mid fields : Nat) {more : FPkt} (short : more.length < 30) :
    p.Sent (s.memMsg dst typ mid fields more) s.fab.ejq (s.memPkt dst typ mid fields more) ∧ pkDst (s.memPkt dst typ mid fields more) = dst
      ∧ pkType (s.memPkt dst typ mid fields more) = typ := by
  obtain ⟨dest, -, kind⟩ := s.mkPkt_header (cls := 2) (body := BitVec.ofNat 128 (mid + fields * 2 ^ 32) :: more) device (by decide) type_ (s.rtGen_lt s.rtActive)
    (Nat.succ_lt_succ short) 0 false
  exact ⟨Pkg.sent_emitPkt self inj _ 5, dest, kind⟩

/-- A packet is not made on the other rail (10 R281: XR). -/
theorem Pkg.mkPkt_rail (s : Pkg) {dst cls : Nat} (device : dst < 2 ^ 15) (class_ : cls < 4) (typ tag gen : Nat) (body : List (BitVec 128)) (rty : Bool) :
    pk (s.mkPkt dst cls typ tag rty gen body) 0 37 37 = 0 := by
  have node := s.nodeId_lt
  have resent : (if rty = true then 2 ^ 63 else 0) = 0 ∨ (if rty = true then 2 ^ 63 else 0) = 2 ^ 63 := by cases rty <;> simp
  unfold Pkg.mkPkt pk
  simp only [List.getD_cons_zero, BitVec.toNat_ofNat]
  generalize s.nodeId = node at *
  generalize body.length = len at *
  generalize s.rdtime.toNat = time at *
  generalize (if rty = true then 2 ^ 63 else 0) = r at *
  omega

/-- A packet on the other rail is for the same device. -/
theorem pkDst_otherRail (x : FPkt) : pkDst (pkSet x 37 37 1) = pkDst x := pk_pkSet_apart x 1 (by decide) (by decide) (by decide) (by decide)

theorem pkType_otherRail (x : FPkt) : pkType (pkSet x 37 37 1) = pkType x := pk_pkSet_apart x 1 (by decide) (by decide) (by decide) (by decide)

end Sys2Proof.Machine
end

section
/-! ## The lead of the fabric's membership (11_global_memory_membership R303 to R307; 10_lerlora_links_routing R288) -/
namespace Sys2Proof.Machine

/-! ### Messages that the lead sends (R303) -/

/-- q differs from p in packets, in the next MID and in the messages that the lead has sent, to which more may have come. -/
structure Pkg.SendsMore (p q : Pkg) : Prop where
  only : q = { p with fab := { p.fab with inj := q.fab.inj, ejq := q.fab.ejq, via := q.fab.via, mid := q.fab.mid, sent := q.fab.sent } }
  more : ∃ l, q.fab.sent = p.fab.sent ++ l

section
variable {p q r : Pkg}

theorem Pkg.SendsMore.refl (p : Pkg) : p.SendsMore p := ⟨rfl, [], (List.append_nil _).symm⟩

theorem Pkg.SendsMore.trans (a : p.SendsMore q) (b : q.SendsMore r) : p.SendsMore r := by
  obtain ⟨onlyQ, l, sentQ⟩ := a
  obtain ⟨onlyR, m, sentR⟩ := b
  exact ⟨by rw [onlyR, onlyQ], l ++ m, by rw [sentR, sentQ, List.append_assoc]⟩

theorem Pkg.SendsMore.foldl {α : Type} (k : p.SendsMore q) {f : Pkg → α → Pkg} (step : ∀ s a, Pkg.SendsMore s (f s a)) (l : List α) :
    p.SendsMore (l.foldl f q) :=
  foldl_keeps (p.SendsMore ·) f (fun s a k => k.trans (step s a)) l q k

section
variable (k : p.SendsMore q)
include k

theorem Pkg.SendsMore.drs : q.drs = p.drs := by rw [k.only]
theorem Pkg.SendsMore.run : q.fab.run = p.fab.run := by rw [k.only]
theorem Pkg.SendsMore.todo : q.fab.todo = p.fab.todo := by rw [k.only]
theorem Pkg.SendsMore.newLead : q.fab.newLead = p.fab.newLead := by rw [k.only]

theorem Pkg.SendsMore.sent_mem {m : MSent} (sent : m ∈ p.fab.sent) : m ∈ q.fab.sent := by
  obtain ⟨l, more⟩ := k.more
  rw [more]
  exact List.mem_append_left _ sent

end
end

/-- The lead notes a message of which it awaits the answer. -/
def Pkg.noted (s : Pkg) (m : MSent) : Pkg := { s with fab := { s.fab with mid := (s.fab.mid + 1) % 2 ^ 32, sent := s.fab.sent ++ [m] } }

section
variable (s : Pkg) (dst typ fields : Nat) (more : FPkt)

theorem Pkg.leadSend_eq :
    s.leadSend dst typ fields more = (s.noted ⟨dst, typ, s.fab.mid, fields, more, s.now⟩).memMsg dst typ s.fab.mid fields more := rfl

theorem Pkg.sent_leadSend : (s.leadSend dst typ fields more).fab.sent = s.fab.sent ++ [⟨dst, typ, s.fab.mid, fields, more, s.now⟩] :=
  (Pkg.onlyPackets_memMsg ..).sent

theorem Pkg.sendsMore_leadSend : s.SendsMore (s.leadSend dst typ fields more) := by
  refine ⟨?_, _, s.sent_leadSend dst typ fields more⟩
  rw [Pkg.leadSend_eq, Pkg.memMsg_kept]
  rfl

/-- One message to each device. -/
theorem Pkg.sent_foldl_leadSend (l : List Nat) :
    (l.foldl (fun s d => s.leadSend d typ fields more) s).fab.sent.map (fun m => (m.dst, m.typ, m.fields))
      = s.fab.sent.map (fun m => (m.dst, m.typ, m.fields)) ++ l.map (fun d => (d, typ, fields)) := by
  induction l generalizing s with
  | nil => exact (List.append_nil _).symm
  | cons d l ih =>
    rw [List.foldl_cons, ih, Pkg.sent_leadSend]
    simp

theorem Pkg.sendsMore_foldl_leadSend (l : List Nat) : s.SendsMore (l.foldl (fun s d => s.leadSend d typ fields more) s) :=
  (Pkg.SendsMore.refl s).foldl (fun s d => s.sendsMore_leadSend d typ fields more) l

end

/-! ### Requests to change the members (R306; 10 R288) -/

section
variable {s : Pkg} {x : FPkt}

theorem Pkg.leadAsk_queues {typ : Nat} (hears : s.Hears x typ) (lead : s.isLead = true) (member : s.mState = 2) (idle : s.fab.todo = []) (still : s.fab.run = none) :
    s.leadAsk typ = { s.unqueue 0 with fab := { (s.unqueue 0).fab with todo := [⟨some (pkSrc x, typ == 5), some (pk x 1 31 0)⟩] } } := by
  have lead0 : (s.unqueue 0).isLead = true := lead
  have member0 : (s.unqueue 0).mState = 2 := member
  have idle0 : (s.unqueue 0).fab.todo = [] := idle
  have still0 : (s.unqueue 0).fab.run = none := still
  refine (Pkg.memTake_hears _ hears).trans ?_
  simp [lead0, member0, idle0, still0]

/-- The package once a LINKEV has queued new tables and the probe of device d is noted. -/
def Pkg.probing (s : Pkg) (src mid d : Nat) : Pkg :=
  let t := s.setAnswer src mid 0
  { t with fab := { t.fab with todo := [⟨none, none⟩], mid := (s.fab.mid + 1) % 2 ^ 32, probes := [(d, s.fab.mid, s.now)] } }

/-- The PROBE of a device on its own rail. -/
def Pkg.probePkt (s : Pkg) (d : Nat) : FPkt := s.mkPkt d 2 10 0 false (s.rtGen s.rtActive) [BitVec.ofNat 128 s.fab.mid]

theorem Pkg.leadLinkev_probes (hears : s.Hears x 9) (lead : s.isLead = true) (idle : s.fab.todo = []) (unprobed : s.fab.probes = []) :
    s.leadLinkev = (((s.unqueue 0).probing (pkSrc x) (pk x 1 31 0) (pk x 1 46 32)).emitPkt (s.probePkt (pk x 1 46 32))).emitPkt
      (pkSet (s.probePkt (pk x 1 46 32)) 37 37 1) := by
  have lead0 : (s.unqueue 0).isLead = true := lead
  have idle0 : (s.unqueue 0).fab.todo = [] := idle
  have unprobed0 : (s.unqueue 0).fab.probes = [] := unprobed
  refine (Pkg.memTake_hears _ hears).trans ?_
  simp only [lead0, idle0, unprobed0, Pkg.setAnswer, List.any_nil, List.nil_append, Bool.not_true, Bool.false_eq_true, if_false]
  rfl

/-- What a LINKEV leaves at the lead: the probe of the far node on both rails. -/
theorem Pkg.leadLinkev_does (hears : s.Hears x 9) (lead : s.isLead = true) (idle : s.fab.todo = []) (unprobed : s.fab.probes = []) :
    s.leadLinkev.fab.todo = [⟨none, none⟩] ∧ s.leadLinkev.fab.probes = [(pk x 1 46 32, s.fab.mid, s.now)] ∧ s.leadLinkev.drs = s.drs
      ∧ (s.isSelf (pk x 1 46 32) = false → ∃ y z, s.leadLinkev.fab.inj = s.fab.inj ++ [(5, y), (5, z)] ∧ pkDst y = pk x 1 46 32 ∧ pkDst z = pk x 1 46 32
        ∧ pkType y = 10 ∧ pkType z = 10 ∧ pk y 0 37 37 = 0 ∧ pk z 0 37 37 = 1) := by
  rw [Pkg.leadLinkev_probes hears lead idle unprobed]
  have device := pk_lt x 1 46 32
  generalize pk x 1 46 32 = d at *
  have only := ((s.unqueue 0).probing (pkSrc x) (pk x 1 31 0) d).onlyPackets_emitPkt (s.probePkt d) 5 |>.trans
    (Pkg.onlyPackets_emitPkt _ (pkSet (s.probePkt d) 37 37 1) 5)
  refine ⟨by rw [only]; rfl, by rw [only]; rfl, only.drs, fun foreign => ⟨s.probePkt d, pkSet (s.probePkt d) 37 37 1, ?_⟩⟩
  obtain ⟨dest, -, kind⟩ := s.mkPkt_header (dst := d) (cls := 2) (typ := 10) (body := [BitVec.ofNat 128 s.fab.mid]) device (by decide) (by decide) (s.rtGen_lt s.rtActive)
    (by simp) 0 false
  have destY : pkDst (s.probePkt d) = d := dest
  have destZ : pkDst (pkSet (s.probePkt d) 37 37 1) = d := (pkDst_otherRail _).trans dest
  refine ⟨?_, dest, destZ, kind, (pkType_otherRail _).trans kind, s.mkPkt_rail device (by decide) .., pk_pkSet_same _ _ (by decide) (by decide)⟩
  have away (t : Pkg) (same : t.drs = s.drs) : t.isSelf d = false := (Pkg.isSelf_of_rd (Pkg.rd_of_drs same _) d).trans foreign
  rw [Pkg.inj_emitPkt_away, Pkg.inj_emitPkt_away]
  · exact List.append_assoc ..
  · rw [destY]
    exact away _ rfl
  · rw [destZ]
    exact away _ (Pkg.onlyPackets_emitPkt ..).drs

theorem Pkg.leadProbeAck_ends {d m t : Nat} (hears : s.Hears x 11) (probed : s.fab.probes = [(d, m, t)]) (same : m = pk x 1 31 0) :
    s.leadProbeAck = { s.unqueue 0 with fab := { (s.unqueue 0).fab with probes := [] } } := by
  have probed0 : (s.unqueue 0).fab.probes = [(d, m, t)] := probed
  refine (Pkg.memTake_hears _ hears).trans ?_
  simp [probed0, same]

end

/-! ### DONE (R304, R305) -/

/-- The package once the answer to the only message that the lead awaits has come. -/
def Pkg.allDone (s : Pkg) : Pkg := { s.unqueue 0 with fab := { (s.unqueue 0).fab with sent := [] } }

/-- What the lead does when every message of a phase is answered (R305). -/
def Pkg.phaseDone (s : Pkg) (r : MRun) : Pkg :=
  if r.phase = 2 then
    let s := { s with fab := { s.fab with flipAt := some s.now } }
    if r.chg.dev.isNone then s.changeEnd r else s
  else if r.phase = 3 then s.changeEnd r
  else s

section
variable {s : Pkg} {x : FPkt} {m : MSent} {r : MRun} (hears : s.Hears x 4) (sent : s.fab.sent = [m]) (dst : m.dst = pkSrc x) (mid : m.mid = pk x 1 31 0)
  (run : s.fab.run = some r)
include hears sent dst mid run

theorem Pkg.leadDone_last : s.leadDone = s.allDone.phaseDone r := by
  have answered : (s.unqueue 0).fab.sent.filter (fun m => !(m.dst == pkSrc x && m.mid == pk x 1 31 0)) = [] := by
    rw [show (s.unqueue 0).fab.sent = [m] from sent]
    simp [dst, mid]
  refine (Pkg.memTake_hears _ hears).trans ?_
  dsimp only
  rw [answered]
  split
  next r' found =>
    cases run.symm.trans found
    rfl
  next none_ => cases run.symm.trans none_

theorem Pkg.leadDone_table (table : r.phase = 1) : s.leadDone = s.allDone := by
  rw [Pkg.leadDone_last hears sent dst mid run, Pkg.phaseDone, if_neg (by omega), if_neg (by omega)]

theorem Pkg.leadDone_flip (flip : r.phase = 2) (node : r.chg.dev ≠ none) :
    s.leadDone = { s.allDone with fab := { s.allDone.fab with flipAt := some s.now } } := by
  have some_ : r.chg.dev.isNone = false := by
    cases h : r.chg.dev with
    | none => exact absurd h node
    | some d => rfl
  rw [Pkg.leadDone_last hears sent dst mid run, Pkg.phaseDone, if_pos flip]
  simp only [some_, Bool.false_eq_true, if_false]
  rfl

/-- The end of a change that a node has asked for: it is answered. -/
theorem Pkg.leadDone_mapupd {d a : Nat} {j : Bool} (mapupd : r.phase = 3) (change : r.chg = ⟨some (d, j), some a⟩) (device : d < 2 ^ 15) :
    ∃ y, s.leadDone.fab.run = none ∧ s.leadDone.fab.sent = [] ∧ s.Sent s.leadDone (s.unqueue 0).fab.ejq y ∧ pkDst y = d ∧ pkType y = (if j then 6 else 8)
      ∧ s.leadDone.drs = s.drs := by
  rw [Pkg.leadDone_last hears sent dst mid run, Pkg.phaseDone, if_neg (by omega), if_pos mapupd, Pkg.changeEnd, change]
  have type_ : (if j then 6 else 8) < 16 := by split <;> decide
  obtain ⟨told, dest, -, kind, -⟩ := Pkg.sentMsg_memMsg (p := s) (s := ({ s.allDone with fab := { s.allDone.fab with run := none } } : Pkg).setAnswer d a
    (1 + (if j then 6 else 8) + 16 * s.allDone.rf mstat 31 16)) rfl rfl device type_ a (s.allDone.rf mstat 31 16)
  have only := Pkg.onlyPackets_memMsg (({ s.allDone with fab := { s.allDone.fab with run := none } } : Pkg).setAnswer d a
    (1 + (if j then 6 else 8) + 16 * s.allDone.rf mstat 31 16)) d (if j then 6 else 8) a (s.allDone.rf mstat 31 16) []
  refine ⟨_, ?_, only.sent, told, dest, kind, only.drs⟩
  exact (congrArg (fun q : Pkg => q.fab.run) only)

end

/-! ### The phases of a change (R305) -/

theorem Pkg.inMap_elapse (s : Pkg) (dt d : Nat) : (s.elapse dt).inMap d = s.inMap d := by
  refine s.rb_elapse dt _ _ ?_
  unfold fabBase cadBase
  omega

theorem Pkg.audience_congr {p q : Pkg} (map : ∀ d, q.inMap d = p.inMap d) (c : MChange) : q.audience c = p.audience c := by
  have members : q.members = p.members := by
    unfold Pkg.members
    rw [funext map]
  unfold Pkg.audience
  rw [members]

/-- The lead's own tables of a change go to one device, in pieces. -/
def Pkg.sendTables (tabs : List (BitVec 15 × List (BitVec 16))) (g : Nat) (s : Pkg) (d : Nat) : Pkg :=
  let l : List (BitVec 16) := match tabs.find? (fun q => q.1.toNat == d) with | some q => q.2 | none => []
  (tablePieces 0 l (max 1 ((l.length + 119) / 120))).foldl (fun s q => s.leadSend d 1 (g + q.1 * 16) (entrySlots q.2)) s

section
variable (s : Pkg) (tabs : List (BitVec 15 × List (BitVec 16))) (g : Nat)

theorem Pkg.sendsMore_sendTables (d : Nat) : s.SendsMore (Pkg.sendTables tabs g s d) :=
  (Pkg.SendsMore.refl s).foldl (fun s _ => s.sendsMore_leadSend ..) _

/-- Each device is sent at least one TABLE, empty where it has no entries. -/
theorem Pkg.sendTables_sends (d : Nat) : ∃ m ∈ (Pkg.sendTables tabs g s d).fab.sent, m.dst = d ∧ m.typ = 1 := by
  unfold Pkg.sendTables
  dsimp only
  generalize (match tabs.find? (fun q => q.1.toNat == d) with | some q => q.2 | none => []) = l
  obtain ⟨n, pieces⟩ : ∃ n, max 1 ((l.length + 119) / 120) = n + 1 := ⟨max 1 ((l.length + 119) / 120) - 1, by omega⟩
  rw [pieces, tablePieces, List.foldl_cons]
  have rest : (s.leadSend d 1 (g + 0 * 16) (entrySlots (l.take 120))).SendsMore _ :=
    (Pkg.SendsMore.refl _).foldl (fun s (q : Nat × List (BitVec 16)) => s.sendsMore_leadSend d 1 (g + q.1 * 16) (entrySlots q.2))
      (tablePieces (0 + 120) (l.drop 120) n)
  refine ⟨⟨d, 1, s.fab.mid, g + 0 * 16, entrySlots (l.take 120), s.now⟩, rest.sent_mem ?_, rfl, rfl⟩
  rw [Pkg.sent_leadSend]
  exact List.mem_append_right _ (List.mem_singleton_self _)

theorem Pkg.foldl_sendTables_sends (l : List Nat) : ∀ d ∈ l, ∃ m ∈ (l.foldl (Pkg.sendTables tabs g) s).fab.sent, m.dst = d ∧ m.typ = 1 := by
  induction l generalizing s with
  | nil => simp
  | cons e l ih =>
    intro d among
    rcases List.mem_cons.mp among with rfl | later
    · obtain ⟨m, sent, is⟩ := s.sendTables_sends tabs g d
      exact ⟨m, ((Pkg.SendsMore.refl _).foldl (fun s d => s.sendsMore_sendTables tabs g d) l).sent_mem sent, is⟩
    · exact ih _ d later

end

/-- A change c has been taken from the queue into phase 1. -/
def Pkg.changing (s : Pkg) (c : MChange) (rest : List MChange) : Pkg :=
  { s with fab := { s.fab with todo := rest, newLead := false, run := some ⟨c, 1, (s.rtGen s.rtActive + if s.fab.newLead then 2 else 1) % 16⟩ } }

section
variable {s : Pkg} {c : MChange} {rest : List MChange} (tabs : List (BitVec 15 × List (BitVec 16))) (still : s.fab.run = none) (todo : s.fab.todo = c :: rest)
include still todo

theorem Pkg.changeStart_early {t : Nat} (flipped : s.fab.flipAt = some t) (early : s.now < t + leadWait) : s.changeStart tabs = s := by
  simp [Pkg.changeStart, still, todo, flipped, early]

theorem Pkg.changeStart_due (lead : s.isLead = true) (member : s.mState = 2) (due : ∀ t, s.fab.flipAt = some t → t + leadWait ≤ s.now) :
    s.changeStart tabs = (s.audience c).foldl (Pkg.sendTables tabs ((s.rtGen s.rtActive + if s.fab.newLead then 2 else 1) % 16)) (s.changing c rest) := by
  unfold Pkg.changeStart
  rw [still, todo]
  refine if_neg ?_
  cases flipped : s.fab.flipAt with
  | none => simp [lead, member]
  | some t =>
    have late := due t flipped
    have passed : ¬ s.now < t + leadWait := by omega
    simp [lead, member, passed]

/-- What the start of a change leaves. -/
theorem Pkg.changeStart_does (lead : s.isLead = true) (member : s.mState = 2) (due : ∀ t, s.fab.flipAt = some t → t + leadWait ≤ s.now) :
    (s.changeStart tabs).fab.run = some ⟨c, 1, (s.rtGen s.rtActive + if s.fab.newLead then 2 else 1) % 16⟩ ∧ (s.changeStart tabs).fab.todo = rest
      ∧ (s.changeStart tabs).fab.newLead = false ∧ (∀ d ∈ s.audience c, ∃ m ∈ (s.changeStart tabs).fab.sent, m.dst = d ∧ m.typ = 1)
      ∧ (s.changeStart tabs).drs = s.drs := by
  rw [Pkg.changeStart_due tabs still todo lead member due]
  have more := (Pkg.SendsMore.refl (s.changing c rest)).foldl
    (fun q d => q.sendsMore_sendTables tabs ((s.rtGen s.rtActive + if s.fab.newLead then 2 else 1) % 16) d) (s.audience c)
  exact ⟨more.run, more.todo, more.newLead, Pkg.foldl_sendTables_sends _ tabs _ (s.audience c), more.drs⟩

end

/-- The change in progress is in another phase. -/
def Pkg.inPhase (s : Pkg) (r : MRun) (n : Nat) : Pkg := { s with fab := { s.fab with run := some { r with phase := n } } }

section
variable {s : Pkg} {r : MRun} (run : s.fab.run = some r)
include run

theorem Pkg.flipPhase_next (table : r.phase = 1) (answered : s.fab.sent = []) :
    s.flipPhase = (s.audience r.chg).foldl (fun q d => q.leadSend d 2 r.gen []) (s.inPhase r 2) := by
  unfold Pkg.flipPhase
  rw [run]
  exact if_pos ⟨table, by rw [answered]; rfl⟩

/-- FLIP goes to the audience of the change. -/
theorem Pkg.flipPhase_does (table : r.phase = 1) (answered : s.fab.sent = []) : s.flipPhase.fab.run = some { r with phase := 2 }
    ∧ s.flipPhase.fab.sent.map (fun m => (m.dst, m.typ, m.fields)) = (s.audience r.chg).map (fun d => (d, 2, r.gen)) ∧ s.flipPhase.drs = s.drs := by
  rw [Pkg.flipPhase_next run table answered]
  have more := (s.inPhase r 2).sendsMore_foldl_leadSend 2 r.gen [] (s.audience r.chg)
  refine ⟨more.run, (Pkg.sent_foldl_leadSend ..).trans ?_, more.drs⟩
  rw [show (s.inPhase r 2).fab.sent = [] from answered]
  rfl

section
variable {d t : Nat} {j : Bool} (node : r.chg.dev = some (d, j)) (flipped : s.fab.flipAt = some t)
include node flipped

theorem Pkg.mapupdPhase_early (early : s.now < t + leadWait) : s.mapupdPhase = s := by
  unfold Pkg.mapupdPhase
  rw [run, flipped]
  simp only [node]
  exact if_neg (by omega)

/-- MAPUPD goes to the audience of the change. -/
theorem Pkg.mapupdPhase_does (flip : r.phase = 2) (answered : s.fab.sent = []) (due : t + leadWait ≤ s.now) :
    s.mapupdPhase.fab.run = some { r with phase := 3 } ∧ s.mapupdPhase.fab.sent.map (fun m => (m.dst, m.typ)) = (s.audience r.chg).map (fun d => (d, 3))
      ∧ s.mapupdPhase.drs = s.drs := by
  have next : s.mapupdPhase = (s.audience r.chg).foldl
      (fun q x => q.leadSend x 3 (d + (if j then 2 ^ 15 else 0) + (s.rf mstat 31 16 + 1) % 65536 * 2 ^ 16) []) (s.inPhase r 3) := by
    unfold Pkg.mapupdPhase
    rw [run, flipped]
    simp only [node]
    exact if_pos ⟨flip, by rw [answered]; rfl, due⟩
  rw [next]
  generalize d + (if j then 2 ^ 15 else 0) + (s.rf mstat 31 16 + 1) % 65536 * 2 ^ 16 = fields
  have more := (s.inPhase r 3).sendsMore_foldl_leadSend 3 fields [] (s.audience r.chg)
  have sent := (s.inPhase r 3).sent_foldl_leadSend 3 fields [] (s.audience r.chg)
  rw [show (s.inPhase r 3).fab.sent = [] from answered] at sent
  refine ⟨more.run, ?_, more.drs⟩
  have pairs := congrArg (List.map (fun e : Nat × Nat × Nat => (e.1, e.2.1))) sent
  rwa [List.map_map, List.map_nil, List.nil_append, List.map_map] at pairs

end
end

/-! ### Resends, and a new lead (R303, R307) -/

/-- The only message that the lead awaits an answer to. -/
def Pkg.withSent (s : Pkg) (m : MSent) : Pkg := { s with fab := { s.fab with sent := [m] } }

section
variable {s : Pkg} {m : MSent} (sent : s.fab.sent = [m])
include sent

theorem Pkg.leadResend_early (early : s.now < m.t + 100000000) : s.leadResend = s := by
  have undue : ¬ s.now ≥ m.t + 100000000 := by omega
  unfold Pkg.leadResend
  simp only [sent, undue, List.map_cons, List.map_nil, List.filter_cons, List.filter_nil, decide_false, Bool.false_eq_true, if_false, List.foldl_nil]
  rw [← sent]

theorem Pkg.leadResend_due (due : m.t + 100000000 ≤ s.now) :
    s.leadResend = (s.withSent { m with t := s.now }).memMsg m.dst m.typ m.mid m.fields m.more := by
  have due' : s.now ≥ m.t + 100000000 := due
  unfold Pkg.leadResend
  simp only [sent, due', List.map_cons, List.map_nil, List.filter_cons, List.filter_nil, decide_true, if_true, List.foldl_cons, List.foldl_nil]
  rfl

end

/-- A message of the lead that has gone unanswered for 100 µs is sent again. -/
theorem Pkg.leadResend_elapse_does {s : Pkg} (dt : Nat) {m : MSent} (sent : s.fab.sent = [m]) (device : m.dst < 2 ^ 15) (type_ : m.typ < 16) (short : m.more.length < 30)
    (due : m.t + 100000000 ≤ (s.elapse dt).now) :
    ∃ y, (s.elapse dt).leadResend.fab.sent = [{ m with t := (s.elapse dt).now }] ∧ s.Sent (s.elapse dt).leadResend s.fab.ejq y ∧ pkDst y = m.dst ∧ pkType y = m.typ
      ∧ (s.elapse dt).leadResend.drs = (s.elapse dt).drs := by
  rw [Pkg.leadResend_due (by rw [Pkg.elapse_fab, sent]) due]
  have only := ((s.elapse dt).withSent { m with t := (s.elapse dt).now }).onlyPackets_memMsg m.dst m.typ m.mid m.fields m.more
  have inj : ((s.elapse dt).withSent { m with t := (s.elapse dt).now }).fab.inj = s.fab.inj := by simp [Pkg.withSent]
  have ejq : ((s.elapse dt).withSent { m with t := (s.elapse dt).now }).fab.ejq = s.fab.ejq := by simp [Pkg.withSent]
  obtain ⟨told, dest, kind⟩ := Pkg.sent_memMsg (s := (s.elapse dt).withSent { m with t := (s.elapse dt).now }) (s.rd_elapse dt _ (by decide)) inj device type_
    m.mid m.fields short
  rw [ejq] at told
  exact ⟨_, only.sent, told, dest, kind, only.drs⟩

/-- FAB_LEAD's fields are written. -/
def Pkg.setLead (s : Pkg) (d : Nat) : Pkg := (s.wf (fabBase + 0x120) 14 0 d).wb (fabBase + 0x120) 15 (s.isSelf d)

theorem Pkg.setLead_does (s : Pkg) {d : Nat} (device : d < 2 ^ 15) :
    (s.setLead d).leadId = d ∧ (s.setLead d).isLead = s.isSelf d ∧ s.DrsBut (s.setLead d) [fabBase + 0x120] := by
  refine ⟨?_, Pkg.rb_wb_same _ _ _ _ (by decide), ((Pkg.DrsBut.refl s _).wf (List.mem_singleton_self _) 14 0 d).wb (List.mem_singleton_self _) 15 _⟩
  refine (Pkg.rf_wf_other _ _ _ _ _ _ _ (by decide) (by decide) (by decide) (by decide)).trans ?_
  exact (Pkg.rf_wf_same _ _ _ _ _ (by decide) (by decide)).trans (Nat.mod_eq_of_lt device)

theorem Pkg.leadWrite_eq (s : Pkg) (v : Word) : s.leadWrite v =
    if bits v 14 0 = s.leadId then s.setLead (bits v 14 0)
    else if (s.setLead (bits v 14 0)).isSelf (bits v 14 0) = true then
      { s.setLead (bits v 14 0) with fab := { s.fab with newLead := true, flipAt := some s.now } }
    else { s.setLead (bits v 14 0) with fab := { s.fab with run := none, sent := [], todo := [], probes := [], newLead := false } } := rfl

/-- What a write of FAB_LEAD leaves. -/
theorem Pkg.leadWrite_does (s : Pkg) (v : Word) :
    (s.leadWrite v).leadId = bits v 14 0 ∧ (s.leadWrite v).isLead = s.isSelf (bits v 14 0) ∧ s.DrsBut (s.leadWrite v) [fabBase + 0x120]
      ∧ (bits v 14 0 = s.leadId → (s.leadWrite v).fab = s.fab)
      ∧ (bits v 14 0 ≠ s.leadId → s.isSelf (bits v 14 0) = true → (s.leadWrite v).fab = { s.fab with newLead := true, flipAt := some s.now })
      ∧ (bits v 14 0 ≠ s.leadId → s.isSelf (bits v 14 0) = false
        → (s.leadWrite v).fab = { s.fab with run := none, sent := [], todo := [], probes := [], newLead := false }) := by
  rw [Pkg.leadWrite_eq]
  have device : bits v 14 0 < 2 ^ 15 := bits_lt ..
  generalize bits v 14 0 = d at *
  have self : (s.setLead d).isSelf d = s.isSelf d := Pkg.isSelf_of_rd ((s.setLead_does device).2.2 _ (by decide)) d
  rw [self]
  by_cases same : d = s.leadId
  · rw [if_pos same]
    obtain ⟨lead, is, but⟩ := s.setLead_does device
    exact ⟨lead, is, but, fun _ => rfl, fun other => absurd same other, fun other => absurd same other⟩
  · rw [if_neg same]
    by_cases own : s.isSelf d = true
    · rw [if_pos own]
      obtain ⟨lead, is, but⟩ := s.setLead_does device
      exact ⟨lead, is, but, fun e => absurd e same, fun _ _ => rfl, fun _ away => absurd own (by rw [away]; decide)⟩
    · rw [if_neg own]
      obtain ⟨lead, is, but⟩ := s.setLead_does device
      exact ⟨lead, is, but, fun e => absurd e same, fun _ here => absurd here own, fun _ _ => rfl⟩

/-! ### The statement -/

/-- Settles O38: each message and each phase of a change as the lemma about it says; what the lead sends goes through `Pkg.leadSend` and `Pkg.memMsg`. -/
theorem leadsCarryChangesThrough : Obligations.LeadsCarryChangesThrough := by
  intro s live
  refine ⟨fun x => ⟨fun typ asks hears lead member idle still => ?_, fun hears lead idle unprobed => ?_, fun m d t hears probed same => ?_,
      fun m r hears sent dst mid run => ⟨fun table => ?_, fun flip node => ?_, fun d j a mapupd change device => ?_⟩⟩,
    fun c rest tabs dt still todo lead member => ⟨fun t flipped early => ?_, fun due => ?_⟩,
    fun r run answered => ⟨fun table => ?_, fun d j t dt flip node flipped => ⟨fun early => ?_, fun due => ?_⟩⟩,
    fun dt => ⟨?_, fun m sent device type_ short => ⟨fun early => ?_, fun due => ?_⟩⟩, fun v => ?_⟩
  · -- JOIN and LEAVE
    rcases asks with rfl | rfl
    · exact State.run_to live (Pkg.leadAsk_queues hears lead member idle still)
    · exact State.run_to live (Pkg.leadAsk_queues hears lead member idle still)
  · -- LINKEV
    exact ⟨_, State.run_live _ live, Pkg.leadLinkev_does hears lead idle unprobed⟩
  · -- PROBE_ACK
    exact State.run_to live (Pkg.leadProbeAck_ends hears probed same)
  · -- DONE of the last TABLE
    exact State.run_to live (Pkg.leadDone_table hears sent dst mid run table)
  · -- DONE of the last FLIP
    exact State.run_to live (Pkg.leadDone_flip hears sent dst mid run flip node)
  · -- DONE of the last MAPUPD
    obtain ⟨y, done⟩ := Pkg.leadDone_mapupd hears sent dst mid run mapupd change device
    exact ⟨_, y, State.run_live _ live, done⟩
  · -- MEMBERSHIP_CHANGE_START within 1 ms of the flips
    refine State.runAt_to live (Pkg.changeStart_early (c := c) (rest := rest) (t := t) tabs ?_ ?_ ?_ early) <;> rw [Pkg.elapse_fab]
    exacts [still, todo, flipped]
  · -- MEMBERSHIP_CHANGE_START
    have gen : (s.pkg.elapse dt).rtGen (s.pkg.elapse dt).rtActive = s.pkg.rtGen s.pkg.rtActive := by
      have ctl := s.pkg.rd_elapse dt (fabBase + 8) (by decide)
      rw [Pkg.rtGen_of_rd ctl, Pkg.rtActive_of_rd ctl]
    have started := Pkg.changeStart_does (s := s.pkg.elapse dt) (c := c) (rest := rest) tabs (by rw [Pkg.elapse_fab, still]) (by rw [Pkg.elapse_fab, todo])
      ((s.pkg.rb_elapse dt _ _ (by decide)).trans lead) ((s.pkg.rf_elapse dt (by decide) ..).trans member) (by rw [Pkg.elapse_fab]; exact due)
    rw [gen, Pkg.elapse_fab, Pkg.audience_congr (s.pkg.inMap_elapse dt)] at started
    exact ⟨_, State.runAt_live live dt _, started⟩
  · -- LEAD_FLIP_PHASE
    exact ⟨_, State.run_live _ live, Pkg.flipPhase_does run table answered⟩
  · -- LEAD_MAPUPD_PHASE within 1 ms of the flips
    refine State.runAt_to live (Pkg.mapupdPhase_early (r := r) (t := t) ?_ node ?_ early) <;> rw [Pkg.elapse_fab]
    exacts [run, flipped]
  · -- LEAD_MAPUPD_PHASE
    have next := Pkg.mapupdPhase_does (s := s.pkg.elapse dt) (r := r) (t := t) (by rw [Pkg.elapse_fab, run]) node (by rw [Pkg.elapse_fab, flipped]) flip
      (by rw [Pkg.elapse_fab, answered]) due
    rw [Pkg.audience_congr (s.pkg.inMap_elapse dt)] at next
    exact ⟨_, State.runAt_live live dt _, next⟩
  · -- PROBE_TIMEOUT
    refine State.runAt_to live ?_
    unfold Pkg.probeTimeout
    rw [Pkg.elapse_fab]
  · -- MEMBERSHIP_RESEND within 100 µs
    exact ⟨_, State.runAt_live live dt _, Pkg.leadResend_early (by rw [Pkg.elapse_fab, sent]) early⟩
  · -- MEMBERSHIP_RESEND
    obtain ⟨y, resent⟩ := Pkg.leadResend_elapse_does dt sent device type_ short due
    exact ⟨_, y, State.runAt_live live dt _, resent⟩
  · -- FAB_LEAD_WRITE
    exact ⟨_, State.run_live _ live, s.pkg.leadWrite_does v⟩

end Sys2Proof.Machine
end

section
/-! ## Answers of the home agents (11_global_memory_membership R295, R297, R299) -/
namespace Sys2Proof.Machine

/-! ### Streams at the home -/

section
variable (s : Pkg) (d : Nat)

theorem Pkg.homeS_setHome_same (h : HomeStream) : (s.setHome d h).homeS d = h := Map.get_set_same ..

/-- A package alone acknowledges what it has performed. -/
theorem Pkg.ackExp_alone {s : Pkg} (alone : s.tdmState = 0) (d : Nat) : s.ackExp d = (s.homeS d).exp := by
  have unheld : (s.homeS d).cov.find? (fun c => s.paired && decide (c.2 > s.tdm.progress)) = none := by
    simp [Pkg.paired_off alone]
  unfold Pkg.ackExp
  dsimp only
  rw [unheld]

end

/-! ### Responses (R299) -/

/-- A response as it is sent. -/
def Pkg.respPkt (s : Pkg) (d tag seq status dfl : Nat) (data : FPkt) : FPkt :=
  s.mkPkt d 1 0 tag false (s.rtGen s.rtActive) (s.respBody d seq status dfl data)

/-- A device's home agent answers it: the packet, from slot 1 on the SEQ, the acknowledgement and the status. -/
def Pkg.Answers (p q : Pkg) (ej : List FPkt) (d seq exp status : Nat) (x : FPkt) : Prop :=
  p.Sent q ej x ∧ pkDst x = d ∧ pkClass x = 1 ∧ pk x 1 15 0 = seq ∧ pk x 1 35 20 = exp % 65536 ∧ (exp < 65536 → pk x 1 38 36 = status)

section
variable {s : Pkg} (alone : s.tdmState = 0)
include alone

/-- A package alone answers at once. -/
theorem Pkg.respond_alone (d tag seq status dfl : Nat) (data : FPkt) (g : Nat) (out : Bool) :
    s.respond d tag seq status dfl data g out = s.emitPkt (s.respPkt d tag seq status dfl data) (s.homeS d).port := by
  unfold Pkg.respond
  simp only [Pkg.replaying_off alone, Pkg.paired_off alone, Bool.and_false, Bool.false_eq_true, if_false]
  rfl

theorem Pkg.onlyPackets_respond (d tag seq status dfl : Nat) (data : FPkt) (g : Nat) (out : Bool) : s.OnlyPackets (s.respond d tag seq status dfl data g out) := by
  rw [Pkg.respond_alone alone]
  exact s.onlyPackets_emitPkt ..

theorem Pkg.answers_respond {p : Pkg} (self : s.rd fabBase = p.rd fabBase) (inj : s.fab.inj = p.fab.inj) {d seq status : Nat} (device : d < 2 ^ 15)
    (epoch : (s.homeS d).epoch < 16) (number : seq < 65536) (known : status < 8) (tag dfl : Nat) {data : FPkt} (short : data.length < 30) (g : Nat) (out : Bool) :
    p.Answers (s.respond d tag seq status dfl data g out) s.fab.ejq d seq (s.homeS d).exp status (s.respPkt d tag seq status dfl data) := by
  rw [Pkg.respond_alone alone]
  obtain ⟨dest, class_, -⟩ := s.mkPkt_header (cls := 1) (typ := 0) (body := s.respBody d seq status dfl data) device (by decide) (by decide) (s.rtGen_lt s.rtActive)
    (Nat.succ_lt_succ short) tag false
  have slot : (s.respPkt d tag seq status dfl data).getD 1 0#128
      = BitVec.ofNat 128 (seq + (s.homeS d).epoch * 2 ^ 16 + (s.homeS d).exp * 2 ^ 20 + status * 2 ^ 36 + dfl * 2 ^ 39) := by
    rw [← Pkg.ackExp_alone alone]
    rfl
  refine ⟨Pkg.sent_emitPkt self inj _ _, dest, class_, ?_, ?_, fun exp => ?_⟩
  · rw [pk, slot, BitVec.toNat_ofNat]
    omega
  · rw [pk, slot, BitVec.toNat_ofNat]
    omega
  · rw [pk, slot, BitVec.toNat_ofNat]
    omega

/-! ### Cumulative acknowledgements (R297) -/

/-- The home's state of a stream once it has acknowledged everything. -/
def HomeStream.acked (h : HomeStream) (now : Nat) : HomeStream := { h with acks := 0, ackAt := now, cov := [] }

theorem Pkg.cumAck_alone (d : Nat) : s.cumAck d = (s.setHome d ((s.homeS d).acked s.now)).respond d 0 (((s.homeS d).exp + 65535) % 65536) 0 0 [] 0 false := by
  have left : (s.homeS d).cov.filter (fun c => s.paired && decide (c.2 > s.tdm.progress)) = [] := by simp [Pkg.paired_off alone]
  have acked : (s.setHome d ((s.homeS d).acked s.now)).ackExp d = (s.homeS d).exp := by
    rw [Pkg.ackExp_alone (s := s.setHome d _) alone, Pkg.homeS_setHome_same]
    rfl
  rw [← acked]
  unfold Pkg.cumAck HomeStream.acked
  dsimp only
  rw [left, List.length_nil]

/-- What a cumulative acknowledgement leaves. -/
theorem Pkg.cumAck_keeps (d : Nat) : (s.setHome d ((s.homeS d).acked s.now)).OnlyPackets (s.cumAck d) := by
  rw [Pkg.cumAck_alone alone]
  exact Pkg.onlyPackets_respond (s := s.setHome d _) alone ..

theorem Pkg.homeS_cumAck (d : Nat) : (s.cumAck d).homeS d = (s.homeS d).acked s.now :=
  ((Pkg.cumAck_keeps alone d).homeS d).trans (s.homeS_setHome_same d _)

theorem Pkg.cumAck_answers {p : Pkg} (self : s.rd fabBase = p.rd fabBase) (inj : s.fab.inj = p.fab.inj) {d : Nat} (device : d < 2 ^ 15)
    (epoch : (s.homeS d).epoch < 16) :
    ∃ x, p.Sent (s.cumAck d) s.fab.ejq x ∧ pkDst x = d ∧ pkClass x = 1 ∧ pk x 1 35 20 = (s.homeS d).exp % 65536 := by
  have same := s.homeS_setHome_same d ((s.homeS d).acked s.now)
  obtain ⟨sent, dest, class_, -, exp, -⟩ := Pkg.answers_respond (s := s.setHome d ((s.homeS d).acked s.now)) (p := p) (status := 0) alone self inj device
    (by rw [same]; exact epoch) (seq := ((s.homeS d).exp + 65535) % 65536) (by omega) (by decide) 0 0 (data := []) (by decide) 0 false
  rw [same] at exp
  rw [Pkg.cumAck_alone alone]
  exact ⟨_, sent, dest, class_, exp⟩

end
end Sys2Proof.Machine
end

section
/-! ## The source's side of fabric streams (11_global_memory_membership R291, R294, R297, R298, R300 to R302) -/
namespace Sys2Proof.Machine

/-! ### Streams at the source -/

theorem Pkg.srcS_setSrc_same (s : Pkg) (d : Nat) (st : SrcStream) : (s.setSrc d st).srcS d = st := Map.get_set_same ..

theorem Pkg.srcS_setSrc_other (s : Pkg) {d e : Nat} (st : SrcStream) (other : e ≠ d) : (s.setSrc d st).srcS e = s.srcS e := Map.get_set_other _ _ _ _ _ other

theorem Pkg.srcS_updSrc_same (s : Pkg) (d : Nat) (f : SrcStream → SrcStream) : (s.updSrc d f).srcS d = f (s.srcS d) := s.srcS_setSrc_same d _

theorem Pkg.OnlyRegs.fab {p q : Pkg} (only : p.OnlyRegs q) : q.fab = p.fab := by rw [only]
theorem Pkg.OnlyRegs.threads {p q : Pkg} (only : p.OnlyRegs q) : q.threads = p.threads := by rw [only]

theorem Pkg.srcS_of_fab {p q : Pkg} (fab : q.fab = p.fab) (d : Nat) : q.srcS d = p.srcS d := by
  unfold Pkg.srcS
  rw [fab]

/-! ### Requests that are sent (R299, R301) -/

/-- A packet is for the device that it was made for, whatever its CLASS and TYPE. -/
theorem Pkg.pkDst_mkPkt (s : Pkg) {dst : Nat} (device : dst < 2 ^ 15) (cls typ tag gen : Nat) (rty : Bool) (body : List (BitVec 128)) :
    pkDst (s.mkPkt dst cls typ tag rty gen body) = dst := by
  have resent : (if rty = true then 2 ^ 63 else 0) = 0 ∨ (if rty = true then 2 ^ 63 else 0) = 2 ^ 63 := by cases rty <;> simp
  unfold pkDst Pkg.mkPkt pk
  simp only [List.getD_cons_zero, BitVec.toNat_ofNat]
  generalize s.nodeId = node at *
  generalize body.length = len at *
  generalize s.rdtime.toNat = time at *
  generalize (if rty = true then 2 ^ 63 else 0) = r at *
  omega

/-- An outstanding request as it is sent: on the other rail once a timeout has passed. -/
def Pkg.outPkt (s : Pkg) (d : Nat) (o : FOut) (rty : Bool) : FPkt :=
  if o.again then pkSet (s.mkPkt d o.cls o.typ o.tag rty (s.srcS d).gen o.body) 37 37 1 else s.mkPkt d o.cls o.typ o.tag rty (s.srcS d).gen o.body

section
variable (s : Pkg) (d : Nat) (o : FOut) (rty : Bool)

theorem Pkg.sendOut_eq : s.sendOut d o rty = s.emitPkt (s.outPkt d o rty) (o.who.entry o.pa) := rfl

theorem Pkg.onlyPackets_sendOut : s.OnlyPackets (s.sendOut d o rty) := s.onlyPackets_emitPkt ..

theorem Pkg.onlyPackets_resendFrom (l : List FOut) : s.OnlyPackets (s.resendFrom d l) :=
  foldl_keeps (s.OnlyPackets ·) _ (fun q o only => only.trans (q.onlyPackets_sendOut d o true)) l s (.refl s)

theorem Pkg.drop_outPkt : (s.outPkt d o rty).drop 1 = o.body := by
  unfold Pkg.outPkt
  split <;> rfl

theorem Pkg.rail_outPkt (again : o.again = true) : pk (s.outPkt d o rty) 0 37 37 = 1 := by
  rw [Pkg.outPkt, if_pos again]
  exact pk_pkSet_same _ _ (by decide) (by decide)

variable {d} in
theorem Pkg.pkDst_outPkt (device : d < 2 ^ 15) : pkDst (s.outPkt d o rty) = d := by
  unfold Pkg.outPkt
  split
  · exact (pkDst_otherRail _).trans (s.pkDst_mkPkt device ..)
  · exact s.pkDst_mkPkt device ..

end

/-! ### Requests that complete (R300) -/

/-- No entry of a thread goes on where none waits. -/
theorem Pkg.entGo_none {s : Pkg} {h : Nat} (idle : (s.thr h).ent = none) : s.entGo h = s := by
  unfold Pkg.entGo
  rw [idle]

/-- A node that is not LEAVING sends no LEAVE. -/
theorem Pkg.leaveCheck_stays {s : Pkg} (stays : s.mState ≠ 3) : s.leaveCheck = s := if_neg fun leaving => stays leaving.1

section
variable (s : Pkg) (h status pa : Nat)

theorem Pkg.onlyRegs_werr : s.OnlyRegs (s.werr h status pa) := by
  unfold Pkg.werr
  dsimp only
  split <;> rfl

theorem Pkg.rd_werr {o : Nat} (below : o < fabBase + 0x180000) : (s.werr h status pa).rd o = s.rd o := by
  have field : o ≠ fabBase + 0x180000 + 0x10 * h := Nat.ne_of_lt (Nat.lt_add_right _ below)
  have address : o ≠ fabBase + 0x180000 + 0x10 * h + 8 := Nat.ne_of_lt (Nat.lt_add_right _ (Nat.lt_add_right _ below))
  unfold Pkg.werr
  dsimp only
  split
  · exact Pkg.rd_sat_other _ _ _ _ _ _ field
  · rw [Pkg.rd_wr_other _ _ _ _ address, Pkg.rd_wf_other _ _ _ _ _ _ field, Pkg.rd_wb_other _ _ _ _ _ field]

/-- The registers that a store given up to an absent node leaves (R300). -/
def Pkg.absentStore (s : Pkg) (h pa : Nat) : Pkg := (s.sat (fabBase + 0x138) 31 16).werr h 7 pa

theorem Pkg.onlyRegs_absentStore : s.OnlyRegs (s.absentStore h pa) := (s.sat (fabBase + 0x138) 31 16).onlyRegs_werr h 7 pa

theorem Pkg.mState_absentStore : (s.absentStore h pa).mState = s.mState := by
  have same : (s.absentStore h pa).rd mstat = s.rd mstat :=
    (Pkg.rd_werr _ _ _ _ (by decide)).trans (Pkg.rd_sat_other _ _ _ _ _ _ (by decide))
  unfold Pkg.mState Pkg.rf
  rw [same]

variable {s h}

/-- A store that completes leaves nothing but a thread's way out of an entry. -/
theorem Pkg.reqDone_store (idle : (s.thr h).ent = none) (n data dfl : Nat) : s.reqDone (.store h) pa n 0 data dfl = s := Pkg.entGo_none idle

theorem Pkg.reqDone_store_absent (idle : (s.thr h).ent = none) (n data dfl : Nat) : s.reqDone (.store h) pa n 7 data dfl = s.absentStore h pa :=
  Pkg.entGo_none (s := s.absentStore h pa) (by rw [Pkg.thr_of_eq (s.onlyRegs_absentStore h pa).threads]; exact idle)

end

/-- FAB_SEND of thread h shows the end of its message. -/
def Pkg.sendDone (s : Pkg) (h status : Nat) : Pkg := (((s.wb (sendStat h) 0 false).wb (sendStat h) 1 true).wf (sendStat h) 5 3 (sendResult status))

section
variable (s : Pkg) (h : Nat) {status : Nat}

theorem Pkg.reqDone_msg (present : status ≠ 7) (pa n data dfl : Nat) : s.reqDone (.msg h) pa n status data dfl = s.sendDone h status := by
  unfold Pkg.reqDone
  rw [if_neg present]
  rfl

theorem sendResult_lt (status : Nat) : sendResult status < 8 := by
  unfold sendResult
  split <;> decide

theorem Pkg.onlyRegs_sendDone (status : Nat) : s.OnlyRegs (s.sendDone h status) :=
  (((Pkg.OnlyRegs.refl s).wr _ _).wr _ _).wr _ _

/-- What the end of a message shows. -/
theorem Pkg.sendDone_shows : (s.sendDone h status).rb (sendStat h) 0 = false ∧ (s.sendDone h status).rb (sendStat h) 1 = true
    ∧ (s.sendDone h status).rf (sendStat h) 5 3 = sendResult status ∧ s.DrsBut (s.sendDone h status) [sendStat h] := by
  have flags (i : Nat) (low : i < 3) : (s.sendDone h status).rb (sendStat h) i = ((s.wb (sendStat h) 0 false).wb (sendStat h) 1 true).rb (sendStat h) i := by
    rw [Pkg.rb, Pkg.sendDone, Pkg.rd_wf_same, setBits_getLsbD _ _ _ _ _ (by omega), if_neg (by omega)]
    rfl
  refine ⟨?_, ?_, ?_, (((Pkg.DrsBut.refl s _).wb (List.mem_singleton_self _) 0 false).wb (List.mem_singleton_self _) 1 true).wf (List.mem_singleton_self _) 5 3 _⟩
  · rw [flags 0 (by decide), Pkg.rb_wb_otherBit _ _ _ (by decide) (by decide)]
    exact Pkg.rb_wb_same _ _ _ _ (by decide)
  · rw [flags 1 (by decide)]
    exact Pkg.rb_wb_same _ _ _ _ (by decide)
  · exact (Pkg.rf_wf_same _ _ _ _ _ (by decide) (by decide)).trans (Nat.mod_eq_of_lt (sendResult_lt status))

end

/-! ### GLOBAL_REQUEST_INJECT (R291, R298) -/

/-- A request as it becomes outstanding at the end of its stream. -/
def Pkg.newOut (s : Pkg) (d : Nat) (r : GReq) : FOut :=
  let st := s.srcS d
  let low := match st.out.head? with | some o => o.seq | none => st.next
  ⟨st.next, r.kind.typ, r.kind.cls, freeTag s.trackersUsed, r.body st.next st.epoch low, r.who, r.pa, r.n, some s.now, false⟩

/-- The package once the oldest global access is outstanding in its stream. -/
def Pkg.taken (s : Pkg) (d : Nat) (r : GReq) (rest : List GReq) : Pkg :=
  let st := s.srcS d
  ({ s with fab := { s.fab with gq := rest } }).setSrc d { st with
    next := (st.next + 1) % 65536, out := st.out ++ [s.newOut d r], idle := none, gen := if st.out.isEmpty then s.rtGen s.rtActive else st.gen }

theorem Pkg.srcS_taken (s : Pkg) (d : Nat) (r : GReq) (rest : List GReq) : (s.taken d r rest).srcS d =
    { s.srcS d with next := ((s.srcS d).next + 1) % 65536, out := (s.srcS d).out ++ [s.newOut d r], idle := none
                    gen := if (s.srcS d).out.isEmpty then s.rtGen s.rtActive else (s.srcS d).gen } := Pkg.srcS_setSrc_same ..

/-- Without Shimmy a request is injected and no more (19 R461). -/
theorem Pkg.injectReq_off {s : Pkg} {d : Nat} (off : (s.globalInject d).shm.on = false) : s.injectReq d = s.globalInject d := by
  have ask : (s.globalInject d).shmAsk 6 (fun t => t % 4 == 2) = (s.globalInject d, []) := by simp [Pkg.shmAsk, off]
  unfold Pkg.injectReq
  dsimp only
  rw [ask]
  exact ite_self _

section
variable {s : Pkg} {d : Nat} {r : GReq} {rest : List GReq} (alone : s.tdmState = 0) (queue : s.fab.gq = r :: rest) (dst : r.dst = d)
include alone queue dst

theorem Pkg.globalInject_absent (out : s.inMap d = false) :
    s.globalInject d = ({ s with fab := { s.fab with gq := rest } } : Pkg).reqDone r.who r.pa r.n 7 0 0 := by
  have first : s.fab.gq.findIdx? (fun r => r.dst == d) = some 0 := by simp [queue, List.findIdx?_cons, dst]
  unfold Pkg.globalInject
  rw [first]
  simp only [Pkg.replaying_off alone, out, queue, List.getD_cons_zero, List.eraseIdx_cons_zero, Bool.not_false, Bool.false_eq_true, if_false, if_true]

theorem Pkg.globalInject_full (in_ : s.inMap d = true) (full : s.streamRoom d r = false) : s.globalInject d = s := by
  have first : s.fab.gq.findIdx? (fun r => r.dst == d) = some 0 := by simp [queue, List.findIdx?_cons, dst]
  unfold Pkg.globalInject
  rw [first]
  simp only [Pkg.replaying_off alone, in_, queue, full, List.getD_cons_zero, Bool.not_true, Bool.not_false, Bool.false_eq_true, if_false, if_true]

theorem Pkg.globalInject_room (in_ : s.inMap d = true) (room : s.streamRoom d r = true) :
    s.globalInject d = (s.taken d r rest).sendOut d (s.newOut d r) false := by
  have first : s.fab.gq.findIdx? (fun r => r.dst == d) = some 0 := by simp [queue, List.findIdx?_cons, dst]
  unfold Pkg.globalInject
  rw [first]
  simp only [Pkg.replaying_off alone, Pkg.paired_off alone, in_, queue, room, List.getD_cons_zero, List.eraseIdx_cons_zero, Bool.not_true, Bool.false_and,
    Bool.false_eq_true, if_false]
  rfl

end

/-- What a request that finds room leaves. -/
theorem Pkg.taken_sent (s : Pkg) {d : Nat} (device : d < 2 ^ 15) (r : GReq) (rest : List GReq) :
    ∃ x, ((s.taken d r rest).sendOut d (s.newOut d r) false).fab.gq = rest
      ∧ ((s.taken d r rest).sendOut d (s.newOut d r) false).srcS d = (s.taken d r rest).srcS d
      ∧ s.Sent ((s.taken d r rest).sendOut d (s.newOut d r) false) s.fab.ejq x ∧ pkDst x = d ∧ x.drop 1 = (s.newOut d r).body
      ∧ (∀ e, e ≠ d → ((s.taken d r rest).sendOut d (s.newOut d r) false).srcS e = s.srcS e)
      ∧ ((s.taken d r rest).sendOut d (s.newOut d r) false).drs = s.drs ∧ ((s.taken d r rest).sendOut d (s.newOut d r) false).threads = s.threads := by
  have only := (s.taken d r rest).onlyPackets_sendOut d (s.newOut d r) false
  exact ⟨_, by rw [only]; rfl, only.srcS d, Pkg.sent_emitPkt (s := s.taken d r rest) rfl rfl _ _, (s.taken d r rest).pkDst_outPkt _ _ device, (s.taken d r rest).drop_outPkt ..,
    fun e other => (only.srcS e).trans (Pkg.srcS_setSrc_other _ _ other), only.drs, only.threads⟩

/-! ### FAB_RESPONSE (R295, R297, R300) -/

/-- A stream's outstanding requests that satisfy `q` are taken out. -/
def SrcStream.settled (st : SrcStream) (q : FOut → Bool) (now : Nat) : SrcStream :=
  { st with out := st.out.filter (fun o => !q o), idle := if st.out.all q && !st.out.isEmpty then some now else st.idle }

theorem Pkg.finish_eq (s : Pkg) (d : Nat) (q : FOut → Bool) (status : Nat) : s.finish d q status =
    (((s.srcS d).out.filter q).foldl (fun s o => s.reqDone o.who o.pa o.n status 0 0) (s.setSrc d ((s.srcS d).settled q s.now))).leaveCheck := rfl

section
variable {s : Pkg} {d : Nat} {o : FOut} {q : FOut → Bool}

theorem SrcStream.settled_none {st : SrcStream} (out : st.out = [o]) (keeps : q o = false) (now : Nat) : st.settled q now = st := by
  obtain ⟨next, epoch, l, gen, busy, idle⟩ := st
  cases out
  simp [SrcStream.settled, keeps]

/-- Nothing completes. -/
theorem Pkg.finish_none (stays : s.mState ≠ 3) (out : (s.srcS d).out = [o]) (keeps : q o = false) (status : Nat) :
    s.finish d q status = s.setSrc d (s.srcS d) := by
  rw [Pkg.finish_eq, SrcStream.settled_none out keeps, out, List.filter_singleton, keeps]
  exact Pkg.leaveCheck_stays (s := s.setSrc d _) stays

/-- The only outstanding request completes. -/
theorem Pkg.finish_one (out : (s.srcS d).out = [o]) (takes : q o = true) (status : Nat) :
    s.finish d q status = ((s.setSrc d ((s.srcS d).settled q s.now)).reqDone o.who o.pa o.n status 0 0).leaveCheck := by
  rw [Pkg.finish_eq, out, List.filter_singleton, takes]
  rfl

theorem SrcStream.settled_out {st : SrcStream} (out : st.out = [o]) (takes : q o = true) (now : Nat) : (st.settled q now).out = [] := by
  unfold SrcStream.settled
  rw [out]
  simp [takes]

end

/-- The outstanding requests that a response acknowledges (R297): the writes and flushes below EXP, but for one that it answers with an error. -/
def acknowledges (p : FPkt) (o : FOut) : Bool :=
  (o.cls == 0 && (o.typ == 1 || o.typ == 3)) && seqBelow o.seq (pk p 1 35 20) && !(o.seq == pk p 1 15 0 && decide (pk p 1 38 36 ≥ 2))

/-- What a response does beyond its acknowledgement. -/
def Pkg.answered (s : Pkg) (p : FPkt) : Pkg :=
  let d := pkSrc p
  let seq := pk p 1 15 0
  let status := pk p 1 38 36
  match (s.srcS d).out.find? (·.seq == seq) with
  | none => s
  | some o =>
    if status = 4 then
      s.updSrc d (fun st => { st with busy := some (seq, s.now), out := st.out.map (fun o => { o with t := o.t.map (fun _ => s.now) }) })
    else if o.cls = 0 ∧ (o.typ = 1 ∨ o.typ = 3) ∧ status < 2 then s
    else
      let x := slotsNat (p.drop 2)
      let x := if o.cls = 0 ∧ o.typ = 0 then x / 256 ^ (o.pa % 8) else x
      let l := (s.srcS d).out.filter (·.seq != seq)
      let s := s.updSrc d (fun st => { st with out := l, idle := if l.isEmpty then some s.now else st.idle })
      (s.reqDone o.who o.pa o.n status x (pk p 1 43 39)).leaveCheck

section
variable {s : Pkg} {p : FPkt} {o : FOut}

theorem Pkg.response_otherEpoch (other : pk p 1 19 16 ≠ (s.srcS (pkSrc p)).epoch) : s.response p = s := if_pos other

theorem Pkg.response_epoch (epoch : pk p 1 19 16 = (s.srcS (pkSrc p)).epoch) : s.response p = (s.finish (pkSrc p) (acknowledges p) 0).answered p :=
  if_neg (not_not_intro epoch)

/-- A response acknowledges the only write that is outstanding. -/
theorem Pkg.response_write {h : Nat} (stays : s.mState ≠ 3) (epoch : pk p 1 19 16 = (s.srcS (pkSrc p)).epoch) (out : (s.srcS (pkSrc p)).out = [o])
    (who : o.who = .store h) (acked : acknowledges p o = true) (idle : (s.thr h).ent = none) :
    s.response p = s.setSrc (pkSrc p) ((s.srcS (pkSrc p)).settled (acknowledges p) s.now) := by
  have done : s.finish (pkSrc p) (acknowledges p) 0 = s.setSrc (pkSrc p) ((s.srcS (pkSrc p)).settled (acknowledges p) s.now) := by
    rw [Pkg.finish_one out acked, who, Pkg.reqDone_store (s := s.setSrc _ _) (h := h) _ idle, Pkg.leaveCheck_stays (s := s.setSrc _ _) stays]
  rw [Pkg.response_epoch epoch, done]
  unfold Pkg.answered
  dsimp only
  rw [Pkg.srcS_setSrc_same, SrcStream.settled_out out acked]
  rfl

/-- The package once the answer to its only outstanding request has been taken out of the stream. -/
def Pkg.emptied (s : Pkg) (d : Nat) : Pkg := s.updSrc d (fun st => { st with out := [], idle := some s.now })

/-- A response answers the only message that is outstanding. -/
theorem Pkg.response_msg {h : Nat} (stays : s.mState ≠ 3) (epoch : pk p 1 19 16 = (s.srcS (pkSrc p)).epoch) (out : (s.srcS (pkSrc p)).out = [o])
    (cls : o.cls = 2) (who : o.who = .msg h) (seq : pk p 1 15 0 = o.seq) (taken : pk p 1 38 36 ≠ 4) (present : pk p 1 38 36 ≠ 7) :
    s.response p = ((s.setSrc (pkSrc p) (s.srcS (pkSrc p))).emptied (pkSrc p)).sendDone h (pk p 1 38 36) := by
  have unacked : acknowledges p o = false := by simp [acknowledges, cls]
  rw [Pkg.response_epoch epoch, Pkg.finish_none stays out unacked]
  generalize hs : s.setSrc (pkSrc p) (s.srcS (pkSrc p)) = w
  have stays' : w.mState ≠ 3 := by
    rw [← hs]
    exact stays
  have out' : (w.srcS (pkSrc p)).out = [o] := by
    rw [← hs, Pkg.srcS_setSrc_same, out]
  have found : [o].find? (·.seq == pk p 1 15 0) = some o := by simp [seq]
  have gone : [o].filter (·.seq != pk p 1 15 0) = [] := by simp [seq]
  have shown : ((w.emptied (pkSrc p)).sendDone h (pk p 1 38 36)).mState = w.mState := by
    have other : mstat ≠ sendStat h := by
      unfold mstat sendStat
      omega
    unfold Pkg.mState Pkg.rf
    rw [((w.emptied (pkSrc p)).sendDone_shows h).2.2.2 mstat (by simpa using other)]
    rfl
  unfold Pkg.answered
  dsimp only
  rw [out', found]
  dsimp only
  rw [if_neg taken, if_neg (by omega), gone, who, Pkg.reqDone_msg _ _ present]
  exact Pkg.leaveCheck_stays (by rw [← shown] at stays'; exact stays')

/-- What a response to the only message leaves: FAB_SEND shows its end. -/
theorem Pkg.response_msg_does {h : Nat} (stays : s.mState ≠ 3) (epoch : pk p 1 19 16 = (s.srcS (pkSrc p)).epoch) (out : (s.srcS (pkSrc p)).out = [o])
    (cls : o.cls = 2) (who : o.who = .msg h) (seq : pk p 1 15 0 = o.seq) (taken : pk p 1 38 36 ≠ 4) (present : pk p 1 38 36 ≠ 7) :
    ((s.response p).srcS (pkSrc p)).out = [] ∧ (s.response p).rb (sendStat h) 0 = false ∧ (s.response p).rb (sendStat h) 1 = true
      ∧ (s.response p).rf (sendStat h) 5 3 = sendResult (pk p 1 38 36) ∧ s.DrsBut (s.response p) [sendStat h] ∧ (s.response p).threads = s.threads := by
  rw [Pkg.response_msg stays epoch out cls who seq taken present]
  have drs : ((s.setSrc (pkSrc p) (s.srcS (pkSrc p))).emptied (pkSrc p)).drs = s.drs := rfl
  have threads : ((s.setSrc (pkSrc p) (s.srcS (pkSrc p))).emptied (pkSrc p)).threads = s.threads := rfl
  have stream : (((s.setSrc (pkSrc p) (s.srcS (pkSrc p))).emptied (pkSrc p)).srcS (pkSrc p)).out = [] := by rw [Pkg.emptied, Pkg.srcS_updSrc_same]
  generalize (s.setSrc (pkSrc p) (s.srcS (pkSrc p))).emptied (pkSrc p) = w at *
  obtain ⟨running, done, result, but⟩ := w.sendDone_shows h (status := pk p 1 38 36)
  have only := w.onlyRegs_sendDone h (pk p 1 38 36)
  exact ⟨(congrArg SrcStream.out (Pkg.srcS_of_fab only.fab _)).trans stream, running, done, result, fun k other => (but k other).trans (Pkg.rd_of_drs drs k),
    only.threads.trans threads⟩

theorem Pkg.ejq_unqueue_first (s : Pkg) : (s.unqueue 0).fab.ejq = s.fab.ejq.drop 1 := List.eraseIdx_zero.trans List.drop_one.symm

theorem Pkg.fabResponse_first (home : s.homeLive = true) (first : s.ejected 1 0 = some (0, p)) : s.fabResponse = (s.unqueue 0).response p := by
  unfold Pkg.fabResponse
  rw [first]
  exact if_pos home

end
end Sys2Proof.Machine
end

section
/-! ## Timeouts of fabric streams, FAB_SEND and the receive queues' CFG (11_global_memory_membership R297, R301, R302) -/
namespace Sys2Proof.Machine

/-! ### The first timeout (R301) -/

/-- A request that is sent again after a timeout. -/
def FOut.retried (o : FOut) (now : Nat) : FOut := { o with again := true, t := o.t.map (fun _ => now) }

/-- The package once a stream's outstanding requests are marked for the other rail, and the timeout is counted. -/
def Pkg.retried (s : Pkg) (d : Nat) : Pkg := (s.sat (fabBase + 0x138) 15 0).updSrc d (fun st => { st with out := st.out.map (·.retried s.now) })

section
variable (s : Pkg) (d : Nat)

theorem Pkg.resendNow_eq : s.resendNow d = (s.retried d).resendFrom d (((s.retried d).srcS d).out.filter (·.t.isSome)) := rfl

theorem Pkg.out_retried : ((s.retried d).srcS d).out = (s.srcS d).out.map (·.retried s.now) := by
  rw [Pkg.retried, Pkg.srcS_updSrc_same]
  rfl

/-- What the first timeout leaves. -/
theorem Pkg.resendNow_does : ((s.resendNow d).srcS d).out = (s.srcS d).out.map (·.retried s.now)
    ∧ (s.resendNow d).rf (fabBase + 0x138) 15 0 = min (s.rf (fabBase + 0x138) 15 0 + 1) 65535 ∧ (s.resendNow d).threads = s.threads := by
  have only := (s.retried d).onlyPackets_resendFrom d (((s.retried d).srcS d).out.filter (·.t.isSome))
  rw [← Pkg.resendNow_eq] at only
  refine ⟨(congrArg SrcStream.out (only.srcS d)).trans (s.out_retried d), ?_, only.threads⟩
  exact (Pkg.rf_of_drs only.drs ..).trans (s.rf_sat_same _ 1 (by decide) (by decide))

variable {s d} in
/-- The only outstanding request is sent again on the other rail. -/
theorem Pkg.resendNow_sends (device : d < 2 ^ 15) {o : FOut} {t : Nat} (out : (s.srcS d).out = [o]) (sent : o.t = some t) :
    ∃ x, s.Sent (s.resendNow d) s.fab.ejq x ∧ pkDst x = d ∧ x.drop 1 = o.body ∧ pk x 0 37 37 = 1 := by
  have again : ((s.retried d).srcS d).out.filter (·.t.isSome) = [o.retried s.now] := by
    rw [Pkg.out_retried, out]
    simp [FOut.retried, sent]
  rw [Pkg.resendNow_eq, again]
  have self : (s.retried d).rd fabBase = s.rd fabBase := Pkg.rd_sat_other _ _ _ _ _ _ (by decide)
  exact ⟨_, Pkg.sent_emitPkt (s := s.retried d) self rfl ((s.retried d).outPkt d (o.retried s.now) true) _, (s.retried d).pkDst_outPkt _ _ device,
    (s.retried d).drop_outPkt .., (s.retried d).rail_outPkt _ _ _ rfl⟩

end

section
variable {s : Pkg} {d t : Nat} {o : FOut} {rest : List FOut} (out : (s.srcS d).out = o :: rest) (sent : o.t = some t)
include out sent

theorem Pkg.resendTimeout_due (first : o.again = false) (due : t + fabWait ≤ s.now) : s.resendTimeout d = s.resendNow d := by
  have due' : s.now ≥ t + fabWait := due
  unfold Pkg.resendTimeout
  rw [out]
  simp [sent, first, due']

theorem Pkg.resendTimeout_early (early : s.now < t + fabWait) : s.resendTimeout d = s := by
  have undue : ¬ s.now ≥ t + fabWait := by omega
  unfold Pkg.resendTimeout
  rw [out]
  simp [sent, undue]

/-! ### The second timeout (R301) -/

theorem Pkg.absentTimeout_due (second : o.again = true) (due : t + fabWait ≤ s.now) : s.absentTimeout d = s.streamLost d := by
  have due' : s.now ≥ t + fabWait := due
  unfold Pkg.absentTimeout
  rw [out]
  simp [sent, second, due']

theorem Pkg.absentTimeout_early (early : s.now < t + fabWait) : s.absentTimeout d = s := by
  have undue : ¬ s.now ≥ t + fabWait := by omega
  unfold Pkg.absentTimeout
  rw [out]
  simp [sent, undue]

end

/-- A stream that starts again at the next EPOCH. -/
def SrcStream.restarted (st : SrcStream) : SrcStream := { st with epoch := (st.epoch + 1) % 16, next := 0, busy := none }

/-- The registers that a store's loss writes follow from the registers before it. -/
theorem Pkg.drs_absentStore_congr {p q : Pkg} (h pa : Nat) (drs : q.drs = p.drs) : (q.absentStore h pa).drs = (p.absentStore h pa).drs := by
  have counted : (q.sat (fabBase + 0x138) 31 16).drs = (p.sat (fabBase + 0x138) 31 16).drs := by
    simp only [Pkg.sat, Pkg.wf, Pkg.wr, Pkg.rf, Pkg.rd, drs]
  unfold Pkg.absentStore Pkg.werr
  dsimp only
  rw [Pkg.rb_of_drs counted]
  generalize q.sat (fabBase + 0x138) 31 16 = q' at *
  generalize p.sat (fabBase + 0x138) 31 16 = p' at *
  split
  · simp only [Pkg.sat, Pkg.wf, Pkg.wr, Pkg.rf, Pkg.rd, counted]
  · simp only [Pkg.wb, Pkg.wf, Pkg.wr, Pkg.rd, counted]

/-- The only outstanding request of a stream is a store, and its node is absent. -/
theorem Pkg.finish_store_absent {s : Pkg} {d h : Nat} {o : FOut} (stays : s.mState ≠ 3) (out : (s.srcS d).out = [o]) (who : o.who = .store h)
    (idle : (s.thr h).ent = none) :
    s.finish d (fun _ => true) 7 = (s.setSrc d ((s.srcS d).settled (fun _ => true) s.now)).absentStore h o.pa := by
  have still : ((s.setSrc d ((s.srcS d).settled (fun _ => true) s.now)).thr h).ent = none := idle
  have member : (s.setSrc d ((s.srcS d).settled (fun _ => true) s.now)).mState ≠ 3 := stays
  rw [Pkg.finish_one out rfl, who, Pkg.reqDone_store_absent _ still]
  exact Pkg.leaveCheck_stays (by rwa [Pkg.mState_absentStore])

/-- A stream starts again. -/
def Pkg.restarted (s : Pkg) (d : Nat) : Pkg := s.setSrc d (s.srcS d).restarted

theorem Pkg.streamLost_eq (s : Pkg) (d : Nat) : s.streamLost d = (s.restarted d).finish d (fun _ => true) 7 := rfl

/-- A stream whose only outstanding request is a store is given up: the store's node is absent, and the stream starts again. -/
theorem Pkg.streamLost_store_does {s : Pkg} {d h : Nat} {o : FOut} (stays : s.mState ≠ 3) (out : (s.srcS d).out = [o]) (who : o.who = .store h)
    (idle : (s.thr h).ent = none) :
    ((s.streamLost d).srcS d).out = [] ∧ ((s.streamLost d).srcS d).epoch = ((s.srcS d).epoch + 1) % 16 ∧ ((s.streamLost d).srcS d).next = 0
      ∧ (s.streamLost d).drs = (s.absentStore h o.pa).drs ∧ (s.streamLost d).threads = s.threads := by
  have restarted : (s.restarted d).srcS d = (s.srcS d).restarted := s.srcS_setSrc_same d _
  have out' : ((s.restarted d).srcS d).out = [o] := by
    rw [restarted]
    exact out
  rw [Pkg.streamLost_eq, Pkg.finish_store_absent (s := s.restarted d) stays out' who idle, restarted]
  have only := ((s.restarted d).setSrc d ((s.srcS d).restarted.settled (fun _ => true) (s.restarted d).now)).onlyRegs_absentStore h o.pa
  have drs : ((s.restarted d).setSrc d ((s.srcS d).restarted.settled (fun _ => true) (s.restarted d).now)).drs = s.drs := rfl
  rw [Pkg.srcS_of_fab only.fab d, Pkg.srcS_setSrc_same]
  exact ⟨SrcStream.settled_out (st := (s.srcS d).restarted) out rfl _, rfl, rfl, Pkg.drs_absentStore_congr h o.pa drs, only.threads⟩

/-! ### BUSY (R301) and RELEASE (R297) -/

section
variable {s : Pkg} {d t : Nat}

theorem Pkg.busyResend_early {z : Nat} (busy : (s.srcS d).busy = some (z, t)) (early : s.now < t + 2000000) : s.busyResend d = s := by
  unfold Pkg.busyResend
  rw [busy]
  exact if_pos early

/-- The wait after a BUSY ends. -/
theorem Pkg.busyResend_does {z : Nat} (busy : (s.srcS d).busy = some (z, t)) (due : t + 2000000 ≤ s.now) :
    (s.busyResend d).srcS d = { s.srcS d with busy := none } ∧ (s.busyResend d).drs = s.drs ∧ (s.busyResend d).threads = s.threads := by
  have only : (s.setSrc d { s.srcS d with busy := none }).OnlyPackets (s.busyResend d) := by
    unfold Pkg.busyResend
    rw [busy]
    dsimp only
    rw [if_neg (by omega)]
    exact Pkg.onlyPackets_resendFrom ..
  exact ⟨(only.srcS d).trans (s.srcS_setSrc_same d _), only.drs, only.threads⟩

theorem Pkg.idleRelease_early (idle : (s.srcS d).idle = some t) (early : s.now < t + 100000000) : s.idleRelease d = s := by
  unfold Pkg.idleRelease
  rw [idle]
  exact if_pos (Or.inl early)

/-- The RELEASE of a stream. -/
def Pkg.releasePkt (s : Pkg) (d : Nat) : FPkt :=
  s.mkPkt d 0 4 0 false (s.rtGen s.rtActive) [reqSlot (s.srcS d).next (s.srcS d).epoch (s.srcS d).next true 0 0 0 0 0 0]

theorem Pkg.idleRelease_due (alone : s.tdmState = 0) (idle : (s.srcS d).idle = some t) (due : t + 100000000 ≤ s.now) :
    s.idleRelease d = (s.setSrc d { s.srcS d with idle := none }).emitPkt (s.releasePkt d) := by
  unfold Pkg.idleRelease
  rw [idle]
  exact if_neg (by simp only [Pkg.replaying_off alone, Bool.false_eq_true, or_false]; omega)

/-- What a RELEASE leaves at its source. -/
theorem Pkg.idleRelease_does {p : Pkg} (self : s.rd fabBase = p.rd fabBase) (inj : s.fab.inj = p.fab.inj) (device : d < 2 ^ 15) (alone : s.tdmState = 0)
    (idle : (s.srcS d).idle = some t) (due : t + 100000000 ≤ s.now) :
    ∃ x, (s.idleRelease d).srcS d = { s.srcS d with idle := none } ∧ p.Sent (s.idleRelease d) s.fab.ejq x ∧ pkDst x = d ∧ pkClass x = 0 ∧ pkType x = 4
      ∧ (s.idleRelease d).drs = s.drs := by
  rw [Pkg.idleRelease_due alone idle due]
  have only := (s.setSrc d { s.srcS d with idle := none }).onlyPackets_emitPkt (s.releasePkt d) 5
  obtain ⟨dest, class_, kind⟩ := s.mkPkt_header (cls := 0) (typ := 4)
    (body := [reqSlot (s.srcS d).next (s.srcS d).epoch (s.srcS d).next true 0 0 0 0 0 0]) device (by decide) (by decide) (s.rtGen_lt s.rtActive) (by simp) 0 false
  exact ⟨_, (only.srcS d).trans (s.srcS_setSrc_same d _), Pkg.sent_emitPkt (s := s.setSrc d _) self inj (s.releasePkt d) 5, dest, class_, kind, only.drs⟩

end

/-! ### Acknowledgements that are due (R297) -/

theorem Pkg.homeLive_elapse (s : Pkg) (dt : Nat) : (s.elapse dt).homeLive = s.homeLive := by
  have mode : (s.elapse dt).fabMode = s.fabMode := s.rf_elapse dt (by decide) ..
  unfold Pkg.homeLive
  rw [mode, s.elapse_tdm, s.tdmState_elapse]

theorem Pkg.srcS_elapse (s : Pkg) (dt d : Nat) : (s.elapse dt).srcS d = s.srcS d := Pkg.srcS_of_fab (s.elapse_fab dt) d

theorem Pkg.homeS_elapse (s : Pkg) (dt d : Nat) : (s.elapse dt).homeS d = s.homeS d := by
  unfold Pkg.homeS
  rw [s.elapse_fab]

theorem Pkg.ackDue_due {s : Pkg} {d : Nat} (home : s.homeLive = true) (some_ : 0 < (s.homeS d).acks) (due : 16 ≤ (s.homeS d).acks ∨ (s.homeS d).ackAt + 1000000 ≤ s.now) :
    s.ackDue d = s.cumAck d := if_pos (by simp [home, some_, due])

theorem Pkg.ackDue_early {s : Pkg} {d : Nat} (undue : (s.homeS d).acks = 0 ∨ ((s.homeS d).acks < 16 ∧ s.now < (s.homeS d).ackAt + 1000000)) : s.ackDue d = s := by
  refine if_neg ?_
  simp only [Bool.and_eq_true, Bool.or_eq_true, decide_eq_true_eq]
  omega

/-! ### FAB_SEND (R302) -/

/-- The number that 64-bit digits make, least significant first, has these digits. -/
theorem foldr_digit {α : Type} (f : α → Nat) (small : ∀ a, f a < 2 ^ 64) (l : List α) {i : Nat} (digit : i < l.length) :
    l.foldr (fun a x => f a + x * 2 ^ 64) 0 / 2 ^ (64 * i) % 2 ^ 64 = f l[i] := by
  induction l generalizing i with
  | nil => simp at digit
  | cons a l ih =>
    have low := small a
    rw [List.foldr_cons]
    cases i with
    | zero =>
      rw [Nat.mul_zero, Nat.pow_zero, Nat.div_one, Nat.add_mul_mod_self_right]
      exact Nat.mod_eq_of_lt low
    | succ i =>
      rw [Nat.mul_succ, Nat.add_comm (64 * i), Nat.pow_add, ← Nat.div_div_eq_div_mul, Nat.add_mul_div_right _ _ (by decide), Nat.div_eq_of_lt low, Nat.zero_add]
      exact ih (by simpa using digit)

/-- The message in FAB_SEND of thread h, as one number. -/
def Pkg.sendData (s : Pkg) (h : Nat) : Nat := (List.range 8).foldr (fun k a => (s.rd (fabBase + 0x100000 + 0x80 * h + 8 * k)).toNat + a * 2 ^ 64) 0

theorem Pkg.sendData_digit (s : Pkg) (h : Nat) {k : Nat} (word : k < 8) :
    s.sendData h / 2 ^ (64 * k) % 2 ^ 64 = (s.rd (fabBase + 0x100000 + 0x80 * h + 8 * k)).toNat := by
  have digit := foldr_digit (fun k => (s.rd (fabBase + 0x100000 + 0x80 * h + 8 * k)).toNat) (fun _ => BitVec.isLt _) (List.range 8) (i := k) (by simpa using word)
  rwa [List.getElem_range] at digit

/-- The request of a message. -/
def Pkg.sendReq (s : Pkg) (h : Nat) (v : Word) : GReq :=
  { kind := .msg, pa := 2 ^ 57 + bits v 14 0 * 2 ^ 42, n := 64, data := s.sendData h, op := bits v 20 15, who := .msg h, gsn := s.tdm.gsn + 1 }

theorem Pkg.dst_sendReq (s : Pkg) (h : Nat) (v : Word) : (s.sendReq h v).dst = bits v 14 0 := by
  have device : bits v 14 0 < 2 ^ 15 := bits_lt ..
  unfold GReq.dst Pkg.sendReq
  dsimp only
  omega

/-- FAB_SEND runs, and its message is queued. -/
def Pkg.sending (s : Pkg) (h : Nat) (v : Word) : Pkg :=
  let r := s.wb (sendStat h) 0 true
  { r with fab := { r.fab with gq := s.fab.gq ++ [s.sendReq h v] } }

theorem Pkg.drs_sending (s : Pkg) (h : Nat) (v : Word) : (s.sending h v).drs = (s.wb (sendStat h) 0 true).drs := rfl

/-- What a message that begins shows. -/
theorem Pkg.sending_shows (s : Pkg) (h : Nat) (v : Word) : (s.sending h v).rb (sendStat h) 0 = true ∧ s.DrsBut (s.sending h v) [sendStat h] := by
  have drs := s.drs_sending h v
  refine ⟨(Pkg.rb_of_drs drs ..).trans (Pkg.rb_wb_same _ _ _ _ (by decide)), fun o other => (Pkg.rd_of_drs drs o).trans ?_⟩
  exact (Pkg.DrsBut.refl s _).wb (List.mem_singleton_self _) 0 true o other

theorem Pkg.fabSend_running {s : Pkg} {h : Nat} (running : s.rb (sendStat h) 0 = true) (v : Word) : s.fabSend h v = s.wb (sendStat h) 2 true := if_pos running

theorem Pkg.fabSend_go {s : Pkg} {h : Nat} (still : s.rb (sendStat h) 0 = false) {v : Word} (go : v.getLsbD 21 = true) : s.fabSend h v = s.sending h v := by
  have still' : s.rb (fabBase + 0x100000 + 0x80 * h + 0x48) 0 = false := still
  unfold Pkg.fabSend
  dsimp only
  rw [still', go]
  rfl

/-! ### FAB_RQ_CFG (R302) -/

/-- What FAB_RQ_CFG takes from a written value: EN, LOG2N where it lies between 6 and 16, and BASE. -/
def rqKept (old v : Word) : Word :=
  let w := if 6 ≤ bits v 5 1 ∧ bits v 5 1 ≤ 16 then v else setBits v 5 1 (bits old 5 1)
  setBits (setBits (setBits 0#64 0 0 (bits w 0 0)) 5 1 (bits w 5 1)) 51 12 (bits w 51 12)

section
variable (old v : Word)

theorem rqKept_enable : (rqKept old v).getLsbD 0 = v.getLsbD 0 := by
  unfold rqKept
  dsimp only
  rw [setBits_getLsbD _ _ _ _ _ (by decide), if_neg (by decide), setBits_getLsbD _ _ _ _ _ (by decide), if_neg (by decide), setBits_getLsbD _ _ _ _ _ (by decide),
    if_pos (by decide), bits_testBit]
  split
  · simp
  · rw [setBits_getLsbD _ _ _ _ _ (by decide), if_neg (by decide)]
    simp

theorem rqKept_size : bits (rqKept old v) 5 1 = if 6 ≤ bits v 5 1 ∧ bits v 5 1 ≤ 16 then bits v 5 1 else bits old 5 1 := by
  have size : bits old 5 1 < 2 ^ 5 := bits_lt ..
  have size' : bits v 5 1 < 2 ^ 5 := bits_lt ..
  unfold rqKept
  dsimp only
  rw [bits_setBits_other _ _ _ _ _ _ (by decide) (by decide) (by decide) (by decide), bits_setBits_same _ _ _ _ (by decide) (by decide)]
  split
  · exact Nat.mod_eq_of_lt size'
  · rw [bits_setBits_same _ _ _ _ (by decide) (by decide), Nat.mod_mod]
    exact Nat.mod_eq_of_lt size

theorem rqKept_base : bits (rqKept old v) 51 12 = bits v 51 12 := by
  have base : bits v 51 12 < 2 ^ 40 := bits_lt ..
  unfold rqKept
  dsimp only
  rw [bits_setBits_same _ _ _ _ (by decide) (by decide)]
  split
  · exact Nat.mod_eq_of_lt base
  · rw [bits_setBits_other _ _ _ _ _ _ (by decide) (by decide) (by decide) (by decide)]
    exact Nat.mod_eq_of_lt base

end

/-- FAB_RQ_CFG of queue q. -/
def rqReg (q : Nat) : Nat := fabBase + 0x40000 + 0x40 * q

/-- A receive queue whose CFG has been written, and emptied where it moved or changed its size. -/
theorem Pkg.rqCfg_eq (s : Pkg) (q : Nat) (v : Word) : s.rqCfg q v =
    if bits (rqKept (s.rd (rqReg q)) v) 5 1 ≠ bits (s.rd (rqReg q)) 5 1 ∨ bits (rqKept (s.rd (rqReg q)) v) 51 12 ≠ bits (s.rd (rqReg q)) 51 12 then
      (((s.wr (rqReg q) (rqKept (s.rd (rqReg q)) v)).wf (rqReg q + 8) 15 0 0).wf (rqReg q + 0x10) 15 0 0)
    else s.wr (rqReg q) (rqKept (s.rd (rqReg q)) v) := rfl

section
variable (s : Pkg) (o : Nat) (v : Word)

theorem Pkg.DrsBut.wr_head : s.DrsBut (s.wr o v) [o, o + 8, o + 0x10] := fun k other => by
  refine Pkg.rd_wr_other _ _ _ _ fun same => other ?_
  rw [same]
  exact List.mem_cons_self

/-- A queue's CFG with HEAD and TAIL at 0. -/
theorem Pkg.emptied_queue : (((s.wr o v).wf (o + 8) 15 0 0).wf (o + 0x10) 15 0 0).rd o = v
    ∧ (((s.wr o v).wf (o + 8) 15 0 0).wf (o + 0x10) 15 0 0).rf (o + 8) 15 0 = 0 ∧ (((s.wr o v).wf (o + 8) 15 0 0).wf (o + 0x10) 15 0 0).rf (o + 0x10) 15 0 = 0
    ∧ s.DrsBut (((s.wr o v).wf (o + 8) 15 0 0).wf (o + 0x10) 15 0 0) [o, o + 8, o + 0x10] := by
  refine ⟨?_, ?_, Pkg.rf_wf_same _ _ _ _ _ (by decide) (by decide), ((Pkg.DrsBut.wr_head s o v).wf (by simp) 15 0 0).wf (by simp) 15 0 0⟩
  · rw [Pkg.rd_wf_other _ _ _ _ _ _ (by omega), Pkg.rd_wf_other _ _ _ _ _ _ (by omega), Pkg.rd_wr_same]
  · rw [Pkg.rf, Pkg.rd_wf_other _ _ _ _ _ _ (by omega)]
    exact Pkg.rf_wf_same _ _ _ _ _ (by decide) (by decide)

end

/-- What a write of FAB_RQ_CFG leaves. -/
theorem Pkg.rqCfg_does (s : Pkg) (q : Nat) (v : Word) {n : Nat}
    (size : n = if 6 ≤ bits v 5 1 ∧ bits v 5 1 ≤ 16 then bits v 5 1 else s.rf (rqReg q) 5 1) :
    (s.rqCfg q v).rb (rqReg q) 0 = v.getLsbD 0 ∧ (s.rqCfg q v).rf (rqReg q) 5 1 = n ∧ (s.rqCfg q v).rf (rqReg q) 51 12 = bits v 51 12
      ∧ (n ≠ s.rf (rqReg q) 5 1 ∨ bits v 51 12 ≠ s.rf (rqReg q) 51 12 → (s.rqCfg q v).rf (rqReg q + 8) 15 0 = 0 ∧ (s.rqCfg q v).rf (rqReg q + 0x10) 15 0 = 0)
      ∧ (¬ (n ≠ s.rf (rqReg q) 5 1 ∨ bits v 51 12 ≠ s.rf (rqReg q) 51 12) →
        (s.rqCfg q v).rd (rqReg q + 8) = s.rd (rqReg q + 8) ∧ (s.rqCfg q v).rd (rqReg q + 0x10) = s.rd (rqReg q + 0x10))
      ∧ s.DrsBut (s.rqCfg q v) [rqReg q, rqReg q + 8, rqReg q + 0x10] ∧ s.rqCfg q v = { s with drs := (s.rqCfg q v).drs } := by
  have size' : bits (rqKept (s.rd (rqReg q)) v) 5 1 = n := (rqKept_size ..).trans size.symm
  have base := rqKept_base (s.rd (rqReg q)) v
  have enable := rqKept_enable (s.rd (rqReg q)) v
  rw [Pkg.rqCfg_eq, size', base]
  generalize rqKept (s.rd (rqReg q)) v = w at *
  generalize rqReg q = r at *
  have fields {t : Pkg} (cfg : t.rd r = w) : t.rb r 0 = v.getLsbD 0 ∧ t.rf r 5 1 = n ∧ t.rf r 51 12 = bits v 51 12 := by
    unfold Pkg.rb Pkg.rf
    rw [cfg]
    exact ⟨enable, size', base⟩
  by_cases moved : n ≠ bits (s.rd r) 5 1 ∨ bits v 51 12 ≠ bits (s.rd r) 51 12
  · rw [if_pos moved]
    obtain ⟨cfg, head, tail, but⟩ := s.emptied_queue r w
    obtain ⟨en, log, at_⟩ := fields cfg
    exact ⟨en, log, at_, fun _ => ⟨head, tail⟩, fun same => absurd moved same, but, rfl⟩
  · rw [if_neg moved]
    obtain ⟨en, log, at_⟩ := fields (s.rd_wr_same r w)
    exact ⟨en, log, at_, fun other => absurd other moved, fun _ => ⟨Pkg.rd_wr_other _ _ _ _ (by omega), Pkg.rd_wr_other _ _ _ _ (by omega)⟩,
      Pkg.DrsBut.wr_head s r w, rfl⟩

end Sys2Proof.Machine
end

section
/-! ## What the source's commands do to fabric streams (11_global_memory_membership) -/
namespace Sys2Proof.Machine

/-- Settles O35: each command and timeout as the lemma about it says; what the source sends goes through `Pkg.emitPkt`. -/
theorem streamsSendAnswerAndGiveUp : Obligations.StreamsSendAnswerAndGiveUp := by
  intro s live alone off home member cnt
  refine ⟨fun d r rest queue dst => ⟨fun h out who idle => ?_, fun in_ full => ?_, fun in_ room => ?_⟩,
    fun p o first => ⟨fun other => ?_, fun epoch out => ⟨fun h cls typ who below ok idle => ?_, fun h cls who seq taken present => ?_⟩⟩,
    fun d dt => ⟨fun some_ epoch due => ?_, fun undue => ?_, fun t idle => ⟨fun early => ?_, fun due => ?_⟩,
      fun o rest t out sent => ⟨fun early => ⟨?_, ?_⟩, fun due => ⟨fun again => ?_, fun h again only who idle => ?_⟩⟩,
      fun z t busy => ⟨fun early => ?_, fun due => ?_⟩⟩,
    fun h v => ⟨fun running => ?_, fun still go => ?_⟩, fun q v => ?_⟩
  · -- GLOBAL_REQUEST_INJECT to a device outside the map
    have done : s.pkg.globalInject d.toNat = ({ s.pkg with fab := { s.pkg.fab with gq := rest } } : Pkg).absentStore h r.pa := by
      rw [Pkg.globalInject_absent alone queue dst out, who]
      exact Pkg.reqDone_store_absent (s := { s.pkg with fab := { s.pkg.fab with gq := rest } }) _ idle ..
    have still : (({ s.pkg with fab := { s.pkg.fab with gq := rest } } : Pkg).absentStore h r.pa).shm.on = false := by
      rw [Pkg.onlyRegs_absentStore]
      exact off
    exact State.run_to live ((Pkg.injectReq_off (by rw [done]; exact still)).trans done)
  · -- without room
    have waits := Pkg.globalInject_full alone queue dst in_ full
    exact State.run_to live ((Pkg.injectReq_off (by rw [waits]; exact off)).trans waits)
  · -- with room
    have goes := Pkg.globalInject_room alone queue dst in_ room
    have still : ((s.pkg.taken d.toNat r rest).sendOut d.toNat (s.pkg.newOut d.toNat r) false).shm.on = false := by
      rw [Pkg.onlyPackets_sendOut]
      exact off
    obtain ⟨x, gone, stream, told, dest, body, others, drs, threads⟩ := s.pkg.taken_sent d.isLt r rest
    have taken := s.pkg.srcS_taken d.toNat r rest
    exact ⟨_, s.pkg.newOut d.toNat r, x, State.run_to live ((Pkg.injectReq_off (by rw [goes]; exact still)).trans goes), gone, by rw [stream, taken],
      by rw [stream, taken], rfl, rfl, rfl, rfl, rfl, rfl, rfl, told, dest, body, others, drs, threads⟩
  · -- FAB_RESPONSE of another epoch
    exact State.run_to live ((Pkg.fabResponse_first home first).trans (Pkg.response_otherEpoch other))
  · -- FAB_RESPONSE that acknowledges a write
    have acked : acknowledges p o = true := by
      simp only [acknowledges, cls, typ, below, beq_self_eq_true, Bool.true_or, Bool.and_self, Bool.true_and, Bool.not_eq_true', Bool.and_eq_false_imp, beq_iff_eq]
      exact fun same => decide_eq_false (by have := ok same.symm; omega)
    refine ⟨_, State.run_to live ((Pkg.fabResponse_first home first).trans (Pkg.response_write (s := s.pkg.unqueue 0) member epoch out who acked idle)), ?_,
      s.pkg.ejq_unqueue_first, rfl, rfl⟩
    rw [Pkg.srcS_setSrc_same]
    exact SrcStream.settled_out out acked _
  · -- FAB_RESPONSE to a message
    exact ⟨_, State.run_to live (Pkg.fabResponse_first home first), Pkg.response_msg_does (s := s.pkg.unqueue 0) member epoch out cls who seq taken present⟩
  · -- CUMULATIVE_ACK that is due
    have alone' := (s.pkg.tdmState_elapse dt).trans alone
    have stream := s.pkg.homeS_elapse dt d.toNat
    obtain ⟨x, told, dest, class_, exp⟩ := Pkg.cumAck_answers (s := s.pkg.elapse dt) (p := s.pkg) alone' (s.pkg.rd_elapse dt _ (by decide)) (by rw [Pkg.elapse_fab])
      d.isLt (by rw [stream]; exact epoch)
    have keeps := Pkg.cumAck_keeps alone' d.toNat
    rw [stream] at exp
    rw [Pkg.elapse_fab] at told
    refine ⟨_, x, State.runAt_to live (Pkg.ackDue_due ((s.pkg.homeLive_elapse dt).trans home) (by rw [stream]; exact some_) (by rw [stream]; exact due)), ?_, told, dest,
      class_, exp, keeps.drs, keeps.threads.trans (s.pkg.elapse_threads dt)⟩
    rw [Pkg.homeS_cumAck alone']
    rfl
  · -- CUMULATIVE_ACK that is not
    exact State.runAt_to live (Pkg.ackDue_early (by rw [Pkg.homeS_elapse]; exact undue))
  · -- STREAM_IDLE_RELEASE within 100 µs
    exact State.runAt_to live (Pkg.idleRelease_early (by rw [Pkg.srcS_elapse]; exact idle) early)
  · -- STREAM_IDLE_RELEASE
    obtain ⟨x, stream, told, sent⟩ := Pkg.idleRelease_does (s := s.pkg.elapse dt) (p := s.pkg) (s.pkg.rd_elapse dt _ (by decide)) (by rw [Pkg.elapse_fab]) d.isLt
      ((s.pkg.tdmState_elapse dt).trans alone) (by rw [Pkg.srcS_elapse]; exact idle) due
    rw [Pkg.elapse_fab] at told
    rw [Pkg.srcS_elapse] at stream
    exact ⟨_, x, State.runAt_live live dt _, stream, told, sent⟩
  · -- STREAM_RESEND_TIMEOUT and STREAM_ABSENT_TIMEOUT within 50 µs
    exact State.runAt_to live (Pkg.resendTimeout_early (by rw [Pkg.srcS_elapse]; exact out) sent early)
  · exact State.runAt_to live (Pkg.absentTimeout_early (by rw [Pkg.srcS_elapse]; exact out) sent early)
  · -- STREAM_RESEND_TIMEOUT
    obtain ⟨marked, counted, threads⟩ := (s.pkg.elapse dt).resendNow_does d.toNat
    rw [Pkg.srcS_elapse] at marked
    rw [s.pkg.rf_elapse dt (by decide)] at counted
    refine ⟨_, State.runAt_to live (Pkg.resendTimeout_due (by rw [Pkg.srcS_elapse]; exact out) sent again due), marked, counted, threads.trans (s.pkg.elapse_threads dt),
      fun away alone_ => ?_⟩
    obtain ⟨x, told, dest, body, rail⟩ := Pkg.resendNow_sends (s := s.pkg.elapse dt) d.isLt (by rw [Pkg.srcS_elapse, out, alone_]) sent
    have self : (s.pkg.elapse dt).rd fabBase = s.pkg.rd fabBase := s.pkg.rd_elapse dt _ (by decide)
    exact ⟨x, by rw [Pkg.elapse_fab] at told; exact told.of_self self (by rw [Pkg.elapse_fab]), dest, body, rail⟩
  · -- STREAM_ABSENT_TIMEOUT
    have lost := Pkg.streamLost_store_does (s := s.pkg.elapse dt) (d := d.toNat) (o := o) (by rw [Pkg.mState, s.pkg.rf_elapse dt (by decide)]; exact member)
      (by rw [Pkg.srcS_elapse, out, only]) who (by rw [Pkg.elapse_thr]; exact idle)
    rw [Pkg.srcS_elapse] at lost
    obtain ⟨gone, epoch, next, drs, threads⟩ := lost
    exact ⟨_, State.runAt_to live (Pkg.absentTimeout_due (by rw [Pkg.srcS_elapse]; exact out) sent again due), gone, epoch, next, drs,
      threads.trans (s.pkg.elapse_threads dt)⟩
  · -- BUSY_RESEND within 2 µs
    exact State.runAt_to live (Pkg.busyResend_early (by rw [Pkg.srcS_elapse]; exact busy) early)
  · -- BUSY_RESEND
    obtain ⟨stream, drs, threads⟩ := Pkg.busyResend_does (s := s.pkg.elapse dt) (d := d.toNat) (by rw [Pkg.srcS_elapse]; exact busy) due
    rw [Pkg.srcS_elapse] at stream
    exact ⟨_, State.runAt_live live dt _, stream, drs, threads.trans (s.pkg.elapse_threads dt)⟩
  · -- FAB_SEND_GO while a message runs
    exact State.run_to live (Pkg.fabSend_running running v)
  · -- FAB_SEND_GO
    obtain ⟨running, but⟩ := s.pkg.sending_shows h v
    exact ⟨s.pkg.sending h v, s.pkg.sendReq h v, State.run_to live (Pkg.fabSend_go still go), running, rfl, rfl, s.pkg.dst_sendReq h v, rfl, rfl, rfl,
      fun k word => s.pkg.sendData_digit h word, but, rfl⟩
  · -- FAB_RQ_CFG_WRITE
    exact ⟨_, State.run_live _ live, s.pkg.rqCfg_does q v rfl⟩

end Sys2Proof.Machine
end

section
/-! ## What accesses at a line's home leave alone (07_coherence R188, R192; 11_global_memory_membership R295) -/
namespace Sys2Proof.Machine

/-! ### Copies, the directory and the controllers' queues -/

/-- q differs from p at most in what an access at a line's home changes: threads that wake, copies of lines, the directory, transactions, the
controllers' queues, and write-backs that wait for the fabric. -/
def Pkg.AtHome (p q : Pkg) : Prop :=
  q = { p with threads := q.threads, cores := q.cores, l1i := q.l1i, l1d := q.l1d, l2 := q.l2, l3 := q.l3, dir := q.dir, trackers := q.trackers
               mcs := q.mcs, fab := { p.fab with gq := q.fab.gq } }

section
variable {p q r : Pkg}

theorem Pkg.AtHome.refl (p : Pkg) : p.AtHome p := rfl

theorem Pkg.AtHome.trans (a : p.AtHome q) (b : q.AtHome r) : p.AtHome r := by
  unfold Pkg.AtHome at *
  rw [b, a]

section
variable (a : p.AtHome q)
include a

theorem Pkg.AtHome.drs : q.drs = p.drs := by rw [a]
theorem Pkg.AtHome.mem : q.mem = p.mem := by rw [a]
theorem Pkg.AtHome.dsym : q.dsym = p.dsym := by rw [a]
theorem Pkg.AtHome.tdm : q.tdm = p.tdm := by rw [a]
theorem Pkg.AtHome.fab : q.fab = { p.fab with gq := q.fab.gq } := by rw [a]

end
end

section
variable (s : Pkg) (line : Nat)

theorem Pkg.atHome_toStore (d : BitVec 512) (b : Bool) : s.AtHome (s.toStore line d b) := by
  unfold Pkg.toStore
  split <;> rfl

theorem Pkg.atHome_l1d (m : Map CLine) : s.AtHome { s with l1d := m } := rfl
theorem Pkg.atHome_l1i (m : Map CLine) : s.AtHome { s with l1i := m } := rfl
theorem Pkg.atHome_updCore (c : Nat) (f : Core → Core) : s.AtHome (s.updCore c f) := rfl
theorem Pkg.atHome_putL2 (k : Nat) (c : CLine) : s.AtHome (s.putL2 k c) := rfl
theorem Pkg.atHome_putL3 (k : Nat) (c : CLine) : s.AtHome (s.putL3 k c) := rfl

/-- q differs from p in the directory alone. -/
def Pkg.OnlyDir (p q : Pkg) : Prop := q = { p with dir := q.dir }

theorem Pkg.onlyDir (d : Map DirE) : s.OnlyDir { s with dir := d } := rfl

theorem Pkg.onlyDir_dirSync : s.OnlyDir (s.dirSync line) := by
  unfold Pkg.dirSync
  dsimp only
  split
  · exact s.onlyDir s.dir
  · split
    · exact s.onlyDir _
    · exact s.onlyDir _

theorem Pkg.OnlyDir.atHome {p q : Pkg} (only : p.OnlyDir q) : p.AtHome q := by
  rw [only]
  rfl

theorem Pkg.atHome_dropL1 (c : Nat) (instr : Bool) : s.AtHome (s.dropL1 c line instr) := by
  unfold Pkg.dropL1
  extract_lets +onlyGivenNames t
  have data : s.AtHome t := by
    unfold t
    split
    · exact s.atHome_l1d _
    · exact .refl s
  split
  · split
    · exact data.trans (t.atHome_l1i _)
    · exact data
  · exact data

theorem Pkg.atHome_purgeTile (t : Nat) : s.AtHome (s.purgeTile t line) := by
  unfold Pkg.purgeTile
  extract_lets +onlyGivenNames s1 s2 s3
  have dropped : s.AtHome s1 := (s.atHome_dropL1 line _ true).trans (Pkg.atHome_dropL1 _ line _ true)
  have unmerged : s.AtHome s3 := (dropped.trans (s1.atHome_updCore _ _)).trans (s2.atHome_updCore _ _)
  clear_value s3
  split
  · exact unmerged.trans (s3.atHome_putL2 _ _)
  · exact unmerged

theorem Pkg.atHome_purgeOthers (t : Option Nat) : s.AtHome (s.purgeOthers t line) := by
  unfold Pkg.purgeOthers
  extract_lets +onlyGivenNames ts ts2 s1
  have purged : s.AtHome s1 := foldl_keeps (s.AtHome ·) _ (fun q u a => a.trans (q.atHome_purgeTile line u)) _ _ (.refl s)
  exact purged.trans (s1.onlyDir_dirSync line).atHome

theorem Pkg.atHome_monHit : s.AtHome (s.monHit line) := by
  have only := (s.monHit_keeps line).2
  unfold Pkg.AtHome
  rw [only]

/-- A line's data at its home is replaced: in the slice, through it, or behind it. -/
def Pkg.putHome (s : Pkg) (line : Nat) (d : BitVec 512) (b : Bool) : Pkg :=
  match s.findL3 line with
  | some k =>
    if s.noalloc then (s.putL3 k { s.getL3 k with data := d, poison := b, st := .E }).toStore line d b
    else s.putL3 k { s.getL3 k with data := d, poison := b, st := .M }
  | none => s.toStore line d b

theorem Pkg.atHome_putHome (d : BitVec 512) (b : Bool) : s.AtHome (s.putHome line d b) := by
  unfold Pkg.putHome
  split
  · split
    · exact (s.atHome_putL3 _ _).trans (Pkg.atHome_toStore ..)
    · exact s.atHome_putL3 _ _
  · exact s.atHome_toStore ..

/-! ### Writes at the home (07 R192) -/

/-- Data that a transaction for the line has in hand takes a write too. -/
def Pkg.putInHand (s : Pkg) (line : Nat) (f : BitVec 512 × Bool → BitVec 512 × Bool) : Pkg :=
  if (s.trk (homeOf line)).any (·.line == line) then
    s.setTrk (homeOf line) ((s.trk (homeOf line)).map (fun r => if r.line = line then { r with data := r.data.map f } else r))
  else s

theorem Pkg.putInHand_eq (f : BitVec 512 × Bool → BitVec 512 × Bool) : s.putInHand line f = { s with trackers := (s.putInHand line f).trackers } := by
  unfold Pkg.putInHand
  split <;> rfl

theorem Pkg.atHome_putInHand (f : BitVec 512 × Bool → BitVec 512 × Bool) : s.AtHome (s.putInHand line f) := by
  unfold Pkg.AtHome
  rw [Pkg.putInHand_eq]

/-- A line with the bytes that `be` enables replaced. -/
def putBytes (be : BitVec 64) (x d : BitVec 512) : BitVec 512 := (d &&& ~~~(byteMask be)) ||| (x &&& byteMask be)

/-- A write at the home: the line is read, its other copies go, and home, transactions and monitors see the write. -/
theorem Pkg.homeWriteMasked_eq (be : BitVec 64) (x : BitVec 512) : s.homeWriteMasked line be x =
    ((((((if decide (be = BitVec.allOnes 64) then s else s.seen line).purgeOthers none line).putHome line (putBytes be x (s.curLine line).1)
      ((s.curLine line).2 && !decide (be = BitVec.allOnes 64))).putInHand line (fun q => (putBytes be x q.1, q.2 && !decide (be = BitVec.allOnes 64)))).dirtyPage
      line).monHit line) := rfl

theorem Pkg.homePoison_eq : s.homePoison line = (s.purgeOthers none line).putHome line (s.curLine line).1 true := rfl

end

section
variable {s : Pkg}

/-- Where no symbol of DRAM is in error a read finds none (09 R245). -/
theorem Pkg.seen_clean (clean : s.dsym = []) (line : Nat) : s.seen line = s := by
  refine if_pos ?_
  rw [clean]
  simp [Map.get, sym0]

theorem Pkg.seenBytes_clean (clean : s.dsym = []) (pa n : Nat) : s.seenBytes pa n = s :=
  foldl_keeps (· = s) _ (fun q i same => by rw [same]; exact s.seen_clean clean _) _ s rfl

theorem Pkg.dirtyPage_untracked (untracked : s.tdm.track = false) (line : Nat) : s.dirtyPage line = s := by
  unfold Pkg.dirtyPage
  rw [untracked]
  rfl

/-- A write at the home reads DRAM where it does not replace the whole line. -/
theorem Pkg.atHome_homeWriteMasked (untracked : s.tdm.track = false) {be : BitVec 64} (whole : be = BitVec.allOnes 64 ∨ s.dsym = []) (line : Nat) (x : BitVec 512) :
    s.AtHome (s.homeWriteMasked line be x) := by
  have read : (if decide (be = BitVec.allOnes 64) then s else s.seen line) = s := by
    rcases whole with all | clean
    · exact if_pos (decide_eq_true all)
    · rw [Pkg.seen_clean clean, ite_self]
  rw [Pkg.homeWriteMasked_eq, read]
  have put {d : BitVec 512} {b : Bool} {f : BitVec 512 × Bool → BitVec 512 × Bool} : s.AtHome (((s.purgeOthers none line).putHome line d b).putInHand line f) :=
    ((s.atHome_purgeOthers line none).trans (Pkg.atHome_putHome _ line _ _)).trans (Pkg.atHome_putInHand _ line _)
  rw [Pkg.dirtyPage_untracked (by rw [put.tdm]; exact untracked)]
  exact put.trans (Pkg.atHome_monHit _ line)

theorem Pkg.atHome_homePoison (line : Nat) : s.AtHome (s.homePoison line) := by
  rw [Pkg.homePoison_eq]
  exact (s.atHome_purgeOthers line none).trans (Pkg.atHome_putHome _ line _ _)

theorem Pkg.atHome_homeTake (clean : s.dsym = []) (pa n : Nat) : s.AtHome (s.homeTake pa n).1 := by
  unfold Pkg.homeTake
  dsimp only
  rw [Pkg.seen_clean clean]
  split <;> rfl

end

/-! ### Whole lines from bytes -/

/-- A mask that takes in every byte of a line. -/
theorem foldl_enable_all {c : Nat → Prop} [DecidablePred c] (all : ∀ k < 64, c k) :
    (List.range 64).foldl (fun (a : BitVec 64) k => if c k then a ||| BitVec.ofNat 64 (2 ^ k) else a) 0#64 = BitVec.allOnes 64 := by
  rw [List.foldl_ext (g := fun a k => a ||| BitVec.ofNat 64 (2 ^ k)) (H := fun a k among => if_pos (all k (List.mem_range.mp among)))]
  decide

/-- Bytes that fill lines are written without a read. -/
theorem Pkg.atHome_writeBytes {s : Pkg} (untracked : s.tdm.track = false) {pa : Nat} {bs : List (BitVec 8)} (aligned : pa % 64 = 0) (lines : bs.length % 64 = 0) :
    s.AtHome (s.writeBytes pa bs) := by
  unfold Pkg.writeBytes
  dsimp only
  refine List.foldlRecOn (motive := fun q : Pkg => s.AtHome q) _ _ (.refl s) fun q a i among => ?_
  have inside := List.mem_range.mp among
  refine a.trans (q.atHome_homeWriteMasked (by rw [a.tdm]; exact untracked) (Or.inl (foldl_enable_all fun k lt => ?_)) _ _)
  omega

/-! ### A line that no cache holds -/

/-- No cache of the package holds the line. -/
structure Pkg.Uncached (s : Pkg) (line : Nat) : Prop where
  merge : s.mergeAny line = none
  l2 : s.holders line = []
  l3 : s.findL3 line = none

section
variable {s q : Pkg} {line : Nat}

/-- The caches of two packages hold the same. -/
theorem Pkg.Uncached.of_eq (u : s.Uncached line) (cores : q.cores = s.cores) (l2 : q.l2 = s.l2) (l3 : q.l3 = s.l3) : q.Uncached line := by
  refine ⟨?_, ?_, ?_⟩
  · rw [Pkg.mergeAny, cores]
    exact u.merge
  · rw [Pkg.holders, l2]
    exact u.l2
  · rw [Pkg.findL3, l3]
    exact u.l3

theorem Pkg.Uncached.curLine (u : s.Uncached line) : s.curLine line = s.dramLine line := by
  have none_ (e : Nat × CLine) (listed : e ∈ s.l2) : (e.2.line == line && e.2.st != Moesi.I) = false := by
    have empty := List.map_eq_nil_iff.mp u.l2
    simpa using List.filter_eq_nil_iff.mp empty e listed
  have clean : s.l2.find? (fun p => p.2.line == line && p.2.st != Moesi.I) = none :=
    List.find?_eq_none.mpr fun e listed => by rw [none_ e listed]; decide
  have owned : s.l2.find? (fun p => p.2.line == line && (p.2.st == Moesi.M || p.2.st == Moesi.O)) = none := by
    refine List.find?_eq_none.mpr fun e listed => ?_
    have free := none_ e listed
    revert free
    cases e.2.st <;> simp
  unfold Pkg.curLine
  simp only [u.merge, owned, clean, u.l3]

/-- Nothing has to be removed. -/
theorem Pkg.Uncached.purgeOthers (u : s.Uncached line) (t : Option Nat) : s.purgeOthers t line = s.dirSync line := by
  have unmerged : s.cores.filter (fun p => p.2.merge.any (fun m => m.line == line && m.perm)) = [] := by
    have none_ := List.head?_eq_none_iff.mp u.merge
    refine List.filter_eq_nil_iff.mpr fun c listed => ?_
    have lines := List.filterMap_eq_nil_iff.mp none_ c listed
    rw [Bool.not_eq_true, List.any_eq_false]
    exact fun m held => List.find?_eq_none.mp lines m held
  unfold Pkg.purgeOthers
  rw [u.l2, unmerged]
  rfl

/-- A local line that no cache holds goes to its controller. -/
theorem Pkg.Uncached.putHome (u : s.Uncached line) (loc : isGlobal line = false) (d : BitVec 512) (b : Bool) :
    (s.dirSync line).putHome line d b = (s.dirSync line).dramQueue line d b := by
  have away : (s.dirSync line).findL3 line = none := by
    rw [s.onlyDir_dirSync line]
    exact u.l3
  unfold Pkg.putHome
  rw [away]
  exact if_neg (by rw [loc]; decide)

/-- Only the queue of the line's controller takes the write: the caches hold what they held. -/
def Pkg.Queues (s q : Pkg) (line : Nat) (d : BitVec 512) (b : Bool) : Prop :=
  q.cores = s.cores ∧ q.l2 = s.l2 ∧ q.l3 = s.l3 ∧ q.mcs = (s.dramQueue line d b).mcs

theorem Pkg.Queues.curLine {d : BitVec 512} {b : Bool} (k : s.Queues q line d b) (u : s.Uncached line) (loc : isGlobal line = false) : q.curLine line = (d, b) := by
  obtain ⟨cores, l2, l3, mcs⟩ := k
  rw [(u.of_eq cores l2 l3).curLine]
  refine Pkg.dramLine_of_queued (w := ⟨line, d, b⟩) loc ?_
  rw [← s.queuedWrite_dramQueue_same line d b]
  unfold Pkg.queuedWrite Pkg.mc
  rw [mcs]

theorem Pkg.OnlyDir.queues (only : s.OnlyDir q) (line : Nat) (d : BitVec 512) (b : Bool) : s.Queues (q.dramQueue line d b) line d b := by
  rw [only]
  exact ⟨rfl, rfl, rfl, rfl⟩

theorem Pkg.Queues.putInHand {d : BitVec 512} {b : Bool} (k : s.Queues q line d b) (f : BitVec 512 × Bool → BitVec 512 × Bool) :
    s.Queues (q.putInHand line f) line d b := by
  rw [Pkg.putInHand_eq]
  exact k

theorem Pkg.Queues.monHit {d : BitVec 512} {b : Bool} (k : s.Queues q line d b) : s.Queues (q.monHit line) line d b := by
  rw [(q.monHit_keeps line).2]
  exact k

theorem Pkg.Uncached.homeWriteMasked (u : s.Uncached line) (loc : isGlobal line = false) (clean : s.dsym = []) (untracked : s.tdm.track = false)
    (be : BitVec 64) (x : BitVec 512) :
    s.Queues (s.homeWriteMasked line be x) line (putBytes be x (s.curLine line).1) ((s.curLine line).2 && !decide (be = BitVec.allOnes 64)) := by
  have tracks {d : BitVec 512} {b : Bool} {f : BitVec 512 × Bool → BitVec 512 × Bool} : (((s.dirSync line).dramQueue line d b).putInHand line f).tdm.track = false := by
    rw [Pkg.putInHand_eq, s.onlyDir_dirSync line]
    exact untracked
  rw [Pkg.homeWriteMasked_eq, Pkg.seen_clean clean, ite_self, u.purgeOthers, u.putHome loc, Pkg.dirtyPage_untracked tracks]
  exact (((s.onlyDir_dirSync line).queues line _ _).putInHand _).monHit

theorem Pkg.Uncached.homePoison (u : s.Uncached line) (loc : isGlobal line = false) : s.Queues (s.homePoison line) line (s.curLine line).1 true := by
  rw [Pkg.homePoison_eq, u.purgeOthers, u.putHome loc]
  exact (s.onlyDir_dirSync line).queues line _ _

end

/-! ### The same lines in packages that differ elsewhere -/

/-- q differs from p in the fabric and in the mesh alone. -/
def Pkg.OnlyTraffic (p q : Pkg) : Prop := q = { p with fab := q.fab, noc := q.noc }

theorem Pkg.OnlyTraffic.curLine {p q : Pkg} (only : p.OnlyTraffic q) (line : Nat) : q.curLine line = p.curLine line := by
  have bytes : q.memRead (64 * line) 64 = p.memRead (64 * line) 64 := Pkg.memRead_congr fun _ _ => by rw [only]; rfl
  have dram : q.dramLine line = p.dramLine line := by
    by_cases global : isGlobal line = true
    · unfold Pkg.dramLine
      rw [if_pos global, if_pos global, only]
    · refine Pkg.dramLine_congr (by simpa using global) (by rw [only]; rfl) ?_
      unfold Pkg.devLine
      rw [bytes, only]
  unfold Pkg.curLine
  rw [dram, only]
  rfl

theorem Pkg.OnlyTraffic.homeRead {p q : Pkg} (only : p.OnlyTraffic q) (pa n : Nat) : q.homeRead pa n = p.homeRead pa n := by
  unfold Pkg.homeRead
  rw [only.curLine]

theorem Pkg.OnlyTraffic.readBytes {p q : Pkg} (only : p.OnlyTraffic q) (pa n : Nat) : q.readBytes pa n = p.readBytes pa n := by
  induction n generalizing pa with
  | zero => rfl
  | succ n ih => rw [Pkg.readBytes, Pkg.readBytes, only.homeRead, ih]

end Sys2Proof.Machine
end

section
/-! ## The home agents (11_global_memory_membership R292, R293, R295 to R297, R302) -/
namespace Sys2Proof.Machine

/-! ### Journals of other streams -/

section
variable {α : Type} (m : Map α) (k : Nat)

theorem Map.filter_erase_others : (Map.erase m k).filter (·.1 != k) = m.filter (·.1 != k) := by
  induction m with
  | nil => rfl
  | cons e t ih =>
    obtain ⟨j, v⟩ := e
    rw [Map.erase]
    split
    next same => rw [ih, List.filter_cons_of_neg (by simp [same])]
    next => rw [List.filter_cons, List.filter_cons, ih]

theorem Map.filter_insert_others (v : α) : (Map.insert m k v).filter (·.1 != k) = m.filter (·.1 != k) := by
  induction m with
  | nil => exact List.filter_cons_of_neg (by simp)
  | cons e t ih =>
    obtain ⟨j, w⟩ := e
    rw [Map.insert]
    split
    next same => rw [List.filter_cons_of_neg (by simp), List.filter_cons_of_neg (by simp [same])]
    next =>
      split
      · exact List.filter_cons_of_neg (by simp)
      · rw [List.filter_cons, List.filter_cons, ih]

theorem Map.filter_set_others [DecidableEq α] (d : Nat → α) (v : α) : (Map.set d m k v).filter (·.1 != k) = m.filter (·.1 != k) := by
  unfold Map.set
  split
  · exact m.filter_erase_others k
  · exact m.filter_insert_others k v

end

/-- Journal entries that the streams of other sources hold (R296). -/
def Pkg.othersJournal (s : Pkg) (src : Nat) : Nat := ((s.fab.home.filter (fun x => x.1 != src)).map (fun x => x.2.jrn.length)).sum

theorem Pkg.othersJournal_setHome (s : Pkg) (src : Nat) (h : HomeStream) : (s.setHome src h).othersJournal src = s.othersJournal src := by
  unfold Pkg.othersJournal Pkg.setHome
  rw [Map.filter_set_others]

/-! ### What becomes of a stream at its home -/

/-- The journal below LOW is freed. -/
def HomeStream.freed (h : HomeStream) (low : Nat) : HomeStream := { h with jrn := h.jrn.filter (fun e => !seqBelow e.seq low) }

/-- A request has been answered, and its answer kept. -/
def HomeStream.answering (h : HomeStream) (low : Nat) (e : JEnt) : HomeStream :=
  { h.freed low with exp := (e.seq + 1) % 65536, jrn := (h.freed low).jrn ++ [e] }

/-- A write has been performed, and its acknowledgement is owed. -/
def HomeStream.owing (h : HomeStream) (low seq now : Nat) : HomeStream :=
  { h.freed low with exp := (seq + 1) % 65536, acks := h.acks + 1, ackAt := if h.acks = 0 then now else h.ackAt, cov := [] }

/-- How far a request's SEQ lies behind the SEQ that its home expects. -/
def HomeStream.behind (h : HomeStream) (b : FPkt) : Nat := (h.exp + 65536 - pk b 0 15 0) % 65536

/-- The request in turn: it repeats none, it starts no new epoch, and it is the one expected. -/
theorem HomeStream.expects {h : HomeStream} {b : FPkt} (epoch : pk b 0 19 16 = h.epoch) (next : h.behind b = 0) :
    ¬ (pk b 0 19 16 = h.epoch ∧ 1 ≤ (h.exp + 65536 - pk b 0 15 0) % 65536 ∧ (h.exp + 65536 - pk b 0 15 0) % 65536 ≤ 4096)
      ∧ (pk b 0 19 16 == (h.epoch + 1) % 16) = false ∧ (pk b 0 19 16 == h.epoch && (h.exp + 65536 - pk b 0 15 0) % 65536 == 0) = true := by
  unfold HomeStream.behind at next
  have small := pk_lt b 0 19 16
  refine ⟨by omega, ?_, by simp [epoch, next]⟩
  rw [← epoch, beq_eq_false_iff_ne]
  omega

/-! ### A request at the home agent (R295) -/

/-- Only a package in a pair logs what comes in. -/
theorem Pkg.inb_alone {s : Pkg} (alone : s.tdmState = 0) (r : InbRec) (lines rl : List Nat) : s.inb r lines rl = s :=
  if_neg (by rw [Pkg.paired_off alone]; decide)

/-- The requests that are answered one by one. -/
def answeredKind (cls typ : Nat) : Prop := cls = 2 ∨ typ = 0 ∨ typ = 2

section
variable {s : Pkg} {src typ cls tag ts : Nat} {b : FPkt}

/-- A request that has been performed before changes nothing but acknowledgements: its answer is repeated. -/
theorem Pkg.homeReq_repeated (alone : s.tdmState = 0) (epoch : pk b 0 19 16 = (s.homeS src).epoch) (before : 1 ≤ (s.homeS src).behind b)
    (near : (s.homeS src).behind b ≤ 4096) :
    let q := s.homeReq src typ cls tag ts b none
    (q.homeS src).exp = (s.homeS src).exp ∧ (q.homeS src).jrn = (s.homeS src).jrn ∧ q.mem = s.mem ∧ q.mcs = s.mcs ∧ q.drs = s.drs ∧ q.threads = s.threads := by
  have packets {q : Pkg} (only : s.OnlyPackets q) : (q.homeS src).exp = (s.homeS src).exp ∧ (q.homeS src).jrn = (s.homeS src).jrn ∧ q.mem = s.mem ∧ q.mcs = s.mcs
      ∧ q.drs = s.drs ∧ q.threads = s.threads := by
    rw [only.homeS]
    exact ⟨rfl, rfl, only.mem, only.mcs, only.drs, only.threads⟩
  have again : pk b 0 19 16 = (s.homeS src).epoch ∧ 1 ≤ ((s.homeS src).exp + 65536 - pk b 0 15 0) % 65536 ∧ ((s.homeS src).exp + 65536 - pk b 0 15 0) % 65536 ≤ 4096 :=
    ⟨epoch, before, near⟩
  unfold Pkg.homeReq
  dsimp only
  rw [if_pos again]
  split
  · split
    · exact packets (Pkg.onlyPackets_respond alone ..)
    · exact packets (.refl s)
  · have keeps := Pkg.cumAck_keeps alone src
    rw [Pkg.homeS_cumAck alone]
    exact ⟨rfl, rfl, keeps.mem, keeps.mcs, keeps.drs, keeps.threads⟩

/-- A request of another epoch, or ahead of its turn, is discarded and counted. -/
theorem Pkg.homeReq_discarded (joined : s.rf (fabBase + 0x128) 2 0 ≠ 3) (still : pk b 0 19 16 ≠ ((s.homeS src).epoch + 1) % 16)
    (out : pk b 0 19 16 ≠ (s.homeS src).epoch ∨ 4096 < (s.homeS src).behind b) : s.homeReq src typ cls tag ts b none = s.sat (fabBase + 0x138) 47 32 := by
  unfold HomeStream.behind at out
  unfold Pkg.homeReq
  dsimp only
  rw [if_neg (by omega), if_neg (fun leaving => joined leaving.1), if_pos]
  simp only [Bool.and_eq_true, Bool.not_eq_true', Bool.and_eq_false_iff, beq_eq_false_iff_ne]
  exact ⟨by omega, still⟩

section
variable (alone : s.tdmState = 0) (joined : s.rf (fabBase + 0x128) 2 0 ≠ 3) (epoch : pk b 0 19 16 = (s.homeS src).epoch) (next : (s.homeS src).behind b = 0)
  {r : Pkg} {st fl : Nat} {data : FPkt} (does : s.perform src typ cls ts b = (r, st, fl, data))
include alone joined epoch next does

/-- The request that is expected, with room for its answer. -/
theorem Pkg.homeReq_answers (kind : answeredKind cls typ) (room : s.othersJournal src + ((s.homeS src).freed (pk b 0 35 20)).jrn.length < 2 ^ s.rf (fabBase + 0x110) 4 0) :
    s.homeReq src typ cls tag ts b none
      = (r.setHome src ((s.homeS src).answering (pk b 0 35 20) ⟨pk b 0 15 0, st, fl, data, tag, ts⟩)).respond src tag (pk b 0 15 0) st fl data s.tdm.gsn true := by
  obtain ⟨unrepeated, old, expected⟩ := HomeStream.expects epoch next
  unfold answeredKind at kind
  unfold Pkg.othersJournal at room
  unfold Pkg.homeReq
  dsimp only
  rw [if_neg unrepeated, if_neg (fun leaving => joined leaving.1), expected, old, Pkg.inb_alone alone, does]
  simp only [Bool.not_true, Bool.false_and, Bool.false_eq_true, if_false]
  rw [if_neg (by rw [Bool.and_eq_true, not_and]; exact fun _ full => Nat.not_le_of_lt room (of_decide_eq_true full)), if_pos kind]
  rfl

/-- The request that is expected, of a kind that is acknowledged. -/
theorem Pkg.homeReq_acknowledges (kind : ¬ answeredKind cls typ) (ok : st = 0) (still : r.tdmState = 0) :
    let t := r.setHome src ((s.homeS src).owing (pk b 0 35 20) (pk b 0 15 0) r.now)
    s.homeReq src typ cls tag ts b none = if typ = 3 then t.cumAck src else t := by
  obtain ⟨unrepeated, old, expected⟩ := HomeStream.expects epoch next
  unfold answeredKind at kind
  unfold Pkg.homeReq
  dsimp only
  rw [if_neg unrepeated, if_neg (fun leaving => joined leaving.1), expected, old, Pkg.inb_alone alone, does]
  simp only [Bool.not_true, Bool.false_and, Bool.false_eq_true, if_false]
  rw [if_neg (by simp [kind]), if_neg kind, Pkg.paired_off still, if_neg (not_not_intro ok)]
  rfl

end
end

/-! ### A packet for the home agent -/

/-- The home agent has taken the first packet, of a source that came in by port k. -/
def Pkg.ported (s : Pkg) (src k : Nat) : Pkg := (s.unqueue 0).setHome src { s.homeS src with port := k }

theorem Pkg.homeS_ported (s : Pkg) (src k : Nat) : (s.ported src k).homeS src = { s.homeS src with port := k } := Pkg.homeS_setHome_same ..

/-- q is r but for the mesh's counts (08 R232, R233). -/
def Pkg.Metered (r q : Pkg) : Prop := q = { r with noc := q.noc }

theorem Pkg.metered_stats (r : Pkg) (k n m ns : Nat) : r.Metered ((r.stReq k n).stRd k m ns) := rfl

section
variable {s : Pkg} {cls typ : Nat} {p : FPkt}

/-- The home agent takes the first packet; a request that came in by a link is counted at its stop once it is performed. -/
theorem Pkg.fabTake_first (alone : s.tdmState = 0) (home : s.homeLive = true) (first : s.ejected cls typ = some (0, p)) : ∃ k i e n m ns,
    let q := (s.ported (pkSrc p) k).homeReq (pkSrc p) typ cls (pkTag p) (pk p 0 127 64) (p.drop 1) none
    s.fabTake cls typ = if i ≥ 12 ∨ (q.homeS (pkSrc p)).exp = (s.homeS (pkSrc p)).exp then q else (q.stReq e n).stRd e m ns := by
  have free : (!s.homeLive || (s.reqLines cls typ (p.drop 1)).any (fun l => s.sigWait none l (cls == 2 || typ != 0))) = false := by
    simp [home, Pkg.sigWait_alone (Pkg.paired_off alone)]
  unfold Pkg.fabTake
  rw [first]
  dsimp only
  rw [free]
  exact ⟨_, _, _, _, _, _, rfl⟩

theorem Pkg.fabTake_metered (alone : s.tdmState = 0) (home : s.homeLive = true) (first : s.ejected cls typ = some (0, p)) : ∃ k,
    let q := (s.ported (pkSrc p) k).homeReq (pkSrc p) typ cls (pkTag p) (pk p 0 127 64) (p.drop 1) none
    q.Metered (s.fabTake cls typ) ∧ ((q.homeS (pkSrc p)).exp = (s.homeS (pkSrc p)).exp → s.fabTake cls typ = q) := by
  obtain ⟨k, i, e, n, m, ns, takes⟩ := Pkg.fabTake_first alone home first
  refine ⟨k, ?_⟩
  rw [takes]
  generalize (s.ported (pkSrc p) k).homeReq (pkSrc p) typ cls (pkTag p) (pk p 0 127 64) (p.drop 1) none = q
  refine ⟨?_, fun same => if_pos (Or.inr same)⟩
  split
  · rfl
  · exact q.metered_stats e n m ns

end
end Sys2Proof.Machine
end

section
/-! ## Requests as homes perform them (11_global_memory_membership R292, R293, R299, R302) -/
namespace Sys2Proof.Machine

/-! ### Interrupts and the registers above the tiles (01 R24, R25) -/

/-- The offset of a register above the tiles' windows, where the TICs and the cores' power registers lie. -/
abbrev AboveTiles (o : Nat) : Prop := 0x8000000 ≤ o

section
variable {o h : Nat} (above : AboveTiles o) (lt : h < 2048)
include above lt

theorem AboveTiles.ne_tic {k : Nat} (low : k < 0x1000) : o ≠ ticBase h + k := by
  unfold AboveTiles at above
  unfold ticBase tileBase
  omega

theorem AboveTiles.ne_power : o ≠ meshCpwr (h / 8) ∧ o ≠ meshL2pwr (h / 8 / 2) := by
  unfold AboveTiles at above
  unfold meshCpwr meshL2pwr meshBase tileBase
  rw [if_neg (by omega), if_pos (by omega)]
  omega

theorem Pkg.rd_putPend_above (s : Pkg) (v : Nat) (b : Bool) : (s.putPend h v b).rd o = s.rd o := by
  unfold Pkg.putPend
  split
  · exact Pkg.rd_wb_other _ _ _ _ _ (above.ne_tic lt (k := 0x20) (by decide))
  · exact Pkg.rd_wb_other _ _ _ _ _ (above.ne_tic lt (k := 8) (by decide))

theorem Pkg.rd_raiseVec_above (s : Pkg) (v : Nat) (fin : Word) : (s.raiseVec h v fin).rd o = s.rd o := by
  obtain ⟨core, l2⟩ := above.ne_power lt
  unfold Pkg.raiseVec
  extract_lets t
  have same : t.rd o = s.rd o := by
    unfold t
    split
    · rfl
    · split
      · rfl
      · split
        · rfl
        · rfl
  rw [Pkg.rd_ticChanged _ core l2, Pkg.rd_putPend_above above lt, same]

theorem Pkg.rd_msiIn_above {s : Pkg} (alone : s.tdmState = 0) (x : Nat) : (s.msiIn h x).rd o = s.rd o := by
  by_cases isVec : 64 ≤ x ∧ x ≤ 127
  · rw [Pkg.msiIn_vector alone h isVec, Pkg.ticSet_alone alone, Pkg.rd_raiseVec_above above lt]
  · have status : o ≠ ticStatus h := above.ne_tic lt (by decide)
    rw [Pkg.msiIn_bad alone h isVec, Pkg.rd_sat_other _ _ _ _ _ _ status, Pkg.rd_wb_other _ _ _ _ _ status]

end

/-- An interrupt writes registers of tiles alone. -/
theorem Pkg.rd_irqOf_above {s : Pkg} (alone : s.tdmState = 0) {o : Nat} (above : AboveTiles o) (x : Nat) : (s.irqOf x).rd o = s.rd o := by
  unfold Pkg.irqOf
  split
  · exact Pkg.rd_msiIn_above above (bits_lt ..) alone _
  · rfl

/-! ### What performing a request keeps -/

/-- The node's identity, the state of the pair, and the fabric but for write-backs are kept. -/
structure Pkg.Performs (w r : Pkg) : Prop where
  self : r.rd fabBase = w.rd fabBase
  still : r.tdmState = w.tdmState
  fab : r.fab = { w.fab with gq := r.fab.gq }

theorem Pkg.Performs.refl (w : Pkg) : w.Performs w := ⟨rfl, rfl, rfl⟩

theorem Pkg.AtHome.performs {w r : Pkg} (a : w.AtHome r) : w.Performs r := ⟨Pkg.rd_of_drs a.drs _, Pkg.tdmState_of_drs a.drs, a.fab⟩

section
variable {s w : Pkg} (only : s.OnlyTraffic w)
include only

theorem Pkg.OnlyTraffic.drs : w.drs = s.drs := by rw [only]
theorem Pkg.OnlyTraffic.mem : w.mem = s.mem := by rw [only]
theorem Pkg.OnlyTraffic.dsym : w.dsym = s.dsym := by rw [only]
theorem Pkg.OnlyTraffic.tdm : w.tdm = s.tdm := by rw [only]
theorem Pkg.OnlyTraffic.tdmState : w.tdmState = s.tdmState := Pkg.tdmState_of_drs only.drs

theorem Pkg.OnlyTraffic.inWindow (o n : Nat) : w.inWindow o n = s.inWindow o n := by
  rw [only]
  rfl

theorem Pkg.OnlyTraffic.winPa (o : Nat) : w.winPa o = s.winPa o := by
  rw [only]
  rfl

end

/-! ### FAB_RD, FAB_WR, FAB_ATOM and FAB_FLUSH -/

section
variable {s : Pkg} {src typ ts : Nat} {b : FPkt}

/-- Outside the window a read, write or atomic does nothing. -/
theorem Pkg.perform_outside (kind : typ ≠ 3) (out : s.inWindow (reqSpan b).1 (reqSpan b).2.1 = false) : s.perform src typ 0 ts b = (s, 2, 0, []) := by
  unfold Pkg.perform
  dsimp only
  rw [if_neg (by decide), if_neg kind, out]
  rfl

theorem Pkg.perform_flush : s.perform src 3 0 ts b = (s, 0, 0, []) := rfl

/-- What a read answers: its status and its bytes. -/
def Pkg.readStatus (s : Pkg) (b : FPkt) : Nat := if (s.readBytes (s.winPa (reqSpan b).1) (reqSpan b).2.1).2 then 1 else 0
def Pkg.readData (s : Pkg) (b : FPkt) : FPkt :=
  slotsOf (reqSpan b).2.1 (maskBytes (reqSpan b).2.2 (s.readBytes (s.winPa (reqSpan b).1) (reqSpan b).2.1).1)

theorem Pkg.perform_read (inside : s.inWindow (reqSpan b).1 (reqSpan b).2.1 = true) (clean : s.dsym = []) :
    s.perform src 0 0 ts b = (s, s.readStatus b, 0, s.readData b) := by
  unfold Pkg.perform
  dsimp only
  rw [if_neg (by decide), if_neg (by decide), inside, Pkg.seenBytes_clean clean]
  rfl

/-- A write within a line, poisoned where its request says so. -/
def Pkg.writeLine (s : Pkg) (b : FPkt) : Pkg :=
  let pa := s.winPa (reqSpan b).1
  let t := s.homeWriteMasked (pa / 64) (BitVec.ofNat 64 ((reqSpan b).2.2 * 2 ^ (pa % 64))) (BitVec.ofNat 512 (slotsNat (b.drop 1) * 256 ^ (pa % 64)))
  if (b.getD 0 0#128).getLsbD 104 then t.homePoison (pa / 64) else t

theorem Pkg.perform_write (inside : s.inWindow (reqSpan b).1 (reqSpan b).2.1 = true) (line : s.winPa (reqSpan b).1 % 64 + (reqSpan b).2.1 ≤ 64) :
    s.perform src 1 0 ts b = (s.writeLine b, 0, 0, []) := by
  have some_ : 0 < (reqSpan b).2.1 := Nat.mul_pos (by decide) (Nat.succ_pos _)
  have lines : s.reqLines 0 1 b = [s.winPa (reqSpan b).1 / 64] := by
    unfold Pkg.reqLines
    dsimp only
    rw [if_neg (by decide), if_pos (by decide), show (s.winPa (reqSpan b).1 + (reqSpan b).2.1 - 1) / 64 - s.winPa (reqSpan b).1 / 64 + 1 = 1 by omega]
    simp
  have start : 64 * (s.winPa (reqSpan b).1 / 64) ≤ s.winPa (reqSpan b).1 := Nat.mul_div_le ..
  have place : s.winPa (reqSpan b).1 - 64 * (s.winPa (reqSpan b).1 / 64) = s.winPa (reqSpan b).1 % 64 := by omega
  unfold Pkg.perform
  dsimp only
  rw [if_neg (by decide), if_neg (by decide), inside, lines, List.foldl_cons, List.foldl_nil, if_pos start, if_pos start, place]
  rfl

/-- The atomic operation that a request of w bytes asks for. -/
def reqAtom (b : FPkt) (w : Nat) : AtomOp :=
  { op := pk b 0 100 97, n := w, x := (if pk b 0 100 97 ≤ 1 then slotsNat (b.drop 1) / 2 ^ (8 * w) else slotsNat (b.drop 1)) % 2 ^ (8 * w)
    cmp := slotsNat (b.drop 1) % 2 ^ (8 * w), rm := pk b 0 103 101 }

theorem Pkg.perform_atomic (inside : s.inWindow (reqSpan b).1 (reqSpan b).2.1 = true) (clean : s.dsym = []) (untracked : s.tdm.track = false)
    (whole : (s.homeRead (s.winPa (reqSpan b).1 + (atomSpan (pk b 0 100 97) (pk b 0 49 42)).2) (atomSpan (pk b 0 100 97) (pk b 0 49 42)).1).2 = false) :
    let w := atomSpan (pk b 0 100 97) (pk b 0 49 42)
    let old := (s.homeRead (s.winPa (reqSpan b).1 + w.2) w.1).1
    ∃ r, s.perform src 2 0 ts b = (r, 0, ((reqAtom b w.1).apply old).2, slotsOf w.1 old) ∧ s.AtHome r := by
  intro w old
  have taken := Pkg.atHome_homeTake clean (s.winPa (reqSpan b).1 + w.2) w.1
  have poison : (s.homeTake (s.winPa (reqSpan b).1 + w.2) w.1).2.2 = false := whole
  unfold Pkg.perform
  dsimp only
  rw [if_neg (by decide), if_neg (by decide), inside]
  simp only [Bool.not_true, Bool.false_eq_true, if_false]
  rw [if_neg (by rw [poison]; decide)]
  refine ⟨_, rfl, ?_⟩
  split
  · exact taken.trans (Pkg.atHome_homeWriteMasked (by rw [taken.tdm]; exact untracked) (Or.inr (by rw [taken.dsym]; exact clean)) _ _)
  · exact taken

end

/-! ### A write of a line that no cache holds -/

theorem Pkg.atHome_writeLine {s : Pkg} (clean : s.dsym = []) (untracked : s.tdm.track = false) (b : FPkt) : s.AtHome (s.writeLine b) := by
  have written := Pkg.atHome_homeWriteMasked (s := s) untracked (Or.inr clean) (s.winPa (reqSpan b).1 / 64)
    (be := BitVec.ofNat 64 ((reqSpan b).2.2 * 2 ^ (s.winPa (reqSpan b).1 % 64))) (BitVec.ofNat 512 (slotsNat (b.drop 1) * 256 ^ (s.winPa (reqSpan b).1 % 64)))
  unfold Pkg.writeLine
  dsimp only
  split
  · exact written.trans (Pkg.atHome_homePoison _)
  · exact written

theorem Pkg.Uncached.curLine_homePoison {t : Pkg} {line : Nat} (u : t.Uncached line) (loc : isGlobal line = false) :
    (t.homePoison line).curLine line = ((t.curLine line).1, true) := (u.homePoison loc).curLine u loc

/-- The line has the bytes of the write that it enables, poisoned or not. -/
theorem Pkg.curLine_writeLine {s : Pkg} {b : FPkt} (u : s.Uncached (s.winPa (reqSpan b).1 / 64)) (loc : isGlobal (s.winPa (reqSpan b).1 / 64) = false)
    (clean : s.dsym = []) (untracked : s.tdm.track = false) :
    ((s.writeLine b).curLine (s.winPa (reqSpan b).1 / 64)).1
      = putBytes (BitVec.ofNat 64 ((reqSpan b).2.2 * 2 ^ (s.winPa (reqSpan b).1 % 64)))
        (BitVec.ofNat 512 (slotsNat (b.drop 1) * 256 ^ (s.winPa (reqSpan b).1 % 64))) (s.curLine (s.winPa (reqSpan b).1 / 64)).1 := by
  unfold Pkg.writeLine
  dsimp only
  generalize s.winPa (reqSpan b).1 / 64 = line at *
  generalize BitVec.ofNat 64 ((reqSpan b).2.2 * 2 ^ (s.winPa (reqSpan b).1 % 64)) = be
  generalize BitVec.ofNat 512 (slotsNat (b.drop 1) * 256 ^ (s.winPa (reqSpan b).1 % 64)) = x
  have queues := u.homeWriteMasked loc clean untracked be x
  have written := queues.curLine u loc
  obtain ⟨cores, l2, l3, -⟩ := queues
  have still : (s.homeWriteMasked line be x).Uncached line := u.of_eq cores l2 l3
  generalize s.homeWriteMasked line be x = t at *
  split
  · rw [still.curLine_homePoison loc, written]
  · rw [written]

/-! ### FAB_MSG (R302) -/

/-- The receive queue of a message, its TAIL, and whether it has no room. -/
def rqOf (b : FPkt) : Nat := fabBase + 0x40000 + 0x40 * pk b 0 42 37
def Pkg.rqTail (s : Pkg) (b : FPkt) : Nat := s.rf (rqOf b + 0x10) 15 0
def Pkg.rqFull (s : Pkg) (b : FPkt) : Prop := (s.rqTail b + 1) % 2 ^ s.rf (rqOf b) 5 1 = s.rf (rqOf b + 8) 15 0 % 2 ^ s.rf (rqOf b) 5 1

/-- A message as it lies in its queue: 128 bytes. -/
def msgBytes (src ts : Nat) (b : FPkt) : List (BitVec 8) := leBytes 8 src ++ leBytes 8 ts ++ leBytes 48 0 ++ leBytes 64 (slotsNat (b.drop 1))

theorem length_msgBytes (src ts : Nat) (b : FPkt) : (msgBytes src ts b).length = 128 := by simp [msgBytes, leBytes]

theorem aboveTiles_rq (b : FPkt) : AboveTiles (rqOf b + 0x10) := by
  unfold AboveTiles rqOf fabBase
  omega

/-- The message lies in its queue, and TAIL has advanced. -/
def Pkg.put (s : Pkg) (src ts : Nat) (b : FPkt) : Pkg :=
  (s.writeBytes (s.rf (rqOf b) 51 12 * 4096 + 128 * s.rqTail b) (msgBytes src ts b)).wf (rqOf b + 0x10) 15 0 ((s.rqTail b + 1) % 2 ^ s.rf (rqOf b) 5 1)

section
variable {s : Pkg} (src ts : Nat) (b : FPkt)

theorem Pkg.receive_disabled (off : s.rb (rqOf b) 0 = false) : s.receive src ts b = (s, 6) := by
  unfold rqOf at off
  unfold Pkg.receive
  dsimp only
  rw [off]
  rfl

theorem Pkg.receive_full (on : s.rb (rqOf b) 0 = true) (full : s.rqFull b) : s.receive src ts b = (s, 5) := by
  unfold rqOf at on
  unfold Pkg.rqFull Pkg.rqTail rqOf at full
  unfold Pkg.receive
  dsimp only
  rw [on, if_pos full]
  rfl

theorem Pkg.receive_room (on : s.rb (rqOf b) 0 = true) (room : ¬ s.rqFull b) :
    s.receive src ts b = (if s.rf (rqOf b + 8) 15 0 = s.rqTail b then (s.put src ts b).irqOf (rqOf b + 0x18) else s.put src ts b, 0) := by
  unfold rqOf at on
  unfold Pkg.rqFull Pkg.rqTail rqOf at room
  unfold Pkg.receive
  dsimp only
  rw [on, if_neg room]
  rfl

theorem Pkg.perform_message {r : Pkg} {st : Nat} (does : s.receive src ts b = (r, st)) (typ : Nat) : s.perform src typ 2 ts b = (r, st, 0, []) := by
  unfold Pkg.perform
  dsimp only
  rw [if_pos rfl, does]

variable (untracked : s.tdm.track = false)
include untracked

/-- A message takes whole lines, so no line of DRAM is read. -/
theorem Pkg.put_does : s.Performs (s.put src ts b) ∧ (s.put src ts b).rqTail b = (s.rqTail b + 1) % 2 ^ s.rf (rqOf b) 5 1 % 65536 := by
  have lies : s.AtHome (s.writeBytes (s.rf (rqOf b) 51 12 * 4096 + 128 * s.rqTail b) (msgBytes src ts b)) :=
    Pkg.atHome_writeBytes untracked (by omega) (by rw [length_msgBytes])
  obtain ⟨self, still, fab⟩ := lies.performs
  have node : fabBase ≠ rqOf b + 0x10 := by
    unfold rqOf
    omega
  have pair : tdmBase ≠ rqOf b + 0x10 := by
    unfold rqOf fabBase tdmBase footBase
    omega
  refine ⟨⟨(Pkg.rd_wf_other _ _ _ _ _ _ node).trans self, ?_, fab⟩, Pkg.rf_wf_same _ _ _ _ _ (by decide) (by decide)⟩
  exact (Pkg.rf_wf_apart _ 15 0 _ pair 3 0).trans still

/-- The status of a message. -/
theorem Pkg.receive_does (alone : s.tdmState = 0) {st : Nat} (status : (s.rb (rqOf b) 0 = false ∧ st = 6) ∨ (s.rb (rqOf b) 0 = true ∧ s.rqFull b ∧ st = 5)
      ∨ (s.rb (rqOf b) 0 = true ∧ ¬ s.rqFull b ∧ st = 0)) :
    ∃ t, s.receive src ts b = (t, st) ∧ s.Performs t ∧ t.rqTail b = if st = 0 then (s.rqTail b + 1) % 2 ^ s.rf (rqOf b) 5 1 % 65536 else s.rqTail b := by
  rcases status with ⟨off, rfl⟩ | ⟨on, full, rfl⟩ | ⟨on, room, rfl⟩
  · exact ⟨s, Pkg.receive_disabled src ts b off, .refl s, rfl⟩
  · exact ⟨s, Pkg.receive_full src ts b on full, .refl s, rfl⟩
  · obtain ⟨⟨self, still, fab⟩, tail⟩ := Pkg.put_does src ts b untracked
    refine ⟨_, Pkg.receive_room src ts b on room, ?_⟩
    generalize s.put src ts b = u at *
    have alone' := still.trans alone
    split
    · refine ⟨⟨(Pkg.rd_irqOf_above alone' (by decide) _).trans self, ?_, ?_⟩, ?_⟩
      · rw [← still]
        unfold Pkg.tdmState Pkg.rf
        rw [Pkg.rd_irqOf_above alone' (by decide)]
      · rw [((Pkg.OnlySignals.refl u).irqOf _).fab]
        exact fab
      · rw [if_pos rfl, ← tail]
        unfold Pkg.rqTail Pkg.rf
        rw [Pkg.rd_irqOf_above alone' (aboveTiles_rq b)]
    · exact ⟨⟨self, still, fab⟩, tail⟩

end
end Sys2Proof.Machine
end

section
/-! ## Requests that homes take (11_global_memory_membership R295 to R297, R302) -/
namespace Sys2Proof.Machine

/-- q answers a request of source src for the first time: EXP passes it, the journal keeps its answer e, and the answer is sent. -/
def Pkg.AnswersOnce (s q : Pkg) (src : Nat) (jrn : List JEnt) (e : JEnt) : Prop :=
  (q.homeS src).exp = (e.seq + 1) % 65536 ∧ (q.homeS src).jrn = jrn ++ [e]
    ∧ ∃ x, s.Sent q (s.unqueue 0).fab.ejq x ∧ pkDst x = src ∧ pkClass x = 1 ∧ pk x 1 15 0 = e.seq ∧ pk x 1 38 36 = e.status

theorem Pkg.AnswersOnce.metered {s q r : Pkg} {src : Nat} {jrn : List JEnt} {e : JEnt} (k : s.AnswersOnce q src jrn e) (m : q.Metered r) :
    s.AnswersOnce r src jrn e := by
  rw [m]
  exact k

/-- The answer that goes once its request has been performed in r. -/
theorem Pkg.answersOnce_respond {s r : Pkg} (alone : r.tdmState = 0) (self : r.rd fabBase = s.rd fabBase) (inj : r.fab.inj = s.fab.inj)
    (ejq : r.fab.ejq = (s.unqueue 0).fab.ejq) {src : Nat} (device : src < 2 ^ 15) {h : HomeStream} (epoch : h.epoch < 16) (low : Nat) {e : JEnt} (number : e.seq < 65536)
    (known : e.status < 8) (short : e.data.length < 30) (g : Nat) :
    let q := (r.setHome src (h.answering low e)).respond src e.tag e.seq e.status e.dfl e.data g true
    s.AnswersOnce q src (h.freed low).jrn e ∧ q.drs = r.drs ∧ q.mem = r.mem := by
  have stream := r.homeS_setHome_same src (h.answering low e)
  have packets := Pkg.onlyPackets_respond (s := r.setHome src (h.answering low e)) alone src e.tag e.seq e.status e.dfl e.data g true
  obtain ⟨sent, dest, class_, seq, -, status⟩ := Pkg.answers_respond (s := r.setHome src (h.answering low e)) (p := s) alone self inj device
    (by rw [stream]; exact epoch) number known e.tag e.dfl short g true
  rw [show (r.setHome src (h.answering low e)).fab.ejq = (s.unqueue 0).fab.ejq from ejq] at sent
  have kept := (packets.homeS src).trans stream
  refine ⟨⟨congrArg HomeStream.exp kept, congrArg HomeStream.jrn kept, _, sent, dest, class_, seq, status ?_⟩, packets.drs, packets.mem⟩
  rw [stream]
  exact Nat.mod_lt _ (by decide)

section
variable {s : Pkg} {cls typ : Nat} {p : FPkt}

/-- The journal that a packet's request leaves of its stream, and whether it has room for an answer. -/
def Pkg.journal (s : Pkg) (p : FPkt) : List JEnt := ((s.homeS (pkSrc p)).freed (pk (p.drop 1) 0 35 20)).jrn
def Pkg.journalRoom (s : Pkg) (p : FPkt) : Prop := s.othersJournal (pkSrc p) + (s.journal p).length < 2 ^ s.rf (fabBase + 0x110) 4 0

section
variable (alone : s.tdmState = 0) (home : s.homeLive = true) (first : s.ejected cls typ = some (0, p))
include alone home first

/-- A request that came before is not performed again. -/
theorem Pkg.fabTake_repeated (epoch : pk (p.drop 1) 0 19 16 = (s.homeS (pkSrc p)).epoch) (before : 1 ≤ (s.homeS (pkSrc p)).behind (p.drop 1))
    (near : (s.homeS (pkSrc p)).behind (p.drop 1) ≤ 4096) :
    let q := s.fabTake cls typ
    (q.homeS (pkSrc p)).exp = (s.homeS (pkSrc p)).exp ∧ (q.homeS (pkSrc p)).jrn = (s.homeS (pkSrc p)).jrn ∧ q.mem = s.mem ∧ q.mcs = s.mcs ∧ q.drs = s.drs
      ∧ q.threads = s.threads := by
  obtain ⟨k, -, same⟩ := Pkg.fabTake_metered alone home first
  have stream := s.homeS_ported (pkSrc p) k
  have again := Pkg.homeReq_repeated (s := s.ported (pkSrc p) k) (src := pkSrc p) (typ := typ) (cls := cls) (tag := pkTag p) (ts := pk p 0 127 64) (b := p.drop 1) alone
    (by rw [stream]; exact epoch) (by rw [stream]; exact before) (by rw [stream]; exact near)
  rw [stream] at again
  intro q
  rw [show q = _ from same again.1]
  exact again

theorem Pkg.fabTake_discarded (joined : s.rf (fabBase + 0x128) 2 0 ≠ 3) (still : pk (p.drop 1) 0 19 16 ≠ ((s.homeS (pkSrc p)).epoch + 1) % 16)
    (out : pk (p.drop 1) 0 19 16 ≠ (s.homeS (pkSrc p)).epoch ∨ 4096 < (s.homeS (pkSrc p)).behind (p.drop 1)) :
    ∃ k, s.fabTake cls typ = (s.ported (pkSrc p) k).sat (fabBase + 0x138) 47 32 := by
  obtain ⟨k, -, same⟩ := Pkg.fabTake_metered alone home first
  have stream := s.homeS_ported (pkSrc p) k
  have dropped := Pkg.homeReq_discarded (s := s.ported (pkSrc p) k) (src := pkSrc p) (typ := typ) (cls := cls) (tag := pkTag p) (ts := pk p 0 127 64) (b := p.drop 1)
    joined (by rw [stream]; exact still) (by rw [stream]; exact out)
  rw [dropped] at same
  have exp : ((s.ported (pkSrc p) k).homeS (pkSrc p)).exp = (s.homeS (pkSrc p)).exp := by rw [stream]
  exact ⟨k, same exp⟩

variable (joined : s.rf (fabBase + 0x128) 2 0 ≠ 3) (epoch : pk (p.drop 1) 0 19 16 = (s.homeS (pkSrc p)).epoch)
  (next : (s.homeS (pkSrc p)).behind (p.drop 1) = 0)
include joined epoch next

/-- The expected request that is answered: what holds of the package that performs it, and what the answer is. -/
theorem Pkg.fabTake_answers {P : Pkg → Prop} (kind : answeredKind cls typ) (room : s.journalRoom p) {st fl : Nat} {data : FPkt} (known : st < 8) (short : data.length < 30)
    (does : ∀ w, s.OnlyTraffic w → ∃ r, w.perform (pkSrc p) typ cls (pk p 0 127 64) (p.drop 1) = (r, st, fl, data) ∧ w.Performs r ∧ P r) :
    ∃ r, P r ∧ s.AnswersOnce (s.fabTake cls typ) (pkSrc p) (s.journal p) ⟨pk (p.drop 1) 0 15 0, st, fl, data, pkTag p, pk p 0 127 64⟩
      ∧ (s.fabTake cls typ).drs = r.drs ∧ (s.fabTake cls typ).mem = r.mem := by
  obtain ⟨k, metered, -⟩ := Pkg.fabTake_metered alone home first
  obtain ⟨r, performs, ⟨self, still, fab⟩, holds⟩ := does (s.ported (pkSrc p) k) rfl
  have stream := s.homeS_ported (pkSrc p) k
  have room' : (s.ported (pkSrc p) k).othersJournal (pkSrc p) + (((s.ported (pkSrc p) k).homeS (pkSrc p)).freed (pk (p.drop 1) 0 35 20)).jrn.length
      < 2 ^ (s.ported (pkSrc p) k).rf (fabBase + 0x110) 4 0 := by
    rw [stream, Pkg.ported, Pkg.othersJournal_setHome]
    exact room
  rw [Pkg.homeReq_answers (s := s.ported (pkSrc p) k) (tag := pkTag p) alone joined (by rw [stream]; exact epoch) (by rw [stream]; exact next) performs kind room',
    stream] at metered
  obtain ⟨once, drs, mem⟩ := Pkg.answersOnce_respond (s := s) (r := r) (still.trans alone) self (by rw [fab]; rfl) (by rw [fab]; rfl) (pkSrc_lt p)
    (h := { s.homeS (pkSrc p) with port := k }) (epoch ▸ pk_lt (p.drop 1) 0 19 16) (pk (p.drop 1) 0 35 20)
    (e := ⟨pk (p.drop 1) 0 15 0, st, fl, data, pkTag p, pk p 0 127 64⟩) (pk_lt (p.drop 1) 0 15 0) known short s.tdm.gsn
  refine ⟨r, holds, once.metered metered, ?_, ?_⟩
  · rw [metered]
    exact drs
  · rw [metered]
    exact mem

/-- The expected request that is acknowledged: what holds of the package that performs it. -/
theorem Pkg.fabTake_acknowledges {P : Pkg → Prop} (kind : ¬ answeredKind cls typ)
    (does : ∀ w, s.OnlyTraffic w → ∃ r, w.perform (pkSrc p) typ cls (pk p 0 127 64) (p.drop 1) = (r, 0, 0, []) ∧ w.Performs r ∧ P r) :
    ∃ r h, P r ∧ r.tdmState = 0 ∧ r.rd fabBase = s.rd fabBase ∧ r.fab.inj = s.fab.inj ∧ r.fab.ejq = (s.unqueue 0).fab.ejq
      ∧ h.exp = (pk (p.drop 1) 0 15 0 + 1) % 65536 ∧ h.acks = (s.homeS (pkSrc p)).acks + 1 ∧ h.epoch = (s.homeS (pkSrc p)).epoch
      ∧ Pkg.Metered (if typ = 3 then (r.setHome (pkSrc p) h).cumAck (pkSrc p) else r.setHome (pkSrc p) h) (s.fabTake cls typ) := by
  obtain ⟨k, metered, -⟩ := Pkg.fabTake_metered alone home first
  obtain ⟨r, performs, ⟨self, still, fab⟩, holds⟩ := does (s.ported (pkSrc p) k) rfl
  have stream := s.homeS_ported (pkSrc p) k
  have alone' := still.trans alone
  rw [Pkg.homeReq_acknowledges (s := s.ported (pkSrc p) k) (tag := pkTag p) alone joined (by rw [stream]; exact epoch) (by rw [stream]; exact next) performs kind rfl
    alone', stream] at metered
  exact ⟨r, HomeStream.owing { s.homeS (pkSrc p) with port := k } (pk (p.drop 1) 0 35 20) (pk (p.drop 1) 0 15 0) r.now, holds, alone', self, by rw [fab]; rfl,
    by rw [fab]; rfl, rfl, rfl, rfl, metered⟩

end

section
variable (alone : s.tdmState = 0) (home : s.homeLive = true) (joined : s.rf (fabBase + 0x128) 2 0 ≠ 3)
  (epoch : pk (p.drop 1) 0 19 16 = (s.homeS (pkSrc p)).epoch) (next : (s.homeS (pkSrc p)).behind (p.drop 1) = 0)
include alone home joined epoch next

/-- The response to a request of the first packet. -/
def reqAnswer (p : FPkt) (st fl : Nat) (data : FPkt) : JEnt := ⟨pk (p.drop 1) 0 15 0, st, fl, data, pkTag p, pk p 0 127 64⟩

theorem Pkg.fabRd_outside (first : s.ejected 0 0 = some (0, p)) (room : s.journalRoom p) (out : s.inWindow (reqSpan (p.drop 1)).1 (reqSpan (p.drop 1)).2.1 = false) :
    s.AnswersOnce (s.fabTake 0 0) (pkSrc p) (s.journal p) (reqAnswer p 2 0 []) ∧ (s.fabTake 0 0).drs = s.drs ∧ (s.fabTake 0 0).mem = s.mem := by
  obtain ⟨r, ⟨drs, mem⟩, once, drs', mem'⟩ := Pkg.fabTake_answers (P := fun r => r.drs = s.drs ∧ r.mem = s.mem) alone home first joined epoch next (Or.inr (Or.inl rfl))
    room (st := 2) (fl := 0) (data := []) (by decide) (by decide)
    fun w only => ⟨w, Pkg.perform_outside (by decide) ((only.inWindow _ _).trans out), .refl w, only.drs, only.mem⟩
  exact ⟨once, drs'.trans drs, mem'.trans mem⟩

/-- What a read answers is what the lines hold, whatever the fabric's queues hold. -/
theorem Pkg.fabRd_inside (first : s.ejected 0 0 = some (0, p)) (room : s.journalRoom p) (inside : s.inWindow (reqSpan (p.drop 1)).1 (reqSpan (p.drop 1)).2.1 = true)
    (clean : s.dsym = []) :
    s.AnswersOnce (s.fabTake 0 0) (pkSrc p) (s.journal p) (reqAnswer p (s.readStatus (p.drop 1)) 0 (s.readData (p.drop 1))) ∧ (s.fabTake 0 0).drs = s.drs
      ∧ (s.fabTake 0 0).mem = s.mem := by
  have known : s.readStatus (p.drop 1) < 8 := by
    unfold Pkg.readStatus
    split <;> decide
  have short : (s.readData (p.drop 1)).length < 30 := by
    have words : pk (p.drop 1) 0 41 37 < 32 := pk_lt ..
    unfold Pkg.readData slotsOf reqSpan
    dsimp only
    rw [List.length_map, List.length_range]
    omega
  obtain ⟨r, ⟨drs, mem⟩, once, drs', mem'⟩ := Pkg.fabTake_answers (P := fun r => r.drs = s.drs ∧ r.mem = s.mem) alone home first joined epoch next (Or.inr (Or.inl rfl))
    room (fl := 0) known short fun w only => by
      refine ⟨w, ?_, .refl w, only.drs, only.mem⟩
      rw [Pkg.perform_read ((only.inWindow _ _).trans inside) (only.dsym.trans clean)]
      unfold Pkg.readStatus Pkg.readData
      rw [only.winPa, only.readBytes]
  exact ⟨once, drs'.trans drs, mem'.trans mem⟩

theorem Pkg.fabAtom_does (untracked : s.tdm.track = false) (first : s.ejected 0 2 = some (0, p)) (room : s.journalRoom p)
    (inside : s.inWindow (reqSpan (p.drop 1)).1 (reqSpan (p.drop 1)).2.1 = true) (clean : s.dsym = []) {w : Nat × Nat}
    (span : atomSpan (pk (p.drop 1) 0 100 97) (pk (p.drop 1) 0 49 42) = w) (whole : (s.homeRead (s.winPa (reqSpan (p.drop 1)).1 + w.2) w.1).2 = false) :
    ∃ fl, s.AnswersOnce (s.fabTake 0 2) (pkSrc p) (s.journal p) (reqAnswer p 0 fl (slotsOf w.1 (s.homeRead (s.winPa (reqSpan (p.drop 1)).1 + w.2) w.1).1))
      ∧ (s.fabTake 0 2).drs = s.drs := by
  subst span
  have short (x : Nat) : (slotsOf (atomSpan (pk (p.drop 1) 0 100 97) (pk (p.drop 1) 0 49 42)).1 x).length < 30 := by
    unfold slotsOf atomSpan
    rw [List.length_map, List.length_range]
    split
    · decide
    · split
      · decide
      · split <;> decide
  obtain ⟨r, drs, once, drs', -⟩ := Pkg.fabTake_answers (P := fun r => r.drs = s.drs) alone home first joined epoch next (Or.inr (Or.inr rfl)) room (st := 0) (by decide)
    (short _) fun w only => by
      have read := only.homeRead
      obtain ⟨r, performs, at_⟩ := Pkg.perform_atomic (s := w) (src := pkSrc p) (ts := pk p 0 127 64) ((only.inWindow _ _).trans inside) (only.dsym.trans clean)
        (by rw [only.tdm]; exact untracked) (by rw [only.winPa, read]; exact whole)
      rw [only.winPa, read] at performs
      exact ⟨r, performs, at_.performs, at_.drs.trans only.drs⟩
  exact ⟨_, once, drs'.trans drs⟩

/-- The bytes that FAB_WR writes. -/
theorem Pkg.fabWr_does (untracked : s.tdm.track = false) (first : s.ejected 0 1 = some (0, p)) (inside : s.inWindow (reqSpan (p.drop 1)).1 (reqSpan (p.drop 1)).2.1 = true)
    (line : s.winPa (reqSpan (p.drop 1)).1 % 64 + (reqSpan (p.drop 1)).2.1 ≤ 64) (u : s.Uncached (s.winPa (reqSpan (p.drop 1)).1 / 64))
    (loc : isGlobal (s.winPa (reqSpan (p.drop 1)).1 / 64) = false) (clean : s.dsym = []) :
    let q := s.fabTake 0 1
    let pa := s.winPa (reqSpan (p.drop 1)).1
    (q.homeS (pkSrc p)).exp = (pk (p.drop 1) 0 15 0 + 1) % 65536 ∧ (q.homeS (pkSrc p)).acks = (s.homeS (pkSrc p)).acks + 1
      ∧ (q.curLine (pa / 64)).1 = putBytes (BitVec.ofNat 64 ((reqSpan (p.drop 1)).2.2 * 2 ^ (pa % 64)))
        (BitVec.ofNat 512 (slotsNat ((p.drop 1).drop 1) * 256 ^ (pa % 64))) (s.curLine (pa / 64)).1
      ∧ q.drs = s.drs ∧ q.mem = s.mem := by
  intro q pa
  obtain ⟨r, h, ⟨drs, mem, bytes⟩, -, -, -, -, exp, acks, -, metered⟩ := Pkg.fabTake_acknowledges
    (P := fun r => r.drs = s.drs ∧ r.mem = s.mem ∧ (r.curLine (pa / 64)).1 = putBytes (BitVec.ofNat 64 ((reqSpan (p.drop 1)).2.2 * 2 ^ (pa % 64)))
        (BitVec.ofNat 512 (slotsNat ((p.drop 1).drop 1) * 256 ^ (pa % 64))) (s.curLine (pa / 64)).1)
    alone home first joined epoch next (by simp [answeredKind]) fun w only => by
      have at_ : w.AtHome (w.writeLine (p.drop 1)) := Pkg.atHome_writeLine (only.dsym.trans clean) (by rw [only.tdm]; exact untracked) _
      have same := only.winPa (reqSpan (p.drop 1)).1
      have uncached : w.Uncached (w.winPa (reqSpan (p.drop 1)).1 / 64) := by
        rw [same]
        exact u.of_eq (by rw [only]) (by rw [only]) (by rw [only])
      have bytes := Pkg.curLine_writeLine uncached (by rw [same]; exact loc) (only.dsym.trans clean) (by rw [only.tdm]; exact untracked)
      rw [same, only.curLine] at bytes
      exact ⟨_, Pkg.perform_write ((only.inWindow _ _).trans inside) (by rw [same]; exact line), at_.performs, at_.drs.trans only.drs, at_.mem.trans only.mem, bytes⟩
  rw [if_neg (by decide)] at metered
  have stream : q.homeS (pkSrc p) = h := by
    rw [show q = _ from metered]
    exact r.homeS_setHome_same (pkSrc p) h
  have lines : r.OnlyTraffic q := by
    rw [show q = _ from metered]
    rfl
  rw [stream, lines.curLine]
  exact ⟨exp, acks, bytes, lines.drs.trans drs, lines.mem.trans mem⟩

theorem Pkg.fabFlush_does (first : s.ejected 0 3 = some (0, p)) :
    let q := s.fabTake 0 3
    (q.homeS (pkSrc p)).exp = (pk (p.drop 1) 0 15 0 + 1) % 65536 ∧ (q.homeS (pkSrc p)).acks = 0
      ∧ (∃ x, s.Sent q (s.unqueue 0).fab.ejq x ∧ pkDst x = pkSrc p ∧ pkClass x = 1 ∧ pk x 1 35 20 = (pk (p.drop 1) 0 15 0 + 1) % 65536)
      ∧ q.drs = s.drs ∧ q.mem = s.mem := by
  intro q
  obtain ⟨r, h, ⟨drs, mem⟩, alone', self, inj, ejq, exp, -, era, metered⟩ := Pkg.fabTake_acknowledges (P := fun r => r.drs = s.drs ∧ r.mem = s.mem)
    alone home first joined epoch next (by simp [answeredKind]) fun w only => ⟨w, Pkg.perform_flush, .refl w, only.drs, only.mem⟩
  rw [if_pos rfl] at metered
  have stream := r.homeS_setHome_same (pkSrc p) h
  have acked := Pkg.homeS_cumAck (s := r.setHome (pkSrc p) h) alone' (pkSrc p)
  have keeps := Pkg.cumAck_keeps (s := r.setHome (pkSrc p) h) alone' (pkSrc p)
  obtain ⟨x, sent, dest, class_, told⟩ := Pkg.cumAck_answers (s := r.setHome (pkSrc p) h) (p := s) alone' self inj (pkSrc_lt p)
    (by rw [stream, era, ← epoch]; exact pk_lt (p.drop 1) 0 19 16)
  rw [show (r.setHome (pkSrc p) h).fab.ejq = (s.unqueue 0).fab.ejq from ejq] at sent
  rw [stream, exp] at told
  rw [stream] at acked
  have final : q.homeS (pkSrc p) = h.acked r.now := by
    rw [show q = _ from metered]
    exact acked
  rw [final]
  refine ⟨exp, rfl, ⟨x, ?_, dest, class_, told.trans (Nat.mod_mod _ _)⟩, ?_, ?_⟩
  · rw [show q = _ from metered]
    exact sent
  · rw [show q = _ from metered]
    exact keeps.drs.trans drs
  · rw [show q = _ from metered]
    exact keeps.mem.trans mem

theorem Pkg.fabMsg_does (untracked : s.tdm.track = false) (first : s.ejected 2 0 = some (0, p)) (room : s.journalRoom p) {st : Nat}
    (status : (s.rb (rqOf (p.drop 1)) 0 = false ∧ st = 6) ∨ (s.rb (rqOf (p.drop 1)) 0 = true ∧ s.rqFull (p.drop 1) ∧ st = 5)
      ∨ (s.rb (rqOf (p.drop 1)) 0 = true ∧ ¬ s.rqFull (p.drop 1) ∧ st = 0)) :
    s.AnswersOnce (s.fabTake 2 0) (pkSrc p) (s.journal p) (reqAnswer p st 0 [])
      ∧ (s.fabTake 2 0).rqTail (p.drop 1) = if st = 0 then (s.rqTail (p.drop 1) + 1) % 2 ^ s.rf (rqOf (p.drop 1)) 5 1 % 65536 else s.rqTail (p.drop 1) := by
  obtain ⟨r, tail, once, drs, -⟩ := Pkg.fabTake_answers
    (P := fun r => r.rqTail (p.drop 1) = if st = 0 then (s.rqTail (p.drop 1) + 1) % 2 ^ s.rf (rqOf (p.drop 1)) 5 1 % 65536 else s.rqTail (p.drop 1))
    alone home first joined epoch next (Or.inl rfl) room (st := st) (fl := 0) (data := []) (by omega) (by decide) fun w only => by
      have reg (o a b : Nat) : w.rf o a b = s.rf o a b := Pkg.rf_of_drs only.drs ..
      have enabled : w.rb (rqOf (p.drop 1)) 0 = s.rb (rqOf (p.drop 1)) 0 := Pkg.rb_of_drs only.drs ..
      have tail : w.rqTail (p.drop 1) = s.rqTail (p.drop 1) := reg ..
      have full : w.rqFull (p.drop 1) ↔ s.rqFull (p.drop 1) := by
        unfold Pkg.rqFull
        rw [tail, reg, reg]
      obtain ⟨r, received, kept, after⟩ := Pkg.receive_does (s := w) (pkSrc p) (pk p 0 127 64) (p.drop 1) (by rw [only.tdm]; exact untracked)
        (only.tdmState.trans alone) (by rw [enabled, full]; exact status)
      rw [tail, reg] at after
      exact ⟨r, Pkg.perform_message (pkSrc p) (pk p 0 127 64) (p.drop 1) received 0, kept, after⟩
  exact ⟨once, (Pkg.rf_of_drs drs ..).trans tail⟩

end

/-! ### FAB_RELEASE (R297) -/

theorem Pkg.fabRelease_other (home : s.homeLive = true) (first : s.ejected 0 4 = some (0, p)) (other : pk p 1 19 16 ≠ (s.homeS (pkSrc p)).epoch) :
    s.fabRelease = s.unqueue 0 := by
  unfold Pkg.fabRelease
  rw [first, home]
  exact if_pos other

theorem Pkg.fabRelease_frees (home : s.homeLive = true) (first : s.ejected 0 4 = some (0, p)) (epoch : pk p 1 19 16 = (s.homeS (pkSrc p)).epoch) :
    s.fabRelease = (s.unqueue 0).setHome (pkSrc p) ((s.homeS (pkSrc p)).freed (pk p 1 35 20)) := by
  unfold Pkg.fabRelease
  rw [first, home]
  exact if_neg (not_not_intro epoch)

/-! ### The statement -/

/-- Settles O36: each kind of request as the lemma about it says, and a request out of turn as `Pkg.fabTake_repeated` and `Pkg.fabTake_discarded` say. -/
theorem homesPerformRequestsOnce : Obligations.HomesPerformRequestsOnce := by
  intro s p live alone home joined untracked src h b seq ep d jrn o n en pa p0 cmd sent room
  have run {typ : Nat} (kind : typ ≤ 3) : exec (cmd typ) s = .next (s.withPkg (s.pkg.fabTake 0 typ)) := by
    have kinds : typ = 0 ∨ typ = 1 ∨ typ = 2 ∨ typ = 3 := by omega
    rcases kinds with rfl | rfl | rfl | rfl
    · exact State.run_live _ live
    · exact State.run_live _ live
    · exact State.run_live _ live
    · exact State.run_live _ live
  refine ⟨fun typ kind first => ⟨fun epoch before near => ?_, fun still out => ?_, fun epoch next => ⟨?_, ?_, ?_, ?_, ?_⟩⟩, fun first epoch next some_ => ?_,
    fun first => ⟨fun other => ?_, fun epoch => ?_⟩⟩
  · -- a request that was performed before
    exact ⟨_, run kind, Pkg.fabTake_repeated alone home first epoch before near⟩
  · -- a request of another epoch or out of order
    obtain ⟨k, dropped⟩ := Pkg.fabTake_discarded alone home first joined still out
    exact ⟨k, (run kind).trans (by rw [dropped]; rfl)⟩
  · -- FAB_RD outside the window
    rintro rfl some_ out
    obtain ⟨⟨exp, kept, told⟩, drs, mem⟩ := Pkg.fabRd_outside alone home joined epoch next first some_ out
    exact ⟨_, run kind, exp, kept, told, drs, mem⟩
  · -- FAB_RD
    rintro rfl some_ inside clean
    obtain ⟨⟨exp, kept, told⟩, drs, mem⟩ := Pkg.fabRd_inside alone home joined epoch next first some_ inside clean
    exact ⟨_, run kind, exp, kept, told, drs, mem⟩
  · -- FAB_WR
    rintro rfl inside line - merge l2 l3 loc clean
    exact ⟨_, run kind, Pkg.fabWr_does alone home joined epoch next untracked first inside line ⟨merge, l2, l3⟩ loc clean⟩
  · -- FAB_ATOM
    rintro rfl some_ inside clean w whole
    obtain ⟨fl, ⟨exp, kept, told⟩, drs⟩ := Pkg.fabAtom_does alone home joined epoch next untracked first some_ inside clean rfl whole
    exact ⟨_, _, run kind, exp, kept, rfl, rfl, rfl, told, drs⟩
  · -- FAB_FLUSH
    rintro rfl
    exact ⟨_, run kind, Pkg.fabFlush_does alone home joined epoch next first⟩
  · -- FAB_MSG
    intro r m full st
    obtain ⟨⟨exp, kept, told⟩, tail⟩ := Pkg.fabMsg_does (st := st) alone home joined epoch next untracked first some_ (by
      by_cases off : s.pkg.rb r 0 = false
      · exact Or.inl ⟨off, if_pos off⟩
      · by_cases noRoom : full
        · exact Or.inr (Or.inl ⟨Bool.eq_true_of_not_eq_false off, noRoom, (if_neg off).trans (if_pos noRoom)⟩)
        · exact Or.inr (Or.inr ⟨Bool.eq_true_of_not_eq_false off, noRoom, (if_neg off).trans (if_neg noRoom)⟩))
    exact ⟨_, State.run_live _ live, exp, kept, tail, told⟩
  · -- FAB_RELEASE of another epoch
    exact State.run_to live (Pkg.fabRelease_other home first other)
  · -- FAB_RELEASE
    exact State.run_to live (Pkg.fabRelease_frees home first epoch)

end
end Sys2Proof.Machine
end
